-- ==== Sys2Proof/Word.lean ====
section
/-! DEFINITION. The words of the device: bytes, addresses, and the plainest arithmetic on them (R1, R2). -/

namespace Sys2Proof

/-- One byte of an in-memory structure. -/
abbrev Byte := BitVec 8

/-- A device address: 48 bits (R28). -/
abbrev Addr := BitVec 48

/-- A 32-bit register or memory word (R4). -/
abbrev W32 := BitVec 32

/-- A 64-bit register or memory word. -/
abbrev W64 := BitVec 64

/-- `BitVec` of a `Bool`, as a number. -/
def b2n (b : Bool) : Nat := if b then 1 else 0

end Sys2Proof
end

