-- ==== Sys2Proof/Syntax.lean ====
section
/-! DEFINITION. The commands of the block: one constructor per row of spec/opcode_table.json, in the table's order.
A command's operands are what its rule needs from outside the state: which unit it concerns, the value written,
and, where the event reports something the device only observes (a sensor, a bitstream, a completion from the
link, a flash acknowledgement), what was observed. -/

namespace Sys2Proof

/-- The fields of a 64-bit Nyngeaz word other than OP (R189). The constructor of `Instr` stands for OP. -/
structure Insn where
  D : BitVec 5
  A : BitVec 5
  B : BitVec 5
  C : BitVec 5
  PG : BitVec 3
  PN : Bool
  X : BitVec 32
  deriving DecidableEq, Repr

/-- The fields of the four words of a tensor instruction other than OP (R211, R212, R235). -/
structure TensorInsn where
  TX : BitVec 4
  TY : BitVec 4
  TD : BitVec 4
  TE : BitVec 4
  TM : BitVec 4
  PG : BitVec 3
  PN : Bool
  PLAN : BitVec 16
  TAG_BASE : BitVec 16
  FX : BitVec 4
  FY : BitVec 4
  FD : BitVec 4
  SHAPE : BitVec 2
  CX : Bool
  CD : Bool
  GATHER : Bool
  GS : BitVec 2
  CHK : Bool
  MASK : BitVec 2
  COPY : Bool
  BIAS : Bool
  ACT : BitVec 2
  /-- Bits [37:36] of word 1, which must be 0. -/
  Z1a : BitVec 2
  MSRC : BitVec 6
  NSRC : BitVec 6
  KSRC : BitVec 6
  BSRC : BitVec 6
  /-- Bits [11:0] of word 1, which must be 0. -/
  Z1b : BitVec 12
  SX : BitVec 20
  SY : BitVec 20
  SD : BitVec 20
  /-- Bits [3:0] of word 2, which must be 0. -/
  Z2 : BitVec 4
  /-- Word 3: CAUSAL and OFFSET (R212), or the window fields (R235). -/
  W3 : BitVec 64
  deriving DecidableEq, Repr

/-- The trap causes of R204. -/
inductive TrapCause where
  | illegal | fetchRange | addrRange | misaligned | poisonLoad | semTimeout | dmaWaitTimeout
  | dmaChannel | badPost | semRange | semOverflow | brk | boundOverPlan | tensorRange
  | ckptFault | scaleSyncFault | checksumFault | poisonOperand | stopShed
  deriving DecidableEq, Repr

/-- A doorbell write as the HIF receives it (R336): the value of its first DW, whether all byte enables of that DW
are set, and how many DWs the TLP carries. -/
structure DbWrite where
  value : BitVec 32
  beFull : Bool
  dws : Nat
  deriving DecidableEq, Repr

/-- A BAR with registers (R331): the register space, or doorbells and the MSI-X tables. -/
inductive RegBar where
  | bar0
  | bar4
  deriving DecidableEq, Repr

/-- A register address of an inbound TLP: the BAR and the offset in it. -/
structure RegAddr where
  bar : RegBar
  off : BitVec 25
  deriving DecidableEq, Repr

/-- What came back for an outbound read (R347, R349): data, data with EP set, an error status, or nothing in time. -/
inductive HostRead where
  | data (bytes : List Byte)
  | poisoned
  | errorStatus
  | timeout
  deriving DecidableEq, Repr

/-- The status of a completion received from the link (R347). -/
inductive CplStatus where
  | success | unsupported | abort | retry
  deriving DecidableEq, Repr

/-- A decode position (R67). -/
structure AuPos where
  offset : BitVec 32
  slice : BitVec 16
  block : BitVec 32
  deriving DecidableEq, Repr

/-- Where decode of an access unit stopped, and whether the unit is a random access point. -/
structure AuStop where
  pos : AuPos
  rap : Bool
  deriving DecidableEq, Repr

/-- The sizes of an encoded frame's parts: bytes of slice or entropy-coded data, and of each parameter set. -/
structure CodedSizes where
  bytes : Nat
  params : List Nat
  deriving DecidableEq, Repr

/-- A prediction block that overlaps a 16 x 16 map block (R69): its motion vectors, whether they are in eighth-pel units
(AV1), and whether the block is intra-coded or PCM. -/
structure PredBlock where
  vectors : List (Int × Int)
  eighth : Bool
  intra : Bool
  deriving DecidableEq, Repr

/-- A luma transform block that overlaps a 16 x 16 map block (R69): its area in pixels, its dequantised coefficients, and
its residual samples where the transform is skipped. -/
structure TransBlock where
  area : Nat
  skip : Bool
  coeffs : List Int
  residuals : List Int
  deriving DecidableEq, Repr

/-- What overlaps one 16 x 16 map block (R69). -/
structure MapBlock where
  preds : List PredBlock
  trans : List TransBlock
  deriving DecidableEq, Repr

/-- What decoding one access unit showed (R52, R53, R62, R64, R69). The frames kept as references afterwards are named by
their buffers; `selfRef` says whether the new frame is one of them, `rasl` whether the picture is a RASL picture of the
last random access point. `cycles` is the decode time in v-cycles from dispatch (R428). -/
structure DecodeResult where
  width : BitVec 16
  height : BitVec 16
  rap : Bool
  rasl : Bool
  grain : Bool
  bitDepth10 : Bool
  cycles : Nat
  refs : List Addr
  selfRef : Bool
  blocks : List MapBlock
  /-- The range and colour description that a random access unit's parameter sets signal (R111): full range in bit 24, then
  primaries, transfer and matrix. -/
  colour : BitVec 25 := 0x020202
  deriving DecidableEq, Repr

/-- Why decoding of an access unit stopped: DETAIL 1 to 5 of R76 (R65). -/
inductive DecodeFault where
  | badSyntax | missingRef | outOfRange | truncated | poisoned
  | unsupported | tooLarge (width height : BitVec 16)
  deriving DecidableEq, Repr

/-- The kinds of host operation on a buffer pointer (R286). -/
inductive BpmOp where
  | free | hold | release
  deriving DecidableEq, Repr

/-- Where an operation on a buffer pointer comes from: a unit of the device, or the queue of host operations (R286). -/
inductive BpmSrc where
  | unit (ptr : Addr)
  | hostQueue
  deriving DecidableEq, Repr

/-- The arbitrated resources of R266. -/
inductive ArbRes where
  | bagBank (c : Fin 4) (bank : Fin 48)
  | dramPort (ch : Fin 16)
  | hostDma
  deriving DecidableEq, Repr

/-- A request present at an arbiter decision (R266 to R268): requester index, class where the transfer carries it, the cycle
in which the transfer first became ready, the cycle in which it was first presented, and its length in beats. -/
structure ArbReq where
  idx : Nat
  cls : Fin 8
  ready : Nat
  first : Nat
  beats : Nat
  deriving DecidableEq, Repr

/-- An on-chip memory bank with a scrubber (R251, R255, R260). -/
inductive MemBank where
  | core (n : Fin 16) (bank : Fin 64)
  | bag (c : Fin 4) (bank : Fin 48)
  deriving DecidableEq, Repr

/-- How a pre-emption request reached a core (R145, R147). -/
inductive StopSource where
  | chanter | power
  deriving DecidableEq, Repr

/-- Mode registers of a channel's dies (R316, R321): manufacturer, revision and density, and the activations of a bank after
which refresh management is due, 0 where it is not required. -/
structure ModeRegs where
  mfr : BitVec 8
  rev : BitVec 8
  density : BitVec 8
  rfmAt : Nat
  deriving DecidableEq, Repr

/-- What training showed on one channel (R315 to R318): verify passed on the restored record; full training passed,
or failed in a step 1 to 8. -/
structure ChannelTrain where
  verifyOk : Bool
  failStep : BitVec 4
  deriving DecidableEq, Repr

/-- The link-layer errors of R356. -/
inductive LinkError where
  | receiver | badTlp | badDllp | replayTimeout | replayRollover
  | malformedTlp | fcProtocol | receiverOverflow | dlProtocol
  deriving DecidableEq, Repr

/-- Management-ring commands: those that the MC posts at stage 4 (R11, R375), and the withdrawal of an undispatched job of a
ring (R178). -/
inductive MgmtCmd where
  | suspend | resume
  | withdraw (ring : Fin 31) (tag : BitVec 32)
  deriving DecidableEq, Repr

/-- A mode-affecting input pin level. -/
abbrev Level := Bool

inductive Instr where
  /-- Scalar instruction that does nothing (R192). -/
  | nop (n : Fin 16) (w : Insn)
  /-- Adds two s-registers into sD, wrapping modulo 2^64 (R192). -/
  | add (n : Fin 16) (w : Insn)
  /-- Subtracts sB from sA into sD (R192). -/
  | sub (n : Fin 16) (w : Insn)
  /-- Bitwise AND of two s-registers (R192). -/
  | and (n : Fin 16) (w : Insn)
  /-- Bitwise OR of two s-registers (R192). -/
  | or (n : Fin 16) (w : Insn)
  /-- Bitwise XOR of two s-registers (R192). -/
  | xor (n : Fin 16) (w : Insn)
  /-- Shifts sA left by sB[5:0] (R192). -/
  | shl (n : Fin 16) (w : Insn)
  /-- Shifts sA right logically by sB[5:0] (R192). -/
  | shr (n : Fin 16) (w : Insn)
  /-- Shifts sA right arithmetically by sB[5:0] (R192). -/
  | sra (n : Fin 16) (w : Insn)
  /-- Writes the low 64 bits of sA times sB (R192). -/
  | mul (n : Fin 16) (w : Insn)
  /-- Writes the high 64 bits of the signed 128-bit product (R192). -/
  | mulh (n : Fin 16) (w : Insn)
  /-- Signed minimum of two s-registers (R192). -/
  | min (n : Fin 16) (w : Insn)
  /-- Signed maximum of two s-registers (R192). -/
  | max (n : Fin 16) (w : Insn)
  /-- Unsigned minimum of two s-registers (R192). -/
  | minu (n : Fin 16) (w : Insn)
  /-- Unsigned maximum of two s-registers (R192). -/
  | maxu (n : Fin 16) (w : Insn)
  /-- Selects sA or sB by bit 0 of a predicate (R192). -/
  | sel (n : Fin 16) (w : Insn)
  /-- Compares two s-registers under a condition code into all bits of a predicate (R192). -/
  | cmp (n : Fin 16) (w : Insn)
  /-- Adds a signed immediate to sA (R192). -/
  | addi (n : Fin 16) (w : Insn)
  /-- ANDs sA with an immediate (R192). -/
  | andi (n : Fin 16) (w : Insn)
  /-- ORs sA with an immediate (R192). -/
  | ori (n : Fin 16) (w : Insn)
  /-- XORs sA with an immediate (R192). -/
  | xori (n : Fin 16) (w : Insn)
  /-- Shifts sA left by an immediate amount (R192). -/
  | shli (n : Fin 16) (w : Insn)
  /-- Shifts sA right logically by an immediate amount (R192). -/
  | shri (n : Fin 16) (w : Insn)
  /-- Shifts sA right arithmetically by an immediate amount (R192). -/
  | srai (n : Fin 16) (w : Insn)
  /-- Places the immediate in the high half of sD, keeping the low half of sA (R192). -/
  | movhi (n : Fin 16) (w : Insn)
  /-- Compares sA with an immediate into a predicate (R192). -/
  | cmpi (n : Fin 16) (w : Insn)
  /-- ANDs two predicate registers (R192). -/
  | pand (n : Fin 16) (w : Insn)
  /-- ORs two predicate registers (R192). -/
  | por (n : Fin 16) (w : Insn)
  /-- Inverts a predicate register (R192). -/
  | pnot (n : Fin 16) (w : Insn)
  /-- Adds sB[47:0] to an address register (R192). -/
  | adda (n : Fin 16) (w : Insn)
  /-- Adds an immediate to an address register (R192). -/
  | addai (n : Fin 16) (w : Insn)
  /-- Moves sA[47:0] into an address register (R192). -/
  | mova (n : Fin 16) (w : Insn)
  /-- Moves an address register, zero-extended, into sD (R192). -/
  | movs (n : Fin 16) (w : Insn)
  /-- Sets a bound register from sA[31:0] (R192). -/
  | setb (n : Fin 16) (w : Insn)
  /-- Sets a bound register from an unsigned immediate (R192). -/
  | setbi (n : Fin 16) (w : Insn)
  /-- Reads a bound register into sD (R192). -/
  | getb (n : Fin 16) (w : Insn)
  /-- Reads the special value selected by X into sD (R187). -/
  | rdsr (n : Fin 16) (w : Insn)
  /-- Loads a sign-extended byte from core memory or bag (R194). -/
  | ldB (n : Fin 16) (w : Insn)
  /-- Loads a zero-extended byte (R194). -/
  | ldBu (n : Fin 16) (w : Insn)
  /-- Loads a sign-extended halfword (R194). -/
  | ldH (n : Fin 16) (w : Insn)
  /-- Loads a zero-extended halfword (R194). -/
  | ldHu (n : Fin 16) (w : Insn)
  /-- Loads a sign-extended word (R194). -/
  | ldW (n : Fin 16) (w : Insn)
  /-- Loads a zero-extended word (R194). -/
  | ldWu (n : Fin 16) (w : Insn)
  /-- Loads a doubleword (R194). -/
  | ldD (n : Fin 16) (w : Insn)
  /-- Stores the low byte of sD (R194). -/
  | stB (n : Fin 16) (w : Insn)
  /-- Stores the low halfword of sD (R194). -/
  | stH (n : Fin 16) (w : Insn)
  /-- Stores the low word of sD (R194). -/
  | stW (n : Fin 16) (w : Insn)
  /-- Stores the doubleword sD (R194). -/
  | stD (n : Fin 16) (w : Insn)
  /-- Loads 4 bytes into a bound register (R192). -/
  | ldb (n : Fin 16) (w : Insn)
  /-- Loads 64 B into a t-register, stalling while a tensor instruction uses it (R217). -/
  | tld (n : Fin 16) (w : Insn)
  /-- Stores a t-register to 64 B of memory (R192). -/
  | tst (n : Fin 16) (w : Insn)
  /-- Branches by a signed instruction-word offset (R192). -/
  | br (n : Fin 16) (w : Insn)
  /-- Saves the return address in sD and branches (R192). -/
  | jal (n : Fin 16) (w : Insn)
  /-- Jumps to the address in sA (R192). -/
  | jr (n : Fin 16) (w : Insn)
  /-- Fences all four scopes and then completes the job (R178). -/
  | endJob (n : Fin 16) (w : Insn)
  /-- Traps with cause BREAK (R192). -/
  | brk (n : Fin 16) (w : Insn)
  /-- Adds two vector registers per guarded lane (R195). -/
  | vadd (n : Fin 16) (w : Insn)
  /-- Subtracts two vector registers per guarded lane (R195). -/
  | vsub (n : Fin 16) (w : Insn)
  /-- Multiplies two vector registers per guarded lane (R195). -/
  | vmul (n : Fin 16) (w : Insn)
  /-- Fused multiply-add of three vector registers (R195). -/
  | vmad (n : Fin 16) (w : Insn)
  /-- Lane-wise minimum (R195). -/
  | vmin (n : Fin 16) (w : Insn)
  /-- Lane-wise maximum (R195). -/
  | vmax (n : Fin 16) (w : Insn)
  /-- Lane-wise bitwise AND (R195). -/
  | vand (n : Fin 16) (w : Insn)
  /-- Lane-wise bitwise OR (R195). -/
  | vor (n : Fin 16) (w : Insn)
  /-- Lane-wise bitwise XOR (R195). -/
  | vxor (n : Fin 16) (w : Insn)
  /-- Lane-wise shift left (R195). -/
  | vshl (n : Fin 16) (w : Insn)
  /-- Lane-wise logical or arithmetic shift right (R195). -/
  | vshr (n : Fin 16) (w : Insn)
  /-- Lane-wise comparison into a predicate (R195). -/
  | vcmp (n : Fin 16) (w : Insn)
  /-- Lane-wise select under a predicate (R195). -/
  | vsel (n : Fin 16) (w : Insn)
  /-- Broadcasts sA[31:0] to every guarded lane (R195). -/
  | vbcast (n : Fin 16) (w : Insn)
  /-- Extracts one lane into an s-register (R195). -/
  | vext (n : Fin 16) (w : Insn)
  /-- Inserts a scalar into one lane (R195). -/
  | vins (n : Fin 16) (w : Insn)
  /-- Converts lanes under the selected conversion code (R196). -/
  | vcvt (n : Fin 16) (w : Insn)
  /-- Reduces a vector by fixed-tree sum, minimum or maximum into sD (R196). -/
  | vred (n : Fin 16) (w : Insn)
  /-- Writes each lane's index (R195). -/
  | viota (n : Fin 16) (w : Insn)
  /-- Permutes lanes by an index vector (R195). -/
  | vperm (n : Fin 16) (w : Insn)
  /-- Loads 512 B into a vector register (R195). -/
  | vld (n : Fin 16) (w : Insn)
  /-- Stores a vector register to 512 B (R195). -/
  | vst (n : Fin 16) (w : Insn)
  /-- Gathers one word per lane by index (R195). -/
  | vldx (n : Fin 16) (w : Insn)
  /-- Scatters one word per lane by index, highest lane winning (R195). -/
  | vstx (n : Fin 16) (w : Insn)
  /-- Sorts keys with their source lane indices (R197). -/
  | vsort (n : Fin 16) (w : Insn)
  /-- Writes the first k keys of the sorted order with indices (R197). -/
  | vtopk (n : Fin 16) (w : Insn)
  /-- Writes the smallest guarded key and its lane into sD (R197). -/
  | vmins (n : Fin 16) (w : Insn)
  /-- Computes one detection's cost row against up to 128 track boxes (R197). -/
  | vcost (n : Fin 16) (w : Insn)
  /-- Queues a descriptor chain on a channel after an implicit FENCE MEM (R198). -/
  | dmaq (n : Fin 16) (w : Insn)
  /-- Begins waiting until a channel's completion count reaches sA (R198). -/
  | dmaw (n : Fin 16) (w : Insn)
  /-- Begins waiting on the selected ordering scopes (R200). -/
  | fence (n : Fin 16) (w : Insn)
  /-- Adds n to a cluster semaphore (R198). -/
  | semsig (n : Fin 16) (w : Insn)
  /-- Queues a wait for n from a cluster semaphore (R198). -/
  | semwait (n : Fin 16) (w : Insn)
  /-- Takes n from a semaphore without waiting, setting a predicate on success (R202). -/
  | semtry (n : Fin 16) (w : Insn)
  /-- Posts 1 to 16 records to a metadata queue (R199). -/
  | post (n : Fin 16) (w : Insn)
  /-- Issues a matrix multiply tensor instruction after the issue checks (R213). -/
  | tmm (n : Fin 16) (w : TensorInsn)
  /-- Issues a backward-data tensor instruction (R221). -/
  | tbd (n : Fin 16) (w : TensorInsn)
  /-- Issues a weight-gradient tensor instruction (R213). -/
  | twg (n : Fin 16) (w : TensorInsn)
  /-- Issues an attention-score tensor instruction with optional causal masking (R229). -/
  | tqk (n : Fin 16) (w : TensorInsn)
  /-- Issues an attention-output tensor instruction (R213). -/
  | tpv (n : Fin 16) (w : TensorInsn)
  /-- Issues a convolution window operator (R234). -/
  | tconv (n : Fin 16) (w : TensorInsn)
  /-- Issues a depthwise convolution window operator (R244). -/
  | tdw (n : Fin 16) (w : TensorInsn)
  /-- Issues a pooling window operator on the reducer (R245). -/
  | tpool (n : Fin 16) (w : TensorInsn)
  /-- Issues an up-scaling resize window operator on the reducer (R246). -/
  | trsz (n : Fin 16) (w : TensorInsn)
  /-- A queued semaphore wait is served in arrival order (R202). -/
  | semwaitGrant (c : Fin 4) (k : Fin 64)
  /-- A SEMWAIT exceeds CLU_SEM_TIMEOUT and traps (R203). -/
  | semTimeout (n : Fin 16)
  /-- A waiting DMAW finds the channel count reached (R198). -/
  | dmawSatisfied (n : Fin 16)
  /-- A DMAW exceeds CLU_SEM_TIMEOUT and traps (R203). -/
  | dmaWaitTimeout (n : Fin 16)
  /-- Every awaited scope of a FENCE is satisfied and the core continues (R200). -/
  | fenceDone (n : Fin 16)
  /-- The writer has read every record of a POST, which retires (R199). -/
  | postRetire (n : Fin 16)
  /-- A trap stops issue, discards the tensor queue and writes the trap record (R205). -/
  | trap (n : Fin 16) (cause : TrapCause) (insn : BitVec 64) (addr : Addr) (detail : BitVec 32)
  /-- The trapped job's DMA chains and posts have completed and its failure entry is written (R178). -/
  | trapDrainDone (n : Fin 16)
  /-- The sequencer starts the next queued tensor instruction, reading masks and ramping as needed (R130). -/
  | tensorStart (n : Fin 16)
  /-- A reduction step enters the stagger chain and is performed row by row (R127). -/
  | reductionStep (n : Fin 16)
  /-- A group bank is scaled into the main accumulator, with tag and checksum comparisons (R162). -/
  | groupClose (n : Fin 16)
  /-- An epilogue unit delivers one latched row to its destination (R126). -/
  | epilogueRow (n : Fin 16) (arr : Fin 2)
  /-- A skipped tile's bytes are copied from the history tensor (R228). -/
  | tileCopy (n : Fin 16)
  /-- The instruction's last row or copy is delivered (R127). -/
  | tensorDone (n : Fin 16)
  /-- The window reducer computes one TPOOL or TRSZ tile (R247). -/
  | reducerTile (n : Fin 16)
  /-- After GATE_IDLE idle c-cycles the arrays ramp down and gate (R133). -/
  | arrayGateIdle (n : Fin 16)
  /-- A pre-emption request stops new steps and starts the drain (R145). -/
  | arrayPreemptRequest (n : Fin 16) (src : StopSource)
  /-- After the drain the core writes its checkpoint area (R151). -/
  | checkpointWrite (n : Fin 16) (portRefused : Bool)
  /-- The core reads a checkpoint back and resumes the stored instruction (R148). -/
  | checkpointRestore (n : Fin 16)
  /-- A job-ring producer count is accepted, ignored or discarded (R74). -/
  | jobRingDoorbell (r : Fin 31) (d : DbWrite)
  /-- A completion-ring consumer count is accepted, ignored or discarded (R74). -/
  | completionRingDoorbell (r : Fin 31) (d : DbWrite)
  /-- A metadata-queue head count is accepted, ignored or discarded (R74). -/
  | mqHeadDoorbell (m : Fin 16) (d : DbWrite)
  /-- The job-ring engine fetches a descriptor, or writes FETCH_ERROR (R71). -/
  | jobDescriptorFetch (r : Fin 31) (got : HostRead)
  /-- A job is dispatched to each selected usable core with its initial state (R177). -/
  | jobDispatch (c : Fin 4)
  /-- The cluster loader checks a Deckan image and rejects it on the first failure (R184). -/
  | imageCheck (c : Fin 4)
  /-- An image's sections are copied and it becomes resident (R185). -/
  | imageCopyDone (c : Fin 4)
  /-- Evicts every idle resident image of the cluster (R209). -/
  | cluLdrFlush (c : Fin 4)
  /-- All writes of a job are performed and its completion becomes visible (R22). -/
  | jobComplete (n : Fin 16)
  /-- A completion entry is written when the completion ring has room (R72). -/
  | completionEntryWrite (r : Fin 31)
  /-- Disabling a job ring cancels undispatched jobs with CANCELLED (R178). -/
  | jobRingDisable (r : Fin 31)
  /-- The writer places a record in its queue with PHASE when there is room (R77). -/
  | metadataRecordWrite (m : Fin 16)
  /-- The completion-ring interrupt time threshold expires and raises the vector (R78). -/
  | crTimeThrExpiry (r : Fin 31)
  /-- The metadata-queue interrupt time threshold expires and raises the vector (R78). -/
  | mqTimeThrExpiry (m : Fin 16)
  /-- A stream's chunk producer count is accepted, ignored or overruns (R51). -/
  | chunkDoorbell (s : Fin 1024) (d : DbWrite)
  /-- A context-invalidate doorbell is queued or discarded (R46). -/
  | contextInvalidate (d : DbWrite)
  /-- An invalidate drops the cached entry, closes or changes the stream, and is acknowledged (R47). -/
  | invalidateApply
  /-- Setting VID_CTX_CFG.ENABLE lets recorded chunk doorbells be acted on (R51). -/
  | vidCtxEnable (cfg : BitVec 32)
  /-- A stream context entry is read into the cache, with eviction and CTX_ERROR checks (R68). -/
  | contextFetch (s : Fin 1024)
  /-- An idle decoder takes the head stream of the live or other ready list (R58). -/
  | decoderDispatch (k : Fin 12)
  /-- An access unit decodes without concealment at a frame boundary (R62). -/
  | frameOk (k : Fin 12) (r : DecodeResult)
  /-- An error stops decode and the frame is concealed or dropped (R65): the error, where the access unit stopped, and the
  decode time in v-cycles from dispatch (R428). -/
  | decodeError (k : Fin 12) (why : DecodeFault) (stop : AuStop) (cycles : Nat)
  /-- The access unit's budget runs out and it is abandoned where it stopped (R63). -/
  | budgetExpiry (k : Fin 12) (stop : AuStop)
  /-- The copy of LAST_GOOD ends and the DEC record is written (R65): the reference frames that the codec keeps, and whether
  the concealed frame is one in place of the lost one. -/
  | concealDone (k : Fin 12) (refs : List Addr) (selfRef : Bool)
  /-- Clearing VD_CTL.EN lets the decoder finish and removes it from D (R79). -/
  | vdDisable (k : Fin 12)
  /-- An idle shaper takes an offered frame and reserves a batch slot (R81). -/
  | shaperTakeFrame (k : Fin 8)
  /-- A sample's tensor and gate map are written, or it ends corrupt (R91). -/
  | shaperSampleDone (k : Fin 8)
  /-- Clearing SH_CTL.EN lets the current sample finish (R104). -/
  | shDisable (k : Fin 8)
  /-- BQ_TIMEOUT expires after the first reservation and the batch closes (R94). -/
  | batchTimeout (c : Fin 4) (q : Fin 4)
  /-- Unreserved slots are filled and the batch may become ready (R95). -/
  | batchFillDone (c : Fin 4) (q : Fin 4)
  /-- The cluster's drain completes and a batch boundary is reached (R24). -/
  | batchBoundary (c : Fin 4)
  /-- A write of BQ EN = 1 is accepted or refused (R106). -/
  | bqEnable (c : Fin 4) (q : Fin 4) (cfg : BitVec 32)
  /-- Clearing BQ EN closes the open batch with padding (R106). -/
  | bqDisable (c : Fin 4) (q : Fin 4)
  /-- A write of the encode request producer count adds requests (R109). -/
  | veReqProd (prod : BitVec 32)
  /-- A request is accepted when fewer than 64 are active and takes frame holds (R110). -/
  | encodeRequestAccept
  /-- An idle encoder takes the next ready frame of the oldest request (R115). -/
  | encodeFrameStart (k : Fin 4)
  /-- A frame is encoded, with parts of these sizes, and rate control is updated (R114). -/
  | encodeFrameDone (k : Fin 4) (sizes : CodedSizes)
  /-- WAIT_MS passes with no requested frame and the request ends TIMEOUT (R110). -/
  | encodeWaitTimeout (slot : Nat)
  /-- OUT_POOL fails to supply a buffer within VE_OUT_WAIT (R116). -/
  | noBuffer (k : Fin 4)
  /-- Clearing VE_CTL.EN lets the current frame finish (R120). -/
  | veDisable (k : Fin 4)
  /-- A unit allocates a buffer from a pool's ready list, or waits (R282). -/
  | bpmAlloc (p : Fin 8) (live : Bool)
  /-- The BPM refills a ready list from the lowest bitmap line with a free bit (R281). -/
  | readyListRefill (p : Fin 8)
  /-- A free returns or releases a buffer after the pointer checks (R284). -/
  | bpmFree (src : BpmSrc)
  /-- A hold adds one to a buffer's hold count (R284). -/
  | bpmHold (src : BpmSrc)
  /-- A release subtracts a hold and frees the buffer at 0 (R284). -/
  | bpmRelease (src : BpmSrc)
  /-- A host write to BPM_FREE, BPM_HOLD or BPM_RELEASE is queued or dropped (R286). -/
  | bpmHostOpWrite (op : BpmOp) (ptr : Addr)
  /-- A host read allocates one non-live buffer or returns 0 (R282). -/
  | bpmPoolAlloc (p : Fin 8)
  /-- A host read allocates one live buffer or returns 0 (R287). -/
  | bpmPoolAllocLive (p : Fin 8)
  /-- A write of EN = 1 is checked and starts the bitmap initialisation (R279). -/
  | bpmPoolEnable (p : Fin 8) (cfg : BitVec 32)
  /-- The pool bitmap is written all free and INIT_DONE is set (R280). -/
  | bitmapInitDone (p : Fin 8)
  /-- A write of EN = 0 is refused unless every buffer is free (R280). -/
  | bpmPoolDisable (p : Fin 8)
  /-- A host write queues a chain on a channel or is dropped (R288). -/
  | dmaChQueue (k : Fin 64) (addr : BitVec 64)
  /-- An idle channel starts its next queued chain (R288). -/
  | dmaChainStart (k : Fin 64)
  /-- A channel fetches a descriptor, or ends the chain on a failed fetch (R296). -/
  | dmaDescriptorFetch (k : Fin 64) (got : HostRead)
  /-- An ALLOC_DST allocation is granted before the first write (R291). -/
  | dmaAllocDst (k : Fin 64)
  /-- ALLOC_DST waits DMA_ALLOC_WAIT and the descriptor fails POOL (R296). -/
  | dmaAllocTimeout (k : Fin 64)
  /-- Earlier writes of the channel are performed and a WAIT_PREV read starts (R291). -/
  | dmaWaitPrevDone (k : Fin 64)
  /-- After its last write a descriptor's STATUS is written and FREE_SRC is done (R293). -/
  | dmaDescriptorDone (k : Fin 64)
  /-- The flush read of an ARRIVE descriptor or FENCE DMA completes (R295). -/
  | dmaArriveFlush (k : Fin 64)
  /-- A chain's last STATUS leaves the engine, COUNT increments and IRQ is raised (R294). -/
  | dmaChainComplete (k : Fin 64)
  /-- ABORT stops the channel and counts its chains complete (R297). -/
  | dmaAbort (k : Fin 64) (linesIssued : Nat)
  /-- Clearing DMA_CH_CFG.EN pauses the channel after its descriptor (R297). -/
  | dmaChPause (k : Fin 64)
  /-- Setting DMA_CH_CFG.EN resumes the current chain (R297). -/
  | dmaChResume (k : Fin 64)
  /-- A timer pacing event starts a queued chain or is counted missed (R298). -/
  | paceEvent (k : Fin 64)
  /-- A host write adds chained pacing grants (R299). -/
  | paceGrant (k : Fin 64) (grants : BitVec 8)
  /-- A write of PACE is accepted or refused and logged (R299). -/
  | paceConfig (k : Fin 64) (cfg : BitVec 32)
  /-- An arbiter ranks the present requests and grants the winner (R268). -/
  | arbDecision (r : ArbRes) (cycle : Nat) (present : List ArbReq)
  /-- A losing requester's breath count expires and it presents again (R269). -/
  | arbBreathEnd (r : ArbRes) (idx : Nat)
  /-- A core-memory or bag bank scrubber reads one line (R260). -/
  | memScrub (b : MemBank)
  /-- A corrected word is written back in the bank's next idle cycle (R258). -/
  | eccCeWriteback (b : MemBank)
  /-- A channel scrubs one 256 B granule (R313). -/
  | dramScrub (ch : Fin 16)
  /-- A refresh interval falls due and refresh is issued or postponed (R321). -/
  | dramRefresh (ch : Fin 16) (waiting : Bool)
  /-- The controller polls MR4 and sets the refresh rate (R321). -/
  | mr4Poll (ch : Fin 16) (rate : BitVec 3) (aboveHighest : Bool)
  /-- An open row unused for PAGE_IDLE is closed (R314). -/
  | pageIdleClose (ch : Fin 16) (rank : Fin 2) (bank : Fin 16)
  /-- A channel idle for SR_IDLE enters self-refresh (R322). -/
  | selfRefreshEntry (ch : Fin 16)
  /-- A request wakes a channel from self-refresh (R322). -/
  | selfRefreshExit (ch : Fin 16)
  /-- Every RETRAIN_MS the channel reads its oscillator and adjusts delays (R319). -/
  | wckRetrainCheck (ch : Fin 16) (drifted : Bool)
  /-- Reset phase 4 restores or trains every channel and sets n (R317): what each channel showed, and its mode registers. -/
  | dramTraining (results : List ChannelTrain) (modes : List ModeRegs)
  /-- A new training record is written to flash in the background (R316). -/
  | trainingRecordWrite (ok : Bool)
  /-- Every mapped DRAM line is zeroed and READY is set (R320). -/
  | dramZeroDone
  /-- A BAR0 write to a register without its own row is performed or discarded (R332). The command also carries the writes
  to BAR4, for which the table has no row of its own (R335, R351). -/
  | bar0Write (reg : RegAddr) (value : BitVec 64) (dws : Nat) (beFull : Bool)
  /-- A BAR0 read TLP flushes earlier writes and completes within 1.5 µs (R334). The command also carries the reads of
  BAR4. -/
  | bar0Read (reg : RegAddr) (dws : Nat)
  /-- A block fails to answer within 1 µs and the read completes with 0 (R333). -/
  | lateReg (off : BitVec 25) (isWrite : Bool)
  /-- An inbound BAR2 write is translated by a window and performed or rejected (R345). -/
  | bar2Write (off : BitVec 36) (bytes : List Byte) (poisoned : Bool)
  /-- An inbound BAR2 read is translated and completed, or rejected (R345). -/
  | bar2Read (off : BitVec 36) (len : Nat)
  /-- Copies all window shadows to the active copies, or refuses the commit (R342). -/
  | hifWinCommit
  /-- A read of the expansion ROM window returns descriptor or firmware bytes (R338). -/
  | romRead (off : BitVec 20) (len : Nat)
  /-- A configuration request is answered, or retried before phase 2 ends (R330). -/
  | configRequest (off : BitVec 12) (write : Option (BitVec 32))
  /-- A completion for an outbound read is reassembled or ends the read (R347). -/
  | outboundCompletion (tag : BitVec 10) (st : CplStatus) (bytes : List Byte) (ep : Bool)
  /-- An outbound read times out, returns poison and quarantines its tag (R349). -/
  | cplTimeout (tag : BitVec 10)
  /-- A second timeout interval passes and the quarantined tag is freed (R349). -/
  | tagQuarantineEnd (tag : BitVec 10)
  /-- A pending unmasked vector sends one MSI-X message (R352). -/
  | msixMessage (v : Fin 2048)
  /-- After L1_IDLE of idleness the endpoint requests ASPM L1 (R354). -/
  | l1Entry
  /-- The endpoint leaves L1 to send a TLP or message (R354). -/
  | l1Exit
  /-- The PCI Express link trains up (R330). -/
  | linkUp (speed : BitVec 4) (width : BitVec 6)
  /-- The link goes down, outstanding reads are failed and a function reset follows (R350). -/
  | linkDown
  /-- FLR starts a function reset from phase 4 (R363). -/
  | functionLevelReset
  /-- A hot reset starts a function reset (R363). -/
  | hotReset
  /-- Entry to D3hot stops dispatch and lets jobs finish (R353). -/
  | d3hotEntry
  /-- Return to D0 performs a function reset (R353). -/
  | d3hotExit
  /-- VDD_AON below 0.70 V asserts the power-on reset (R361). -/
  | powerOnReset
  /-- The power-on reset is released 1 ms after VDD_AON and REF25_IN are good (R361). -/
  | powerOnResetRelease
  /-- REF25_IN stopping for over 5 µs asserts the power-on reset (R416). -/
  | ref25Loss
  /-- PERST_N low starts a fundamental reset (R363). -/
  | perstNAssert
  /-- PERST_N rising starts phase 1 of the reset sequence (R364). -/
  | perstNDeassert
  /-- Phase 1 ends with PLLs locked and fuses loaded (R364). -/
  | pllLock
  /-- Phase 2 reads and checks the board configuration (R427). -/
  | boardCfgRead
  /-- Phase 3 reads and verifies the firmware slots (R366). -/
  | fwVerify
  /-- The first-use window closes 10 ms after entering service (R39). -/
  | firstUseEnd
  /-- A block's signature is compared and the block marked failed if it differs (R387). -/
  | bistBlockDone (k : Fin 50) (signature : BitVec 64)
  /-- A block's signature is not ready within twice its time (R387). -/
  | bistTimeout (k : Fin 50)
  /-- A stage or temperature request ends the run at the next block boundary (R388). -/
  | bistAborted
  /-- Sensors are sampled every 100 µs and thermal actions requested (R373). -/
  | thermalSample (sensors : Vector (BitVec 8) 16)
  /-- Each 10 ms at or above 100 °C lowers the thermal limit by 50 MHz (R373). -/
  | thermalLimitStep
  /-- Tj at 110 °C stops clocks, drives THERM_TRIP_N and enters HALTED (R374). -/
  | thermalTrip
  /-- Every 100 µs power is estimated and the power limit adjusted (R371). -/
  | powerEstimateTick (est : BitVec 16)
  /-- The compute clock reaches its target and the voltage is lowered (R368). -/
  | clockSlewDone
  /-- The device writes a VDD_CORE target over AVSBus (R422). -/
  | avsWrite (acked : Bool)
  /-- Every 100 ms the failed AVSBus write is retried (R422). -/
  | avsRetry (acked : Bool)
  /-- An accepted PPS_IN edge disciplines the timestamp counter (R370). -/
  | ppsEdge
  /-- No PPS edge for 1.5 s sets PPS_LOST (R370). -/
  | ppsLost
  /-- A written time is applied at the next edge or within 1 µs (R370). -/
  | mcTsSet (value : BitVec 64)
  /-- PWR_WARN_N low requests stage 2 (R377). -/
  | pwrWarnNFall
  /-- PWR_WARN_N high withdraws its request (R377). -/
  | pwrWarnNRise
  /-- PWR_WARN_N low for 20 ms requests stage 4 (R377). -/
  | pwrWarnHold
  /-- VR_HOT_N changes its stage-3 request (R377). -/
  | vrHotNChange (level : Level)
  /-- SHED_REQ_N changes its SHEDREQ_STAGE request (R377). -/
  | shedReqNChange (level : Level)
  /-- VDD_CORE below target by DROOP1 or DROOP2 for 1 µs requests stage 3 or 5 (R377). -/
  | droopDetect (mv : BitVec 12)
  /-- A write of MC_SHED_CTL.FORCE_STAGE requests a stage (R383). -/
  | forceStage (ctl : BitVec 32)
  /-- A management-ring command suspends or resumes non-live streams (R11). -/
  | mgmtRingSuspend (cmd : MgmtCmd)
  /-- After EXIT_HOLD the controller steps down one stage (R377). -/
  | exitHoldExpiry
  /-- A supply below the drone-mode floor for 2 µs halts the device (R378). -/
  | orderlyHalt (vddCoreMv : BitVec 12) (vddVidMv : BitVec 12)
  /-- An entry is written to the log, overwriting or discarding when full (R396). -/
  | errorLogEntry
  /-- A log queue with room again writes one QUEUE_LOSS entry (R395). -/
  | queueLoss (plane : Fin 3)
  /-- A host write advances LOG_ACK if within range (R396). -/
  | logAck (value : BitVec 32)
  /-- SMBus command 0x00 returns GLB_SVC_STATE[15:0] (R398). -/
  | smbReadState
  /-- SMBus command 0x01 returns MC_THERM.TJ (R398). -/
  | smbReadTj
  /-- SMBus command 0x02 Read Byte returns MC_ALERT_STAT (R398). -/
  | smbReadAlert
  /-- SMBus command 0x02 Write Byte clears MC_ALERT_STAT bits (R398). -/
  | smbClearAlert (value : BitVec 8) (pecOk : Bool)
  /-- SMBus command 0x10 returns the log entry at the cursor and advances it (R398). -/
  | smbLogRead
  /-- SMBus command 0x11 sets the log cursor (R398). -/
  | smbSetCursor (value : BitVec 16) (pecOk : Bool)
  /-- SMBus command 0x20 reads a Global and MC register (R398). -/
  | smbRegRead (off : BitVec 32) (pecOk : Bool)
  /-- SMBus command 0x21 writes a register in the allowed range (R424). -/
  | smbRegWrite (off : BitVec 32) (value : BitVec 32) (pecOk : Bool)
  /-- SMB_CLK held low for t_TIMEOUT abandons the transaction (R423). -/
  | smbTimeout
  /-- TAP instruction that selects the bypass register (R420). -/
  | bypass
  /-- TAP instruction that shifts out the IDCODE (R420). -/
  | idcode
  /-- TAP instruction that samples and preloads boundary cells (R420). -/
  | samplePreload (sampled : List Bool) (preload : List Bool)
  /-- TAP instruction that drives outputs from boundary cells while PERST_N is low (R421). -/
  | extest
  /-- IEEE 1149.6 pulse test instruction, effective only while PERST_N is low (R421). -/
  | extestPulse
  /-- IEEE 1149.6 train test instruction, effective only while PERST_N is low (R421). -/
  | extestTrain
  /-- TAP instruction that clamps outputs while PERST_N is low (R421). -/
  | clamp
  /-- TAP instruction that floats outputs while PERST_N is low (R421). -/
  | highz
  /-- TRST_N low or the power-on reset resets the TAP (R420). -/
  | tapReset
  /-- Clearing CORE_CTL.EN lets the current job finish and stops dispatch to the core (R208). -/
  | coreDisable (n : Fin 16)
  /-- A write of ARRAY_CTL.PREEMPT_EN = 1 is refused if the checkpoint area is misplaced (R153). -/
  | preemptEnWrite (n : Fin 16) (ctl : BitVec 32)
  /-- VDD_CORE recovers to within DROOP1 or DROOP2 of its target and the droop request is withdrawn, starting the exit hold (R377). -/
  | droopClear (mv : BitVec 12)
  /-- A write TLP to the expansion ROM window is discarded and logged with code ROM_WRITE (R338). -/
  | romWrite (off : BitVec 20)
  /-- A link-layer error (receiver error, bad TLP or DLLP, replay timeout or rollover, malformed TLP, protocol error, receiver overflow) is reported through AER, counted and logged (R356). -/
  | receiverError (e : LinkError)
  /-- At pool level 2, THR_GAP c-cycles after the last non-live grant a waiting non-live allocation is granted (R287). -/
  | thrGapExpiry (p : Fin 8)
  /-- An idle shaper starts the next site-tuning position of a class in TUNE mode, reading its sample descriptor and filling its fixed slot (R102). -/
  | siteTuningSampleStart (k : Fin 8) (c : Fin 4) (q : Fin 4)
  deriving DecidableEq, Repr

end Sys2Proof
end

