-- ==== Sys2Proof/Decode.lean ====
section
/-! DEFINITION. The command that a word of the command table spells. No row of the table gives bits: the block takes
commands, not words, so no word spells one. -/

namespace Sys2Proof

/-- The command that a word spells: none, since no row of the command table gives bits. -/
def decodeTableWord (_nbits _w : Nat) : Option Instr := none

end Sys2Proof
end

