-- ==== Sys2Proof/Config.lean ====
section
/-! DEFINITION. What an implementation fixes (fuses) and the free values: constants with no body, so no proof can
see what they are. -/

namespace Sys2Proof

/-- Values that manufacture fixes in fuses (R32, R33, R135, R153, R339, R366, R369, R387). -/
structure Fuses where
  stepMajor : Byte
  stepMinor : Byte
  core : BitVec 16
  cluster : BitVec 4
  vd : BitVec 12
  sh : BitVec 8
  ve : BitVec 4
  dramCh : BitVec 16
  /-- ARRAY_REPAIR_MAP_A and _B of each core. -/
  repairA : Vector (BitVec 32) 16
  repairB : Vector (BitVec 32) 16
  serial : BitVec 64
  keyHash : BitVec 384
  svnMin : BitVec 16
  /-- Expected BIST signature of each block of R385. -/
  signatures : List (BitVec 64)
  /-- Fused voltage in mV for each compute-clock frequency: 400 MHz first, in steps of 25 MHz. -/
  voltages : Vector (BitVec 12) 31
  deriving DecidableEq, Repr, Inhabited

/-- The fuses of this device. -/
opaque Config.fuses : Fuses

/-- A decoded sample (plane 0 Y, 1 Cb, 2 Cr; x; y) of the n-th decoded frame: the codec standards fix it (R52). -/
opaque Config.decodedSample : Nat → Nat → Nat → Nat → BitVec 10

/-- A BUDGET, CYCLES or AVG_VCYCLES above 2^32 - 1 v-cycles, as its 32 bits hold it (R42, R76: no rule says). -/
opaque Config.wideCycles : Nat → BitVec 32

/-- CHUNK_TAG of an access unit whose first chunk entry could not be read (R50: its fields cannot be trusted), by the
entry's address. -/
opaque Config.unreadTag : Nat → BitVec 32

/-- The coding features that a unit's parameter sets signal (R112); JPEG has none of them. -/
structure CodingTools where
  profileIdc : Nat
  mainTier : Bool
  /-- Ten times the level: at most 51. -/
  level : Nat
  bitDepth : Nat
  progressive : Bool
  refFrames : Nat
  cabac : Bool
  transform8x8 : Bool
  /-- Size of a coding block: 64 in H.265, the macroblock in H.264. -/
  ctu : Nat
  sao : Bool
  deblocking : Bool
  deriving DecidableEq, Repr

/-- What an encoder codes: the format (0 H.264, 1 H.265, 2 JPEG), whether the picture is an IDR picture, the quantiser or
JPEG_Q, the size, the features and the range and colour description that it signals, and the 8-bit planes in 4:2:0 (R111,
R112). -/
structure EncPicture where
  format : Nat
  idr : Bool
  quantiser : Nat
  width : Nat
  height : Nat
  tools : Option CodingTools
  colour : BitVec 25
  luma : List Byte
  cb : List Byte
  cr : List Byte
  deriving DecidableEq, Repr

/-- A coded byte that the coding standards and the encoder's choices fix (R112): the draw, the picture, the part of the unit
(0 to 2 parameter sets, 3 slice or entropy-coded data) and the byte in it. -/
opaque Config.codedByte : Nat → EncPicture → Nat → Nat → Byte

/-- A 10-bit chroma value of an output picture of odd width or height whose group has fewer than four pixels (R111), by the
values it has. -/
opaque Config.edgeChroma : List Int → BitVec 10

/-- What a counter shows after it passes its largest value, where no rule says that it wraps or stops. -/
opaque Config.counterOverflow : Nat → Nat → Nat

/-- The ECDSA P-384 check (R366): a public key, SIG_R and SIG_S, over a digest. -/
opaque Config.signatureVerifies : List Byte → List Byte → List Byte → BitVec 384 → Bool

/-- SHA-384 of a byte string (R366). -/
opaque Config.sha384 : List Byte → BitVec 384

/-- The rate correction in ppm chosen for a phase error in ns; its use is limited to 500 either way (R370). -/
opaque Config.ppsRate : Int → Int

/-- The size in ppm of the correction that removes a phase error (R370, log entry 168). -/
opaque Config.slewRate : Int → Nat

/-- A destination byte that lies in an overlap of a descriptor's source and destination (R292). -/
opaque Config.overlapByte : Nat → Nat → Byte

/-- How many comparisons ARRAY_CHK_SKIPPED counts for a tile in a floating-point format with checking on (R139 counts them
as skipped; R164 has no closes at which they would be made): the draw. -/
opaque Config.fpSkips : Nat → Nat

/-- The error-log entry of R150 for an array fault, of which R393 gives no code beside the trap's: by the cause, field 0 its
code and field 1 its severity. -/
opaque Config.faultEntry : Nat → Nat → Nat

/-- How ARG0 of a class 0x32 log entry packs a core and an array (R393 names them and gives no packing). -/
opaque Config.arrayArg : Nat → Nat → Nat

/-- How ARG1 of a class 0x32 log entry packs a cell's row and column (R393 gives no packing). -/
opaque Config.cellArg : Nat → Nat → Nat

/-- What VCMP gives for FP32 lanes under a condition code of unsigned order (R193, R195): code and the two lanes. -/
opaque Config.fpUnsignedCompare : Nat → BitVec 32 → BitVec 32 → Bool

/-- Bits [63:32] of sD after VRED, given the 32-bit result (R195 states the result and no extension). -/
opaque Config.vredUpper : BitVec 32 → BitVec 32

/-- The minimum or maximum over no lanes (R196 gives none), by the low byte of X. -/
opaque Config.vredEmpty : Nat → BitVec 32

/-- sD after VRED with X[3:2] = 3, which R195 does not define, by the lanes of vA. -/
opaque Config.vredReserved : BitVec 4096 → BitVec 64

/-- An element of a written compression block in a channel beyond N, of which no rule gives the value (R219, R224): the
block's address and the element's index. -/
opaque Config.compressedPad : Nat → Nat → Byte

/-- A field of a CLIP record that speaks of a last encoded frame or a quantiser where there is none (R119 gives no
value): the draw and the field's byte offset. -/
opaque Config.clipField : Nat → Nat → Nat

/-- TIME, CHUNK_TAG or FLAGS in a batch header's slot entry whose source frame header was read as poison (R93 gives no
value): the draw and the field's byte offset. -/
opaque Config.slotField : Nat → Nat → Nat

/-- The compute clock in MHz from the lock of the PLLs until the clock's first target is reached (no rule gives it). -/
opaque Config.bootMhz : Nat

/-- MC_CLK_STATUS.LIMITER while the hold of R422 limits the clock: R382 lists no code for it. -/
opaque Config.avsLimiter : Nat

/-- The error-log entry for an MR4 code above the highest refresh rate (R321), of which R393 gives no class: its code, its
severity, its ARG0 and its ARG1. -/
opaque Config.mr4Entry : Nat → Nat

/-- The bank, of all ranks, that a per-bank refresh takes (no rule gives the order). -/
opaque Config.refreshBank : Nat → Nat

/-- ST_FAIL_SIG and ARG1 of the log entry for a block whose signature did not come in time (R387 gives none). -/
opaque Config.noSignature : Nat → BitVec 64

/-- Bytes of the error-log window in slots that no entry has been written to since the reset (R391 gives none), by offset. -/
opaque Config.emptyLogByte : Nat → Byte

/-- What SMBus command 0x20 returns for an offset that names no register: beyond the Global and MC block, or not a
multiple of 4 (R398 gives nothing), by draw and offset. -/
opaque Config.smbNoRegister : Nat → Nat → BitVec 32

/-- Bytes of the device descriptor block while it has not been written (R340: VALID = 0), by offset. -/
opaque Config.ddbUnwritten : Nat → Byte

/-- Bits of configuration registers that the manual leaves to the PCI Express base specification, by offset. -/
opaque Config.configWord : Nat → BitVec 32

/-- The error-log entry for an uncorrectable link-layer error (R356), of which R393 gives no code: by the AER bit and the
field, 0 code, 1 severity, 2 ARG0, 3 ARG1. -/
opaque Config.linkEntry : Nat → Nat → Nat

/-- ARG0 and ARG1 of the entry for an error in a memory that programs cannot address, which has no device address (R261). -/
opaque Config.hiddenArg : Nat → Nat

/-- The oscillator of a channel shows a drift above half a delay step when it leaves self-refresh (R319), by draw. -/
opaque Config.oscDrift : Nat → Bool

/-- A byte of what training found for a channel (R316), by draw, channel and place. -/
opaque Config.trainedByte : Nat → Nat → Nat → Byte

/-- CMEM_CONFLICT_CYC and CMEM_TENSOR_STALL as a read shows them: counts of cycles whose timing the model leaves out (R252,
R253, R276), by draw and core. -/
opaque Config.stallCount : Nat → Nat → Nat

/-- How far above the outstanding host reads DMA_OUTSTANDING rises while a descriptor's lines move (R254, R301): the spec does
not say how many transactions of them are outstanding at once (log entry 202). -/
opaque Config.outstandingPeak : Nat → Nat

/-- A byte of a training record copy after a write of it that failed (R317, log entry 228). -/
opaque Config.brokenCopy : Nat → Nat → Byte

/-- The check byte of a 64-bit word of DRAM by the SEC-DED code (R309); under the poison code (R310); and while the stored
word holds an error that no read has met, by its address (log entry 230). -/
opaque Config.checkByte : BitVec 64 → Byte
opaque Config.poisonByte : BitVec 64 → Byte
opaque Config.flippedByte : Nat → Byte

/-- The level that a boundary-scan cell captures at a ball whose level the state does not give (R420, log entry 234). -/
opaque Config.ballLevel : Nat → Nat → Bool

/-- Ten times the level that an encoder signals for a format and a size; its use is limited to 51 (R112). -/
opaque Config.codecLevel : Nat → Nat → Nat → Nat

end Sys2Proof
end

