-- ==== Sys2Proof/Machine/State.lean ====
section
/-! DEFINITION. The state of the block, as plain data: every register of the spec's register maps (in `regs`, one
entry per named field and instance), the memories, and the state of every unit that no register shows. -/

namespace Sys2Proof.Machine

/-- Why a step stops with a fault: nothing does. The spec gives every command of its table an effect, or says that the
command has none, in every state; where it forbids host software something, the block's own rule still says what
happens (log entry 38). -/
inductive Fault where
  deriving DecidableEq, Repr

/-- Why a command has no meaning. -/
inductive Refusal where
  /-- Raised by an arm of `exec` that has no meaning yet, with the row's mnemonic. Safe. -/
  | notModelled (mnemonic : String)
  deriving DecidableEq, Repr

/-- Sparse data by key, kept sorted with no repeats and no entry equal to what an unlisted key reads as. -/
abbrev SMap (α : Type) := List (Nat × α)

/-- What the check bits of one protected word say (R258, R259, R310): nothing wrong, a single-bit error not yet met,
an uncorrectable error not yet met, or the poison pattern. -/
inductive EccState where
  | ok | single | double | poison
  deriving DecidableEq, Repr

/-- One error-log entry (R391). `seq` is given when the entry reaches the ring. -/
structure LogEntry where
  time : W64
  code : BitVec 16
  sev : BitVec 3
  plane : Fin 3
  unit : Byte
  seq : W32
  arg0 : W64
  arg1 : W64
  deriving DecidableEq, Repr

/-- A job: a ring job or a batch's job, from its descriptor (R176), with where its completion entries go. -/
structure Job where
  tag : W32
  cluster : Fin 4
  cores : BitVec 4
  live : Bool
  noPreempt : Bool
  prio : BitVec 3
  image : Addr
  entry : W32
  arg0 : W64
  arg1 : W64
  arg2 : W64
  arg3 : W64
  trapAddr : Addr
  /-- The CRC of the image, once the loader has found or loaded it: it names the resident with IMAGE (R185). -/
  crc : Option W32
  /-- The completion ring that receives its entries; none for a batch template with CR[7] = 0. -/
  ring : Option (Fin 31)
  /-- Batch class and area of a batch; none for a ring job. -/
  batch : Option (Fin 4 × Fin 4)
  /-- Device address of the batch header; 0 for a ring job (R177). -/
  header : Addr
  deriving DecidableEq, Repr

/-- One tensor entry of a plan record (R183). -/
structure PlanEntry where
  textOffset : Nat
  mMax : Nat
  nMax : Nat
  kMax : Nat
  batchMax : Nat
  actFmt : Nat
  wgtFmt : Nat
  compression : Nat
  gather : Bool
  shape : Nat
  mExt : Nat
  nExt : Nat
  kExt : Nat
  deriving DecidableEq, Repr

/-- A plan record (R182). -/
structure Plan where
  entries : List PlanEntry
  needsLead : Bool
  tune : Bool
  sems : Nat
  dmaMask : BitVec 64
  mqMask : BitVec 16
  semInit : List (BitVec 16)
  deriving DecidableEq, Repr

/-- A section of a Deckan image (R181). -/
structure Section where
  typ : Nat
  dest : Nat
  src : Nat
  bytes : Nat
  destOff : Nat
  deriving DecidableEq, Repr

/-- A Deckan image resident on a cluster (R185). -/
structure Resident where
  image : Addr
  crc : W32
  plan : Plan
  sections : List Section
  /-- Position of its last dispatch, for least-recently-dispatched eviction. -/
  lastUse : Nat
  /-- A flush arrived while it was in use: it goes when its last job ends (R209). -/
  flushed : Bool
  deriving DecidableEq, Repr

/-- The tensor operations (R213, R234). -/
inductive TOp where
  | tmm | tbd | twg | tqk | tpv | tconv | tdw | tpool | trsz
  deriving DecidableEq, Repr

/-- A tensor instruction in the queue: with its address and the bounds resolved at issue (R215). -/
structure TEntry where
  op : TOp
  insn : TensorInsn
  addr : Addr
  M : Nat
  N : Nat
  K : Nat
  BATCH : Nat
  deriving DecidableEq, Repr

/-- A group whose last step has been performed and whose close has not (R125). -/
structure PendingClose where
  tile : Nat
  group : Nat
  bank : Bool
  /-- This close completes the tile's sum, which goes to the output latch. -/
  last : Bool
  deriving DecidableEq, Repr

/-- The tensor instruction the sequencer runs. -/
structure TRun where
  e : TEntry
  /-- Validity of each M tile of each batch iteration, b * tiles_m + mt (R226). -/
  valid : List Bool
  /-- Index of the current tile in loop order (R218). -/
  tile : Nat
  /-- Steps of the current tile already fed: PROGRESS counted in steps. -/
  step : Nat
  /-- Bank that the next group performed takes (R125): false G0. -/
  bank : Bool
  /-- The open group, if one of its steps has been performed. -/
  openGroup : Option Nat
  closes : List PendingClose
  /-- Tile held in the output latches of array A and of array B, and the next row to deliver. -/
  latchA : Option (Nat × Nat)
  latchB : Option (Nat × Nat)
  /-- Next tile to look at for copying (R228), in loop order. -/
  copyTile : Nat
  deriving DecidableEq, Repr

/-- One outer-product array (R125, R137). A bank or row that is missing from a list is 0. -/
structure ArraySt where
  g0 : List (List Int)
  g1 : List (List Int)
  m : List (List W32)
  latch : List (List W32)
  /-- Weight-sum column and activation-sum row for G0 and G1, 32 bits each (R138). -/
  rowLane0 : List W32
  rowLane1 : List W32
  colLane0 : List W32
  colLane1 : List W32
  /-- Rows and columns in which a group accumulator saturated during the group of each bank (R139). -/
  satRows0 : List Nat
  satRows1 : List Nat
  satCols0 : List Nat
  satCols1 : List Nat
  deriving DecidableEq, Repr

/-- What a core's scalar unit is doing (R208 STATE, R179, R198, R200). -/
inductive CoreMode where
  | idle
  | running
  | waitSem (k : Fin 64) (n : BitVec 16)
  | waitDma (ch : Fin 64) (target : W32)
  | waitFence (scopes : BitVec 4)
  | waitPost (mq : Fin 16) (count : Nat)
  /-- END has been issued and its fence is being waited for (R178). -/
  | ending
  /-- Trapped and draining under R178. -/
  | trapped (cause : Byte)
  /-- A pre-emption request is being carried out (R145). -/
  | stopping
  /-- The job is held in the checkpoint area; the core is free for another job (R145). -/
  | held
  deriving DecidableEq, Repr

/-- The current ramp of a core's arrays (R132, R133): the last one begun, the c-cycle it began in and the column groups
enabled before it. -/
structure Ramp where
  up : Bool
  start : Nat
  groups : Nat
  deriving DecidableEq, Repr

/-- What the chanter keeps of a job whose core state is in the checkpoint area. -/
structure HeldJob where
  job : Job
  plan : Plan
  textBase : Addr
  tag : W32
  chains : List (Fin 64 × W32)
  satLogged : BitVec 3
  /-- The words of the running tensor instruction, if `started`, and of the queued ones, in order. -/
  insns : List (TOp × TensorInsn)
  started : Bool
  /-- The saturated rows and columns of the groups in both banks, array A then array B (R139). -/
  sat : List (List Nat)
  /-- Groups whose banks were saved as they awaited their close (R145). -/
  closes : List PendingClose
  deriving DecidableEq, Repr

/-- A core (R186, R121, R153). -/
structure Core where
  s : Vector W64 32
  a : Vector Addr 16
  /-- Lane i in bits [32i+31:32i]: byte 4i of the register in memory. -/
  v : Vector (BitVec 4096) 32
  p : Vector (BitVec 128) 8
  /-- Byte i of a t-register in bits [8i+7:8i]. -/
  t : Vector (BitVec 512) 16
  b : Vector W32 16
  pc : Addr
  textBase : Addr
  mode : CoreMode
  /-- Timestamp at which the present wait began. -/
  waitSince : W64
  /-- The same moment in nanoseconds since the reset. -/
  waitFrom : W64
  /-- Word 0 of the instruction that waits. -/
  insn : W64
  job : Option Job
  plan : Plan
  /-- c-cycles since the job started, excluding time held in a checkpoint (R187). -/
  cyc : W64
  /-- DMA chains the job has issued and the count each brings its channel to (R178, R200). -/
  chains : List (Fin 64 × W32)
  /-- Records posted on the core that are not yet written in host memory. -/
  posts : Nat
  tq : List TEntry
  cur : Option TRun
  arrA : ArraySt
  arrB : ArraySt
  /-- Timestamp of the pre-emption request being carried out. -/
  preemptAt : W64
  /-- The same moment in nanoseconds since the reset. -/
  preemptFrom : W64
  /-- Throttle was in force at that request (R152). -/
  preemptThrottled : Bool
  ramp : Ramp
  /-- c-cycle of the arrays' last step, close or epilogue row (R133). -/
  busyAt : Nat
  held : Option HeldJob
  /-- Which of NUM_EPI_SAT, NUM_ACC_OVF and NUM_NONFINITE have had their first increment in this job (R174). -/
  satLogged : BitVec 3
  deriving DecidableEq, Repr

/-- A queued semaphore wait (R202). -/
structure SemWaiter where
  sem : Fin 64
  core : Fin 16
  n : BitVec 16
  deriving DecidableEq, Repr

/-- How far the unit that the chanter has chosen has come. -/
inductive UnitPhase where
  | loading
  | copying (img : Resident)
  | loaded
  | running
  /-- It has ended with a STATUS and no core, and its completion entry has no room yet. -/
  | over (status : BitVec 16)
  deriving DecidableEq, Repr

/-- One slot of a batch (R93). -/
structure Slot where
  sampleId : W64
  time : W64
  chunkTag : W32
  flags : Byte
  reason : Byte
  valid : Bool
  replaced : Bool
  complete : Bool
  deriving DecidableEq, Repr

inductive AreaState where
  | free | opened | closed | ready | dispatched
  deriving DecidableEq, Repr

/-- One batch area (R92 to R96). -/
structure Area where
  st : AreaState
  slots : List Slot
  seq : W64
  epoch : W32
  /-- Timestamp of the first reservation. -/
  firstAt : W64
  closeTime : W64
  /-- c-cycle of the close, from which the fill is counted (R95). -/
  closedCyc : Nat
  /-- Position in the order in which batches became ready. -/
  readyAt : Nat
  deriving DecidableEq, Repr

/-- One batch class of a chanter beyond its registers (R92 to R106). -/
structure Bq where
  areas : Vector Area 4
  /-- BATCH_SEQ of the next batch to close, 64 bits. -/
  seq : W64
  /-- Replacement frame of each stream with its SAMPLE_ID, TIME, tag and flags (R99). -/
  repl : List (Fin 1024 × Addr)
  deriving DecidableEq, Repr

/-- A cluster: chanter, loader, semaphores (R24, R97, R185, R201). -/
structure Cluster where
  sems : Vector (BitVec 16) 64
  waiters : List SemWaiter
  /-- Ring jobs fetched and not yet chosen, oldest first, with their arrival order. -/
  jobs : List (Nat × Job)
  cur : Option (Job × UnitPhase)
  /-- Bit i: core i of the cluster has not finished its job of the current unit. -/
  busy : BitVec 4
  /-- The cores of the current unit that were given its jobs. -/
  sent : BitVec 4
  /-- The unit whose cores hold checkpoints while a live unit runs, its busy cores and those that were given jobs. -/
  preempted : Option (Job × BitVec 4 × BitVec 4)
  residents : List Resident
  bq : Vector Bq 4
  /-- Out of service in drone mode; its clocks are gated once its cores have stopped (R376). -/
  gated : Bool
  deriving DecidableEq, Repr

/-- The host fields and device fields of a cached stream context entry (R42), and how it is treated (R45). -/
structure Ctx where
  /-- The 256 B entry as it was read; bytes 0x40 to 0x7F are superseded by the fields below. -/
  entry : BitVec 2048
  chunkCons : W32
  framesDecoded : W32
  framesConcealed : W32
  framesAbandoned : W32
  posOffset : W32
  avgVcycles : W32
  lastGood : Addr
  frameSeq : W32
  resync : Bool
  drift : Bool
  error : Bool
  bsErrors : W32
  treatedLive : Bool
  refused : Bool
  lastDispatch : Nat
  /-- A device field has changed since the fields were last written back (R43). -/
  dirty : Bool
  deriving DecidableEq, Repr

/-- What the decoder scheduler and the decoders know of a stream beyond its context entry. -/
structure Stream where
  /-- Last accepted producer count (R51). -/
  prod : W32
  /-- Producer counts of accepted doorbells with the time each was performed, oldest first (R57). -/
  arrivals : List (W32 × W64)
  ctx : Option Ctx
  /-- The entry could not be read (R68): not dispatched until an invalidate is applied. -/
  unread : Bool
  /-- CODEC, P010 and FRAME_POOL as the entry last had them, for an open stream (R48). -/
  fmt : Option Nat
  inDecode : Bool
  /-- Suspended through the management ring (R375). -/
  shedSuspended : Bool
  /-- When the stream became ready (order of the ready lists, R58). -/
  readyAt : Option W64
  /-- Buffers held as reference frames (R56), and pre-roll holds oldest first (R107). -/
  refs : List Addr
  preroll : List (Addr × W32)
  /-- The next frame's map is written all 0xFF (R70). -/
  allChanged : Bool
  /-- A SKIPPED_BEFORE_RAP record has been written in the present run of skips (R64). -/
  skipReported : Bool
  /-- A RESYNC_DONE record is due at the next random access point (R66). -/
  resyncDue : Bool
  /-- Decoding started at the last random access point, so its RASL pictures are skipped (R64). -/
  started : Bool
  /-- A SHAPE_CFG entry has been logged since the last invalidate (R84). -/
  shapeLogged : Bool
  /-- The stream is treated as live, or was when its cached copy was dropped. -/
  live : Bool
  /-- The device fields of a copy that was dropped before they had been written back (R48, R64). -/
  unsaved : Option Ctx
  /-- The range and colour description that the stream's bitstream last signalled (R111; log entry 244). -/
  colour : BitVec 25
  deriving DecidableEq, Repr

/-- A chunk entry (R49). -/
structure Chunk where
  addr : Addr
  auEnd : Bool
  eos : Bool
  discont : Bool
  poolFree : Bool
  len : Nat
  tag : W32
  /-- The entry's read returned poison or its address is unmapped (R50). -/
  bad : Bool
  deriving DecidableEq, Repr

/-- A concealment under way (R63, R65). -/
structure Conceal where
  code : Byte
  detail : Byte
  pos : AuPos
  cycles : Nat
  /-- When decode stopped. -/
  since : W64
  /-- The unit is a random access point. -/
  rap : Bool
  deriving DecidableEq, Repr

/-- An access unit in decode (R58 to R63). -/
structure DecJob where
  stream : Fin 1024
  live : Bool
  startAt : W64
  budget : Nat
  frame : Addr
  chunks : List Chunk
  time : W64
  conceal : Option Conceal
  /-- The decoder has read poison from its cache (R261). -/
  spoiled : Bool
  deriving DecidableEq, Repr

/-- A frame offered to the shapers (R80, R81). -/
structure Offer where
  stream : Fin 1024
  frame : Addr
  seq : W32
  at_ : W64
  deriving DecidableEq, Repr

/-- A sample in a shaper (R81, R94, R98 to R102). -/
structure ShJob where
  stream : Fin 1024
  frame : Addr
  cluster : Fin 4
  cls : Fin 4
  area : Fin 4
  slot : Nat
  /-- A slot has been reserved; a shaper that waits for an area has not started (R96). -/
  started : Bool
  /-- REASON of the first pass (0 none). -/
  reason : Byte
  replacing : Bool
  /-- When the sample, or its re-shape, started (R91). -/
  startAt : W64
  /-- The shaper fields the sample is shaped under, bytes 0x80 to 0xBF of the context entry (R83). -/
  cfg : BitVec 512
  /-- The 32 B sample descriptor of a site-tuning sample (R100). -/
  tune : Option (BitVec 256)
  deriving DecidableEq, Repr

/-- A frame held for an encode request. -/
structure EncFrame where
  seq : W32
  frame : Addr
  deriving DecidableEq, Repr

/-- An active encode request (R109 to R119). -/
structure EncReq where
  /-- Names the request to the encoders. -/
  id : Nat
  tag : W32
  stream : Fin 1024
  thumb : Bool
  /-- FLAGS.LIVE (R109). -/
  liveFlag : Bool
  /-- A frame of the request has been taken as a live one (R119). -/
  servedLive : Bool
  first : W32
  count : Nat
  waitMs : Nat
  /-- Encoder fields copied from the context entry, bytes 0xC0 to 0xDF (R108). -/
  cfg : BitVec 256
  /-- Time of the last arrival of a requested frame, or of acceptance. -/
  lastArrival : W64
  frames : List EncFrame
  /-- Sequence number of the next frame wanted. -/
  next : W32
  encoded : Nat
  concealed : Nat
  fill : Nat
  qp : Nat
  qpLast : Nat
  lastSeq : W32
  timeFirst : W64
  timeLast : W64
  bytes : Nat
  buffers : List Addr
  /-- When the first of `frames` became ready. -/
  readyAt : W64
  streamClosed : Bool
  busy : Bool
  deriving DecidableEq, Repr

/-- A frame in an encoder: the request's `id` and the frame. -/
structure EncJob where
  req : Nat
  stream : Fin 1024
  live : Bool
  frame : EncFrame
  startAt : W64
  /-- The frame's unit, coded and waiting for output buffers (R116). -/
  coded : Option (List Byte)
  deriving DecidableEq, Repr

/-- What waits for a buffer of a pool: a unit that the command does not name, an encoder or a DMA channel (R286). -/
inductive PoolUser where
  | unit
  | encoder (k : Fin 4)
  | channel (k : Fin 64)
  deriving DecidableEq, Repr

/-- An allocation that waits (R282, R287). -/
structure PoolWait where
  live : Bool
  user : PoolUser
  deriving DecidableEq, Repr

/-- A buffer pool beyond its registers (R280 to R287). -/
structure Pool where
  /-- Ready list, oldest first (R281). -/
  ready : List Nat
  /-- Bit k: bitmap line k holds a free bit (R281). -/
  summary : BitVec 4096
  /-- A bitmap write is under way after EN (R280). -/
  initialising : Bool
  /-- The count of c-cycles at the last non-live grant (R287). -/
  lastOther : Option Nat
  /-- Since when a live and since when a non-live allocation could be granted, while one can. -/
  okLive : Option W64
  okOther : Option W64
  /-- Allocations that wait, oldest first. -/
  waiting : List PoolWait
  deriving DecidableEq, Repr

/-- A DMA descriptor as fetched (R291). -/
structure Desc where
  at_ : Addr
  next : Addr
  src : Addr
  dst : Addr
  lineLen : Nat
  lines : Nat
  ctl : BitVec 16
  srcStride : W32
  dstStride : W32
  fill : W32
  deriving DecidableEq, Repr

/-- What a channel is doing (R288 to R297). -/
inductive ChPhase where
  | idle
  /-- The next descriptor of the chain is to be fetched. -/
  | fetch (addr : Addr)
  /-- ALLOC_DST waits for a buffer. -/
  | alloc (d : Desc)
  /-- WAIT_PREV waits for earlier writes. -/
  | waitPrev (d : Desc)
  /-- The descriptor's lines are being moved. -/
  | move (d : Desc)
  /-- An ARRIVE descriptor waits for its writes to be performed, its lines so far counted. -/
  | arrive (d : Desc) (linesDone : Nat)
  /-- The last descriptor's STATUS has been handed over. -/
  | done (irq : Bool)
  deriving DecidableEq, Repr

/-- A byte of a descriptor's host reads (R296, R347): not yet received, received, received with EP set, or lost to an
error status or a timeout. -/
inductive Staged where
  | waiting
  | data (b : Byte)
  | poison
  | error
  deriving DecidableEq, Repr

/-- A DMA channel beyond its registers. -/
structure DmaCh where
  queue : List Addr
  phase : ChPhase
  /-- The buffer ALLOC_DST was given, for the descriptor in progress. -/
  buf : Option Addr
  allocSince : W64
  /-- Host address of the channel's last write to host memory that no flush read covers (R295). -/
  lastHost : Option Nat
  /-- A flush read waits for a tag. -/
  flushDue : Bool
  /-- The bytes of the descriptor's host source lines, line after line. -/
  staged : List Staged
  /-- Host reads not yet sent, for want of a tag: host address, length, position in `staged`. -/
  unsent : List (Nat × Nat × Nat)
  deriving DecidableEq, Repr

/-- An outbound read (R346 to R349): channel, host address, bytes wanted and received, and whether quarantined. -/
structure Tag where
  tag : BitVec 10
  ch : Fin 64
  addr : Nat
  len : Nat
  /-- Position of the read's first byte in the channel's staging. -/
  pos : Nat
  got : Nat
  sentAt : W64
  quarantined : Bool
  /-- For a flush read of R295: the channel's COUNT when it was sent. -/
  flush : Option W32
  deriving DecidableEq, Repr

/-- Arbiter state of one requester of one resource (R268 to R271). -/
structure ArbSt where
  /-- Consecutive losses. -/
  losses : Nat
  /-- Cycle of its promotion, for a promoted requester. -/
  promoted : Option Nat
  /-- Cycle at which the requester presents again. -/
  until_ : Nat
  /-- A displaced transfer: the cycle it became ready, its beats left and its first presentation. -/
  left : Option (Nat × Nat × Nat)
  deriving DecidableEq, Repr

/-- The grant last made at a resource: the request with the beats it was granted, and the cycle of its first beat. -/
structure Grant where
  req : ArbReq
  from_ : Nat
  deriving DecidableEq, Repr

/-- A place in a memory that programs cannot address (R261): a decoder's or encoder's cache, a shaper's staging, a byte of a
DMA channel's host staging, an entry of the context cache, or MC memory. -/
inductive HiddenMem where
  | decoder (k : Fin 12)
  | encoder (k : Fin 4)
  | shaper (k : Fin 8)
  | host (k : Fin 64) (pos : Nat)
  | ctx (n : Fin 1024)
  | mc
  deriving DecidableEq, Repr

/-- A DRAM channel beyond its registers (R313 to R322). -/
structure DramCh where
  scrubAt : Nat
  /-- When the last granule was scrubbed (R313), and when MR4 was last polled (R321). -/
  scrubbed : W64
  mr4At : W64
  /-- Open rows: rank, bank, row. -/
  openRows : List (Nat × Nat × Nat)
  /-- When a bank's row was last accessed, by rank and bank (R314). -/
  rowAt : SMap Nat
  owed : Nat
  srSince : W64
  /-- When a request last reached the channel (R322), and when its oscillator was last read (R319). -/
  lastReq : W64
  oscAt : W64
  /-- Refresh management (R321): the threshold, activations of each bank, commands issued. -/
  rfmAt : Nat
  acts : SMap Nat
  rfms : Nat
  /-- The MR4 code last read lies above the highest refresh rate (R321). -/
  hot : Bool
  deriving DecidableEq, Repr

/-- A training record (R316): `modes` the manufacturer, revision and density mode registers of each channel, `values` the
512 B of each channel. -/
structure TrainRecord where
  seq : BitVec 32
  stepping : BitVec 16
  cfg : BitVec 16
  modes : List Byte
  temp : Byte
  values : List Byte
  deriving DecidableEq, Repr

/-- Configuration space of the endpoint (R328, R329) and the link. -/
structure PciCfg where
  memSpace : Bool
  busMaster : Bool
  bar0 : W64
  bar2 : W64
  bar4 : W64
  rom : W32
  subsysVid : BitVec 16
  subsysId : BitVec 16
  /-- Subsystem identifiers have been read: configuration requests are no longer retried (R330). -/
  ready : Bool
  d3hot : Bool
  msixEnable : Bool
  msixMask : Bool
  mps : BitVec 3
  mrrs : BitVec 3
  extTag : Bool
  tag10 : Bool
  cplTimeout : BitVec 4
  aspm : BitVec 2
  bar2Size : BitVec 6
  ltrEnable : Bool
  l1ss : BitVec 4
  aerUncorr : W32
  aerCorr : W32
  aerUncorrMask : W32
  aerUncorrSev : W32
  aerCorrMask : W32
  deriving DecidableEq, Repr

/-- A MSI-X table entry (R351). -/
structure MsixEntry where
  addr : W64
  data : W32
  masked : Bool
  deriving DecidableEq, Repr

/-- A completion that the endpoint hands to the link layer: status and bytes (R332 to R345). -/
structure Cpl where
  status : CplStatus
  ep : Bool
  bytes : List Byte
  deriving DecidableEq, Repr

/-- A posted write TLP (R346): host address, payload and whether it is poisoned. -/
structure Posted where
  addr : Nat
  bytes : List Byte
  ep : Bool
  deriving DecidableEq, Repr

/-- Phases of the reset sequence (R361, R364). -/
inductive Phase where
  /-- Power-on reset asserted. -/
  | powerOn
  /-- Power-on reset released, PERST_N low. -/
  | held
  | phase1 | phase2 | phase3
  /-- Logic BIST runs before phase 4 (R384). -/
  | bist
  | phase4 | phase5
  /-- Phase 6 is over: SERVICE, REDUCED or NO_SERVICE. -/
  | up
  | halted
  /-- Tripped: every clock but the management clock is stopped (R374). -/
  | tripped
  deriving DecidableEq, Repr

/-- Clock, power, thermal and shedding state that no register shows (R366 to R379). -/
structure Power where
  /-- Filtered pin levels; true is high. -/
  perstN : Bool
  pwrWarnN : Bool
  vrHotN : Bool
  shedReqN : Bool
  /-- VIO_1V8 is present (R360, R414). -/
  vio : Bool
  /-- PWR_WARN_N has been low for 20 ms. -/
  warnHold : Bool
  droop1 : Bool
  droop2 : Bool
  temp3 : Bool
  temp5 : Bool
  /-- Start of the exit hold that is running. -/
  exitSince : Option W64
  targetMhz : Nat
  thermLimit : Nat
  powerLimit : Nat
  boost : Bool
  avsFail : Bool
  /-- Targets the regulator acknowledged. -/
  avsMv : Nat
  thermSince : W64
  /-- The last 100 power estimates, newest first (R371). -/
  estimates : List Nat
  throttleStage : Bool
  throttleTherm : Bool
  throttlePower : Bool
  firstUse : Bool
  serviceAt : W64
  pwrWarnAt : W64
  /-- MC_SHED_CTL and MC_PWR_CTL as the controller last evaluated them (R383). -/
  forceStage : Nat
  shedReqStage : Nat
  exitHold : Nat
  hostLimit : Nat
  boostEn : Bool
  /-- Times of the last power estimate, temperature sample, clock target and AVSBus attempt. -/
  tickAt : W64
  sampleAt : W64
  slewAt : W64
  avsAt : W64
  /-- A temperature has been sampled since TJ_PEAK was last read. -/
  tjSeen : Bool
  deriving DecidableEq, Repr

/-- The timestamp counter beyond its register (R367, R370). -/
structure Clock where
  /-- Fraction of a nanosecond, in units of 2.5 ns / 10^6. -/
  frac : Nat
  /-- Rate correction in ppm. -/
  ppm : Int
  /-- The correction that removes the last phase error, in ppm, until `slewEnd` nanoseconds since the reset. -/
  slew : Int
  slewEnd : Nat
  /-- The written time, running on while the counter holds until that time reaches it. -/
  shadow : Option W64
  setPending : Option W64
  lastEdge : Option W64
  /-- The counter when PPS_EN was last set, or at the reset. -/
  ppsSince : W64
  firstEdge : Bool
  goodEdges : Nat
  /-- Remainder of c-cycles not yet counted, in units of 1/1000. -/
  cfrac : Nat
  /-- c-cycles since the power-on reset. -/
  cyc : Nat
  /-- Nanoseconds since the reset, which no write of the timestamp moves: what units time their work by. -/
  ns : Nat
  deriving DecidableEq, Repr

/-- The TAP (R420, R421). -/
inductive TapInsn where
  | bypass | idcode | samplePreload | extest | extestPulse | extestTrain | clamp | highz
  deriving DecidableEq, Repr

structure Tap where
  insn : TapInsn
  /-- An instruction of R421 is in effect, rather than being executed as BYPASS. -/
  inEffect : Bool
  /-- Boundary-scan cells as preloaded, and the balls as last sampled, one for each scanned ball (R420). -/
  cells : List Bool
  sampled : List Bool
  /-- PERST_N rose while such an instruction was in effect: phase 1 waits (R421). -/
  phase1Waits : Bool
  /-- What the bypass register or the IDCODE register holds for shifting out. -/
  shiftOut : BitVec 32
  deriving DecidableEq, Repr

/-- A record waiting in the metadata queue writer (R77): who posted it, and its 64 bytes. An entry with no bytes is the
place of a core's POST, whose `count` records the writer has not read yet. -/
structure Record where
  core : Option (Fin 16)
  bytes : List Byte
  count : Nat
  /-- Its place in the order in which posts have reached the writer. -/
  seq : Nat
  deriving DecidableEq, Repr

/-- A completion entry waiting for room (R73). -/
structure CplEntry where
  tag : W32
  status : BitVec 16
  core : Byte
  time : W64
  deriving DecidableEq, Repr

/-- A ring or queue beyond its registers: waiting entries, and unsignalled entries with the time of the first. -/
structure RingSt where
  /-- Last accepted producer count of the job ring (R74). -/
  prod : W32
  waiting : List CplEntry
  unsignalled : Nat
  firstAt : W64
  deriving DecidableEq, Repr

structure MqSt where
  waiting : List Record
  unsignalled : Nat
  firstAt : W64
  deriving DecidableEq, Repr

/-- The state of the block. -/
structure State where
  /-- Every field of every register of the register maps: key `regKey f i`, unlisted = its reset value. -/
  regs : SMap Nat
  /-- Low halves written and not yet completed by their high halves, by register offset (R7). -/
  halfW : List (Nat × Nat)
  /-- High halves latched by a read of the low half (R32, R300), by register offset. -/
  halfR : List (Nat × Nat)
  /-- DRAM, bags and core memories, by device address. -/
  mem : SMap Byte
  ecc : SMap EccState
  /-- What the device has written to host memory, by host address. -/
  hostMem : SMap Byte
  /-- Uncorrectable errors in memories that programs cannot address (R261). -/
  hidden : List HiddenMem
  /-- Single-bit errors in those memories. -/
  hiddenCe : List HiddenMem
  /-- Beats of core memory when CMEM_CONFLICT_CYC and CMEM_TENSOR_STALL were last read, by register. -/
  stallSeen : SMap Nat
  flash : SMap Byte
  fuses : Fuses
  phase : Phase
  clock : Clock
  power : Power
  cores : Vector Core 16
  clusters : Vector Cluster 4
  streams : SMap Stream
  /-- Invalidates queued: stream and token (R46). -/
  invalidates : List (Fin 1024 × BitVec 16)
  vds : Vector (Option DecJob) 12
  offers : List Offer
  shs : Vector (Option ShJob) 8
  encReqs : List EncReq
  ves : Vector (Option EncJob) 4
  /-- When an encoder began to wait for an output buffer (R116). -/
  veWait : Vector (Option W64) 4
  /-- Buffers that its pool has given an encoder which waits for more (R116, R286). -/
  veGot : Vector (List Addr) 4
  rings : Vector RingSt 31
  /-- Commands that the MC has posted on the management ring, JR31, and that have not been carried out (R11, R71). -/
  mgmt : List MgmtCmd
  mqs : Vector MqSt 16
  pools : Vector Pool 8
  hostOps : List (BpmOp × Addr)
  /-- The pointer the BPM last answered to a unit's allocation (0 none). -/
  allocOut : Addr
  dma : Vector DmaCh 64
  tags : List Tag
  arb : SMap ArbSt
  grants : SMap (Option Grant)
  dramChs : Vector DramCh 16
  /-- Core-memory and bag scrubbers: next line of each bank; corrected words waiting to be written back. -/
  scrubAt : SMap Nat
  writeback : List Nat
  /-- Phase 4 trained some channel, so a new record is to be written (R317). -/
  recordDue : Option TrainRecord
  pci : PciCfg
  msix : SMap MsixEntry
  pba : BitVec 2048
  /-- The completions of the last request answered, in order (R345). -/
  cpl : List Cpl
  /-- The TLPs of the last outbound write, in order (R346). -/
  posted : List Posted
  /-- When the link last carried a TLP (R354). -/
  linkAt : W64
  /-- The LTR value last sent and whether the endpoint is in the active state (R355). -/
  ltr : Option (Bool × Nat)
  log : List LogEntry
  logQ : Vector (List LogEntry) 3
  /-- Entries lost since the last QUEUE_LOSS entry, by plane (R395). -/
  logLost : Vector Nat 3
  /-- The port's last answer to a byte from the master was NACK: a wrong PEC, or an offset that a write may not reach (R398). -/
  smbNack : Bool
  smbOut : List Byte
  /-- The PEC byte that follows them, and the last register written by command 0x21, the value and the time (R398, R424). -/
  smbPec : Byte
  smbWrote : Option (Nat × Nat × W64)
  bistDone : BitVec 64
  /-- BIST_REQ at the start of the reset (R384); when the run began, and the last block boundary in it (R385, R388), in
  nanoseconds since the reset. -/
  bistDue : Bool
  bistAt : W64
  bistEdge : Option W64
  /-- GEN of the descriptor block (R340). -/
  ddbGen : W32
  ddbValid : Bool
  fwVersion : W32
  missing : BitVec 12
  tap : Tap
  /-- Order counter for arrivals and dispatches. -/
  order : Nat
  /-- THE MODEL'S OWN: how many free values have been drawn. -/
  freeCtr : Nat
  pending : List Instr
  deriving DecidableEq, Repr


/-- An array with every accumulator at 0. -/
def ArraySt.init : ArraySt :=
  { g0 := [], g1 := [], m := [], latch := [], rowLane0 := [], rowLane1 := [], colLane0 := [], colLane1 := [],
    satRows0 := [], satRows1 := [], satCols0 := [], satCols1 := [] }

def Plan.init : Plan :=
  { entries := [], needsLead := false, tune := false, sems := 0, dmaMask := 0, mqMask := 0, semInit := [] }

/-- A core with no job: every register 0 but p0 (R186). -/
def Core.init : Core :=
  { s := Vector.replicate 32 0, a := Vector.replicate 16 0, v := Vector.replicate 32 0,
    p := (Vector.replicate 8 (0 : BitVec 128)).set 0 (BitVec.allOnes 128),
    t := Vector.replicate 16 0, b := Vector.replicate 16 0, pc := 0, textBase := 0, mode := .idle, waitSince := 0, waitFrom := 0, insn := 0,
    job := none, plan := Plan.init, cyc := 0, chains := [], posts := 0, tq := [], cur := none,
    arrA := ArraySt.init, arrB := ArraySt.init, preemptAt := 0, preemptFrom := 0, preemptThrottled := false,
    ramp := { up := false, start := 0, groups := 0 }, busyAt := 0, held := none, satLogged := 0 }

def Area.init : Area :=
  { st := .free, slots := [], seq := 0, epoch := 0, firstAt := 0, closeTime := 0, closedCyc := 0, readyAt := 0 }

def Bq.init : Bq := { areas := Vector.replicate 4 Area.init, seq := 0, repl := [] }

def Cluster.init : Cluster :=
  { sems := Vector.replicate 64 0, waiters := [], jobs := [], cur := none, busy := 0, sent := 0, preempted := none,
    residents := [], bq := Vector.replicate 4 Bq.init, gated := false }

/-- A stream that has not been opened since the reset (R51, R64, R70). -/
def Stream.init : Stream :=
  { prod := 0, arrivals := [], ctx := none, unread := false, fmt := none, inDecode := false, shedSuspended := false,
    readyAt := none, refs := [], preroll := [], allChanged := true, skipReported := false, resyncDue := false,
    started := false, shapeLogged := false, live := false, unsaved := none, colour := 0x020202 }

def Pool.init : Pool :=
  { ready := [], summary := 0, initialising := false, lastOther := none, okLive := none, okOther := none, waiting := [] }

def DmaCh.init : DmaCh :=
  { queue := [], phase := .idle, buf := none, allocSince := 0, lastHost := none, flushDue := false, staged := [], unsent := [] }

def DramCh.init : DramCh :=
  { scrubAt := 0, scrubbed := 0, mr4At := 0, openRows := [], rowAt := [], owed := 0, srSince := 0, lastReq := 0, oscAt := 0, rfmAt := 0, acts := [], rfms := 0,
    hot := false }


def RingSt.init : RingSt := { prod := 0, waiting := [], unsignalled := 0, firstAt := 0 }

def MqSt.init : MqSt := { waiting := [], unsignalled := 0, firstAt := 0 }

/-- Configuration space after a reset that does not keep it. The reset values are those of the PCI Express base
specification (PRESUMED, log entry 12). -/
def PciCfg.init : PciCfg :=
  { memSpace := false, busMaster := false, bar0 := 0, bar2 := 0, bar4 := 0, rom := 0, subsysVid := 0, subsysId := 0,
    ready := false, d3hot := false, msixEnable := false, msixMask := false, mps := 0, mrrs := 2, extTag := true,
    tag10 := false, cplTimeout := 0, aspm := 0, bar2Size := 0, ltrEnable := false, l1ss := 0, aerUncorr := 0,
    aerCorr := 0, aerUncorrMask := 0, aerUncorrSev := 0x00062030, aerCorrMask := 0x2000 }

/-- Power and shedding state at a reset: no request, no stage, every pin but PERST_N high (R363, R381). -/
def Power.init : Power :=
  { perstN := false, pwrWarnN := true, vrHotN := true, shedReqN := true, vio := true, warnHold := false, droop1 := false,
    droop2 := false, temp3 := false, temp5 := false, exitSince := none, targetMhz := 1000, thermLimit := 1150,
    powerLimit := 1150, boost := false, avsFail := false, avsMv := 750, thermSince := 0, estimates := [],
    throttleStage := false, throttleTherm := false, throttlePower := false, firstUse := false, serviceAt := 0,
    pwrWarnAt := 0, forceStage := 0, shedReqStage := 4, exitHold := 100, hostLimit := 0, boostEn := true, tickAt := 0,
    sampleAt := 0, slewAt := 0, avsAt := 0, tjSeen := false }

def Clock.init : Clock :=
  { frac := 0, ppm := 0, slew := 0, slewEnd := 0, shadow := none, setPending := none, lastEdge := none, ppsSince := 0, firstEdge := true, goodEdges := 0,
    cfrac := 0, cyc := 0, ns := 0 }

/-- IDCODE (R420). -/
def idcodeOf (f : Fuses) : BitVec 32 := BitVec.ofNat 32 (f.stepMajor.toNat % 16 * 2 ^ 28 + 0x0416 * 2 ^ 12 + 0x4D5 * 2 + 1)

/-- The TAP after Test-Logic-Reset, which selects IDCODE, as IEEE 1149.1 has it. -/
def Tap.reset (f : Fuses) : Tap :=
  { insn := .idcode, inEffect := false, cells := [], sampled := [], phase1Waits := false, shiftOut := idcodeOf f }

/-- The block right after the power-on reset has been released, PERST_N still low (R361, R363). Every register of
the register maps is at its reset value: `regs` lists the one that is not, MC_RST_CAUSE, whose power-on bit R363
sets. The flash and the fuses are the board's and the device's own (log entries 3 and 4). -/
def State.reset : State :=
  { regs := [(434, 1)], halfW := [], halfR := [], mem := [], ecc := [], hostMem := [], hidden := [], hiddenCe := [], stallSeen := [], flash := [], fuses := Config.fuses,
    phase := .held, clock := Clock.init, power := Power.init, cores := Vector.replicate 16 Core.init,
    clusters := Vector.replicate 4 Cluster.init, streams := [], invalidates := [],
    vds := Vector.replicate 12 none, offers := [], shs := Vector.replicate 8 none, encReqs := [],
    ves := Vector.replicate 4 none, veWait := Vector.replicate 4 none, veGot := Vector.replicate 4 [],
    rings := Vector.replicate 31 RingSt.init, mgmt := [],
    mqs := Vector.replicate 16 MqSt.init, pools := Vector.replicate 8 Pool.init, hostOps := [], allocOut := 0,
    dma := Vector.replicate 64 DmaCh.init, tags := [], arb := [], grants := [],
    dramChs := Vector.replicate 16 DramCh.init, scrubAt := [], writeback := [],
    recordDue := none,
    pci := PciCfg.init, msix := [], pba := 0, cpl := [], posted := [], linkAt := 0, ltr := none, log := [],
    logQ := Vector.replicate 3 [], logLost := Vector.replicate 3 0, smbNack := false, smbOut := [], smbPec := 0, smbWrote := none, bistDone := 0, bistDue := false, bistAt := 0, bistEdge := none, ddbGen := 0,
    ddbValid := false, fwVersion := 0, missing := 0, tap := Tap.reset Config.fuses, order := 0, freeCtr := 0, pending := [] }

end Sys2Proof.Machine
end

