-- ==== Sys2Proof/Machine/Store.lean ====
section
/-! DEFINITION. Sparse stores in one canonical form: keys strictly rising, no entry equal to what an unlisted key
reads as. Memory, check bits, registers and every other keyed store of the state use these operations. -/

namespace Sys2Proof.Machine

/-- What key `k` reads as, where an unlisted key reads as `d`. -/
def storeGet {α : Type} (d : α) (m : SMap α) (k : Nat) : α :=
  match m.find? (fun e => e.1 == k) with
  | some e => e.2
  | none => d

/-- The listed entries of the values `vs` at keys `k`, `k + 1`, …: those that differ from `d`. -/
def storeEntries {α : Type} [DecidableEq α] (d : α) : Nat → List α → SMap α
  | _, [] => []
  | k, v :: vs => if v = d then storeEntries d (k + 1) vs else (k, v) :: storeEntries d (k + 1) vs

/-- Writes the values `vs` at keys `k`, `k + 1`, …, and nothing else. -/
def storeSetMany {α : Type} [DecidableEq α] (d : α) (m : SMap α) (k : Nat) (vs : List α) : SMap α :=
  m.filter (fun e => e.1 < k) ++ (storeEntries d k vs ++ m.filter (fun e => k + vs.length ≤ e.1))

/-- Writes one value. -/
def storeSet {α : Type} [DecidableEq α] (d : α) (m : SMap α) (k : Nat) (v : α) : SMap α :=
  storeSetMany d m k [v]

/-- Makes every key from `k` up to `k + n - 1` read as unlisted. -/
def storeClear {α : Type} (m : SMap α) (k n : Nat) : SMap α :=
  m.filter (fun e => e.1 < k ∨ k + n ≤ e.1)

/-- The values at keys `k`, `k + 1`, …, `k + n - 1`. -/
def storeGetMany {α : Type} (d : α) (m : SMap α) (k n : Nat) : List α :=
  (List.range n).map (fun j => storeGet d m (k + j))

/-- Writes `v` at each of the keys `ks`. -/
def storeSetEach {α : Type} [DecidableEq α] (d : α) (m : SMap α) (ks : List Nat) (v : α) : SMap α :=
  ks.foldl (fun m k => storeSet d m k v) m

/-- The canonical form: keys strictly rising and no entry equal to `d`. -/
abbrev storeWf {α : Type} (d : α) (m : SMap α) : Prop :=
  m.Pairwise (fun a b => a.1 < b.1) ∧ ∀ e ∈ m, e.2 ≠ d

end Sys2Proof.Machine
end

