-- ==== Sys2Proof/Machine/Regs.lean ====
section
/-! DEFINITION. The registers: one constant per named field of the register maps of the spec, with its place, width,
access type and reset value (R3 to R7). Instances of a register (a ring, a core, a channel) share one constant. -/

namespace Sys2Proof.Machine

/-- Register access types (R3). -/
inductive RegTy where
  | ro | rw | rw1c | wo | rc | rws
  deriving DecidableEq, Repr

/-- What a counter field does at its largest value: `wraps` where its map says wrapping or free-running, `stops`
where a rule says so, `unstated` where none does (a free value, log entry 9). -/
inductive AtMax where
  | wraps | stops | unstated
  deriving DecidableEq, Repr

/-- One named field of a register map. Instance i of two dimensions n1 and n2 is i1 * n2 + i2 and lies at
`off + i1 * st1 + i2 * st2`. -/
structure RegField where
  id : Nat
  off : Nat
  n1 : Nat
  st1 : Nat
  n2 : Nat
  st2 : Nat
  lo : Nat
  width : Nat
  ty : RegTy
  reset : Nat
  fuse : Bool
  /-- The register is 64 bits wide. -/
  wide : Bool
  atMax : AtMax
  deriving DecidableEq, Repr


/-- global registers (R32) -/
def R.GLB_ID_PART : RegField :=
  ⟨0, 0x0, 1, 0x0, 1, 0x0, 16, 16, .ro, 1046, false, false, .wraps⟩

/-- global registers (R32) -/
def R.GLB_ID_STEP_MAJOR : RegField :=
  ⟨1, 0x0, 1, 0x0, 1, 0x0, 8, 8, .ro, 0, true, false, .wraps⟩

/-- global registers (R32) -/
def R.GLB_ID_STEP_MINOR : RegField :=
  ⟨2, 0x0, 1, 0x0, 1, 0x0, 0, 8, .ro, 0, true, false, .wraps⟩

/-- global registers (R32) -/
def R.GLB_SVC_STATE_FIRST_USE : RegField :=
  ⟨3, 0x4, 1, 0x0, 1, 0x0, 10, 1, .ro, 0, false, false, .wraps⟩

/-- global registers (R32) -/
def R.GLB_SVC_STATE_SVC_OK : RegField :=
  ⟨4, 0x4, 1, 0x0, 1, 0x0, 9, 1, .ro, 0, false, false, .wraps⟩

/-- global registers (R32) -/
def R.GLB_SVC_STATE_DRONE : RegField :=
  ⟨5, 0x4, 1, 0x0, 1, 0x0, 8, 1, .ro, 0, false, false, .wraps⟩

/-- global registers (R32) -/
def R.GLB_SVC_STATE_SHED_STAGE : RegField :=
  ⟨6, 0x4, 1, 0x0, 1, 0x0, 4, 3, .ro, 0, false, false, .wraps⟩

/-- global registers (R32) -/
def R.GLB_SVC_STATE_STATE : RegField :=
  ⟨7, 0x4, 1, 0x0, 1, 0x0, 0, 3, .ro, 0, false, false, .wraps⟩

/-- global registers (R32) -/
def R.GLB_UNIT_USABLE0_VD : RegField :=
  ⟨8, 0x8, 1, 0x0, 1, 0x0, 20, 12, .ro, 0, true, false, .wraps⟩

/-- global registers (R32) -/
def R.GLB_UNIT_USABLE0_CLUSTER : RegField :=
  ⟨9, 0x8, 1, 0x0, 1, 0x0, 16, 4, .ro, 0, true, false, .wraps⟩

/-- global registers (R32) -/
def R.GLB_UNIT_USABLE0_CORE : RegField :=
  ⟨10, 0x8, 1, 0x0, 1, 0x0, 0, 16, .ro, 0, true, false, .wraps⟩

/-- global registers (R32) -/
def R.GLB_UNIT_USABLE1_DRAM_CH : RegField :=
  ⟨11, 0xC, 1, 0x0, 1, 0x0, 12, 16, .ro, 0, true, false, .wraps⟩

/-- global registers (R32) -/
def R.GLB_UNIT_USABLE1_SH : RegField :=
  ⟨12, 0xC, 1, 0x0, 1, 0x0, 4, 8, .ro, 0, true, false, .wraps⟩

/-- global registers (R32) -/
def R.GLB_UNIT_USABLE1_VE : RegField :=
  ⟨13, 0xC, 1, 0x0, 1, 0x0, 0, 4, .ro, 0, true, false, .wraps⟩

/-- global registers (R32) -/
def R.GLB_TIMESTAMP_NS : RegField :=
  ⟨14, 0x10, 1, 0x0, 1, 0x0, 0, 64, .ro, 0, false, true, .wraps⟩

/-- global registers (R32) -/
def R.GLB_SCRATCH_VALUE : RegField :=
  ⟨15, 0x18, 1, 0x0, 1, 0x0, 0, 32, .rw, 0, false, false, .wraps⟩

/-- streams and decode (R78) -/
def R.VID_CTX_BASE_BASE : RegField :=
  ⟨16, 0x400000, 1, 0x0, 1, 0x0, 12, 36, .rw, 0, false, true, .wraps⟩

/-- streams and decode (R78) -/
def R.VID_CTX_CFG_ENABLE : RegField :=
  ⟨17, 0x400008, 1, 0x0, 1, 0x0, 16, 1, .rw, 0, false, false, .wraps⟩

/-- streams and decode (R78) -/
def R.VID_CTX_CFG_COUNT : RegField :=
  ⟨18, 0x400008, 1, 0x0, 1, 0x0, 0, 11, .rw, 0, false, false, .wraps⟩

/-- streams and decode (R78) -/
def R.VID_CTX_INV_ACK_TOKEN : RegField :=
  ⟨19, 0x40000C, 1, 0x0, 1, 0x0, 16, 16, .ro, 0, false, false, .wraps⟩

/-- streams and decode (R78) -/
def R.VID_CTX_INV_ACK_STREAM : RegField :=
  ⟨20, 0x40000C, 1, 0x0, 1, 0x0, 0, 10, .ro, 0, false, false, .wraps⟩

/-- streams and decode (R78) -/
def R.VID_CTX_INV_STAT_OVERFLOWS : RegField :=
  ⟨21, 0x400010, 1, 0x0, 1, 0x0, 16, 16, .rc, 0, false, false, .unstated⟩

/-- streams and decode (R78) -/
def R.VID_CTX_INV_STAT_PENDING : RegField :=
  ⟨22, 0x400010, 1, 0x0, 1, 0x0, 0, 7, .ro, 0, false, false, .wraps⟩

/-- streams and decode (R78) -/
def R.VID_CACHE_STAT_LIVE : RegField :=
  ⟨23, 0x400014, 1, 0x0, 1, 0x0, 16, 9, .ro, 0, false, false, .wraps⟩

/-- streams and decode (R78) -/
def R.VID_CACHE_STAT_CACHED : RegField :=
  ⟨24, 0x400014, 1, 0x0, 1, 0x0, 0, 10, .ro, 0, false, false, .wraps⟩

/-- streams and decode (R78) -/
def R.VID_SCHED_CTL_LIVE_RESERVE : RegField :=
  ⟨25, 0x400018, 1, 0x0, 1, 0x0, 0, 4, .rw, 2, false, false, .wraps⟩

/-- streams and decode (R78) -/
def R.VID_LIVE_WAIT_MAX_VCYCLES : RegField :=
  ⟨26, 0x40001C, 1, 0x0, 1, 0x0, 0, 32, .rc, 0, false, false, .unstated⟩

/-- streams and decode (R78) -/
def R.JR_BASE : RegField :=
  ⟨27, 0x401000, 32, 0x40, 1, 0x0, 12, 34, .rw, 0, false, true, .wraps⟩

/-- streams and decode (R78) -/
def R.JR_LOG2 : RegField :=
  ⟨28, 0x401008, 32, 0x40, 1, 0x0, 0, 5, .rw, 0, false, false, .wraps⟩

/-- streams and decode (R78) -/
def R.JR_EN : RegField :=
  ⟨29, 0x401008, 32, 0x40, 1, 0x0, 16, 1, .rw, 0, false, false, .wraps⟩

/-- streams and decode (R78) -/
def R.JR_HEAD : RegField :=
  ⟨30, 0x40100C, 32, 0x40, 1, 0x0, 0, 32, .ro, 0, false, false, .wraps⟩

/-- streams and decode (R78) -/
def R.CR_BASE : RegField :=
  ⟨31, 0x401010, 32, 0x40, 1, 0x0, 12, 34, .rw, 0, false, true, .wraps⟩

/-- streams and decode (R78) -/
def R.CR_VECTOR : RegField :=
  ⟨32, 0x401018, 32, 0x40, 1, 0x0, 0, 11, .rw, 0, false, false, .wraps⟩

/-- streams and decode (R78) -/
def R.CR_IRQ_EN : RegField :=
  ⟨33, 0x401018, 32, 0x40, 1, 0x0, 11, 1, .rw, 0, false, false, .wraps⟩

/-- streams and decode (R78) -/
def R.CR_COUNT_THR : RegField :=
  ⟨34, 0x401018, 32, 0x40, 1, 0x0, 16, 8, .rw, 1, false, false, .wraps⟩

/-- streams and decode (R78) -/
def R.CR_TIME_THR : RegField :=
  ⟨35, 0x401018, 32, 0x40, 1, 0x0, 24, 8, .rw, 0, false, false, .wraps⟩

/-- streams and decode (R78) -/
def R.CR_TAIL : RegField :=
  ⟨36, 0x40101C, 32, 0x40, 1, 0x0, 0, 32, .ro, 0, false, false, .wraps⟩

/-- streams and decode (R78) -/
def R.CR_LOG2 : RegField :=
  ⟨37, 0x401020, 32, 0x40, 1, 0x0, 0, 5, .rw, 0, false, false, .wraps⟩

/-- streams and decode (R78) -/
def R.CR_EN : RegField :=
  ⟨38, 0x401020, 32, 0x40, 1, 0x0, 16, 1, .rw, 0, false, false, .wraps⟩

/-- streams and decode (R78) -/
def R.CR_HEAD : RegField :=
  ⟨39, 0x401024, 32, 0x40, 1, 0x0, 0, 32, .ro, 0, false, false, .wraps⟩

/-- streams and decode (R78) -/
def R.MQ_BASE : RegField :=
  ⟨40, 0x402000, 16, 0x40, 1, 0x0, 12, 34, .rw, 0, false, true, .wraps⟩

/-- streams and decode (R78) -/
def R.MQ_CFG_LOG2 : RegField :=
  ⟨41, 0x402008, 16, 0x40, 1, 0x0, 0, 5, .rw, 0, false, false, .wraps⟩

/-- streams and decode (R78) -/
def R.MQ_CFG_EN : RegField :=
  ⟨42, 0x402008, 16, 0x40, 1, 0x0, 16, 1, .rw, 0, false, false, .wraps⟩

/-- streams and decode (R78) -/
def R.MQ_IRQ_VECTOR : RegField :=
  ⟨43, 0x40200C, 16, 0x40, 1, 0x0, 0, 11, .rw, 0, false, false, .wraps⟩

/-- streams and decode (R78) -/
def R.MQ_IRQ_IRQ_EN : RegField :=
  ⟨44, 0x40200C, 16, 0x40, 1, 0x0, 11, 1, .rw, 0, false, false, .wraps⟩

/-- streams and decode (R78) -/
def R.MQ_IRQ_COUNT_THR : RegField :=
  ⟨45, 0x40200C, 16, 0x40, 1, 0x0, 16, 8, .rw, 1, false, false, .wraps⟩

/-- streams and decode (R78) -/
def R.MQ_IRQ_TIME_THR : RegField :=
  ⟨46, 0x40200C, 16, 0x40, 1, 0x0, 24, 8, .rw, 0, false, false, .wraps⟩

/-- streams and decode (R78) -/
def R.MQ_TAIL : RegField :=
  ⟨47, 0x402010, 16, 0x40, 1, 0x0, 0, 32, .ro, 0, false, false, .wraps⟩

/-- streams and decode (R78) -/
def R.MQ_HEAD : RegField :=
  ⟨48, 0x402014, 16, 0x40, 1, 0x0, 0, 32, .ro, 0, false, false, .wraps⟩

/-- streams and decode (R78) -/
def R.MQ_STALL_STALLS : RegField :=
  ⟨49, 0x402018, 16, 0x40, 1, 0x0, 0, 32, .rc, 0, false, false, .unstated⟩

/-- streams and decode (R78) -/
def R.VD_CTL_EN : RegField :=
  ⟨50, 0x410000, 12, 0x1000, 1, 0x0, 0, 1, .rw, 0, true, false, .wraps⟩

/-- streams and decode (R78) -/
def R.VD_STATUS_BUSY : RegField :=
  ⟨51, 0x410004, 12, 0x1000, 1, 0x0, 0, 1, .ro, 0, false, false, .wraps⟩

/-- streams and decode (R78) -/
def R.VD_STATUS_LIVE : RegField :=
  ⟨52, 0x410004, 12, 0x1000, 1, 0x0, 1, 1, .ro, 0, false, false, .wraps⟩

/-- streams and decode (R78) -/
def R.VD_STATUS_STREAM : RegField :=
  ⟨53, 0x410004, 12, 0x1000, 1, 0x0, 4, 10, .ro, 0, false, false, .wraps⟩

/-- streams and decode (R78) -/
def R.VD_ELAPSED : RegField :=
  ⟨54, 0x410008, 12, 0x1000, 1, 0x0, 0, 32, .ro, 0, false, false, .wraps⟩

/-- streams and decode (R78) -/
def R.VD_FRAMES : RegField :=
  ⟨55, 0x41000C, 12, 0x1000, 1, 0x0, 0, 32, .ro, 0, false, false, .wraps⟩

/-- streams and decode (R78) -/
def R.VD_CONCEALED : RegField :=
  ⟨56, 0x410010, 12, 0x1000, 1, 0x0, 0, 32, .ro, 0, false, false, .wraps⟩

/-- streams and decode (R78) -/
def R.VD_ABANDONED : RegField :=
  ⟨57, 0x410014, 12, 0x1000, 1, 0x0, 0, 32, .ro, 0, false, false, .wraps⟩

/-- shapers (R104) -/
def R.SH_CTL_EN : RegField :=
  ⟨58, 0x500000, 8, 0x1000, 1, 0x0, 0, 1, .rw, 0, true, false, .wraps⟩

/-- shapers (R104) -/
def R.SH_STATUS_BUSY : RegField :=
  ⟨59, 0x500004, 8, 0x1000, 1, 0x0, 0, 1, .ro, 0, false, false, .wraps⟩

/-- shapers (R104) -/
def R.SH_STATUS_LIVE : RegField :=
  ⟨60, 0x500004, 8, 0x1000, 1, 0x0, 1, 1, .ro, 0, false, false, .wraps⟩

/-- shapers (R104) -/
def R.SH_STATUS_REPLACING : RegField :=
  ⟨61, 0x500004, 8, 0x1000, 1, 0x0, 2, 1, .ro, 0, false, false, .wraps⟩

/-- shapers (R104) -/
def R.SH_STATUS_STREAM : RegField :=
  ⟨62, 0x500004, 8, 0x1000, 1, 0x0, 4, 10, .ro, 0, false, false, .wraps⟩

/-- shapers (R104) -/
def R.SH_SAMPLES : RegField :=
  ⟨63, 0x500008, 8, 0x1000, 1, 0x0, 0, 32, .ro, 0, false, false, .wraps⟩

/-- shapers (R104) -/
def R.SH_SAT : RegField :=
  ⟨64, 0x50000C, 8, 0x1000, 1, 0x0, 0, 32, .rc, 0, false, false, .unstated⟩

/-- shapers (R104) -/
def R.SH_CORRUPT : RegField :=
  ⟨65, 0x500010, 8, 0x1000, 1, 0x0, 0, 32, .rc, 0, false, false, .unstated⟩

/-- shapers (R104) -/
def R.SH_SKIPPED : RegField :=
  ⟨66, 0x500014, 8, 0x1000, 1, 0x0, 0, 32, .rc, 0, false, false, .unstated⟩

/-- shapers (R104) -/
def R.SH_WAIT_MAX_VCYCLES : RegField :=
  ⟨67, 0x508000, 1, 0x0, 1, 0x0, 0, 32, .rc, 0, false, false, .unstated⟩

/-- chanters (R105) -/
def R.CHT_STATUS_DRAINING : RegField :=
  ⟨68, 0xC00000, 4, 0x100000, 1, 0x0, 3, 1, .ro, 0, false, false, .wraps⟩

/-- chanters (R105) -/
def R.CHT_STATUS_BUSY : RegField :=
  ⟨69, 0xC00000, 4, 0x100000, 1, 0x0, 2, 1, .ro, 0, false, false, .wraps⟩

/-- chanters (R105) -/
def R.CHT_STATUS_CLASS : RegField :=
  ⟨70, 0xC00000, 4, 0x100000, 1, 0x0, 0, 2, .ro, 0, false, false, .wraps⟩

/-- chanters (R105) -/
def R.BQ_EN : RegField :=
  ⟨71, 0xC01000, 4, 0x100000, 4, 0x100, 0, 1, .rw, 0, false, false, .wraps⟩

/-- chanters (R105) -/
def R.BQ_LIVE : RegField :=
  ⟨72, 0xC01000, 4, 0x100000, 4, 0x100, 1, 1, .rw, 0, false, false, .wraps⟩

/-- chanters (R105) -/
def R.BQ_TUNE : RegField :=
  ⟨73, 0xC01000, 4, 0x100000, 4, 0x100, 2, 1, .rw, 0, false, false, .wraps⟩

/-- chanters (R105) -/
def R.BQ_OVERRUN : RegField :=
  ⟨74, 0xC01000, 4, 0x100000, 4, 0x100, 3, 1, .rw, 0, false, false, .wraps⟩

/-- chanters (R105) -/
def R.BQ_REPL : RegField :=
  ⟨75, 0xC01000, 4, 0x100000, 4, 0x100, 4, 1, .rw, 0, false, false, .wraps⟩

/-- chanters (R105) -/
def R.BQ_NAREA : RegField :=
  ⟨76, 0xC01000, 4, 0x100000, 4, 0x100, 8, 2, .rw, 0, false, false, .wraps⟩

/-- chanters (R105) -/
def R.BQ_SIZE : RegField :=
  ⟨77, 0xC01000, 4, 0x100000, 4, 0x100, 16, 7, .rw, 1, false, false, .wraps⟩

/-- chanters (R105) -/
def R.BQ_CORES : RegField :=
  ⟨78, 0xC01000, 4, 0x100000, 4, 0x100, 24, 4, .rw, 15, false, false, .wraps⟩

/-- chanters (R105) -/
def R.BQ_PAD : RegField :=
  ⟨79, 0xC01004, 4, 0x100000, 4, 0x100, 0, 8, .rw, 0, false, false, .wraps⟩

/-- chanters (R105) -/
def R.BQ_AREA : RegField :=
  ⟨80, 0xC01008, 4, 0x100000, 4, 0x100, 12, 36, .rw, 0, false, true, .wraps⟩

/-- chanters (R105) -/
def R.BQ_SLOT_STRIDE : RegField :=
  ⟨81, 0xC01010, 4, 0x100000, 4, 0x100, 12, 12, .rw, 0, false, false, .wraps⟩

/-- chanters (R105) -/
def R.BQ_TIMEOUT : RegField :=
  ⟨82, 0xC01014, 4, 0x100000, 4, 0x100, 0, 16, .rw, 0, false, false, .wraps⟩

/-- chanters (R105) -/
def R.BQ_JOB_ADDR : RegField :=
  ⟨83, 0xC01018, 4, 0x100000, 4, 0x100, 6, 42, .rw, 0, false, true, .wraps⟩

/-- chanters (R105) -/
def R.BQ_SEQ : RegField :=
  ⟨84, 0xC01020, 4, 0x100000, 4, 0x100, 0, 32, .ro, 0, false, false, .wraps⟩

/-- chanters (R105) -/
def R.BQ_RESERVED_SLOTS : RegField :=
  ⟨85, 0xC01024, 4, 0x100000, 4, 0x100, 0, 7, .ro, 0, false, false, .wraps⟩

/-- chanters (R105) -/
def R.BQ_FREE_AREAS : RegField :=
  ⟨86, 0xC01024, 4, 0x100000, 4, 0x100, 8, 3, .ro, 0, false, false, .wraps⟩

/-- chanters (R105) -/
def R.BQ_IDLE : RegField :=
  ⟨87, 0xC01024, 4, 0x100000, 4, 0x100, 16, 1, .ro, 1, false, false, .wraps⟩

/-- chanters (R105) -/
def R.BQ_CFG_ERR : RegField :=
  ⟨88, 0xC01024, 4, 0x100000, 4, 0x100, 17, 1, .ro, 0, false, false, .wraps⟩

/-- chanters (R105) -/
def R.BQ_DONE : RegField :=
  ⟨89, 0xC01024, 4, 0x100000, 4, 0x100, 18, 1, .ro, 0, false, false, .wraps⟩

/-- chanters (R105) -/
def R.BQ_DELIVERED : RegField :=
  ⟨90, 0xC01028, 4, 0x100000, 4, 0x100, 0, 32, .ro, 0, false, false, .wraps⟩

/-- chanters (R105) -/
def R.BQ_REPLACED : RegField :=
  ⟨91, 0xC0102C, 4, 0x100000, 4, 0x100, 0, 32, .rc, 0, false, false, .unstated⟩

/-- chanters (R105) -/
def R.BQ_PADDED : RegField :=
  ⟨92, 0xC01030, 4, 0x100000, 4, 0x100, 0, 32, .rc, 0, false, false, .unstated⟩

/-- chanters (R105) -/
def R.BQ_FILL_MAP_OFF : RegField :=
  ⟨93, 0xC01034, 4, 0x100000, 4, 0x100, 8, 16, .rw, 0, false, false, .wraps⟩

/-- chanters (R105) -/
def R.BQ_LIST : RegField :=
  ⟨94, 0xC01038, 4, 0x100000, 4, 0x100, 5, 43, .rw, 0, false, true, .wraps⟩

/-- chanters (R105) -/
def R.BQ_LIST_N : RegField :=
  ⟨95, 0xC01040, 4, 0x100000, 4, 0x100, 0, 24, .rw, 0, false, false, .wraps⟩

/-- chanters (R105) -/
def R.BQ_POS : RegField :=
  ⟨96, 0xC01044, 4, 0x100000, 4, 0x100, 0, 24, .ro, 0, false, false, .wraps⟩

/-- chanters (R105) -/
def R.BQ_SEED : RegField :=
  ⟨97, 0xC01048, 4, 0x100000, 4, 0x100, 0, 64, .rw, 0, false, true, .wraps⟩

/-- chanters (R105) -/
def R.BQ_EPOCH : RegField :=
  ⟨98, 0xC01050, 4, 0x100000, 4, 0x100, 0, 32, .rw, 0, false, false, .wraps⟩

/-- chanters (R105) -/
def R.BQ_EPOCH_LAST : RegField :=
  ⟨99, 0xC01054, 4, 0x100000, 4, 0x100, 0, 32, .rw, 0, false, false, .wraps⟩

/-- encoders (R120) -/
def R.VE_CTL_EN : RegField :=
  ⟨100, 0x520000, 4, 0x1000, 1, 0x0, 0, 1, .rw, 0, true, false, .wraps⟩

/-- encoders (R120) -/
def R.VE_STATUS_BUSY : RegField :=
  ⟨101, 0x520004, 4, 0x1000, 1, 0x0, 0, 1, .ro, 0, false, false, .wraps⟩

/-- encoders (R120) -/
def R.VE_STATUS_LIVE : RegField :=
  ⟨102, 0x520004, 4, 0x1000, 1, 0x0, 1, 1, .ro, 0, false, false, .wraps⟩

/-- encoders (R120) -/
def R.VE_STATUS_STREAM : RegField :=
  ⟨103, 0x520004, 4, 0x1000, 1, 0x0, 4, 10, .ro, 0, false, false, .wraps⟩

/-- encoders (R120) -/
def R.VE_FRAMES : RegField :=
  ⟨104, 0x520008, 4, 0x1000, 1, 0x0, 0, 32, .ro, 0, false, false, .wraps⟩

/-- encoders (R120) -/
def R.VE_BYTES : RegField :=
  ⟨105, 0x52000C, 4, 0x1000, 1, 0x0, 0, 32, .ro, 0, false, false, .wraps⟩

/-- encoders (R120) -/
def R.VE_CAP_OVER : RegField :=
  ⟨106, 0x520010, 4, 0x1000, 1, 0x0, 0, 32, .rc, 0, false, false, .unstated⟩

/-- encoders (R120) -/
def R.VE_REQ_BASE : RegField :=
  ⟨107, 0x528000, 1, 0x0, 1, 0x0, 5, 43, .rw, 0, false, true, .wraps⟩

/-- encoders (R120) -/
def R.VE_REQ_LOG2 : RegField :=
  ⟨108, 0x528008, 1, 0x0, 1, 0x0, 0, 5, .rw, 0, false, false, .wraps⟩

/-- encoders (R120) -/
def R.VE_REQ_EN : RegField :=
  ⟨109, 0x528008, 1, 0x0, 1, 0x0, 16, 1, .rw, 0, false, false, .wraps⟩

/-- encoders (R120) -/
def R.VE_REQ_PROD : RegField :=
  ⟨110, 0x52800C, 1, 0x0, 1, 0x0, 0, 32, .rw, 0, false, false, .wraps⟩

/-- encoders (R120) -/
def R.VE_REQ_CONS : RegField :=
  ⟨111, 0x528010, 1, 0x0, 1, 0x0, 0, 32, .ro, 0, false, false, .wraps⟩

/-- encoders (R120) -/
def R.VE_ACTIVE : RegField :=
  ⟨112, 0x528014, 1, 0x0, 1, 0x0, 0, 7, .ro, 0, false, false, .wraps⟩

/-- encoders (R120) -/
def R.VE_OUT_WAIT : RegField :=
  ⟨113, 0x528018, 1, 0x0, 1, 0x0, 0, 16, .rw, 1000, false, false, .wraps⟩

/-- encoders (R120) -/
def R.VE_LIVE_WAIT_MAX : RegField :=
  ⟨114, 0x52801C, 1, 0x0, 1, 0x0, 0, 32, .rc, 0, false, false, .unstated⟩

/-- arrays (R153) -/
def R.ARRAY_FILL_LAT_NORMAL : RegField :=
  ⟨115, 0x1004000, 16, 0x80000, 1, 0x0, 0, 8, .ro, 0, true, false, .wraps⟩

/-- arrays (R153) -/
def R.ARRAY_FILL_LAT_FIFE32 : RegField :=
  ⟨116, 0x1004000, 16, 0x80000, 1, 0x0, 8, 8, .ro, 0, true, false, .wraps⟩

/-- arrays (R153) -/
def R.ARRAY_FILL_LAT_FIFE16 : RegField :=
  ⟨117, 0x1004000, 16, 0x80000, 1, 0x0, 16, 8, .ro, 0, true, false, .wraps⟩

/-- arrays (R153) -/
def R.ARRAY_REPAIR_A_SPROW : RegField :=
  ⟨118, 0x1004004, 16, 0x80000, 1, 0x0, 0, 2, .ro, 0, true, false, .wraps⟩

/-- arrays (R153) -/
def R.ARRAY_REPAIR_A_SPCOL : RegField :=
  ⟨119, 0x1004004, 16, 0x80000, 1, 0x0, 2, 2, .ro, 0, true, false, .wraps⟩

/-- arrays (R153) -/
def R.ARRAY_REPAIR_A_ROWCHK : RegField :=
  ⟨120, 0x1004004, 16, 0x80000, 1, 0x0, 4, 1, .ro, 0, true, false, .wraps⟩

/-- arrays (R153) -/
def R.ARRAY_REPAIR_A_COLCHK : RegField :=
  ⟨121, 0x1004004, 16, 0x80000, 1, 0x0, 5, 1, .ro, 0, true, false, .wraps⟩

/-- arrays (R153) -/
def R.ARRAY_REPAIR_B_SPROW : RegField :=
  ⟨122, 0x1004004, 16, 0x80000, 1, 0x0, 8, 2, .ro, 0, true, false, .wraps⟩

/-- arrays (R153) -/
def R.ARRAY_REPAIR_B_SPCOL : RegField :=
  ⟨123, 0x1004004, 16, 0x80000, 1, 0x0, 10, 2, .ro, 0, true, false, .wraps⟩

/-- arrays (R153) -/
def R.ARRAY_REPAIR_B_ROWCHK : RegField :=
  ⟨124, 0x1004004, 16, 0x80000, 1, 0x0, 12, 1, .ro, 0, true, false, .wraps⟩

/-- arrays (R153) -/
def R.ARRAY_REPAIR_B_COLCHK : RegField :=
  ⟨125, 0x1004004, 16, 0x80000, 1, 0x0, 13, 1, .ro, 0, true, false, .wraps⟩

/-- arrays (R153) -/
def R.ARRAY_REPAIR_MAP_A_SROW0 : RegField :=
  ⟨126, 0x1004008, 16, 0x80000, 1, 0x0, 0, 7, .ro, 0, true, false, .wraps⟩

/-- arrays (R153) -/
def R.ARRAY_REPAIR_MAP_B_SROW0 : RegField :=
  ⟨127, 0x100400C, 16, 0x80000, 1, 0x0, 0, 7, .ro, 0, true, false, .wraps⟩

/-- arrays (R153) -/
def R.ARRAY_REPAIR_MAP_A_SROW0_EN : RegField :=
  ⟨128, 0x1004008, 16, 0x80000, 1, 0x0, 7, 1, .ro, 0, true, false, .wraps⟩

/-- arrays (R153) -/
def R.ARRAY_REPAIR_MAP_B_SROW0_EN : RegField :=
  ⟨129, 0x100400C, 16, 0x80000, 1, 0x0, 7, 1, .ro, 0, true, false, .wraps⟩

/-- arrays (R153) -/
def R.ARRAY_REPAIR_MAP_A_SROW1 : RegField :=
  ⟨130, 0x1004008, 16, 0x80000, 1, 0x0, 8, 7, .ro, 0, true, false, .wraps⟩

/-- arrays (R153) -/
def R.ARRAY_REPAIR_MAP_B_SROW1 : RegField :=
  ⟨131, 0x100400C, 16, 0x80000, 1, 0x0, 8, 7, .ro, 0, true, false, .wraps⟩

/-- arrays (R153) -/
def R.ARRAY_REPAIR_MAP_A_SROW1_EN : RegField :=
  ⟨132, 0x1004008, 16, 0x80000, 1, 0x0, 15, 1, .ro, 0, true, false, .wraps⟩

/-- arrays (R153) -/
def R.ARRAY_REPAIR_MAP_B_SROW1_EN : RegField :=
  ⟨133, 0x100400C, 16, 0x80000, 1, 0x0, 15, 1, .ro, 0, true, false, .wraps⟩

/-- arrays (R153) -/
def R.ARRAY_REPAIR_MAP_A_SCOL0 : RegField :=
  ⟨134, 0x1004008, 16, 0x80000, 1, 0x0, 16, 7, .ro, 0, true, false, .wraps⟩

/-- arrays (R153) -/
def R.ARRAY_REPAIR_MAP_B_SCOL0 : RegField :=
  ⟨135, 0x100400C, 16, 0x80000, 1, 0x0, 16, 7, .ro, 0, true, false, .wraps⟩

/-- arrays (R153) -/
def R.ARRAY_REPAIR_MAP_A_SCOL0_EN : RegField :=
  ⟨136, 0x1004008, 16, 0x80000, 1, 0x0, 23, 1, .ro, 0, true, false, .wraps⟩

/-- arrays (R153) -/
def R.ARRAY_REPAIR_MAP_B_SCOL0_EN : RegField :=
  ⟨137, 0x100400C, 16, 0x80000, 1, 0x0, 23, 1, .ro, 0, true, false, .wraps⟩

/-- arrays (R153) -/
def R.ARRAY_REPAIR_MAP_A_SCOL1 : RegField :=
  ⟨138, 0x1004008, 16, 0x80000, 1, 0x0, 24, 7, .ro, 0, true, false, .wraps⟩

/-- arrays (R153) -/
def R.ARRAY_REPAIR_MAP_B_SCOL1 : RegField :=
  ⟨139, 0x100400C, 16, 0x80000, 1, 0x0, 24, 7, .ro, 0, true, false, .wraps⟩

/-- arrays (R153) -/
def R.ARRAY_REPAIR_MAP_A_SCOL1_EN : RegField :=
  ⟨140, 0x1004008, 16, 0x80000, 1, 0x0, 31, 1, .ro, 0, true, false, .wraps⟩

/-- arrays (R153) -/
def R.ARRAY_REPAIR_MAP_B_SCOL1_EN : RegField :=
  ⟨141, 0x100400C, 16, 0x80000, 1, 0x0, 31, 1, .ro, 0, true, false, .wraps⟩

/-- arrays (R153) -/
def R.ARRAY_CTL_PREEMPT_EN : RegField :=
  ⟨142, 0x1004010, 16, 0x80000, 1, 0x0, 0, 1, .rw, 0, false, false, .wraps⟩

/-- arrays (R153) -/
def R.ARRAY_CTL_CHK_OFF : RegField :=
  ⟨143, 0x1004010, 16, 0x80000, 1, 0x0, 1, 1, .rw, 0, false, false, .wraps⟩

/-- arrays (R153) -/
def R.ARRAY_CTL_GATE_IDLE : RegField :=
  ⟨144, 0x1004010, 16, 0x80000, 1, 0x0, 8, 8, .rw, 64, false, false, .wraps⟩

/-- arrays (R153) -/
def R.ARRAY_CKPT_BASE_BASE : RegField :=
  ⟨145, 0x1004018, 16, 0x80000, 1, 0x0, 12, 36, .rw, 0, false, true, .wraps⟩

/-- arrays (R153) -/
def R.ARRAY_STATUS_A_BUSY : RegField :=
  ⟨146, 0x1004020, 16, 0x80000, 1, 0x0, 0, 1, .ro, 0, false, false, .wraps⟩

/-- arrays (R153) -/
def R.ARRAY_STATUS_B_BUSY : RegField :=
  ⟨147, 0x1004020, 16, 0x80000, 1, 0x0, 1, 1, .ro, 0, false, false, .wraps⟩

/-- arrays (R153) -/
def R.ARRAY_STATUS_GATED : RegField :=
  ⟨148, 0x1004020, 16, 0x80000, 1, 0x0, 2, 1, .ro, 1, false, false, .wraps⟩

/-- arrays (R153) -/
def R.ARRAY_STATUS_RAMP_LEVEL : RegField :=
  ⟨149, 0x1004020, 16, 0x80000, 1, 0x0, 3, 4, .ro, 0, false, false, .wraps⟩

/-- arrays (R153) -/
def R.ARRAY_STATUS_THROTTLED : RegField :=
  ⟨150, 0x1004020, 16, 0x80000, 1, 0x0, 7, 1, .ro, 0, false, false, .wraps⟩

/-- arrays (R153) -/
def R.ARRAY_STATUS_SHAPE : RegField :=
  ⟨151, 0x1004020, 16, 0x80000, 1, 0x0, 8, 2, .ro, 0, false, false, .wraps⟩

/-- arrays (R153) -/
def R.ARRAY_STATUS_CKPT_VALID : RegField :=
  ⟨152, 0x1004020, 16, 0x80000, 1, 0x0, 10, 1, .ro, 0, false, false, .wraps⟩

/-- arrays (R153) -/
def R.ARRAY_STATUS_PREEMPT_PENDING : RegField :=
  ⟨153, 0x1004020, 16, 0x80000, 1, 0x0, 11, 1, .ro, 0, false, false, .wraps⟩

/-- arrays (R153) -/
def R.ARRAY_FAULT_SCALE_SYNC : RegField :=
  ⟨154, 0x1004024, 16, 0x80000, 1, 0x0, 0, 1, .rw1c, 0, false, false, .wraps⟩

/-- arrays (R153) -/
def R.ARRAY_FAULT_CHECKSUM : RegField :=
  ⟨155, 0x1004024, 16, 0x80000, 1, 0x0, 1, 1, .rw1c, 0, false, false, .wraps⟩

/-- arrays (R153) -/
def R.ARRAY_FAULT_POISON : RegField :=
  ⟨156, 0x1004024, 16, 0x80000, 1, 0x0, 2, 1, .rw1c, 0, false, false, .wraps⟩

/-- arrays (R153) -/
def R.ARRAY_FAULT_CKPT : RegField :=
  ⟨157, 0x1004024, 16, 0x80000, 1, 0x0, 3, 1, .rw1c, 0, false, false, .wraps⟩

/-- arrays (R153) -/
def R.ARRAY_FAULT_STOP_SHED : RegField :=
  ⟨158, 0x1004024, 16, 0x80000, 1, 0x0, 4, 1, .rw1c, 0, false, false, .wraps⟩

/-- arrays (R153) -/
def R.ARRAY_FAULT_CKPT_CFG : RegField :=
  ⟨159, 0x1004024, 16, 0x80000, 1, 0x0, 5, 1, .rw1c, 0, false, false, .wraps⟩

/-- arrays (R153) -/
def R.ARRAY_FAULT_ARRAY : RegField :=
  ⟨160, 0x1004024, 16, 0x80000, 1, 0x0, 8, 1, .ro, 0, false, false, .wraps⟩

/-- arrays (R153) -/
def R.ARRAY_FAULT_AXIS : RegField :=
  ⟨161, 0x1004024, 16, 0x80000, 1, 0x0, 9, 1, .ro, 0, false, false, .wraps⟩

/-- arrays (R153) -/
def R.ARRAY_FAULT_INDEX : RegField :=
  ⟨162, 0x1004024, 16, 0x80000, 1, 0x0, 16, 7, .ro, 0, false, false, .wraps⟩

/-- arrays (R153) -/
def R.ARRAY_STEPS : RegField :=
  ⟨163, 0x1004028, 16, 0x80000, 1, 0x0, 0, 64, .ro, 0, false, true, .wraps⟩

/-- arrays (R153) -/
def R.ARRAY_CHK_DONE : RegField :=
  ⟨164, 0x1004030, 16, 0x80000, 1, 0x0, 0, 32, .rc, 0, false, false, .unstated⟩

/-- arrays (R153) -/
def R.ARRAY_CHK_SKIPPED : RegField :=
  ⟨165, 0x1004034, 16, 0x80000, 1, 0x0, 0, 32, .rc, 0, false, false, .unstated⟩

/-- arrays (R153) -/
def R.ARRAY_PREEMPTS : RegField :=
  ⟨166, 0x1004038, 16, 0x80000, 1, 0x0, 0, 32, .rc, 0, false, false, .unstated⟩

/-- arrays (R153) -/
def R.ARRAY_PREEMPT_LAT_MAX : RegField :=
  ⟨167, 0x100403C, 16, 0x80000, 1, 0x0, 0, 32, .rc, 0, false, false, .unstated⟩

/-- arrays (R153) -/
def R.ARRAY_THROTTLE_CYC : RegField :=
  ⟨168, 0x1004040, 16, 0x80000, 1, 0x0, 0, 32, .rc, 0, false, false, .unstated⟩

/-- arrays (R153) -/
def R.ARRAY_RAMPS : RegField :=
  ⟨169, 0x1004044, 16, 0x80000, 1, 0x0, 0, 32, .rc, 0, false, false, .unstated⟩

/-- numeric counters (R174) -/
def R.NUM_CTL_SAT_LOG : RegField :=
  ⟨170, 0x1004800, 16, 0x80000, 1, 0x0, 0, 1, .rw, 0, false, false, .wraps⟩

/-- numeric counters (R174) -/
def R.NUM_GSAT : RegField :=
  ⟨171, 0x1004804, 16, 0x80000, 1, 0x0, 0, 32, .rc, 0, false, false, .stops⟩

/-- numeric counters (R174) -/
def R.NUM_ACC_OVF : RegField :=
  ⟨172, 0x1004808, 16, 0x80000, 1, 0x0, 0, 32, .rc, 0, false, false, .stops⟩

/-- numeric counters (R174) -/
def R.NUM_EPI_SAT : RegField :=
  ⟨173, 0x100480C, 16, 0x80000, 1, 0x0, 0, 32, .rc, 0, false, false, .stops⟩

/-- numeric counters (R174) -/
def R.NUM_NONFINITE : RegField :=
  ⟨174, 0x1004810, 16, 0x80000, 1, 0x0, 0, 32, .rc, 0, false, false, .stops⟩

/-- numeric counters (R174) -/
def R.NUM_FLUSH : RegField :=
  ⟨175, 0x1004814, 16, 0x80000, 1, 0x0, 0, 32, .rc, 0, false, false, .stops⟩

/-- numeric counters (R174) -/
def R.NUM_BADSCALE : RegField :=
  ⟨176, 0x1004818, 16, 0x80000, 1, 0x0, 0, 32, .rc, 0, false, false, .stops⟩

/-- core control (R208) -/
def R.CORE_CTL_EN : RegField :=
  ⟨177, 0x1000000, 16, 0x80000, 1, 0x0, 0, 1, .rw, 0, true, false, .wraps⟩

/-- core control (R208) -/
def R.CORE_STATUS_STATE : RegField :=
  ⟨178, 0x1000004, 16, 0x80000, 1, 0x0, 0, 3, .ro, 0, false, false, .wraps⟩

/-- core control (R208) -/
def R.CORE_STATUS_WAIT : RegField :=
  ⟨179, 0x1000004, 16, 0x80000, 1, 0x0, 3, 4, .ro, 0, false, false, .wraps⟩

/-- core control (R208) -/
def R.CORE_STATUS_TQ_DEPTH : RegField :=
  ⟨180, 0x1000004, 16, 0x80000, 1, 0x0, 8, 3, .ro, 0, false, false, .wraps⟩

/-- core control (R208) -/
def R.CORE_STATUS_SEM : RegField :=
  ⟨181, 0x1000004, 16, 0x80000, 1, 0x0, 16, 6, .ro, 0, false, false, .wraps⟩

/-- core control (R208) -/
def R.CORE_PC : RegField :=
  ⟨182, 0x1000008, 16, 0x80000, 1, 0x0, 0, 48, .ro, 0, false, true, .wraps⟩

/-- core control (R208) -/
def R.CORE_JOB_TAG : RegField :=
  ⟨183, 0x1000010, 16, 0x80000, 1, 0x0, 0, 32, .ro, 0, false, false, .wraps⟩

/-- core control (R208) -/
def R.CORE_TRAP_CAUSE : RegField :=
  ⟨184, 0x1000014, 16, 0x80000, 1, 0x0, 0, 8, .ro, 0, false, false, .wraps⟩

/-- core control (R208) -/
def R.CORE_TRAP_VALID : RegField :=
  ⟨185, 0x1000014, 16, 0x80000, 1, 0x0, 31, 1, .rw1c, 0, false, false, .wraps⟩

/-- core control (R208) -/
def R.CORE_TRAP_PC : RegField :=
  ⟨186, 0x1000018, 16, 0x80000, 1, 0x0, 0, 48, .ro, 0, false, true, .wraps⟩

/-- core control (R208) -/
def R.CORE_TRAP_ADDR : RegField :=
  ⟨187, 0x1000020, 16, 0x80000, 1, 0x0, 0, 48, .ro, 0, false, true, .wraps⟩

/-- core control (R208) -/
def R.CORE_JOBS : RegField :=
  ⟨188, 0x1000028, 16, 0x80000, 1, 0x0, 0, 32, .ro, 0, false, false, .wraps⟩

/-- core control (R208) -/
def R.CORE_TRAPS : RegField :=
  ⟨189, 0x100002C, 16, 0x80000, 1, 0x0, 0, 32, .rc, 0, false, false, .unstated⟩

/-- core control (R208) -/
def R.CORE_ZERO_SHAPE : RegField :=
  ⟨190, 0x1000030, 16, 0x80000, 1, 0x0, 0, 32, .rc, 0, false, false, .unstated⟩

/-- core control (R208) -/
def R.CORE_SEM_WAIT_MAX : RegField :=
  ⟨191, 0x1000034, 16, 0x80000, 1, 0x0, 0, 32, .rc, 0, false, false, .unstated⟩

/-- core control (R208) -/
def R.CORE_INSNS : RegField :=
  ⟨192, 0x1000038, 16, 0x80000, 1, 0x0, 0, 64, .ro, 0, false, true, .wraps⟩

/-- cluster control (R209) -/
def R.CLU_SEM_TIMEOUT : RegField :=
  ⟨193, 0xC02000, 4, 0x100000, 1, 0x0, 0, 20, .rw, 1000, false, false, .wraps⟩

/-- cluster control (R209) -/
def R.CLU_LDR_STATUS_RESIDENT : RegField :=
  ⟨194, 0xC02004, 4, 0x100000, 1, 0x0, 0, 4, .ro, 0, false, false, .wraps⟩

/-- cluster control (R209) -/
def R.CLU_LDR_STATUS_BUSY : RegField :=
  ⟨195, 0xC02004, 4, 0x100000, 1, 0x0, 4, 1, .ro, 0, false, false, .wraps⟩

/-- cluster control (R209) -/
def R.CLU_LDR_STATUS_LAST_REJECT : RegField :=
  ⟨196, 0xC02004, 4, 0x100000, 1, 0x0, 8, 8, .ro, 0, false, false, .wraps⟩

/-- cluster control (R209) -/
def R.CLU_LDR_REJECTS : RegField :=
  ⟨197, 0xC02008, 4, 0x100000, 1, 0x0, 0, 32, .rc, 0, false, false, .unstated⟩

/-- cluster control (R209) -/
def R.CLU_LDR_LOADS : RegField :=
  ⟨198, 0xC0200C, 4, 0x100000, 1, 0x0, 0, 32, .ro, 0, false, false, .wraps⟩

/-- cluster control (R209) -/
def R.CLU_LDR_FLUSH : RegField :=
  ⟨199, 0xC02010, 4, 0x100000, 1, 0x0, 0, 1, .wo, 0, false, false, .wraps⟩

/-- cluster control (R209) -/
def R.CLU_SEM_COUNT : RegField :=
  ⟨200, 0xC02100, 4, 0x100000, 64, 0x4, 0, 16, .ro, 0, false, false, .wraps⟩

/-- cluster control (R209) -/
def R.CLU_SEM_WAITERS : RegField :=
  ⟨201, 0xC02100, 4, 0x100000, 64, 0x4, 16, 8, .ro, 0, false, false, .wraps⟩

/-- tensor sequencer (R232) -/
def R.TSQ_CUR_INSN : RegField :=
  ⟨202, 0x1005000, 16, 0x80000, 1, 0x0, 0, 48, .ro, 0, false, true, .wraps⟩

/-- tensor sequencer (R232) -/
def R.TSQ_TILES_COMPUTED : RegField :=
  ⟨203, 0x1005008, 16, 0x80000, 1, 0x0, 0, 32, .rc, 0, false, false, .stops⟩

/-- tensor sequencer (R232) -/
def R.TSQ_TILES_SKIPPED : RegField :=
  ⟨204, 0x100500C, 16, 0x80000, 1, 0x0, 0, 32, .rc, 0, false, false, .stops⟩

/-- tensor sequencer (R232) -/
def R.TSQ_COPY_CYC : RegField :=
  ⟨205, 0x1005010, 16, 0x80000, 1, 0x0, 0, 32, .rc, 0, false, false, .stops⟩

/-- tensor sequencer (R232) -/
def R.TSQ_MASK_CYC : RegField :=
  ⟨206, 0x1005014, 16, 0x80000, 1, 0x0, 0, 32, .rc, 0, false, false, .stops⟩

/-- tensor sequencer (R232) -/
def R.TSQ_CAUSAL_MASKED : RegField :=
  ⟨207, 0x1005018, 16, 0x80000, 1, 0x0, 0, 32, .rc, 0, false, false, .stops⟩

/-- window generator (R249) -/
def R.WIN_LAST_TAPS_LIVE : RegField :=
  ⟨208, 0x1005400, 16, 0x80000, 1, 0x0, 0, 10, .ro, 0, false, false, .wraps⟩

/-- window generator (R249) -/
def R.WIN_LAST_PASSES_LIVE : RegField :=
  ⟨209, 0x1005400, 16, 0x80000, 1, 0x0, 10, 5, .ro, 0, false, false, .wraps⟩

/-- window generator (R249) -/
def R.WIN_LAST_LAYOUT : RegField :=
  ⟨210, 0x1005400, 16, 0x80000, 1, 0x0, 16, 2, .ro, 0, false, false, .wraps⟩

/-- window generator (R249) -/
def R.WIN_TAPS_SKIPPED : RegField :=
  ⟨211, 0x1005404, 16, 0x80000, 1, 0x0, 0, 32, .rc, 0, false, false, .stops⟩

/-- window generator (R249) -/
def R.WIN_BUBBLES : RegField :=
  ⟨212, 0x1005408, 16, 0x80000, 1, 0x0, 0, 32, .rc, 0, false, false, .stops⟩

/-- window generator (R249) -/
def R.WIN_REDUCER_CYC : RegField :=
  ⟨213, 0x100540C, 16, 0x80000, 1, 0x0, 0, 32, .rc, 0, false, false, .stops⟩

/-- window generator (R249) -/
def R.WIN_GATHER_STEPS : RegField :=
  ⟨214, 0x1005410, 16, 0x80000, 1, 0x0, 0, 32, .rc, 0, false, false, .stops⟩

/-- core memory and bag (R276) -/
def R.CMEM_ECC_CTL_CE_LOG : RegField :=
  ⟨215, 0x1006000, 16, 0x80000, 1, 0x0, 0, 1, .rw, 0, false, false, .wraps⟩

/-- core memory and bag (R276) -/
def R.BAG_ECC_CTL_CE_LOG : RegField :=
  ⟨216, 0xC04000, 4, 0x100000, 1, 0x0, 0, 1, .rw, 0, false, false, .wraps⟩

/-- core memory and bag (R276) -/
def R.CMEM_ECC_CTL_SCRUB_EN : RegField :=
  ⟨217, 0x1006000, 16, 0x80000, 1, 0x0, 1, 1, .rw, 1, false, false, .wraps⟩

/-- core memory and bag (R276) -/
def R.BAG_ECC_CTL_SCRUB_EN : RegField :=
  ⟨218, 0xC04000, 4, 0x100000, 1, 0x0, 1, 1, .rw, 1, false, false, .wraps⟩

/-- core memory and bag (R276) -/
def R.CMEM_ECC_CTL_SCRUB_INTERVAL : RegField :=
  ⟨219, 0x1006000, 16, 0x80000, 1, 0x0, 16, 16, .rw, 1024, false, false, .wraps⟩

/-- core memory and bag (R276) -/
def R.BAG_ECC_CTL_SCRUB_INTERVAL : RegField :=
  ⟨220, 0xC04000, 4, 0x100000, 1, 0x0, 16, 16, .rw, 1024, false, false, .wraps⟩

/-- core memory and bag (R276) -/
def R.CMEM_ECC_CE : RegField :=
  ⟨221, 0x1006004, 16, 0x80000, 1, 0x0, 0, 32, .rc, 0, false, false, .stops⟩

/-- core memory and bag (R276) -/
def R.BAG_ECC_CE : RegField :=
  ⟨222, 0xC04004, 4, 0x100000, 1, 0x0, 0, 32, .rc, 0, false, false, .stops⟩

/-- core memory and bag (R276) -/
def R.CMEM_ECC_UE : RegField :=
  ⟨223, 0x1006008, 16, 0x80000, 1, 0x0, 0, 32, .rc, 0, false, false, .stops⟩

/-- core memory and bag (R276) -/
def R.BAG_ECC_UE : RegField :=
  ⟨224, 0xC04008, 4, 0x100000, 1, 0x0, 0, 32, .rc, 0, false, false, .stops⟩

/-- core memory and bag (R276) -/
def R.CMEM_POISON_WRITES : RegField :=
  ⟨225, 0x100600C, 16, 0x80000, 1, 0x0, 0, 32, .rc, 0, false, false, .stops⟩

/-- core memory and bag (R276) -/
def R.BAG_POISON_WRITES : RegField :=
  ⟨226, 0xC0400C, 4, 0x100000, 1, 0x0, 0, 32, .rc, 0, false, false, .stops⟩

/-- core memory and bag (R276) -/
def R.CMEM_ECC_ADDR_ADDR : RegField :=
  ⟨227, 0x1006010, 16, 0x80000, 1, 0x0, 0, 48, .ro, 0, false, true, .wraps⟩

/-- core memory and bag (R276) -/
def R.BAG_ECC_ADDR_ADDR : RegField :=
  ⟨228, 0xC04010, 4, 0x100000, 1, 0x0, 0, 48, .ro, 0, false, true, .wraps⟩

/-- core memory and bag (R276) -/
def R.CMEM_ECC_ADDR_UE : RegField :=
  ⟨229, 0x1006010, 16, 0x80000, 1, 0x0, 56, 1, .ro, 0, false, true, .wraps⟩

/-- core memory and bag (R276) -/
def R.BAG_ECC_ADDR_UE : RegField :=
  ⟨230, 0xC04010, 4, 0x100000, 1, 0x0, 56, 1, .ro, 0, false, true, .wraps⟩

/-- core memory and bag (R276) -/
def R.CMEM_ECC_ADDR_VALID : RegField :=
  ⟨231, 0x1006010, 16, 0x80000, 1, 0x0, 63, 1, .rw1c, 0, false, true, .wraps⟩

/-- core memory and bag (R276) -/
def R.BAG_ECC_ADDR_VALID : RegField :=
  ⟨232, 0xC04010, 4, 0x100000, 1, 0x0, 63, 1, .rw1c, 0, false, true, .wraps⟩

/-- core memory and bag (R276) -/
def R.CMEM_CONFLICT_CYC : RegField :=
  ⟨233, 0x1006018, 16, 0x80000, 1, 0x0, 0, 32, .rc, 0, false, false, .stops⟩

/-- core memory and bag (R276) -/
def R.CMEM_TENSOR_STALL : RegField :=
  ⟨234, 0x100601C, 16, 0x80000, 1, 0x0, 0, 32, .rc, 0, false, false, .stops⟩

/-- core memory and bag (R276) -/
def R.CMEM_SCRUB_PASSES : RegField :=
  ⟨235, 0x1006020, 16, 0x80000, 1, 0x0, 0, 32, .ro, 0, false, false, .wraps⟩

/-- core memory and bag (R276) -/
def R.BAG_SCRUB_PASSES : RegField :=
  ⟨236, 0xC04020, 4, 0x100000, 1, 0x0, 0, 32, .ro, 0, false, false, .wraps⟩

/-- core memory and bag (R276) -/
def R.CMEM_BEATS_RD : RegField :=
  ⟨237, 0x1006024, 16, 0x80000, 1, 0x0, 0, 32, .ro, 0, false, false, .wraps⟩

/-- core memory and bag (R276) -/
def R.BAG_BEATS_RD : RegField :=
  ⟨238, 0xC04024, 4, 0x100000, 1, 0x0, 0, 32, .ro, 0, false, false, .wraps⟩

/-- core memory and bag (R276) -/
def R.CMEM_BEATS_WR : RegField :=
  ⟨239, 0x1006028, 16, 0x80000, 1, 0x0, 0, 32, .ro, 0, false, false, .wraps⟩

/-- core memory and bag (R276) -/
def R.BAG_BEATS_WR : RegField :=
  ⟨240, 0xC04028, 4, 0x100000, 1, 0x0, 0, 32, .ro, 0, false, false, .wraps⟩

/-- arbiters (R277) -/
def R.BAG_ARB_CTL_PREEMPT_EN : RegField :=
  ⟨241, 0xC04100, 4, 0x100000, 1, 0x0, 0, 1, .rw, 1, false, false, .wraps⟩

/-- arbiters (R277) -/
def R.DRP_ARB_CTL_PREEMPT_EN : RegField :=
  ⟨242, 0x830000, 16, 0x40, 1, 0x0, 0, 1, .rw, 1, false, false, .wraps⟩

/-- arbiters (R277) -/
def R.HDE_ARB_CTL_PREEMPT_EN : RegField :=
  ⟨243, 0x280000, 1, 0x0, 1, 0x0, 0, 1, .rw, 1, false, false, .wraps⟩

/-- arbiters (R277) -/
def R.BAG_ARB_GRANTS : RegField :=
  ⟨244, 0xC04104, 4, 0x100000, 1, 0x0, 0, 32, .rc, 0, false, false, .stops⟩

/-- arbiters (R277) -/
def R.DRP_ARB_GRANTS : RegField :=
  ⟨245, 0x830004, 16, 0x40, 1, 0x0, 0, 32, .rc, 0, false, false, .stops⟩

/-- arbiters (R277) -/
def R.HDE_ARB_GRANTS : RegField :=
  ⟨246, 0x280004, 1, 0x0, 1, 0x0, 0, 32, .rc, 0, false, false, .stops⟩

/-- arbiters (R277) -/
def R.BAG_ARB_LOSSES : RegField :=
  ⟨247, 0xC04108, 4, 0x100000, 1, 0x0, 0, 32, .rc, 0, false, false, .stops⟩

/-- arbiters (R277) -/
def R.DRP_ARB_LOSSES : RegField :=
  ⟨248, 0x830008, 16, 0x40, 1, 0x0, 0, 32, .rc, 0, false, false, .stops⟩

/-- arbiters (R277) -/
def R.HDE_ARB_LOSSES : RegField :=
  ⟨249, 0x280008, 1, 0x0, 1, 0x0, 0, 32, .rc, 0, false, false, .stops⟩

/-- arbiters (R277) -/
def R.BAG_ARB_PROMOTIONS : RegField :=
  ⟨250, 0xC0410C, 4, 0x100000, 1, 0x0, 0, 32, .rc, 0, false, false, .stops⟩

/-- arbiters (R277) -/
def R.DRP_ARB_PROMOTIONS : RegField :=
  ⟨251, 0x83000C, 16, 0x40, 1, 0x0, 0, 32, .rc, 0, false, false, .stops⟩

/-- arbiters (R277) -/
def R.HDE_ARB_PROMOTIONS : RegField :=
  ⟨252, 0x28000C, 1, 0x0, 1, 0x0, 0, 32, .rc, 0, false, false, .stops⟩

/-- arbiters (R277) -/
def R.BAG_ARB_PREEMPTS : RegField :=
  ⟨253, 0xC04110, 4, 0x100000, 1, 0x0, 0, 32, .rc, 0, false, false, .stops⟩

/-- arbiters (R277) -/
def R.DRP_ARB_PREEMPTS : RegField :=
  ⟨254, 0x830010, 16, 0x40, 1, 0x0, 0, 32, .rc, 0, false, false, .stops⟩

/-- arbiters (R277) -/
def R.HDE_ARB_PREEMPTS : RegField :=
  ⟨255, 0x280010, 1, 0x0, 1, 0x0, 0, 32, .rc, 0, false, false, .stops⟩

/-- arbiters (R277) -/
def R.BAG_ARB_WAIT_MAX : RegField :=
  ⟨256, 0xC04114, 4, 0x100000, 1, 0x0, 0, 32, .rc, 0, false, false, .stops⟩

/-- arbiters (R277) -/
def R.DRP_ARB_WAIT_MAX : RegField :=
  ⟨257, 0x830014, 16, 0x40, 1, 0x0, 0, 32, .rc, 0, false, false, .stops⟩

/-- arbiters (R277) -/
def R.HDE_ARB_WAIT_MAX : RegField :=
  ⟨258, 0x280014, 1, 0x0, 1, 0x0, 0, 32, .rc, 0, false, false, .stops⟩

/-- arbiters (R277) -/
def R.BAG_ARB_BREATH_MAX : RegField :=
  ⟨259, 0xC04118, 4, 0x100000, 1, 0x0, 0, 11, .rc, 0, false, false, .stops⟩

/-- arbiters (R277) -/
def R.DRP_ARB_BREATH_MAX : RegField :=
  ⟨260, 0x830018, 16, 0x40, 1, 0x0, 0, 11, .rc, 0, false, false, .stops⟩

/-- arbiters (R277) -/
def R.HDE_ARB_BREATH_MAX : RegField :=
  ⟨261, 0x280018, 1, 0x0, 1, 0x0, 0, 11, .rc, 0, false, false, .stops⟩

/-- buffer pools (R300) -/
def R.BPM_POOL_CFG_EN : RegField :=
  ⟨262, 0x300000, 8, 0x100, 1, 0x0, 0, 1, .rw, 0, false, false, .wraps⟩

/-- buffer pools (R300) -/
def R.BPM_POOL_CFG_HOLD_EN : RegField :=
  ⟨263, 0x300000, 8, 0x100, 1, 0x0, 1, 1, .rw, 0, false, false, .wraps⟩

/-- buffer pools (R300) -/
def R.BPM_POOL_CFG_INIT_DONE : RegField :=
  ⟨264, 0x300000, 8, 0x100, 1, 0x0, 2, 1, .ro, 0, false, false, .wraps⟩

/-- buffer pools (R300) -/
def R.BPM_POOL_CFG_CFG_ERR : RegField :=
  ⟨265, 0x300000, 8, 0x100, 1, 0x0, 3, 1, .ro, 0, false, false, .wraps⟩

/-- buffer pools (R300) -/
def R.BPM_POOL_CFG_SIZE_LOG2 : RegField :=
  ⟨266, 0x300000, 8, 0x100, 1, 0x0, 8, 5, .rw, 12, false, false, .wraps⟩

/-- buffer pools (R300) -/
def R.BPM_POOL_COUNT : RegField :=
  ⟨267, 0x300004, 8, 0x100, 1, 0x0, 0, 19, .rw, 0, false, false, .wraps⟩

/-- buffer pools (R300) -/
def R.BPM_POOL_BASE : RegField :=
  ⟨268, 0x300008, 8, 0x100, 1, 0x0, 12, 36, .rw, 0, false, true, .wraps⟩

/-- buffer pools (R300) -/
def R.BPM_POOL_MAP : RegField :=
  ⟨269, 0x300010, 8, 0x100, 1, 0x0, 6, 42, .rw, 0, false, true, .wraps⟩

/-- buffer pools (R300) -/
def R.BPM_POOL_WARN : RegField :=
  ⟨270, 0x300018, 8, 0x100, 1, 0x0, 0, 19, .rw, 0, false, false, .wraps⟩

/-- buffer pools (R300) -/
def R.BPM_POOL_THROTTLE : RegField :=
  ⟨271, 0x30001C, 8, 0x100, 1, 0x0, 0, 19, .rw, 0, false, false, .wraps⟩

/-- buffer pools (R300) -/
def R.BPM_POOL_STOP : RegField :=
  ⟨272, 0x300020, 8, 0x100, 1, 0x0, 0, 19, .rw, 0, false, false, .wraps⟩

/-- buffer pools (R300) -/
def R.BPM_POOL_BP_HYST : RegField :=
  ⟨273, 0x300024, 8, 0x100, 1, 0x0, 0, 16, .rw, 16, false, false, .wraps⟩

/-- buffer pools (R300) -/
def R.BPM_POOL_BP_THR_GAP : RegField :=
  ⟨274, 0x300024, 8, 0x100, 1, 0x0, 16, 16, .rw, 64, false, false, .wraps⟩

/-- buffer pools (R300) -/
def R.BPM_POOL_IRQ_VECTOR : RegField :=
  ⟨275, 0x300028, 8, 0x100, 1, 0x0, 0, 11, .rw, 0, false, false, .wraps⟩

/-- buffer pools (R300) -/
def R.BPM_POOL_IRQ_IRQ_EN : RegField :=
  ⟨276, 0x300028, 8, 0x100, 1, 0x0, 11, 1, .rw, 0, false, false, .wraps⟩

/-- buffer pools (R300) -/
def R.BPM_POOL_STATUS_FREE : RegField :=
  ⟨277, 0x30002C, 8, 0x100, 1, 0x0, 0, 19, .ro, 0, false, false, .wraps⟩

/-- buffer pools (R300) -/
def R.BPM_POOL_STATUS_LEVEL : RegField :=
  ⟨278, 0x30002C, 8, 0x100, 1, 0x0, 24, 2, .ro, 0, false, false, .wraps⟩

/-- buffer pools (R300) -/
def R.BPM_POOL_STATUS_READY : RegField :=
  ⟨279, 0x30002C, 8, 0x100, 1, 0x0, 26, 6, .ro, 0, false, false, .wraps⟩

/-- buffer pools (R300) -/
def R.BPM_POOL_ALLOC : RegField :=
  ⟨280, 0x300030, 8, 0x100, 1, 0x0, 0, 48, .rc, 0, false, true, .stops⟩

/-- buffer pools (R300) -/
def R.BPM_POOL_ALLOC_LIVE : RegField :=
  ⟨281, 0x300038, 8, 0x100, 1, 0x0, 0, 48, .rc, 0, false, true, .stops⟩

/-- buffer pools (R300) -/
def R.BPM_POOL_MAX_USED : RegField :=
  ⟨282, 0x300040, 8, 0x100, 1, 0x0, 0, 19, .rc, 0, false, false, .stops⟩

/-- buffer pools (R300) -/
def R.BPM_POOL_ALLOCS : RegField :=
  ⟨283, 0x300044, 8, 0x100, 1, 0x0, 0, 32, .ro, 0, false, false, .wraps⟩

/-- buffer pools (R300) -/
def R.BPM_POOL_FREES : RegField :=
  ⟨284, 0x300048, 8, 0x100, 1, 0x0, 0, 32, .ro, 0, false, false, .wraps⟩

/-- buffer pools (R300) -/
def R.BPM_POOL_ALLOC_WAIT_CYC : RegField :=
  ⟨285, 0x30004C, 8, 0x100, 1, 0x0, 0, 32, .rc, 0, false, false, .stops⟩

/-- buffer pools (R300) -/
def R.BPM_POOL_ALLOC_FAILS : RegField :=
  ⟨286, 0x300050, 8, 0x100, 1, 0x0, 0, 32, .rc, 0, false, false, .stops⟩

/-- buffer pools (R300) -/
def R.BPM_POOL_ERRORS : RegField :=
  ⟨287, 0x300054, 8, 0x100, 1, 0x0, 0, 32, .rc, 0, false, false, .stops⟩

/-- buffer pools (R300) -/
def R.BPM_POOL_THROTTLE_CYC : RegField :=
  ⟨288, 0x300058, 8, 0x100, 1, 0x0, 0, 32, .rc, 0, false, false, .stops⟩

/-- buffer pools (R300) -/
def R.BPM_POOL_STOP_CYC : RegField :=
  ⟨289, 0x30005C, 8, 0x100, 1, 0x0, 0, 32, .rc, 0, false, false, .stops⟩

/-- buffer pools (R300) -/
def R.BPM_FREE : RegField :=
  ⟨290, 0x301000, 1, 0x0, 1, 0x0, 0, 48, .wo, 0, false, true, .wraps⟩

/-- buffer pools (R300) -/
def R.BPM_HOLD : RegField :=
  ⟨291, 0x301008, 1, 0x0, 1, 0x0, 0, 48, .wo, 0, false, true, .wraps⟩

/-- buffer pools (R300) -/
def R.BPM_RELEASE : RegField :=
  ⟨292, 0x301010, 1, 0x0, 1, 0x0, 0, 48, .wo, 0, false, true, .wraps⟩

/-- buffer pools (R300) -/
def R.BPM_OP_PENDING : RegField :=
  ⟨293, 0x301018, 1, 0x0, 1, 0x0, 0, 9, .ro, 0, false, false, .wraps⟩

/-- buffer pools (R300) -/
def R.BPM_OP_DROPS : RegField :=
  ⟨294, 0x30101C, 1, 0x0, 1, 0x0, 0, 32, .rc, 0, false, false, .stops⟩

/-- buffer pools (R300) -/
def R.BPM_ERR_LAST_PTR : RegField :=
  ⟨295, 0x301020, 1, 0x0, 1, 0x0, 0, 48, .ro, 0, false, true, .wraps⟩

/-- buffer pools (R300) -/
def R.BPM_ERR_LAST_CODE : RegField :=
  ⟨296, 0x301020, 1, 0x0, 1, 0x0, 48, 4, .ro, 0, false, true, .wraps⟩

/-- buffer pools (R300) -/
def R.BPM_ERR_LAST_VALID : RegField :=
  ⟨297, 0x301020, 1, 0x0, 1, 0x0, 63, 1, .rw1c, 0, false, true, .wraps⟩

/-- DMA (R301) -/
def R.DMA_CH_CFG_EN : RegField :=
  ⟨298, 0x200000, 64, 0x100, 1, 0x0, 0, 1, .rw, 0, false, false, .wraps⟩

/-- DMA (R301) -/
def R.DMA_CH_CFG_CLASS : RegField :=
  ⟨299, 0x200000, 64, 0x100, 1, 0x0, 1, 3, .rw, 0, false, false, .wraps⟩

/-- DMA (R301) -/
def R.DMA_CH_CFG_PACE : RegField :=
  ⟨300, 0x200000, 64, 0x100, 1, 0x0, 4, 2, .rw, 0, false, false, .wraps⟩

/-- DMA (R301) -/
def R.DMA_CH_CFG_PACE_SRC : RegField :=
  ⟨301, 0x200000, 64, 0x100, 1, 0x0, 8, 6, .rw, 0, false, false, .wraps⟩

/-- DMA (R301) -/
def R.DMA_CH_CFG_ABORT : RegField :=
  ⟨302, 0x200000, 64, 0x100, 1, 0x0, 16, 1, .wo, 0, false, false, .wraps⟩

/-- DMA (R301) -/
def R.DMA_CH_STATUS_BUSY : RegField :=
  ⟨303, 0x200004, 64, 0x100, 1, 0x0, 0, 1, .ro, 0, false, false, .wraps⟩

/-- DMA (R301) -/
def R.DMA_CH_STATUS_WAIT_PACE : RegField :=
  ⟨304, 0x200004, 64, 0x100, 1, 0x0, 1, 1, .ro, 0, false, false, .wraps⟩

/-- DMA (R301) -/
def R.DMA_CH_STATUS_WAIT_POOL : RegField :=
  ⟨305, 0x200004, 64, 0x100, 1, 0x0, 2, 1, .ro, 0, false, false, .wraps⟩

/-- DMA (R301) -/
def R.DMA_CH_STATUS_QUEUED : RegField :=
  ⟨306, 0x200004, 64, 0x100, 1, 0x0, 3, 5, .ro, 0, false, false, .wraps⟩

/-- DMA (R301) -/
def R.DMA_CH_QUEUE : RegField :=
  ⟨307, 0x200008, 64, 0x100, 1, 0x0, 6, 42, .wo, 0, false, true, .wraps⟩

/-- DMA (R301) -/
def R.DMA_CH_COUNT : RegField :=
  ⟨308, 0x200010, 64, 0x100, 1, 0x0, 0, 32, .ro, 0, false, false, .wraps⟩

/-- DMA (R301) -/
def R.DMA_CH_QCOUNT : RegField :=
  ⟨309, 0x200014, 64, 0x100, 1, 0x0, 0, 32, .ro, 0, false, false, .wraps⟩

/-- DMA (R301) -/
def R.DMA_CH_IRQ_VECTOR : RegField :=
  ⟨310, 0x200018, 64, 0x100, 1, 0x0, 0, 11, .rw, 0, false, false, .wraps⟩

/-- DMA (R301) -/
def R.DMA_CH_IRQ_IRQ_EN : RegField :=
  ⟨311, 0x200018, 64, 0x100, 1, 0x0, 11, 1, .rw, 0, false, false, .wraps⟩

/-- DMA (R301) -/
def R.DMA_CH_BAD : RegField :=
  ⟨312, 0x20001C, 64, 0x100, 1, 0x0, 0, 32, .rc, 0, false, false, .stops⟩

/-- DMA (R301) -/
def R.DMA_CH_BAD_ADDR_ADDR : RegField :=
  ⟨313, 0x200020, 64, 0x100, 1, 0x0, 0, 48, .ro, 0, false, true, .wraps⟩

/-- DMA (R301) -/
def R.DMA_CH_BAD_ADDR_CODE : RegField :=
  ⟨314, 0x200020, 64, 0x100, 1, 0x0, 52, 4, .ro, 0, false, true, .wraps⟩

/-- DMA (R301) -/
def R.DMA_CH_BAD_ADDR_VALID : RegField :=
  ⟨315, 0x200020, 64, 0x100, 1, 0x0, 63, 1, .rw1c, 0, false, true, .wraps⟩

/-- DMA (R301) -/
def R.DMA_CH_DROPS : RegField :=
  ⟨316, 0x200028, 64, 0x100, 1, 0x0, 0, 32, .rc, 0, false, false, .stops⟩

/-- DMA (R301) -/
def R.DMA_CH_ABORTED : RegField :=
  ⟨317, 0x20002C, 64, 0x100, 1, 0x0, 0, 32, .rc, 0, false, false, .stops⟩

/-- DMA (R301) -/
def R.DMA_CH_PACE_PERIOD : RegField :=
  ⟨318, 0x200030, 64, 0x100, 1, 0x0, 0, 32, .rw, 1000, false, false, .wraps⟩

/-- DMA (R301) -/
def R.DMA_CH_PACE_PHASE : RegField :=
  ⟨319, 0x200034, 64, 0x100, 1, 0x0, 0, 32, .rw, 0, false, false, .wraps⟩

/-- DMA (R301) -/
def R.DMA_CH_PACE_GRANT : RegField :=
  ⟨320, 0x200038, 64, 0x100, 1, 0x0, 0, 8, .wo, 0, false, false, .wraps⟩

/-- DMA (R301) -/
def R.DMA_CH_PACE_STAT_GRANTS : RegField :=
  ⟨321, 0x20003C, 64, 0x100, 1, 0x0, 0, 8, .ro, 0, false, false, .wraps⟩

/-- DMA (R301) -/
def R.DMA_CH_PACE_STAT_MISSED : RegField :=
  ⟨322, 0x20003C, 64, 0x100, 1, 0x0, 16, 16, .rc, 0, false, false, .stops⟩

/-- DMA (R301) -/
def R.DMA_CH_BYTES : RegField :=
  ⟨323, 0x200040, 64, 0x100, 1, 0x0, 0, 64, .ro, 0, false, true, .wraps⟩

/-- DMA (R301) -/
def R.DMA_ALLOC_WAIT : RegField :=
  ⟨324, 0x210000, 1, 0x0, 1, 0x0, 0, 16, .rw, 1000, false, false, .wraps⟩

/-- DMA (R301) -/
def R.DMA_OUTSTANDING : RegField :=
  ⟨325, 0x210004, 1, 0x0, 1, 0x0, 0, 13, .ro, 0, false, false, .wraps⟩

/-- DMA (R301) -/
def R.DMA_OUTSTANDING_MAX : RegField :=
  ⟨326, 0x210008, 1, 0x0, 1, 0x0, 0, 13, .rc, 0, false, false, .stops⟩

/-- DRAM controller (R323) -/
def R.DRC_CFG_SPEED : RegField :=
  ⟨327, 0x800000, 1, 0x0, 1, 0x0, 0, 2, .ro, 0, false, false, .wraps⟩

/-- DRAM controller (R323) -/
def R.DRC_CFG_RANKS : RegField :=
  ⟨328, 0x800000, 1, 0x0, 1, 0x0, 2, 1, .ro, 0, false, false, .wraps⟩

/-- DRAM controller (R323) -/
def R.DRC_CFG_CAP : RegField :=
  ⟨329, 0x800000, 1, 0x0, 1, 0x0, 4, 2, .ro, 0, false, false, .wraps⟩

/-- DRAM controller (R323) -/
def R.DRC_CFG_ECC_EN : RegField :=
  ⟨330, 0x800000, 1, 0x0, 1, 0x0, 6, 1, .ro, 0, false, false, .wraps⟩

/-- DRAM controller (R323) -/
def R.DRC_CFG_PIN : RegField :=
  ⟨331, 0x800000, 1, 0x0, 1, 0x0, 8, 3, .ro, 0, false, false, .wraps⟩

/-- DRAM controller (R323) -/
def R.DRC_STATUS_READY : RegField :=
  ⟨332, 0x800004, 1, 0x0, 1, 0x0, 0, 1, .ro, 0, false, false, .wraps⟩

/-- DRAM controller (R323) -/
def R.DRC_STATUS_TRAIN_SRC : RegField :=
  ⟨333, 0x800004, 1, 0x0, 1, 0x0, 1, 2, .ro, 0, false, false, .wraps⟩

/-- DRAM controller (R323) -/
def R.DRC_STATUS_REC_WRITE_FAIL : RegField :=
  ⟨334, 0x800004, 1, 0x0, 1, 0x0, 3, 1, .ro, 0, false, false, .wraps⟩

/-- DRAM controller (R323) -/
def R.DRC_STATUS_NCH : RegField :=
  ⟨335, 0x800004, 1, 0x0, 1, 0x0, 8, 5, .ro, 0, false, false, .wraps⟩

/-- DRAM controller (R323) -/
def R.DRC_WINDOW : RegField :=
  ⟨336, 0x800008, 1, 0x0, 1, 0x0, 0, 37, .ro, 0, false, true, .wraps⟩

/-- DRAM controller (R323) -/
def R.DRC_PIN_BYTES : RegField :=
  ⟨337, 0x800010, 1, 0x0, 1, 0x0, 0, 32, .ro, 0, false, false, .wraps⟩

/-- DRAM controller (R323) -/
def R.DRC_PAGE_CTL_MODE : RegField :=
  ⟨338, 0x800014, 1, 0x0, 1, 0x0, 0, 2, .rw, 0, false, false, .wraps⟩

/-- DRAM controller (R323) -/
def R.DRC_PAGE_CTL_PAGE_IDLE : RegField :=
  ⟨339, 0x800014, 1, 0x0, 1, 0x0, 8, 16, .rw, 64, false, false, .wraps⟩

/-- DRAM controller (R323) -/
def R.DRC_SR_CTL_SR_EN : RegField :=
  ⟨340, 0x800018, 1, 0x0, 1, 0x0, 0, 1, .rw, 1, false, false, .wraps⟩

/-- DRAM controller (R323) -/
def R.DRC_SR_CTL_SR_IDLE : RegField :=
  ⟨341, 0x800018, 1, 0x0, 1, 0x0, 4, 12, .rw, 20, false, false, .wraps⟩

/-- DRAM controller (R323) -/
def R.DRC_REF_CTL_PER_BANK : RegField :=
  ⟨342, 0x80001C, 1, 0x0, 1, 0x0, 0, 1, .rw, 1, false, false, .wraps⟩

/-- DRAM controller (R323) -/
def R.DRC_REF_CTL_MR4_POLL_MS : RegField :=
  ⟨343, 0x80001C, 1, 0x0, 1, 0x0, 4, 8, .rw, 4, false, false, .wraps⟩

/-- DRAM controller (R323) -/
def R.DRC_ECC_CTL_CE_LOG : RegField :=
  ⟨344, 0x800020, 1, 0x0, 1, 0x0, 0, 1, .rw, 0, false, false, .wraps⟩

/-- DRAM controller (R323) -/
def R.DRC_ECC_CTL_CE_WB : RegField :=
  ⟨345, 0x800020, 1, 0x0, 1, 0x0, 1, 1, .rw, 1, false, false, .wraps⟩

/-- DRAM controller (R323) -/
def R.DRC_ECC_CTL_SCRUB_EN : RegField :=
  ⟨346, 0x800020, 1, 0x0, 1, 0x0, 2, 1, .rw, 1, false, false, .wraps⟩

/-- DRAM controller (R323) -/
def R.DRC_ECC_CTL_SCRUB_INTERVAL : RegField :=
  ⟨347, 0x800020, 1, 0x0, 1, 0x0, 16, 16, .rw, 1024, false, false, .wraps⟩

/-- DRAM controller (R323) -/
def R.DRC_TRAIN_CTL_FORCE_FULL : RegField :=
  ⟨348, 0x800024, 1, 0x0, 1, 0x0, 0, 1, .rws, 0, false, false, .wraps⟩

/-- DRAM controller (R323) -/
def R.DRC_TRAIN_CTL_RETRAIN_MS : RegField :=
  ⟨349, 0x800024, 1, 0x0, 1, 0x0, 8, 8, .rw, 128, false, false, .wraps⟩

/-- DRAM controller (R323) -/
def R.DRC_UE_ADDR_ADDR : RegField :=
  ⟨350, 0x800028, 1, 0x0, 1, 0x0, 0, 48, .ro, 0, false, true, .wraps⟩

/-- DRAM controller (R323) -/
def R.DRC_CE_ADDR_ADDR : RegField :=
  ⟨351, 0x800030, 1, 0x0, 1, 0x0, 0, 48, .ro, 0, false, true, .wraps⟩

/-- DRAM controller (R323) -/
def R.DRC_UE_ADDR_CH : RegField :=
  ⟨352, 0x800028, 1, 0x0, 1, 0x0, 48, 4, .ro, 0, false, true, .wraps⟩

/-- DRAM controller (R323) -/
def R.DRC_CE_ADDR_CH : RegField :=
  ⟨353, 0x800030, 1, 0x0, 1, 0x0, 48, 4, .ro, 0, false, true, .wraps⟩

/-- DRAM controller (R323) -/
def R.DRC_UE_ADDR_VALID : RegField :=
  ⟨354, 0x800028, 1, 0x0, 1, 0x0, 63, 1, .rw1c, 0, false, true, .wraps⟩

/-- DRAM controller (R323) -/
def R.DRC_CE_ADDR_VALID : RegField :=
  ⟨355, 0x800030, 1, 0x0, 1, 0x0, 63, 1, .rw1c, 0, false, true, .wraps⟩

/-- DRAM channels (R324) -/
def R.DRC_CH_STATUS_TRAINED : RegField :=
  ⟨356, 0x810000, 16, 0x100, 1, 0x0, 0, 1, .ro, 0, false, false, .wraps⟩

/-- DRAM channels (R324) -/
def R.DRC_CH_STATUS_IN_USE : RegField :=
  ⟨357, 0x810000, 16, 0x100, 1, 0x0, 1, 1, .ro, 0, false, false, .wraps⟩

/-- DRAM channels (R324) -/
def R.DRC_CH_STATUS_SR : RegField :=
  ⟨358, 0x810000, 16, 0x100, 1, 0x0, 2, 1, .ro, 0, false, false, .wraps⟩

/-- DRAM channels (R324) -/
def R.DRC_CH_STATUS_MR4_RATE : RegField :=
  ⟨359, 0x810000, 16, 0x100, 1, 0x0, 8, 3, .ro, 0, false, false, .wraps⟩

/-- DRAM channels (R324) -/
def R.DRC_CH_STATUS_FAIL_STEP : RegField :=
  ⟨360, 0x810000, 16, 0x100, 1, 0x0, 12, 4, .ro, 0, false, false, .wraps⟩

/-- DRAM channels (R324) -/
def R.DRC_CH_CE : RegField :=
  ⟨361, 0x810004, 16, 0x100, 1, 0x0, 0, 32, .rc, 0, false, false, .stops⟩

/-- DRAM channels (R324) -/
def R.DRC_CH_UE : RegField :=
  ⟨362, 0x810008, 16, 0x100, 1, 0x0, 0, 32, .rc, 0, false, false, .stops⟩

/-- DRAM channels (R324) -/
def R.DRC_CH_RMW : RegField :=
  ⟨363, 0x81000C, 16, 0x100, 1, 0x0, 0, 32, .rc, 0, false, false, .stops⟩

/-- DRAM channels (R324) -/
def R.DRC_CH_POISON : RegField :=
  ⟨364, 0x810010, 16, 0x100, 1, 0x0, 0, 32, .rc, 0, false, false, .stops⟩

/-- DRAM channels (R324) -/
def R.DRC_CH_SR_ENTRIES : RegField :=
  ⟨365, 0x810014, 16, 0x100, 1, 0x0, 0, 32, .ro, 0, false, false, .wraps⟩

/-- DRAM channels (R324) -/
def R.DRC_CH_SR_US : RegField :=
  ⟨366, 0x810018, 16, 0x100, 1, 0x0, 0, 32, .ro, 0, false, false, .wraps⟩

/-- DRAM channels (R324) -/
def R.DRC_CH_PAGE_HITS : RegField :=
  ⟨367, 0x81001C, 16, 0x100, 1, 0x0, 0, 32, .ro, 0, false, false, .wraps⟩

/-- DRAM channels (R324) -/
def R.DRC_CH_PAGE_MISSES : RegField :=
  ⟨368, 0x810020, 16, 0x100, 1, 0x0, 0, 32, .ro, 0, false, false, .wraps⟩

/-- DRAM channels (R324) -/
def R.DRC_CH_REF_POSTPONED_MAX : RegField :=
  ⟨369, 0x810024, 16, 0x100, 1, 0x0, 0, 4, .rc, 0, false, false, .stops⟩

/-- DRAM channels (R324) -/
def R.DRC_CH_RETRAINS : RegField :=
  ⟨370, 0x810028, 16, 0x100, 1, 0x0, 0, 32, .rc, 0, false, false, .stops⟩

/-- host interface (R357) -/
def R.HIF_LINK_STATUS_SPEED : RegField :=
  ⟨371, 0x100000, 1, 0x0, 1, 0x0, 0, 4, .ro, 0, false, false, .wraps⟩

/-- host interface (R357) -/
def R.HIF_LINK_STATUS_WIDTH : RegField :=
  ⟨372, 0x100000, 1, 0x0, 1, 0x0, 4, 6, .ro, 0, false, false, .wraps⟩

/-- host interface (R357) -/
def R.HIF_LINK_STATUS_LINK_UP : RegField :=
  ⟨373, 0x100000, 1, 0x0, 1, 0x0, 10, 1, .ro, 0, false, false, .wraps⟩

/-- host interface (R357) -/
def R.HIF_LINK_STATUS_PM : RegField :=
  ⟨374, 0x100000, 1, 0x0, 1, 0x0, 12, 2, .ro, 0, false, false, .wraps⟩

/-- host interface (R357) -/
def R.HIF_LINK_STATUS_TAGS10 : RegField :=
  ⟨375, 0x100000, 1, 0x0, 1, 0x0, 14, 1, .ro, 0, false, false, .wraps⟩

/-- host interface (R357) -/
def R.HIF_PM_CTL_L1_IDLE : RegField :=
  ⟨376, 0x100004, 1, 0x0, 1, 0x0, 0, 16, .rw, 10, false, false, .wraps⟩

/-- host interface (R357) -/
def R.HIF_LTR_ACTIVE : RegField :=
  ⟨377, 0x100008, 1, 0x0, 1, 0x0, 0, 24, .rw, 10000, false, false, .wraps⟩

/-- host interface (R357) -/
def R.HIF_LTR_IDLE : RegField :=
  ⟨378, 0x10000C, 1, 0x0, 1, 0x0, 0, 24, .rw, 1000000, false, false, .wraps⟩

/-- host interface (R357) -/
def R.HIF_CPL_TIMEOUT_US : RegField :=
  ⟨379, 0x100010, 1, 0x0, 1, 0x0, 0, 32, .ro, 20000, false, false, .wraps⟩

/-- host interface (R357) -/
def R.HIF_TAGS_OUTSTANDING : RegField :=
  ⟨380, 0x100014, 1, 0x0, 1, 0x0, 0, 10, .ro, 0, false, false, .wraps⟩

/-- host interface (R357) -/
def R.HIF_TAGS_QUARANTINED : RegField :=
  ⟨381, 0x100014, 1, 0x0, 1, 0x0, 16, 10, .ro, 0, false, false, .wraps⟩

/-- host interface (R357) -/
def R.HIF_CPL_TIMEOUTS : RegField :=
  ⟨382, 0x100018, 1, 0x0, 1, 0x0, 0, 32, .rc, 0, false, false, .stops⟩

/-- host interface (R357) -/
def R.HIF_UNEXP_CPL : RegField :=
  ⟨383, 0x10001C, 1, 0x0, 1, 0x0, 0, 32, .rc, 0, false, false, .stops⟩

/-- host interface (R357) -/
def R.HIF_UR : RegField :=
  ⟨384, 0x100020, 1, 0x0, 1, 0x0, 0, 32, .rc, 0, false, false, .stops⟩

/-- host interface (R357) -/
def R.HIF_CA : RegField :=
  ⟨385, 0x100024, 1, 0x0, 1, 0x0, 0, 32, .rc, 0, false, false, .stops⟩

/-- host interface (R357) -/
def R.HIF_DB_DROPS : RegField :=
  ⟨386, 0x100028, 1, 0x0, 1, 0x0, 0, 32, .rc, 0, false, false, .stops⟩

/-- host interface (R357) -/
def R.HIF_LATE_REG : RegField :=
  ⟨387, 0x10002C, 1, 0x0, 1, 0x0, 0, 32, .rc, 0, false, false, .stops⟩

/-- host interface (R357) -/
def R.HIF_POISON_IN : RegField :=
  ⟨388, 0x100030, 1, 0x0, 1, 0x0, 0, 32, .rc, 0, false, false, .stops⟩

/-- host interface (R357) -/
def R.HIF_CORR_ERR : RegField :=
  ⟨389, 0x100034, 1, 0x0, 1, 0x0, 0, 32, .rc, 0, false, false, .stops⟩

/-- host interface (R357) -/
def R.HIF_L1_ENTRIES : RegField :=
  ⟨390, 0x100038, 1, 0x0, 1, 0x0, 0, 32, .ro, 0, false, false, .wraps⟩

/-- host interface (R357) -/
def R.HIF_ERR_LAST_ADDR : RegField :=
  ⟨391, 0x100040, 1, 0x0, 1, 0x0, 0, 48, .ro, 0, false, true, .wraps⟩

/-- host interface (R357) -/
def R.HIF_ERR_LAST_SPACE : RegField :=
  ⟨392, 0x100040, 1, 0x0, 1, 0x0, 48, 2, .ro, 0, false, true, .wraps⟩

/-- host interface (R357) -/
def R.HIF_ERR_LAST_CODE : RegField :=
  ⟨393, 0x100040, 1, 0x0, 1, 0x0, 52, 4, .ro, 0, false, true, .wraps⟩

/-- host interface (R357) -/
def R.HIF_ERR_LAST_VALID : RegField :=
  ⟨394, 0x100040, 1, 0x0, 1, 0x0, 63, 1, .rw1c, 0, false, true, .wraps⟩

/-- host interface (R357) -/
def R.HIF_WIN_COMMIT : RegField :=
  ⟨395, 0x100100, 1, 0x0, 1, 0x0, 0, 1, .wo, 0, false, false, .wraps⟩

/-- host interface (R357) -/
def R.HIF_WIN_STATUS_COMMIT_ERR : RegField :=
  ⟨396, 0x100104, 1, 0x0, 1, 0x0, 0, 1, .rw1c, 0, false, false, .wraps⟩

/-- host interface (R357) -/
def R.HIF_WIN_STATUS_ERR_WIN : RegField :=
  ⟨397, 0x100104, 1, 0x0, 1, 0x0, 4, 4, .ro, 0, false, false, .wraps⟩

/-- host interface (R357) -/
def R.HIF_WIN_STATUS_ERR_CODE : RegField :=
  ⟨398, 0x100104, 1, 0x0, 1, 0x0, 8, 4, .ro, 0, false, false, .wraps⟩

/-- host interface (R357) -/
def R.HIF_WIN_STATUS_GEN : RegField :=
  ⟨399, 0x100104, 1, 0x0, 1, 0x0, 16, 16, .ro, 0, false, false, .wraps⟩

/-- inbound windows (R358) -/
def R.HIF_WIN_OFFSET : RegField :=
  ⟨400, 0x101000, 16, 0x20, 1, 0x0, 12, 24, .rw, 0, false, true, .wraps⟩

/-- inbound windows (R358) -/
def R.HIF_WACT_OFFSET : RegField :=
  ⟨401, 0x101400, 16, 0x20, 1, 0x0, 12, 24, .ro, 0, false, true, .wraps⟩

/-- inbound windows (R358) -/
def R.HIF_WIN_TARGET : RegField :=
  ⟨402, 0x101008, 16, 0x20, 1, 0x0, 12, 36, .rw, 0, false, true, .wraps⟩

/-- inbound windows (R358) -/
def R.HIF_WACT_TARGET : RegField :=
  ⟨403, 0x101408, 16, 0x20, 1, 0x0, 12, 36, .ro, 0, false, true, .wraps⟩

/-- inbound windows (R358) -/
def R.HIF_WIN_CTL_EN : RegField :=
  ⟨404, 0x101010, 16, 0x20, 1, 0x0, 0, 1, .rw, 0, false, false, .wraps⟩

/-- inbound windows (R358) -/
def R.HIF_WACT_CTL_EN : RegField :=
  ⟨405, 0x101410, 16, 0x20, 1, 0x0, 0, 1, .ro, 0, false, false, .wraps⟩

/-- inbound windows (R358) -/
def R.HIF_WIN_CTL_RD : RegField :=
  ⟨406, 0x101010, 16, 0x20, 1, 0x0, 1, 1, .rw, 0, false, false, .wraps⟩

/-- inbound windows (R358) -/
def R.HIF_WACT_CTL_RD : RegField :=
  ⟨407, 0x101410, 16, 0x20, 1, 0x0, 1, 1, .ro, 0, false, false, .wraps⟩

/-- inbound windows (R358) -/
def R.HIF_WIN_CTL_WR : RegField :=
  ⟨408, 0x101010, 16, 0x20, 1, 0x0, 2, 1, .rw, 0, false, false, .wraps⟩

/-- inbound windows (R358) -/
def R.HIF_WACT_CTL_WR : RegField :=
  ⟨409, 0x101410, 16, 0x20, 1, 0x0, 2, 1, .ro, 0, false, false, .wraps⟩

/-- inbound windows (R358) -/
def R.HIF_WIN_CTL_SIZE_LOG2 : RegField :=
  ⟨410, 0x101010, 16, 0x20, 1, 0x0, 8, 6, .rw, 12, false, false, .wraps⟩

/-- inbound windows (R358) -/
def R.HIF_WACT_CTL_SIZE_LOG2 : RegField :=
  ⟨411, 0x101410, 16, 0x20, 1, 0x0, 8, 6, .ro, 12, false, false, .wraps⟩

/-- inbound windows (R358) -/
def R.HIF_WACT_HITS : RegField :=
  ⟨412, 0x101418, 16, 0x20, 1, 0x0, 0, 32, .ro, 0, false, false, .wraps⟩

/-- power, clocks and reset (R382) -/
def R.MC_PWR_CTL_BOARD_LIMIT : RegField :=
  ⟨413, 0x1000, 1, 0x0, 1, 0x0, 0, 2, .ro, 0, false, false, .wraps⟩

/-- power, clocks and reset (R382) -/
def R.MC_PWR_CTL_HOST_LIMIT : RegField :=
  ⟨414, 0x1000, 1, 0x0, 1, 0x0, 4, 8, .rw, 0, false, false, .wraps⟩

/-- power, clocks and reset (R382) -/
def R.MC_PWR_CTL_BOOST_EN : RegField :=
  ⟨415, 0x1000, 1, 0x0, 1, 0x0, 12, 1, .rw, 1, false, false, .wraps⟩

/-- power, clocks and reset (R382) -/
def R.MC_PWR_EST_AVG : RegField :=
  ⟨416, 0x1004, 1, 0x0, 1, 0x0, 0, 16, .ro, 0, false, false, .wraps⟩

/-- power, clocks and reset (R382) -/
def R.MC_PWR_EST_PEAK : RegField :=
  ⟨417, 0x1004, 1, 0x0, 1, 0x0, 16, 16, .rc, 0, false, false, .stops⟩

/-- power, clocks and reset (R382) -/
def R.MC_CLK_STATUS_CORE_MHZ : RegField :=
  ⟨418, 0x1008, 1, 0x0, 1, 0x0, 0, 12, .ro, 0, false, false, .wraps⟩

/-- power, clocks and reset (R382) -/
def R.MC_CLK_STATUS_VDD_CORE_MV : RegField :=
  ⟨419, 0x1008, 1, 0x0, 1, 0x0, 16, 12, .ro, 750, false, false, .wraps⟩

/-- power, clocks and reset (R382) -/
def R.MC_CLK_STATUS_LIMITER : RegField :=
  ⟨420, 0x1008, 1, 0x0, 1, 0x0, 28, 3, .ro, 0, false, false, .wraps⟩

/-- power, clocks and reset (R382) -/
def R.MC_THERM_TJ : RegField :=
  ⟨421, 0x100C, 1, 0x0, 1, 0x0, 0, 8, .ro, 0, false, false, .wraps⟩

/-- power, clocks and reset (R382) -/
def R.MC_THERM_TJ_PEAK : RegField :=
  ⟨422, 0x100C, 1, 0x0, 1, 0x0, 8, 8, .rc, 0, false, false, .stops⟩

/-- power, clocks and reset (R382) -/
def R.MC_THERM_THROTTLE : RegField :=
  ⟨423, 0x100C, 1, 0x0, 1, 0x0, 16, 1, .ro, 0, false, false, .wraps⟩

/-- power, clocks and reset (R382) -/
def R.MC_SHED_CTL_FORCE_STAGE : RegField :=
  ⟨424, 0x1010, 1, 0x0, 1, 0x0, 0, 3, .rw, 0, false, false, .wraps⟩

/-- power, clocks and reset (R382) -/
def R.MC_SHED_CTL_SHEDREQ_STAGE : RegField :=
  ⟨425, 0x1010, 1, 0x0, 1, 0x0, 4, 3, .rw, 4, false, false, .wraps⟩

/-- power, clocks and reset (R382) -/
def R.MC_SHED_CTL_EXIT_HOLD : RegField :=
  ⟨426, 0x1010, 1, 0x0, 1, 0x0, 8, 16, .rw, 100, false, false, .wraps⟩

/-- power, clocks and reset (R382) -/
def R.MC_SHED_STATUS_REQ : RegField :=
  ⟨427, 0x1014, 1, 0x0, 1, 0x0, 0, 3, .ro, 0, false, false, .wraps⟩

/-- power, clocks and reset (R382) -/
def R.MC_SHED_STATUS_SOURCES : RegField :=
  ⟨428, 0x1014, 1, 0x0, 1, 0x0, 8, 8, .ro, 0, false, false, .wraps⟩

/-- power, clocks and reset (R382) -/
def R.MC_SHED_STATUS_EXITING : RegField :=
  ⟨429, 0x1014, 1, 0x0, 1, 0x0, 16, 1, .ro, 0, false, false, .wraps⟩

/-- power, clocks and reset (R382) -/
def R.MC_SHED_ENTRIES : RegField :=
  ⟨430, 0x1018, 1, 0x0, 1, 0x0, 0, 32, .rc, 0, false, false, .stops⟩

/-- power, clocks and reset (R382) -/
def R.MC_DROOP_CTL_DROOP1 : RegField :=
  ⟨431, 0x101C, 1, 0x0, 1, 0x0, 0, 8, .rw, 40, false, false, .wraps⟩

/-- power, clocks and reset (R382) -/
def R.MC_DROOP_CTL_DROOP2 : RegField :=
  ⟨432, 0x101C, 1, 0x0, 1, 0x0, 8, 8, .rw, 70, false, false, .wraps⟩

/-- power, clocks and reset (R382) -/
def R.MC_IN_STATUS_PINS : RegField :=
  ⟨433, 0x1020, 1, 0x0, 1, 0x0, 0, 4, .ro, 0, false, false, .wraps⟩

/-- power, clocks and reset (R382) -/
def R.MC_RST_CAUSE : RegField :=
  ⟨434, 0x1024, 1, 0x0, 1, 0x0, 0, 6, .ro, 0, false, false, .wraps⟩

/-- power, clocks and reset (R382) -/
def R.MC_HALT_RECORD_CAUSE : RegField :=
  ⟨435, 0x1028, 1, 0x0, 1, 0x0, 0, 4, .rws, 0, false, false, .wraps⟩

/-- power, clocks and reset (R382) -/
def R.MC_HALT_RECORD_STAGE : RegField :=
  ⟨436, 0x1028, 1, 0x0, 1, 0x0, 4, 3, .rws, 0, false, false, .wraps⟩

/-- power, clocks and reset (R382) -/
def R.MC_HALT_RECORD_VALID : RegField :=
  ⟨437, 0x1028, 1, 0x0, 1, 0x0, 31, 1, .rws, 0, false, false, .wraps⟩

/-- power, clocks and reset (R382) -/
def R.MC_HALT_TIME : RegField :=
  ⟨438, 0x1030, 1, 0x0, 1, 0x0, 0, 64, .rws, 0, false, true, .wraps⟩

/-- power, clocks and reset (R382) -/
def R.MC_FW_STATUS_SLOT : RegField :=
  ⟨439, 0x1038, 1, 0x0, 1, 0x0, 0, 1, .ro, 0, false, false, .wraps⟩

/-- power, clocks and reset (R382) -/
def R.MC_FW_STATUS_A_OK : RegField :=
  ⟨440, 0x1038, 1, 0x0, 1, 0x0, 1, 1, .ro, 0, false, false, .wraps⟩

/-- power, clocks and reset (R382) -/
def R.MC_FW_STATUS_B_OK : RegField :=
  ⟨441, 0x1038, 1, 0x0, 1, 0x0, 2, 1, .ro, 0, false, false, .wraps⟩

/-- power, clocks and reset (R382) -/
def R.MC_FW_STATUS_SVN : RegField :=
  ⟨442, 0x1038, 1, 0x0, 1, 0x0, 16, 16, .ro, 0, false, false, .wraps⟩

/-- power, clocks and reset (R382) -/
def R.MC_TS_SET : RegField :=
  ⟨443, 0x1040, 1, 0x0, 1, 0x0, 0, 64, .wo, 0, false, true, .wraps⟩

/-- power, clocks and reset (R382) -/
def R.MC_TS_CTL_PPS_EN : RegField :=
  ⟨444, 0x1048, 1, 0x0, 1, 0x0, 0, 1, .rw, 1, false, false, .wraps⟩

/-- power, clocks and reset (R382) -/
def R.MC_TS_CTL_FALLING : RegField :=
  ⟨445, 0x1048, 1, 0x0, 1, 0x0, 1, 1, .rw, 0, false, false, .wraps⟩

/-- power, clocks and reset (R382) -/
def R.MC_TS_STATUS_LOCKED : RegField :=
  ⟨446, 0x104C, 1, 0x0, 1, 0x0, 0, 1, .ro, 0, false, false, .wraps⟩

/-- power, clocks and reset (R382) -/
def R.MC_TS_STATUS_PPS_LOST : RegField :=
  ⟨447, 0x104C, 1, 0x0, 1, 0x0, 1, 1, .ro, 0, false, false, .wraps⟩

/-- power, clocks and reset (R382) -/
def R.MC_TS_STATUS_PHASE_ERR : RegField :=
  ⟨448, 0x104C, 1, 0x0, 1, 0x0, 8, 24, .ro, 0, false, false, .wraps⟩

/-- power, clocks and reset (R382) -/
def R.MC_ALERT_STAT : RegField :=
  ⟨449, 0x1050, 1, 0x0, 1, 0x0, 0, 6, .rw1c, 0, false, false, .wraps⟩

/-- power, clocks and reset (R382) -/
def R.MC_ALERT_EN : RegField :=
  ⟨450, 0x1054, 1, 0x0, 1, 0x0, 0, 6, .rw, 63, false, false, .wraps⟩

/-- self-test and log (R399) -/
def R.ST_CTL_BIST_REQ : RegField :=
  ⟨451, 0x4000, 1, 0x0, 1, 0x0, 0, 1, .rws, 0, false, false, .wraps⟩

/-- self-test and log (R399) -/
def R.ST_STATUS_RAN : RegField :=
  ⟨452, 0x4004, 1, 0x0, 1, 0x0, 0, 1, .ro, 0, false, false, .wraps⟩

/-- self-test and log (R399) -/
def R.ST_STATUS_PASS : RegField :=
  ⟨453, 0x4004, 1, 0x0, 1, 0x0, 1, 1, .ro, 0, false, false, .wraps⟩

/-- self-test and log (R399) -/
def R.ST_STATUS_ABORTED : RegField :=
  ⟨454, 0x4004, 1, 0x0, 1, 0x0, 2, 1, .ro, 0, false, false, .wraps⟩

/-- self-test and log (R399) -/
def R.ST_STATUS_RUNNING : RegField :=
  ⟨455, 0x4004, 1, 0x0, 1, 0x0, 3, 1, .ro, 0, false, false, .wraps⟩

/-- self-test and log (R399) -/
def R.ST_STATUS_STEP : RegField :=
  ⟨456, 0x4004, 1, 0x0, 1, 0x0, 8, 3, .ro, 0, false, false, .wraps⟩

/-- self-test and log (R399) -/
def R.ST_TESTED : RegField :=
  ⟨457, 0x4008, 1, 0x0, 1, 0x0, 0, 64, .ro, 0, false, true, .wraps⟩

/-- self-test and log (R399) -/
def R.ST_FAILED : RegField :=
  ⟨458, 0x4010, 1, 0x0, 1, 0x0, 0, 64, .ro, 0, false, true, .wraps⟩

/-- self-test and log (R399) -/
def R.ST_START_TIME : RegField :=
  ⟨459, 0x4018, 1, 0x0, 1, 0x0, 0, 64, .ro, 0, false, true, .wraps⟩

/-- self-test and log (R399) -/
def R.ST_DURATION : RegField :=
  ⟨460, 0x4020, 1, 0x0, 1, 0x0, 0, 16, .ro, 0, false, false, .wraps⟩

/-- self-test and log (R399) -/
def R.ST_FAIL_BLOCK : RegField :=
  ⟨461, 0x4024, 1, 0x0, 1, 0x0, 0, 6, .ro, 0, false, false, .wraps⟩

/-- self-test and log (R399) -/
def R.ST_FAIL_SIG : RegField :=
  ⟨462, 0x4028, 1, 0x0, 1, 0x0, 0, 64, .ro, 0, false, true, .wraps⟩

/-- self-test and log (R399) -/
def R.ST_CHK_AVAIL : RegField :=
  ⟨463, 0x4030, 1, 0x0, 1, 0x0, 0, 64, .ro, 0, true, true, .wraps⟩

/-- self-test and log (R399) -/
def R.ST_REPAIR_SUM_SPARED : RegField :=
  ⟨464, 0x4038, 1, 0x0, 1, 0x0, 0, 6, .ro, 0, true, false, .wraps⟩

/-- self-test and log (R399) -/
def R.ST_REPAIR_SUM_NO_ROWCHK : RegField :=
  ⟨465, 0x4038, 1, 0x0, 1, 0x0, 8, 6, .ro, 0, true, false, .wraps⟩

/-- self-test and log (R399) -/
def R.ST_REPAIR_SUM_NO_COLCHK : RegField :=
  ⟨466, 0x4038, 1, 0x0, 1, 0x0, 16, 6, .ro, 0, true, false, .wraps⟩

/-- self-test and log (R399) -/
def R.LOG_WR : RegField :=
  ⟨467, 0x4100, 1, 0x0, 1, 0x0, 0, 32, .ro, 0, false, false, .wraps⟩

/-- self-test and log (R399) -/
def R.LOG_ACK : RegField :=
  ⟨468, 0x4104, 1, 0x0, 1, 0x0, 0, 32, .rw, 0, false, false, .wraps⟩

/-- self-test and log (R399) -/
def R.LOG_CTL_VECTOR : RegField :=
  ⟨469, 0x4108, 1, 0x0, 1, 0x0, 0, 11, .rw, 0, false, false, .wraps⟩

/-- self-test and log (R399) -/
def R.LOG_CTL_IRQ_EN : RegField :=
  ⟨470, 0x4108, 1, 0x0, 1, 0x0, 11, 1, .rw, 0, false, false, .wraps⟩

/-- self-test and log (R399) -/
def R.LOG_CTL_IRQ_SEV : RegField :=
  ⟨471, 0x4108, 1, 0x0, 1, 0x0, 12, 3, .rw, 3, false, false, .wraps⟩

/-- self-test and log (R399) -/
def R.LOG_CTL_ALERT_SEV : RegField :=
  ⟨472, 0x4108, 1, 0x0, 1, 0x0, 16, 3, .rw, 4, false, false, .wraps⟩

/-- self-test and log (R399) -/
def R.LOG_DISCARDED : RegField :=
  ⟨473, 0x410C, 1, 0x0, 1, 0x0, 0, 32, .rc, 0, false, false, .stops⟩

/-- self-test and log (R399) -/
def R.LOG_OVERWRITTEN : RegField :=
  ⟨474, 0x4110, 1, 0x0, 1, 0x0, 0, 32, .rc, 0, false, false, .stops⟩

/-- self-test and log (R399) -/
def R.LOG_QDROP_MGMT : RegField :=
  ⟨475, 0x4114, 1, 0x0, 1, 0x0, 0, 8, .rc, 0, false, false, .stops⟩

/-- self-test and log (R399) -/
def R.LOG_QDROP_CTRL : RegField :=
  ⟨476, 0x4114, 1, 0x0, 1, 0x0, 8, 8, .rc, 0, false, false, .stops⟩

/-- self-test and log (R399) -/
def R.LOG_QDROP_DATA : RegField :=
  ⟨477, 0x4114, 1, 0x0, 1, 0x0, 16, 8, .rc, 0, false, false, .stops⟩

/-- self-test and log (R399) -/
def R.LOG_SMB_CURSOR : RegField :=
  ⟨478, 0x4118, 1, 0x0, 1, 0x0, 0, 32, .ro, 0, false, false, .wraps⟩

/-- self-test and log (R399) -/
def R.LOG_MAX_SEV : RegField :=
  ⟨479, 0x411C, 1, 0x0, 1, 0x0, 0, 3, .rc, 0, false, false, .stops⟩

def regTable0 : List RegField :=
  [R.GLB_ID_PART, R.GLB_ID_STEP_MAJOR, R.GLB_ID_STEP_MINOR, R.GLB_SVC_STATE_FIRST_USE,
   R.GLB_SVC_STATE_SVC_OK, R.GLB_SVC_STATE_DRONE, R.GLB_SVC_STATE_SHED_STAGE, R.GLB_SVC_STATE_STATE,
   R.GLB_UNIT_USABLE0_VD, R.GLB_UNIT_USABLE0_CLUSTER, R.GLB_UNIT_USABLE0_CORE, R.GLB_UNIT_USABLE1_DRAM_CH,
   R.GLB_UNIT_USABLE1_SH, R.GLB_UNIT_USABLE1_VE, R.GLB_TIMESTAMP_NS, R.GLB_SCRATCH_VALUE,
   R.VID_CTX_BASE_BASE, R.VID_CTX_CFG_ENABLE, R.VID_CTX_CFG_COUNT, R.VID_CTX_INV_ACK_TOKEN,
   R.VID_CTX_INV_ACK_STREAM, R.VID_CTX_INV_STAT_OVERFLOWS, R.VID_CTX_INV_STAT_PENDING, R.VID_CACHE_STAT_LIVE,
   R.VID_CACHE_STAT_CACHED, R.VID_SCHED_CTL_LIVE_RESERVE, R.VID_LIVE_WAIT_MAX_VCYCLES, R.JR_BASE,
   R.JR_LOG2, R.JR_EN, R.JR_HEAD, R.CR_BASE,
   R.CR_VECTOR, R.CR_IRQ_EN, R.CR_COUNT_THR, R.CR_TIME_THR,
   R.CR_TAIL, R.CR_LOG2, R.CR_EN, R.CR_HEAD,
   R.MQ_BASE, R.MQ_CFG_LOG2, R.MQ_CFG_EN, R.MQ_IRQ_VECTOR,
   R.MQ_IRQ_IRQ_EN, R.MQ_IRQ_COUNT_THR, R.MQ_IRQ_TIME_THR, R.MQ_TAIL,
   R.MQ_HEAD, R.MQ_STALL_STALLS, R.VD_CTL_EN, R.VD_STATUS_BUSY,
   R.VD_STATUS_LIVE, R.VD_STATUS_STREAM, R.VD_ELAPSED, R.VD_FRAMES,
   R.VD_CONCEALED, R.VD_ABANDONED, R.SH_CTL_EN, R.SH_STATUS_BUSY]

def regTable1 : List RegField :=
  [R.SH_STATUS_LIVE, R.SH_STATUS_REPLACING, R.SH_STATUS_STREAM, R.SH_SAMPLES,
   R.SH_SAT, R.SH_CORRUPT, R.SH_SKIPPED, R.SH_WAIT_MAX_VCYCLES,
   R.CHT_STATUS_DRAINING, R.CHT_STATUS_BUSY, R.CHT_STATUS_CLASS, R.BQ_EN,
   R.BQ_LIVE, R.BQ_TUNE, R.BQ_OVERRUN, R.BQ_REPL,
   R.BQ_NAREA, R.BQ_SIZE, R.BQ_CORES, R.BQ_PAD,
   R.BQ_AREA, R.BQ_SLOT_STRIDE, R.BQ_TIMEOUT, R.BQ_JOB_ADDR,
   R.BQ_SEQ, R.BQ_RESERVED_SLOTS, R.BQ_FREE_AREAS, R.BQ_IDLE,
   R.BQ_CFG_ERR, R.BQ_DONE, R.BQ_DELIVERED, R.BQ_REPLACED,
   R.BQ_PADDED, R.BQ_FILL_MAP_OFF, R.BQ_LIST, R.BQ_LIST_N,
   R.BQ_POS, R.BQ_SEED, R.BQ_EPOCH, R.BQ_EPOCH_LAST,
   R.VE_CTL_EN, R.VE_STATUS_BUSY, R.VE_STATUS_LIVE, R.VE_STATUS_STREAM,
   R.VE_FRAMES, R.VE_BYTES, R.VE_CAP_OVER, R.VE_REQ_BASE,
   R.VE_REQ_LOG2, R.VE_REQ_EN, R.VE_REQ_PROD, R.VE_REQ_CONS,
   R.VE_ACTIVE, R.VE_OUT_WAIT, R.VE_LIVE_WAIT_MAX, R.ARRAY_FILL_LAT_NORMAL,
   R.ARRAY_FILL_LAT_FIFE32, R.ARRAY_FILL_LAT_FIFE16, R.ARRAY_REPAIR_A_SPROW, R.ARRAY_REPAIR_A_SPCOL]

def regTable2 : List RegField :=
  [R.ARRAY_REPAIR_A_ROWCHK, R.ARRAY_REPAIR_A_COLCHK, R.ARRAY_REPAIR_B_SPROW, R.ARRAY_REPAIR_B_SPCOL,
   R.ARRAY_REPAIR_B_ROWCHK, R.ARRAY_REPAIR_B_COLCHK, R.ARRAY_REPAIR_MAP_A_SROW0, R.ARRAY_REPAIR_MAP_B_SROW0,
   R.ARRAY_REPAIR_MAP_A_SROW0_EN, R.ARRAY_REPAIR_MAP_B_SROW0_EN, R.ARRAY_REPAIR_MAP_A_SROW1, R.ARRAY_REPAIR_MAP_B_SROW1,
   R.ARRAY_REPAIR_MAP_A_SROW1_EN, R.ARRAY_REPAIR_MAP_B_SROW1_EN, R.ARRAY_REPAIR_MAP_A_SCOL0, R.ARRAY_REPAIR_MAP_B_SCOL0,
   R.ARRAY_REPAIR_MAP_A_SCOL0_EN, R.ARRAY_REPAIR_MAP_B_SCOL0_EN, R.ARRAY_REPAIR_MAP_A_SCOL1, R.ARRAY_REPAIR_MAP_B_SCOL1,
   R.ARRAY_REPAIR_MAP_A_SCOL1_EN, R.ARRAY_REPAIR_MAP_B_SCOL1_EN, R.ARRAY_CTL_PREEMPT_EN, R.ARRAY_CTL_CHK_OFF,
   R.ARRAY_CTL_GATE_IDLE, R.ARRAY_CKPT_BASE_BASE, R.ARRAY_STATUS_A_BUSY, R.ARRAY_STATUS_B_BUSY,
   R.ARRAY_STATUS_GATED, R.ARRAY_STATUS_RAMP_LEVEL, R.ARRAY_STATUS_THROTTLED, R.ARRAY_STATUS_SHAPE,
   R.ARRAY_STATUS_CKPT_VALID, R.ARRAY_STATUS_PREEMPT_PENDING, R.ARRAY_FAULT_SCALE_SYNC, R.ARRAY_FAULT_CHECKSUM,
   R.ARRAY_FAULT_POISON, R.ARRAY_FAULT_CKPT, R.ARRAY_FAULT_STOP_SHED, R.ARRAY_FAULT_CKPT_CFG,
   R.ARRAY_FAULT_ARRAY, R.ARRAY_FAULT_AXIS, R.ARRAY_FAULT_INDEX, R.ARRAY_STEPS,
   R.ARRAY_CHK_DONE, R.ARRAY_CHK_SKIPPED, R.ARRAY_PREEMPTS, R.ARRAY_PREEMPT_LAT_MAX,
   R.ARRAY_THROTTLE_CYC, R.ARRAY_RAMPS, R.NUM_CTL_SAT_LOG, R.NUM_GSAT,
   R.NUM_ACC_OVF, R.NUM_EPI_SAT, R.NUM_NONFINITE, R.NUM_FLUSH,
   R.NUM_BADSCALE, R.CORE_CTL_EN, R.CORE_STATUS_STATE, R.CORE_STATUS_WAIT]

def regTable3 : List RegField :=
  [R.CORE_STATUS_TQ_DEPTH, R.CORE_STATUS_SEM, R.CORE_PC, R.CORE_JOB_TAG,
   R.CORE_TRAP_CAUSE, R.CORE_TRAP_VALID, R.CORE_TRAP_PC, R.CORE_TRAP_ADDR,
   R.CORE_JOBS, R.CORE_TRAPS, R.CORE_ZERO_SHAPE, R.CORE_SEM_WAIT_MAX,
   R.CORE_INSNS, R.CLU_SEM_TIMEOUT, R.CLU_LDR_STATUS_RESIDENT, R.CLU_LDR_STATUS_BUSY,
   R.CLU_LDR_STATUS_LAST_REJECT, R.CLU_LDR_REJECTS, R.CLU_LDR_LOADS, R.CLU_LDR_FLUSH,
   R.CLU_SEM_COUNT, R.CLU_SEM_WAITERS, R.TSQ_CUR_INSN, R.TSQ_TILES_COMPUTED,
   R.TSQ_TILES_SKIPPED, R.TSQ_COPY_CYC, R.TSQ_MASK_CYC, R.TSQ_CAUSAL_MASKED,
   R.WIN_LAST_TAPS_LIVE, R.WIN_LAST_PASSES_LIVE, R.WIN_LAST_LAYOUT, R.WIN_TAPS_SKIPPED,
   R.WIN_BUBBLES, R.WIN_REDUCER_CYC, R.WIN_GATHER_STEPS, R.CMEM_ECC_CTL_CE_LOG,
   R.BAG_ECC_CTL_CE_LOG, R.CMEM_ECC_CTL_SCRUB_EN, R.BAG_ECC_CTL_SCRUB_EN, R.CMEM_ECC_CTL_SCRUB_INTERVAL,
   R.BAG_ECC_CTL_SCRUB_INTERVAL, R.CMEM_ECC_CE, R.BAG_ECC_CE, R.CMEM_ECC_UE,
   R.BAG_ECC_UE, R.CMEM_POISON_WRITES, R.BAG_POISON_WRITES, R.CMEM_ECC_ADDR_ADDR,
   R.BAG_ECC_ADDR_ADDR, R.CMEM_ECC_ADDR_UE, R.BAG_ECC_ADDR_UE, R.CMEM_ECC_ADDR_VALID,
   R.BAG_ECC_ADDR_VALID, R.CMEM_CONFLICT_CYC, R.CMEM_TENSOR_STALL, R.CMEM_SCRUB_PASSES,
   R.BAG_SCRUB_PASSES, R.CMEM_BEATS_RD, R.BAG_BEATS_RD, R.CMEM_BEATS_WR]

def regTable4 : List RegField :=
  [R.BAG_BEATS_WR, R.BAG_ARB_CTL_PREEMPT_EN, R.DRP_ARB_CTL_PREEMPT_EN, R.HDE_ARB_CTL_PREEMPT_EN,
   R.BAG_ARB_GRANTS, R.DRP_ARB_GRANTS, R.HDE_ARB_GRANTS, R.BAG_ARB_LOSSES,
   R.DRP_ARB_LOSSES, R.HDE_ARB_LOSSES, R.BAG_ARB_PROMOTIONS, R.DRP_ARB_PROMOTIONS,
   R.HDE_ARB_PROMOTIONS, R.BAG_ARB_PREEMPTS, R.DRP_ARB_PREEMPTS, R.HDE_ARB_PREEMPTS,
   R.BAG_ARB_WAIT_MAX, R.DRP_ARB_WAIT_MAX, R.HDE_ARB_WAIT_MAX, R.BAG_ARB_BREATH_MAX,
   R.DRP_ARB_BREATH_MAX, R.HDE_ARB_BREATH_MAX, R.BPM_POOL_CFG_EN, R.BPM_POOL_CFG_HOLD_EN,
   R.BPM_POOL_CFG_INIT_DONE, R.BPM_POOL_CFG_CFG_ERR, R.BPM_POOL_CFG_SIZE_LOG2, R.BPM_POOL_COUNT,
   R.BPM_POOL_BASE, R.BPM_POOL_MAP, R.BPM_POOL_WARN, R.BPM_POOL_THROTTLE,
   R.BPM_POOL_STOP, R.BPM_POOL_BP_HYST, R.BPM_POOL_BP_THR_GAP, R.BPM_POOL_IRQ_VECTOR,
   R.BPM_POOL_IRQ_IRQ_EN, R.BPM_POOL_STATUS_FREE, R.BPM_POOL_STATUS_LEVEL, R.BPM_POOL_STATUS_READY,
   R.BPM_POOL_ALLOC, R.BPM_POOL_ALLOC_LIVE, R.BPM_POOL_MAX_USED, R.BPM_POOL_ALLOCS,
   R.BPM_POOL_FREES, R.BPM_POOL_ALLOC_WAIT_CYC, R.BPM_POOL_ALLOC_FAILS, R.BPM_POOL_ERRORS,
   R.BPM_POOL_THROTTLE_CYC, R.BPM_POOL_STOP_CYC, R.BPM_FREE, R.BPM_HOLD,
   R.BPM_RELEASE, R.BPM_OP_PENDING, R.BPM_OP_DROPS, R.BPM_ERR_LAST_PTR,
   R.BPM_ERR_LAST_CODE, R.BPM_ERR_LAST_VALID, R.DMA_CH_CFG_EN, R.DMA_CH_CFG_CLASS]

def regTable5 : List RegField :=
  [R.DMA_CH_CFG_PACE, R.DMA_CH_CFG_PACE_SRC, R.DMA_CH_CFG_ABORT, R.DMA_CH_STATUS_BUSY,
   R.DMA_CH_STATUS_WAIT_PACE, R.DMA_CH_STATUS_WAIT_POOL, R.DMA_CH_STATUS_QUEUED, R.DMA_CH_QUEUE,
   R.DMA_CH_COUNT, R.DMA_CH_QCOUNT, R.DMA_CH_IRQ_VECTOR, R.DMA_CH_IRQ_IRQ_EN,
   R.DMA_CH_BAD, R.DMA_CH_BAD_ADDR_ADDR, R.DMA_CH_BAD_ADDR_CODE, R.DMA_CH_BAD_ADDR_VALID,
   R.DMA_CH_DROPS, R.DMA_CH_ABORTED, R.DMA_CH_PACE_PERIOD, R.DMA_CH_PACE_PHASE,
   R.DMA_CH_PACE_GRANT, R.DMA_CH_PACE_STAT_GRANTS, R.DMA_CH_PACE_STAT_MISSED, R.DMA_CH_BYTES,
   R.DMA_ALLOC_WAIT, R.DMA_OUTSTANDING, R.DMA_OUTSTANDING_MAX, R.DRC_CFG_SPEED,
   R.DRC_CFG_RANKS, R.DRC_CFG_CAP, R.DRC_CFG_ECC_EN, R.DRC_CFG_PIN,
   R.DRC_STATUS_READY, R.DRC_STATUS_TRAIN_SRC, R.DRC_STATUS_REC_WRITE_FAIL, R.DRC_STATUS_NCH,
   R.DRC_WINDOW, R.DRC_PIN_BYTES, R.DRC_PAGE_CTL_MODE, R.DRC_PAGE_CTL_PAGE_IDLE,
   R.DRC_SR_CTL_SR_EN, R.DRC_SR_CTL_SR_IDLE, R.DRC_REF_CTL_PER_BANK, R.DRC_REF_CTL_MR4_POLL_MS,
   R.DRC_ECC_CTL_CE_LOG, R.DRC_ECC_CTL_CE_WB, R.DRC_ECC_CTL_SCRUB_EN, R.DRC_ECC_CTL_SCRUB_INTERVAL,
   R.DRC_TRAIN_CTL_FORCE_FULL, R.DRC_TRAIN_CTL_RETRAIN_MS, R.DRC_UE_ADDR_ADDR, R.DRC_CE_ADDR_ADDR,
   R.DRC_UE_ADDR_CH, R.DRC_CE_ADDR_CH, R.DRC_UE_ADDR_VALID, R.DRC_CE_ADDR_VALID,
   R.DRC_CH_STATUS_TRAINED, R.DRC_CH_STATUS_IN_USE, R.DRC_CH_STATUS_SR, R.DRC_CH_STATUS_MR4_RATE]

def regTable6 : List RegField :=
  [R.DRC_CH_STATUS_FAIL_STEP, R.DRC_CH_CE, R.DRC_CH_UE, R.DRC_CH_RMW,
   R.DRC_CH_POISON, R.DRC_CH_SR_ENTRIES, R.DRC_CH_SR_US, R.DRC_CH_PAGE_HITS,
   R.DRC_CH_PAGE_MISSES, R.DRC_CH_REF_POSTPONED_MAX, R.DRC_CH_RETRAINS, R.HIF_LINK_STATUS_SPEED,
   R.HIF_LINK_STATUS_WIDTH, R.HIF_LINK_STATUS_LINK_UP, R.HIF_LINK_STATUS_PM, R.HIF_LINK_STATUS_TAGS10,
   R.HIF_PM_CTL_L1_IDLE, R.HIF_LTR_ACTIVE, R.HIF_LTR_IDLE, R.HIF_CPL_TIMEOUT_US,
   R.HIF_TAGS_OUTSTANDING, R.HIF_TAGS_QUARANTINED, R.HIF_CPL_TIMEOUTS, R.HIF_UNEXP_CPL,
   R.HIF_UR, R.HIF_CA, R.HIF_DB_DROPS, R.HIF_LATE_REG,
   R.HIF_POISON_IN, R.HIF_CORR_ERR, R.HIF_L1_ENTRIES, R.HIF_ERR_LAST_ADDR,
   R.HIF_ERR_LAST_SPACE, R.HIF_ERR_LAST_CODE, R.HIF_ERR_LAST_VALID, R.HIF_WIN_COMMIT,
   R.HIF_WIN_STATUS_COMMIT_ERR, R.HIF_WIN_STATUS_ERR_WIN, R.HIF_WIN_STATUS_ERR_CODE, R.HIF_WIN_STATUS_GEN,
   R.HIF_WIN_OFFSET, R.HIF_WACT_OFFSET, R.HIF_WIN_TARGET, R.HIF_WACT_TARGET,
   R.HIF_WIN_CTL_EN, R.HIF_WACT_CTL_EN, R.HIF_WIN_CTL_RD, R.HIF_WACT_CTL_RD,
   R.HIF_WIN_CTL_WR, R.HIF_WACT_CTL_WR, R.HIF_WIN_CTL_SIZE_LOG2, R.HIF_WACT_CTL_SIZE_LOG2,
   R.HIF_WACT_HITS, R.MC_PWR_CTL_BOARD_LIMIT, R.MC_PWR_CTL_HOST_LIMIT, R.MC_PWR_CTL_BOOST_EN,
   R.MC_PWR_EST_AVG, R.MC_PWR_EST_PEAK, R.MC_CLK_STATUS_CORE_MHZ, R.MC_CLK_STATUS_VDD_CORE_MV]

def regTable7 : List RegField :=
  [R.MC_CLK_STATUS_LIMITER, R.MC_THERM_TJ, R.MC_THERM_TJ_PEAK, R.MC_THERM_THROTTLE,
   R.MC_SHED_CTL_FORCE_STAGE, R.MC_SHED_CTL_SHEDREQ_STAGE, R.MC_SHED_CTL_EXIT_HOLD, R.MC_SHED_STATUS_REQ,
   R.MC_SHED_STATUS_SOURCES, R.MC_SHED_STATUS_EXITING, R.MC_SHED_ENTRIES, R.MC_DROOP_CTL_DROOP1,
   R.MC_DROOP_CTL_DROOP2, R.MC_IN_STATUS_PINS, R.MC_RST_CAUSE, R.MC_HALT_RECORD_CAUSE,
   R.MC_HALT_RECORD_STAGE, R.MC_HALT_RECORD_VALID, R.MC_HALT_TIME, R.MC_FW_STATUS_SLOT,
   R.MC_FW_STATUS_A_OK, R.MC_FW_STATUS_B_OK, R.MC_FW_STATUS_SVN, R.MC_TS_SET,
   R.MC_TS_CTL_PPS_EN, R.MC_TS_CTL_FALLING, R.MC_TS_STATUS_LOCKED, R.MC_TS_STATUS_PPS_LOST,
   R.MC_TS_STATUS_PHASE_ERR, R.MC_ALERT_STAT, R.MC_ALERT_EN, R.ST_CTL_BIST_REQ,
   R.ST_STATUS_RAN, R.ST_STATUS_PASS, R.ST_STATUS_ABORTED, R.ST_STATUS_RUNNING,
   R.ST_STATUS_STEP, R.ST_TESTED, R.ST_FAILED, R.ST_START_TIME,
   R.ST_DURATION, R.ST_FAIL_BLOCK, R.ST_FAIL_SIG, R.ST_CHK_AVAIL,
   R.ST_REPAIR_SUM_SPARED, R.ST_REPAIR_SUM_NO_ROWCHK, R.ST_REPAIR_SUM_NO_COLCHK, R.LOG_WR,
   R.LOG_ACK, R.LOG_CTL_VECTOR, R.LOG_CTL_IRQ_EN, R.LOG_CTL_IRQ_SEV,
   R.LOG_CTL_ALERT_SEV, R.LOG_DISCARDED, R.LOG_OVERWRITTEN, R.LOG_QDROP_MGMT,
   R.LOG_QDROP_CTRL, R.LOG_QDROP_DATA, R.LOG_SMB_CURSOR, R.LOG_MAX_SEV]

/-- Every field of every register map. -/
def regTable : List RegField :=
  regTable0 ++ regTable1 ++ regTable2 ++ regTable3 ++ regTable4 ++ regTable5 ++ regTable6 ++ regTable7


/-- The key of instance `i` of a field in `State.regs`. -/
def regKey (f : RegField) (i : Nat) : Nat := i * 512 + f.id

end Sys2Proof.Machine
end

