-- ==== Sys2Proof/Machine/Ops.lean ====
section
/-! DEFINITION. The operations every family uses: registers and counters, time, updates of one unit, the address
map, memory with its check bits, the error log and MSI-X. -/

namespace Sys2Proof.Machine

/-! ## Numbers and bytes -/

/-- `n` bytes of a number, least significant first (R1). -/
def bytesOf (n : Nat) (v : Nat) : List Byte :=
  (List.range n).map (fun i => BitVec.ofNat 8 (v / 256 ^ i))

/-- The number of a byte string, least significant byte first (R1). -/
def natOfBytes : List Byte → Nat
  | [] => 0
  | b :: bs => b.toNat + 256 * natOfBytes bs

/-- Bits [lo + w - 1 : lo] of a number. -/
def bitsOf (v lo w : Nat) : Nat := v / 2 ^ lo % 2 ^ w

/-- Bit `i` of a number. -/
def bitOf (v i : Nat) : Bool := v.testBit i

/-- The signed value of the low `w` bits of a number. -/
def signedOf (w v : Nat) : Int := (BitVec.ofNat w v).toInt

/-- Division rounding up; division by 0 gives 0. -/
def ceilDiv (a b : Nat) : Nat := (a + (b - 1)) / b

/-- Division to the nearest integer, ties to even (R2). -/
def rneQuot (a b : Nat) : Nat :=
  let q := a / b
  let r := a % b
  if 2 * r > b || (2 * r == b && q % 2 == 1) then q + 1 else q

/-- Bytes `[at, at + n)` of a byte string, missing bytes 0. -/
def sliceOf (bs : List Byte) (at_ n : Nat) : List Byte :=
  (List.range n).map (fun i => bs.getD (at_ + i) 0)

/-- The little-endian number in bytes `[at, at + n)` of a byte string. -/
def fieldOf (bs : List Byte) (at_ n : Nat) : Nat := natOfBytes (sliceOf bs at_ n)

/-- Replaces bytes from `at` on by `vs`, keeping the length of the longer of the two. -/
def putBytes (bs : List Byte) (at_ : Nat) (vs : List Byte) : List Byte :=
  bs.take at_ ++ List.replicate (at_ - bs.length) 0 ++ vs ++ bs.drop (at_ + vs.length)

/-! ## Registers (R3) -/

/-- The reset value of the RW fields that fuses initialise: the unit's enable is its fuse. -/
def fuseReset (u : Fuses) (f : RegField) (i : Nat) : Nat :=
  if f.id = R.VD_CTL_EN.id then b2n (u.vd.getLsbD i)
  else if f.id = R.SH_CTL_EN.id then b2n (u.sh.getLsbD i)
  else if f.id = R.VE_CTL_EN.id then b2n (u.ve.getLsbD i)
  else if f.id = R.CORE_CTL_EN.id then b2n (u.core.getLsbD i)
  else 0

/-- The value of a field after the reset that initialises it. -/
def regReset (s : State) (f : RegField) (i : Nat) : Nat :=
  if f.fuse then fuseReset s.fuses f i
  else if f.id = R.DMA_CH_CFG_EN.id then b2n (i < 2)
  else f.reset

/-- The value held by instance `i` of a field. -/
def rd (s : State) (f : RegField) (i : Nat) : Nat := storeGet (regReset s f i) s.regs (regKey f i)

/-- Whether a field is not 0. -/
def rdb (s : State) (f : RegField) (i : Nat) : Bool := rd s f i != 0

/-- Gives a field a value, taken modulo its width. -/
def wr (s : State) (f : RegField) (i : Nat) (v : Nat) : State :=
  { s with regs := storeSet (regReset s f i) s.regs (regKey f i) (v % 2 ^ f.width) }

/-- Gives a one-bit field a value. -/
def wrb (s : State) (f : RegField) (i : Nat) (b : Bool) : State := wr s f i (b2n b)

/-- Adds to a counter. At its largest value it does what its rule says; where none does, a free value (log entry 9). -/
def bump (s : State) (f : RegField) (i : Nat) (n : Nat) : State :=
  let t := rd s f i + n
  match f.atMax with
  | .wraps => wr s f i t
  | .stops => wr s f i (min t (2 ^ f.width - 1))
  | .unstated =>
    if t < 2 ^ f.width then wr s f i t
    else wr { s with freeCtr := s.freeCtr + 1 } f i (Config.counterOverflow (regKey f i) s.freeCtr)

/-- Raises a field that holds a largest value seen. -/
def raiseTo (s : State) (f : RegField) (i : Nat) (v : Nat) : State :=
  wr s f i (max (rd s f i) (min v (2 ^ f.width - 1)))

/-- Draws a free value: the index to apply an opaque constant to. -/
def drawFree (s : State) : State × Nat := ({ s with freeCtr := s.freeCtr + 1 }, s.freeCtr)

/-! ## Units -/

def modCore (s : State) (n : Fin 16) (f : Core → Core) : State := { s with cores := s.cores.set n (f s.cores[n]) }

def modCluster (s : State) (c : Fin 4) (f : Cluster → Cluster) : State :=
  { s with clusters := s.clusters.set c (f s.clusters[c]) }

def modBq (s : State) (c q : Fin 4) (f : Bq → Bq) : State :=
  modCluster s c (fun x => { x with bq := x.bq.set q (f x.bq[q]) })

def modArea (s : State) (c q a : Fin 4) (f : Area → Area) : State :=
  modBq s c q (fun b => { b with areas := b.areas.set a (f b.areas[a]) })

def modDma (s : State) (k : Fin 64) (f : DmaCh → DmaCh) : State := { s with dma := s.dma.set k (f s.dma[k]) }

def modPool (s : State) (p : Fin 8) (f : Pool → Pool) : State := { s with pools := s.pools.set p (f s.pools[p]) }

def modRing (s : State) (r : Fin 31) (f : RingSt → RingSt) : State := { s with rings := s.rings.set r (f s.rings[r]) }

def modMq (s : State) (m : Fin 16) (f : MqSt → MqSt) : State := { s with mqs := s.mqs.set m (f s.mqs[m]) }

def modDram (s : State) (k : Fin 16) (f : DramCh → DramCh) : State :=
  { s with dramChs := s.dramChs.set k (f s.dramChs[k]) }

/-- What is known of a stream; a stream that was never opened is `Stream.init`. -/
def streamOf (s : State) (n : Fin 1024) : Stream := storeGet Stream.init s.streams n.val

def modStream (s : State) (n : Fin 1024) (f : Stream → Stream) : State :=
  { s with streams := storeSet Stream.init s.streams n.val (f (streamOf s n)) }

/-- The cluster of a core: n div 4 (R9). -/
def clusterOf (n : Fin 16) : Fin 4 := ⟨n.val / 4, by omega⟩

/-- Core `i` of a cluster. -/
def coreOf (c : Fin 4) (i : Fin 4) : Fin 16 := ⟨4 * c.val + i.val, by omega⟩

/-- The index of batch class `q` of cluster `c` in the BQ registers. -/
def bqIx (c q : Fin 4) : Nat := c.val * 4 + q.val

/-! ## Service state and usable units (R33, R35, R36, R40) -/

/-- A unit is usable: not fused off, not marked failed by logic BIST (block `blk` of R385). -/
def unitOk (s : State) (fuse : Bool) (blk : Nat) : Bool := fuse && !bitOf (rd s R.ST_FAILED 0) blk

def clusterUsable (s : State) (c : Fin 4) : Bool := unitOk s (s.fuses.cluster.getLsbD c.val) (16 + c.val)

/-- A core is usable; a failed cluster block takes its cores with it (R387). -/
def coreUsable (s : State) (n : Fin 16) : Bool :=
  unitOk s (s.fuses.core.getLsbD n.val) n.val && !bitOf (rd s R.ST_FAILED 0) (16 + n.val / 4)

def vdUsable (s : State) (k : Fin 12) : Bool := unitOk s (s.fuses.vd.getLsbD k.val) (20 + k.val)
def shUsable (s : State) (k : Fin 8) : Bool := unitOk s (s.fuses.sh.getLsbD k.val) (32 + k.val)
def veUsable (s : State) (k : Fin 4) : Bool := unitOk s (s.fuses.ve.getLsbD k.val) (40 + k.val)

/-- A DRAM channel is usable: not fused off, and no training has failed on it (R33, R318). -/
def chUsable (s : State) (k : Fin 16) : Bool := s.fuses.dramCh.getLsbD k.val && rd s R.DRC_CH_STATUS_FAIL_STEP k.val == 0

/-- The device serves: STATE is SERVICE or REDUCED (R36). -/
def serving (s : State) : Bool :=
  rd s R.GLB_SVC_STATE_STATE 0 == 2 || rd s R.GLB_SVC_STATE_STATE 0 == 3

/-- The control and data planes run: in NO_SERVICE only the management plane does (R35), and after a trip their clocks have
stopped (R374). -/
def planesRun (s : State) : Bool := rd s R.GLB_SVC_STATE_STATE 0 != 4 && s.phase != .tripped

/-- The current shedding stage (R375). -/
def stage (s : State) : Nat := rd s R.GLB_SVC_STATE_SHED_STAGE 0

/-- The drone cluster: C0, or the lowest-numbered cluster with a usable core, bag and chanter (R37). -/
def droneCluster (s : State) : Option (Fin 4) :=
  (List.finRange 4).find? (fun c => clusterUsable s c && (List.finRange 4).any (fun i => coreUsable s (coreOf c i)))

/-- The first `n` usable units of a kind: the drone set (R37). -/
def droneSet {k : Nat} (ok : Fin k → Bool) (n : Nat) : List (Fin k) := ((List.finRange k).filter ok).take n

/-! ## Time -/

/-- The timestamp counter. -/
def now (s : State) : Nat := rd s R.GLB_TIMESTAMP_NS 0

/-- The counter as units sample it; the lag of the sampled copy, which R18 bounds by 16 ns, is taken as 0 (DESIGN CHOICE,
log entry 180). -/
def nowW (s : State) : W64 := BitVec.ofNat 64 (now s)

/-- Nanoseconds since the reset: what units time their work by, where a rule does not name the timestamp counter. -/
def elapsed (s : State) : Nat := s.clock.ns

def elapsedW (s : State) : W64 := BitVec.ofNat 64 (elapsed s)

/-- The core's job is running, so RDSR 4 counts (R187): time held in a checkpoint does not. -/
def countsCycles (c : Core) : Bool :=
  match c.mode with
  | .idle => false
  | .held => false
  | _ => c.job.isSome

def poolEn (s : State) (p : Fin 8) : Bool := rdb s R.BPM_POOL_CFG_EN p.val
def poolFree (s : State) (p : Fin 8) : Nat := rd s R.BPM_POOL_STATUS_FREE p.val
def poolLevel (s : State) (p : Fin 8) : Nat := rd s R.BPM_POOL_STATUS_LEVEL p.val

/-- Fewer than THR_GAP c-cycles have passed since the pool's last non-live grant; 0 acts as 1 (R287, R300). -/
def inGap (s : State) (p : Fin 8) : Bool :=
  match s.pools[p].lastOther with
  | some t => s.clock.cyc < t + max 1 (rd s R.BPM_POOL_BP_THR_GAP p.val)
  | none => false

/-- An allocation can be granted now (R280, R282, R287). -/
def canAlloc (s : State) (p : Fin 8) (live : Bool) : Bool :=
  poolEn s p && rdb s R.BPM_POOL_CFG_INIT_DONE p.val && poolFree s p > 0 && !s.pools[p].ready.isEmpty &&
    (live || (poolLevel s p != 3 && !(poolLevel s p == 2 && inGap s p)))

/-- Since when something holds: the time it began, while it does. -/
def sinceWhen (s : State) (holds : Bool) (was : Option W64) : Option W64 :=
  if holds then (if was.isSome then was else some (elapsedW s)) else none

/-- Notes since when the pool has been able to grant. -/
def notePool (s : State) (p : Fin 8) : State :=
  modPool s p (fun x => { x with okLive := sinceWhen s (canAlloc s p true) x.okLive,
                                 okOther := sinceWhen s (canAlloc s p false) x.okOther })

/-- Cycles pass at a buffer pool: the counters of R300 for its level, and for allocations that wait at level 2 or 3 or on an
empty ready list. -/
def poolCycles (cyc : Nat) (s : State) (p : Fin 8) : State :=
  let lvl := rd s R.BPM_POOL_STATUS_LEVEL p.val
  let s := if lvl == 2 then bump s R.BPM_POOL_THROTTLE_CYC p.val cyc else s
  let s := if lvl == 3 then bump s R.BPM_POOL_STOP_CYC p.val cyc else s
  if lvl ≥ 2 || s.pools[p].ready.isEmpty then bump s R.BPM_POOL_ALLOC_WAIT_CYC p.val (cyc * s.pools[p].waiting.length) else s

/-- Throttle is asserted on every core (R144, R371, R373, R375). -/
def throttled (s : State) : Bool := s.power.throttleStage || s.power.throttleTherm || s.power.throttlePower

/-- Cycles pass at a core's arrays: the counter of cycles with throttle in force (R153). -/
def throttleCycles (cyc : Nat) (s : State) (n : Fin 16) : State :=
  if throttled s then bump s R.ARRAY_THROTTLE_CYC n.val cyc else s

/-- The timestamp after `ns` nanoseconds: after a time behind the count was written, the counter holds until that time
has reached it (R370). -/
def advance (s : State) (ns : Nat) : State :=
  match s.clock.shadow with
  | none => wr s R.GLB_TIMESTAMP_NS 0 (now s + ns)
  | some t =>
    if t.toNat + ns < now s then { s with clock := { s.clock with shadow := some (BitVec.ofNat 64 (t.toNat + ns)) } }
    else wr { s with clock := { s.clock with shadow := none } } R.GLB_TIMESTAMP_NS 0 (t.toNat + ns)

/-- `ns` nanoseconds pass: the timestamp and every counter of cycles advance. -/
def passTime (s : State) (ns : Nat) : State :=
  let u := s.clock.cfrac + ns * rd s R.MC_CLK_STATUS_CORE_MHZ 0
  let cyc := u / 1000
  let s := { s with clock := { s.clock with cfrac := u % 1000, cyc := s.clock.cyc + cyc, ns := s.clock.ns + ns },
                    cores := s.cores.map (fun c => if countsCycles c then { c with cyc := c.cyc + BitVec.ofNat 64 cyc } else c) }
  let s := (List.finRange 8).foldl (poolCycles cyc) s
  let s := (List.finRange 16).foldl (throttleCycles cyc) s
  (List.finRange 8).foldl notePool (advance s ns)

/-- Nanoseconds until c-cycle `t`. -/
def nsToCyc (s : State) (t : Nat) : Nat := ceilDiv ((t - s.clock.cyc) * 1000 - s.clock.cfrac) (rd s R.MC_CLK_STATUS_CORE_MHZ 0)

/-- Time passes until c-cycle `t`, if the compute clock runs. -/
def passToCyc (s : State) (t : Nat) : State :=
  if t ≤ s.clock.cyc ∨ rd s R.MC_CLK_STATUS_CORE_MHZ 0 = 0 then s else passTime s (nsToCyc s t)

/-- How far a running written time lies behind the counter that it holds. -/
def heldBy (s : State) : Nat :=
  match s.clock.shadow with
  | some t => now s - t.toNat
  | none => 0

/-- Time passes until the timestamp is at least `t`. -/
def passTo (s : State) (t : Nat) : State := if t ≤ now s then s else passTime s (t - now s + heldBy s)

/-- Time passes until `t` nanoseconds since the reset. -/
def passUntil (s : State) (t : Nat) : State := if t ≤ elapsed s then s else passTime s (t - elapsed s)

/-- The rate correction in force, in ppm: that of the last phase error until it is removed (R370). -/
def ratePpm (s : State) : Int := if elapsed s < s.clock.slewEnd then s.clock.slew else s.clock.ppm

/-- One m-cycle passes: 2.5 ns at the corrected rate (R367, R370). -/
def passCycle (s : State) : State :=
  let u := s.clock.frac + ((1000000 : Int) + ratePpm s).toNat
  passTime { s with clock := { s.clock with frac := u % 400000 } } (u / 400000)

/-- Nanoseconds of v-cycles: 800 MHz (R367), in whole nanoseconds upwards. -/
def vNs (cycles : Nat) : Nat := ceilDiv (cycles * 5) 4

/-- v-cycles in nanoseconds. -/
def vCycles (ns : Nat) : Nat := ns * 4 / 5

/-! ## Interrupts, alerts and the error log -/

/-- An event of a vector: its pending bit is set, once however many events arise (R352). -/
def raiseVector (s : State) (v : Nat) : State := { s with pba := s.pba ||| BitVec.ofNat 2048 (2 ^ (v % 2048)) }

/-- Sets a bit of MC_ALERT_STAT (R382): 0 STAGE, 1 THROTTLE, 2 POWER_LIMIT, 3 PPS_LOST, 4 FW_SLOT_B, 5 ERROR_LOG. -/
def setAlert (s : State) (bit : Nat) : State := wr s R.MC_ALERT_STAT 0 (rd s R.MC_ALERT_STAT 0 ||| 2 ^ bit)

/-- ALERT_N is low: some bit of MC_ALERT_STAT is set that MC_ALERT_EN enables (R380). -/
def alertLow (s : State) : Bool := (rd s R.MC_ALERT_STAT 0 &&& rd s R.MC_ALERT_EN 0) != 0

/-- The field of LOG_QDROP of a plane. -/
def qdropField (p : Fin 3) : RegField :=
  match p with
  | 0 => R.LOG_QDROP_MGMT
  | 1 => R.LOG_QDROP_CTRL
  | 2 => R.LOG_QDROP_DATA

def planeMgmt : Fin 3 := 0
def planeCtrl : Fin 3 := 1
def planeData : Fin 3 := 2

/-- An entry arrives at a plane's queue into the error log; at a full queue it is lost and counted (R395). -/
def logPush (s : State) (p : Fin 3) (e : LogEntry) : State :=
  if s.logQ[p].length < 16 then { s with logQ := s.logQ.set p (s.logQ[p] ++ [e]) }
  else bump { s with logLost := s.logLost.set p (s.logLost[p] + 1) } (qdropField p) 0 1

/-- Logs an event of this moment: plane, class and detail, severity, unit, arguments (R391, R393). -/
def logIt (s : State) (p : Fin 3) (cls detail sev unit arg0 arg1 : Nat) : State :=
  logPush s p
    { time := nowW s, code := BitVec.ofNat 16 (cls * 256 + detail % 256), sev := BitVec.ofNat 3 sev, plane := p,
      unit := BitVec.ofNat 8 unit, seq := 0, arg0 := BitVec.ofNat 64 arg0, arg1 := BitVec.ofNat 64 arg1 }

/-- Records an error of the host interface and logs it (R357, R359): space 0 BAR0, 1 BAR2, 2 BAR4, 3 ROM or outbound. -/
def hifError (s : State) (p : Fin 3) (code space addr : Nat) : State :=
  let s := wr (wr (wr s R.HIF_ERR_LAST_ADDR 0 addr) R.HIF_ERR_LAST_SPACE 0 space) R.HIF_ERR_LAST_CODE 0 code
  logIt (wrb s R.HIF_ERR_LAST_VALID 0 true) p 0x50 code 3 0x41 addr space

/-- Reports an error through AER (R356). The places of the bits are those of the PCI Express base specification
(PRESUMED, log entry 12): `unc` in the uncorrectable status, or `cor` in the correctable status. -/
def aerUnc (s : State) (bit : Nat) (advisory : Bool) : State :=
  { s with pci := { s.pci with
      aerUncorr := s.pci.aerUncorr ||| BitVec.ofNat 32 (2 ^ bit),
      aerCorr := if advisory then s.pci.aerCorr ||| BitVec.ofNat 32 (2 ^ 13) else s.pci.aerCorr } }

def aerCor (s : State) (bit : Nat) : State :=
  { s with pci := { s.pci with aerCorr := s.pci.aerCorr ||| BitVec.ofNat 32 (2 ^ bit) } }

/-- The host interface hands a completion to the link layer. -/
def complete (s : State) (st : CplStatus) (ep : Bool) (bytes : List Byte) : State :=
  { s with cpl := [{ status := st, ep := ep, bytes := bytes }] }

def linkIsUp (s : State) : Bool := rdb s R.HIF_LINK_STATUS_LINK_UP 0

/-- The link is up, memory space is enabled and the device is in D0: a memory request that names a BAR is claimed. -/
def claimed (s : State) : Bool := linkIsUp s && s.pci.memSpace && !s.pci.d3hot

/-- The link leaves a low-power state for a TLP or a message, which restarts the count of L1_IDLE (R354). -/
def linkUsed (s : State) : State := wr { s with linkAt := elapsedW s } R.HIF_LINK_STATUS_PM 0 0

/-! ## Latency tolerance reporting (R355) -/

/-- A live-priority stream is open. -/
def liveOpen (s : State) : Bool := s.streams.any (fun e => e.2.live)

/-- Any ring, queue or host DMA channel has work outstanding, or a live-priority stream is open. -/
def ltrActive (s : State) : Bool :=
  (List.finRange 31).any (fun r =>
    (rdb s R.JR_EN r.val && s.rings[r].prod.toNat != rd s R.JR_HEAD r.val) ||
      (rdb s R.CR_EN r.val && (!s.rings[r].waiting.isEmpty || rd s R.CR_TAIL r.val != rd s R.CR_HEAD r.val))) ||
    (List.finRange 16).any (fun m =>
      rdb s R.MQ_CFG_EN m.val && (!s.mqs[m].waiting.isEmpty || rd s R.MQ_TAIL m.val != rd s R.MQ_HEAD m.val)) ||
    (List.finRange 32).any (fun k => (s.dma[(⟨k.val, by omega⟩ : Fin 64)]).phase != .idle) || liveOpen s

/-- The largest value the LTR format expresses that is not above `ns`: ten bits times 1, 32, 1024, … ns. -/
def ltrRound (ns : Nat) : Nat :=
  match (List.range 6).find? (fun k => ns / 32 ^ k < 1024) with
  | some k => ns / 32 ^ k * 32 ^ k
  | none => 1023 * 32 ^ 5

/-- An LTR message is sent when the endpoint's state changes between active and idle. -/
def ltrUpdate (s : State) : State :=
  let a := ltrActive s
  let was := match s.ltr with
    | some (b, _) => b
    | none => false
  if a = was then s
  else { linkUsed s with ltr := some (a, ltrRound (rd s (if a then R.HIF_LTR_ACTIVE else R.HIF_LTR_IDLE) 0)) }

/-! ## The device address map (R28, R306, R307) -/

/-- What a device address names: DRAM, a bag or a core memory with the offset in it, a register by BAR0 offset, a
host address, or nothing. -/
inductive Region where
  | dram
  | bag (c : Fin 4) (off : Nat)
  | core (n : Fin 16) (off : Nat)
  | regs (off : Nat)
  | host (addr : Nat)
  | unmapped
  deriving DecidableEq, Repr

/-- The region of a device address (R28). -/
def regionOf (s : State) (a : Nat) : Region :=
  if a < rd s R.DRC_WINDOW 0 then .dram
  else if 0x200000000000 ≤ a ∧ a < 0x200008000000 then
    let c : Fin 4 := Fin.ofNat 4 ((a - 0x200000000000) / 0x2000000)
    let off := (a - 0x200000000000) % 0x2000000
    if off < 0x1800000 then .bag c off else .unmapped
  else if 0x210000000000 ≤ a ∧ a < 0x210010000000 then
    let n : Fin 16 := Fin.ofNat 16 ((a - 0x210000000000) / 0x1000000)
    let off := (a - 0x210000000000) % 0x1000000
    if off < 0x800000 then .core n off else .unmapped
  else if 0x300000000000 ≤ a ∧ a < 0x300002000000 then .regs (a - 0x300000000000)
  else if 0x400000000000 ≤ a ∧ a < 0x800000000000 then .host (a - 0x400000000000)
  else .unmapped

/-- Two addresses lie in the same mapped range. -/
def sameRegion (x y : Region) : Bool :=
  match x, y with
  | .dram, .dram => true
  | .bag c _, .bag d _ => c == d
  | .core n _, .core m _ => n == m
  | .regs _, .regs _ => true
  | .host _, .host _ => true
  | _, _ => false

/-- The `n` bytes at `a` lie in one mapped range. -/
def mapped (s : State) (a n : Nat) : Bool := sameRegion (regionOf s a) (regionOf s (a + n - 1))

/-- The `n` bytes at `a` lie in memory: DRAM, one bag or one core memory. -/
def inMemory (s : State) (a n : Nat) : Bool :=
  mapped s a n &&
    match regionOf s a with
    | .dram => true
    | .bag _ _ => true
    | .core _ _ => true
    | _ => false

def bagBase (c : Fin 4) : Nat := 0x200000000000 + c.val * 0x2000000
def coreBase (n : Fin 16) : Nat := 0x210000000000 + n.val * 0x1000000

/-- The unit that an address lies in is usable. -/
def unitUsableAt (s : State) (a : Nat) : Bool :=
  match regionOf s a with
  | .bag c _ => clusterUsable s c
  | .core n _ => coreUsable s n
  | _ => true

/-- Channel and channel offset of a DRAM address (R306): `p` the pin size in bytes, `n` the channels in use. -/
def dramChannel (p n a : Nat) : Nat × Nat :=
  if a < 2 * p then
    let g := a / 256
    (g % 2, g / 2 * 256 + a % 256)
  else if a < n * p then
    let g := (a - 2 * p) / 256
    (2 + g % (n - 2), g / (n - 2) * 256 + a % 256)
  else
    let g := (a - n * p) / 256
    (g % n, p + g / n * 256 + a % 256)

/-- Where a channel offset is placed (R307). -/
structure DramPlace where
  rank : Nat
  bank : Nat
  row : Nat
  column : Nat
  /-- First of the line's 8 check bytes in the page, with inline ECC. -/
  check : Option Nat
  deriving DecidableEq, Repr

/-- Rank, bank, row and column byte of a channel offset: `ecc` whether check bytes share the page, `rankBytes` the
capacity of a rank (R307). -/
def dramPlace (ecc : Bool) (rankBytes off : Nat) : DramPlace :=
  let lpp := if ecc then 28 else 32
  let ppr := rankBytes / 2048
  let d := off / 64
  let page := d / lpp
  let line := d % lpp
  let pr := page % ppr
  let row := pr / 16
  { rank := page / ppr, bank := (pr % 16) ^^^ (row % 16), row := row, column := line * 64 + off % 64,
    check := if ecc then some (1792 + line * 8) else none }

/-- The pin size P in bytes (R323). -/
def pinBytes (s : State) : Nat := if rd s R.DRC_CFG_PIN 0 = 0 then 0 else 2 ^ (25 + rd s R.DRC_CFG_PIN 0)

/-- Bytes of a channel and of a rank (R303, R305). -/
def channelBytes (s : State) : Nat := 2 ^ (30 + rd s R.DRC_CFG_CAP 0)
def rankBytesOf (s : State) : Nat := channelBytes s / (1 + rd s R.DRC_CFG_RANKS 0)

def dramChannelOf (s : State) (a : Nat) : Nat × Nat := dramChannel (pinBytes s) (rd s R.DRC_STATUS_NCH 0) a

def dramPlaceOf (s : State) (off : Nat) : DramPlace := dramPlace (rdb s R.DRC_CFG_ECC_EN 0) (rankBytesOf s) off

/-- A range lies in DRAM mapped to CH0 and CH1: region 0, or the whole window when n = 2 (R306). -/
def pinnedRange (s : State) (a n : Nat) : Bool :=
  if rd s R.DRC_STATUS_NCH 0 = 2 then a + n ≤ rd s R.DRC_WINDOW 0 else a + n ≤ min (2 * pinBytes s) (rd s R.DRC_WINDOW 0)

/-! ## Memory, check bits and poison (R258, R259, R310 to R312) -/

/-- Bytes read with their check bits at once, poisoned together: a 64-bit word on chip, a 64 B line in DRAM. In both, the
code protects each 64-bit word (R258, R309). -/
def eccSpan (s : State) (a : Nat) : Nat := if a < rd s R.DRC_WINDOW 0 then 64 else 8

/-- DRAM without inline ECC detects nothing (R312). -/
def eccCovers (s : State) (a : Nat) : Bool := a ≥ rd s R.DRC_WINDOW 0 || rdb s R.DRC_CFG_ECC_EN 0

def eccAt (s : State) (a : Nat) : EccState := storeGet EccState.ok s.ecc a

def setEcc (s : State) (a : Nat) (e : EccState) : State := { s with ecc := storeSet EccState.ok s.ecc a e }

/-- The start of the word, or the line in DRAM, that is poisoned as a whole: its check state is the poison pattern. -/
def eccBase (s : State) (a : Nat) : Nat := a / eccSpan s a * eccSpan s a

/-- Valid check bits for the whole of a word or line. -/
def cleanEcc (s : State) (a : Nat) : State := { s with ecc := storeClear s.ecc (eccBase s a) (eccSpan s a) }

/-- The poison pattern in the check bits of a word or line (R259, R310). -/
def poisonEcc (s : State) (a : Nat) : State := setEcc (cleanEcc s a) (eccBase s a) .poison

/-- Requester indices of a DRAM port (R266). -/
def reqDma : Nat := 24
def reqHif : Nat := 29
def reqMc : Nat := 30
def reqScrub : Nat := 31
/-- The BPM's bitmap and hold traffic: the DMA subsystem's requester, told apart because its accesses have OPEN = 0
(R281, R314). -/
def reqBpm : Nat := 24 + 32
def reqLoader (c : Fin 4) : Nat := 25 + c.val

/-- ARG1 of a DRAM ECC entry (R310). -/
def dramArg (s : State) (a req : Nat) : Nat :=
  let (ch, off) := dramChannelOf s a
  let p := dramPlaceOf s off
  ch + p.rank * 2 ^ 4 + p.bank * 2 ^ 5 + p.row * 2 ^ 9 + p.column / 64 * 64 * 2 ^ 26 + req % 32 * 2 ^ 37 +
    b2n (req == reqScrub) * 2 ^ 42

/-- Records an on-chip error in ECC_ADDR: kept until VALID is cleared, but an uncorrectable error overwrites a
recorded corrected one (R278). -/
def recordOnChip (s : State) (fa fu fv : RegField) (i a : Nat) (ue : Bool) : State :=
  if rdb s fv i && (rdb s fu i || !ue) then s else wrb (wrb (wr s fa i a) fu i ue) fv i true

/-- Records a DRAM error: kept until VALID is cleared (R325). -/
def recordDram (s : State) (fa fc fv : RegField) (a : Nat) : State :=
  if rdb s fv 0 then s else wrb (wr (wr s fa 0 a) fc 0 (dramChannelOf s a).1) fv 0 true

/-- A word with a single-bit error is read (R258, R310). -/
def correctedRead (s : State) (a req : Nat) : State :=
  match regionOf s a with
  | .core n _ =>
    let s := recordOnChip (bump s R.CMEM_ECC_CE n.val 1) R.CMEM_ECC_ADDR_ADDR R.CMEM_ECC_ADDR_UE R.CMEM_ECC_ADDR_VALID n.val a false
    let s := if rdb s R.CMEM_ECC_CTL_CE_LOG n.val then logIt s planeData 0x40 0 1 n.val a 0 else s
    { s with writeback := s.writeback ++ [a] }
  | .bag c _ =>
    let s := recordOnChip (bump s R.BAG_ECC_CE c.val 1) R.BAG_ECC_ADDR_ADDR R.BAG_ECC_ADDR_UE R.BAG_ECC_ADDR_VALID c.val a false
    let s := if rdb s R.BAG_ECC_CTL_CE_LOG c.val then logIt s planeData 0x40 1 1 (16 + c.val) a 0 else s
    { s with writeback := s.writeback ++ [a] }
  | _ =>
    let s := recordDram (bump s R.DRC_CH_CE (dramChannelOf s a).1 1) R.DRC_CE_ADDR_ADDR R.DRC_CE_ADDR_CH R.DRC_CE_ADDR_VALID a
    let s := if rdb s R.DRC_ECC_CTL_CE_LOG 0 then logIt s planeData 0x40 2 1 0x42 a (dramArg s a req) else s
    if rdb s R.DRC_ECC_CTL_CE_WB 0 then setEcc s a .ok else s

/-- An uncorrectable word is read: counted, logged once, and it holds the poison pattern from then on (R258, R310). -/
def uncorrectableRead (s : State) (a req : Nat) : State :=
  match regionOf s a with
  | .core n _ =>
    let s := recordOnChip (bump s R.CMEM_ECC_UE n.val 1) R.CMEM_ECC_ADDR_ADDR R.CMEM_ECC_ADDR_UE R.CMEM_ECC_ADDR_VALID n.val a true
    poisonEcc (logIt s planeData 0x40 0x80 3 n.val a 0) a
  | .bag c _ =>
    let s := recordOnChip (bump s R.BAG_ECC_UE c.val 1) R.BAG_ECC_ADDR_ADDR R.BAG_ECC_ADDR_UE R.BAG_ECC_ADDR_VALID c.val a true
    poisonEcc (logIt s planeData 0x40 0x81 3 (16 + c.val) a 0) a
  | _ =>
    let s := recordDram (bump s R.DRC_CH_UE (dramChannelOf s a).1 1) R.DRC_UE_ADDR_ADDR R.DRC_UE_ADDR_CH R.DRC_UE_ADDR_VALID a
    poisonEcc (logIt s planeData 0x40 0x82 3 0x42 a (dramArg s a req)) a

/-- Reads the check bits of one protected word and acts on what they say; a line that another of its words has made
poison meanwhile counts nothing more. -/
def checkWord (req : Nat) (s : State) (e : Nat × EccState) : State :=
  match e.2 with
  | .ok => s
  | .single => correctedRead s e.1 req
  | .double => if eccAt s (eccBase s e.1) = .poison then s else uncorrectableRead s e.1 req
  | .poison => s

/-- The protected words with an error that a read of the `n` bytes at `a` meets: those of every word on chip, and of
every line in DRAM, that the bytes touch. -/
def badWords (s : State) (a n : Nat) : SMap EccState :=
  let w := eccSpan s a
  s.ecc.filter (fun e => n ≠ 0 ∧ a / w * w ≤ e.1 ∧ e.1 < (a + n + w - 1) / w * w)

/-- RETRAIN_MS in ns; 0 acts as 1 ms. -/
def retrainNs (s : State) : Nat := max 1 (rd s R.DRC_TRAIN_CTL_RETRAIN_MS 0) * 1000000

/-- A channel reads its oscillator and adjusts its delays if they have drifted (R319). -/
def oscCheck (s : State) (k : Fin 16) (drifted : Bool) : State :=
  let s := modDram s k (fun d => { d with oscAt := elapsedW s })
  if drifted then bump s R.DRC_CH_RETRAINS k.val 1 else s

/-- A channel leaves self-refresh (R322); after more than RETRAIN_MS the oscillator is read before the first request (R319). -/
def wakeDram (s : State) (k : Fin 16) : State :=
  if rdb s R.DRC_CH_STATUS_SR k.val then
    let ns := elapsed s - s.dramChs[k].srSince.toNat
    let s := bump (wrb s R.DRC_CH_STATUS_SR k.val false) R.DRC_CH_SR_US k.val (rneQuot ns 1000)
    if ns > retrainNs s then oscCheck (drawFree s).1 k (Config.oscDrift (drawFree s).2) else s
  else s

/-- A bank is activated: where the dies require refresh management, RFM goes first once the threshold is reached (R321). -/
def actBank (b : Nat) (d : DramCh) : DramCh :=
  if d.rfmAt = 0 then d
  else if storeGet 0 d.acts b ≥ d.rfmAt then { d with acts := storeSet 0 d.acts b 1, rfms := d.rfms + 1 }
  else { d with acts := storeSet 0 d.acts b (storeGet 0 d.acts b + 1) }

/-- One 64 B beat at a DRAM channel opens its row, or finds it open (R314). A channel in self-refresh wakes (R322). -/
def dramBeat (s : State) (a : Nat) (open_ : Bool) : State :=
  let (ch, off) := dramChannelOf s a
  let k : Fin 16 := Fin.ofNat 16 ch
  let s := wakeDram s k
  let p := dramPlaceOf s off
  let row := (p.rank, p.bank, p.row)
  let hit := s.dramChs[k].openRows.contains row
  let s := bump s (if hit then R.DRC_CH_PAGE_HITS else R.DRC_CH_PAGE_MISSES) k.val 1
  let rest := s.dramChs[k].openRows.filter (fun r => r.1 ≠ p.rank ∨ r.2.1 ≠ p.bank)
  let stay := match rd s R.DRC_PAGE_CTL_MODE 0 with
    | 1 => false
    | 2 => true
    | _ => open_
  modDram s k (fun d =>
    { (if hit then d else actBank (p.rank * 16 + p.bank) d) with openRows := if stay then row :: rest else rest, lastReq := elapsedW s, rowAt := storeSet 0 d.rowAt (p.rank * 16 + p.bank) (elapsed s) })

/-- A requester whose requests have OPEN = 0 (R314). -/
def closesRows (req : Nat) : Bool := req == reqHif || req == reqMc || req == reqBpm

/-! ## Memories that programs cannot address (R261) -/

def HiddenMem.code (m : HiddenMem) : Nat × Nat :=
  match m with
  | .decoder k => (3, 20 + k.val)
  | .encoder k => (3, 40 + k.val)
  | .shaper k => (4, 32 + k.val)
  | .host _ _ => (4, 44)
  | .ctx _ => (5, 46)
  | .mc => (6, 0x40)

/-- A unit reads such a memory: an uncorrectable error there is logged, and what the unit gets is poison. A single-bit error
is corrected, and logged with severity 1 (DESIGN CHOICE, log entry 215: no ECC_CTL.CE_LOG governs these memories). -/
def hiddenRead (s : State) (m : HiddenMem) : State × Bool :=
  if s.hidden.contains m then
    (logIt { s with hidden := s.hidden.filter (fun x => x != m) } planeData 0x40 (0x80 + m.code.1) 3 m.code.2
      (Config.hiddenArg 0) (Config.hiddenArg 1), true)
  else if s.hiddenCe.contains m then
    (logIt { s with hiddenCe := s.hiddenCe.filter (fun x => x != m) } planeData 0x40 m.code.1 1 m.code.2
      (Config.hiddenArg 0) (Config.hiddenArg 1), false)
  else (s, false)

/-- The whole word is written anew: no error is left in it. -/
def hiddenWrite (s : State) (m : HiddenMem) : State :=
  { s with hidden := s.hidden.filter (fun x => x != m), hiddenCe := s.hiddenCe.filter (fun x => x != m) }

/-- The beats of an access: lines counted on chip, rows opened in DRAM. The last beat of an access ends its run, and the
HIF, the MC and the BPM keep no row open (R314). -/
def beats (s : State) (req a n : Nat) (write : Bool) : State :=
  let lines := fun w => if n = 0 then 0 else (a + n - 1) / w - a / w + 1
  match regionOf s a with
  | .core c _ => bump s (if write then R.CMEM_BEATS_WR else R.CMEM_BEATS_RD) c.val (lines 128)
  | .bag c _ => bump s (if write then R.BAG_BEATS_WR else R.BAG_BEATS_RD) c.val (lines 128)
  | .dram => (List.range (lines 64)).foldl (fun s j => dramBeat s ((a / 64 + j) * 64) (j + 1 < lines 64 && !closesRows req)) s
  | _ => s

/-- What the bytes of memory hold, without the effects of a read. -/
def peek (s : State) (a n : Nat) : List Byte := storeGetMany 0 s.mem a n

/-- The bytes at `a` include a poisoned word. -/
def poisonedAt (s : State) (a n : Nat) : Bool := eccCovers s a && (badWords s a n).any (fun e => e.2 = .poison)

/-- What a read of memory returns: the state after it, the bytes, and whether any of them is poisoned. -/
structure MemRead where
  s : State
  bytes : List Byte
  poison : Bool

/-- Reads `n` bytes of memory: errors are corrected, counted, recorded and logged (R258, R310). -/
def memRead (s : State) (req a n : Nat) : MemRead :=
  let s := beats s req a n false
  let s := if eccCovers s a then (badWords s a n).foldl (checkWord req) s else s
  { s := s, bytes := peek s a n, poison := poisonedAt s a n }

/-- The check bits of one word or line after a write of the bytes from `lo` up to `hi`, which covers it in part or whole. A
part is merged into what is read (R259, R311). -/
def writeWord (lo hi w : Nat) (poison : Bool) (req : Nat) (s : State) (a : Nat) : State :=
  let whole := lo ≤ a ∧ a + w ≤ hi
  let s := if whole then s else (badWords s a w).foldl (checkWord req) s
  if poison then poisonEcc s a
  else if whole ∨ eccAt s a ≠ .poison then cleanEcc s a
  else s

/-- Counts what a write does to the words it covers: poisoned words, and partial lines in DRAM (R259, R311, R312). -/
def countWrite (s : State) (a n : Nat) (poison : Bool) : State :=
  let lines := fun w => if n = 0 then 0 else (a + n - 1) / w - a / w + 1
  match regionOf s a with
  | .core c _ => if poison then bump s R.CMEM_POISON_WRITES c.val (lines 8) else s
  | .bag c _ => if poison then bump s R.BAG_POISON_WRITES c.val (lines 8) else s
  | .dram =>
    (List.range (lines 64)).foldl (fun s j =>
      let l := (a / 64 + j) * 64
      let ch := (dramChannelOf s l).1
      let s := if a ≤ l ∧ l + 64 ≤ a + n then s else bump s R.DRC_CH_RMW ch 1
      if poison then bump s R.DRC_CH_POISON ch 1 else s) s
  | _ => s

/-- Writes bytes to memory. Poisoned data stores the poison pattern in every word it covers (R259, R311). -/
def memWrite (s : State) (req a : Nat) (bs : List Byte) (poison : Bool) : State :=
  let n := bs.length
  if n = 0 then s else
  let w := eccSpan s a
  let s := countWrite (beats s req a n true) a n poison
  let s := if eccCovers s a then
      ((List.range ((a + n - 1) / w - a / w + 1)).map (fun j => (a / w + j) * w)).foldl (writeWord a (a + n) w poison req) s
    else s
  { s with mem := storeSetMany 0 s.mem a bs }

/-- The check bits of one on-chip word of which `en` bytes are written. -/
def writeMaskedWord (req en : Nat) (s : State) (a : Nat) : State :=
  if en = 0 then s
  else if en = 8 then setEcc s a .ok
  else writeWord (a + 1) (a + 1) 8 false req s a

/-- Writes the bytes that are given and suppresses the others, on chip (R224, R259). -/
def memWriteMasked (s : State) (req a : Nat) (bs : List (Option Byte)) : State :=
  let n := bs.length
  if n = 0 then s else
  let s := beats s req a n true
  let enabled := fun w => ((List.range 8).filter (fun i => a ≤ w + i && w + i < a + n && (bs.getD (w + i - a) none).isSome)).length
  let s := ((List.range ((a + n - 1) / 8 - a / 8 + 1)).map (fun j => (a / 8 + j) * 8)).foldl
    (fun s w => writeMaskedWord req (enabled w) s w) s
  let old := peek s a n
  { s with mem := storeSetMany 0 s.mem a (List.zipWith (fun b o => b.getD o) bs old) }

/-- Zero bytes with valid check bits (R261, R320). -/
def zeroRange (s : State) (a n : Nat) : State := { s with mem := storeClear s.mem a n, ecc := storeClear s.ecc a n }

/-- A write to host memory. -/
def hostWrite (s : State) (addr : Nat) (bs : List Byte) : State := { s with hostMem := storeSetMany 0 s.hostMem addr bs }

/-- A write split at Max_Payload_Size and at 4 KiB boundaries (R346). -/
def splitWrite (mps : Nat) (ep : Bool) : Nat → Nat → List Byte → List Posted
  | 0, _, _ => []
  | fuel + 1, addr, bs =>
    if bs.isEmpty then []
    else
      let n := min mps (4096 - addr % 4096)
      { addr := addr, bytes := bs.take n, ep := ep } :: splitWrite mps ep fuel (addr + n) (bs.drop n)

/-- Max_Payload_Size in bytes: at most 512 (R326). -/
def maxPayload (s : State) : Nat := 128 * 2 ^ (min s.pci.mps.toNat 2)

/-- An outbound write (R346). What host memory does with a poisoned TLP is the host's own: here nothing. -/
def sendWrite (s : State) (addr : Nat) (bs : List Byte) (ep : Bool) : State :=
  let s := { linkUsed s with posted := splitWrite (maxPayload s) ep bs.length addr bs }
  if ep then s else hostWrite s addr bs

end Sys2Proof.Machine
end

