-- ==== Sys2Proof/Machine/Pools.lean ====
section
/-! DEFINITION. The buffer pool manager (R279 to R287). -/

namespace Sys2Proof.Machine

/-! ## Geometry of a pool (R279, R280) -/

def poolSize (s : State) (p : Fin 8) : Nat := 2 ^ rd s R.BPM_POOL_CFG_SIZE_LOG2 p.val
def poolCount (s : State) (p : Fin 8) : Nat := rd s R.BPM_POOL_COUNT p.val
def poolBase (s : State) (p : Fin 8) : Nat := rd s R.BPM_POOL_BASE p.val * 2 ^ 12
def poolMap (s : State) (p : Fin 8) : Nat := rd s R.BPM_POOL_MAP p.val * 2 ^ 6
def poolEnd (s : State) (p : Fin 8) : Nat := poolBase s p + poolCount s p * poolSize s p
def poolHolds (s : State) (p : Fin 8) : Bool := rdb s R.BPM_POOL_CFG_HOLD_EN p.val

/-- Bytes of the bitmap: ceil(COUNT / 8), in whole 64 B lines. -/
def mapBytes (s : State) (p : Fin 8) : Nat := ceilDiv (ceilDiv (poolCount s p) 8) 64 * 64

def bufAddr (s : State) (p : Fin 8) (i : Nat) : Nat := poolBase s p + i * poolSize s p

def overlaps (a n b m : Nat) : Bool := n != 0 && m != 0 && a < b + m && b < a + n

/-- The refusals of R279, for a pool whose fields hold the values to be enabled with. -/
def poolConfigOk (s : State) (p : Fin 8) : Bool :=
  let lg := rd s R.BPM_POOL_CFG_SIZE_LOG2 p.val
  let n := poolCount s p
  let bytes := n * poolSize s p
  let others := (List.finRange 8).filter (fun q => q != p && poolEn s q)
  12 ≤ lg && lg ≤ 26 && 1 ≤ n && n ≤ 262144 && poolBase s p % poolSize s p == 0 &&
    poolEnd s p ≤ rd s R.DRC_WINDOW 0 &&
    others.all (fun q => !overlaps (poolBase s p) bytes (poolBase s q) (poolEnd s q - poolBase s q)) &&
    rd s R.BPM_POOL_STOP p.val ≤ rd s R.BPM_POOL_THROTTLE p.val &&
    rd s R.BPM_POOL_THROTTLE p.val ≤ rd s R.BPM_POOL_WARN p.val && rd s R.BPM_POOL_WARN p.val ≤ n &&
    pinnedRange s (poolMap s p) (mapBytes s p) &&
    !overlaps (poolMap s p) (mapBytes s p) (poolBase s p) bytes &&
    others.all (fun q =>
      !overlaps (poolMap s p) (mapBytes s p) (poolBase s q) (poolEnd s q - poolBase s q) &&
      !overlaps (poolMap s p) (mapBytes s p) (poolMap s q) (mapBytes s q))

/-! ## The bitmap (R280, R281) -/

/-- Whether buffer `i` is free in the bitmap. -/
def bitmapFree (s : State) (p : Fin 8) (i : Nat) : Bool :=
  (peek s (poolMap s p + i / 8) 1).any (fun b => b.getLsbD (i % 8))

/-- Buffer `i` is allocated: neither free in the bitmap nor in the ready list. -/
def allocated (s : State) (p : Fin 8) (i : Nat) : Bool := !bitmapFree s p i && !s.pools[p].ready.contains i

/-- Marks a bitmap line as holding, or not holding, a free bit. -/
def setSummary (s : State) (p : Fin 8) (line : Nat) (b : Bool) : State :=
  modPool s p (fun x => { x with
    summary := if b then x.summary ||| BitVec.ofNat 4096 (2 ^ line) else x.summary &&& ~~~BitVec.ofNat 4096 (2 ^ line) })

/-- Sets or clears the bit of buffer `i`. -/
def setBitmap (s : State) (p : Fin 8) (i : Nat) (b : Bool) : State :=
  let a := poolMap s p + i / 8
  let r := memRead s reqBpm a 1
  let m : Byte := BitVec.ofNat 8 (2 ^ (i % 8))
  memWrite r.s reqBpm a (r.bytes.map (fun v => if b then v ||| m else v &&& ~~~m)) false

/-- The free buffers of a bitmap line, lowest index first. -/
def lineFree (s : State) (p : Fin 8) (line : Nat) : List Nat :=
  ((List.range 512).map (fun j => line * 512 + j)).filter (bitmapFree s p)

/-- The ready list's length is what STATUS shows. -/
def setReady (s : State) (p : Fin 8) (l : List Nat) : State :=
  wr (modPool s p (fun x => { x with ready := l })) R.BPM_POOL_STATUS_READY p.val l.length

/-! ## Levels (R287) -/

def levelThreshold (s : State) (p : Fin 8) (l : Nat) : Nat :=
  match l with
  | 1 => rd s R.BPM_POOL_WARN p.val
  | 2 => rd s R.BPM_POOL_THROTTLE p.val
  | _ => rd s R.BPM_POOL_STOP p.val

/-- A level is left when FREE rises above its threshold plus HYST. -/
def levelLeft (s : State) (p : Fin 8) (l : Nat) : Bool :=
  poolFree s p > levelThreshold s p l + rd s R.BPM_POOL_BP_HYST p.val

/-- The level for the present FREE: the highest level entered above the present one, or the present one with every
level left that FREE has risen out of. -/
def nextLevel (s : State) (p : Fin 8) : Nat :=
  let l := poolLevel s p
  let entered := fun k => k > l && poolFree s p ≤ levelThreshold s p k
  if entered 3 then 3
  else if entered 2 then 2
  else if entered 1 then 1
  else
    let down := fun k => if k > 0 && levelLeft s p k then k - 1 else k
    down (down (down l))

/-- A change of level writes an entry and, with IRQ_EN, raises the pool's vector. -/
def updateLevel (s : State) (p : Fin 8) : State :=
  let l := nextLevel s p
  if l = poolLevel s p then s
  else
    let s := wr s R.BPM_POOL_STATUS_LEVEL p.val l
    let s := logIt s planeData 0x41 (0x10 + l) (if l = 0 then 0 else 2) 45 p.val 0
    if rdb s R.BPM_POOL_IRQ_IRQ_EN p.val then raiseVector s (rd s R.BPM_POOL_IRQ_VECTOR p.val) else s

/-- FREE changes by one operation: the statistics and the level follow. -/
def setFree (s : State) (p : Fin 8) (n : Nat) : State :=
  let s := wr s R.BPM_POOL_STATUS_FREE p.val n
  updateLevel (raiseTo s R.BPM_POOL_MAX_USED p.val (poolCount s p - n)) p

/-! ## Allocation (R282, R284, R286, R287) -/

/-- Grants the oldest entry of the ready list; a hold pool's buffer starts with one hold. -/
def grant (s : State) (p : Fin 8) (live : Bool) : State :=
  match s.pools[p].ready with
  | [] => { s with allocOut := 0 }
  | i :: rest =>
    let a := bufAddr s p i
    let s := setReady s p rest
    let s := if live then s else modPool s p (fun x => { x with lastOther := some s.clock.cyc })
    let s := if poolHolds s p then memWrite s reqBpm (a + 3) [1] false else s
    let s := bump s R.BPM_POOL_ALLOCS p.val 1
    notePool { setFree s p (poolFree s p - 1) with allocOut := BitVec.ofNat 48 a } p

/-- The buffer in `allocOut` goes to what waited for it. -/
def deliver (s : State) (u : PoolUser) : State :=
  match u with
  | .unit => s
  | .encoder k => { s with veGot := s.veGot.set k (s.veGot[k] ++ [s.allocOut]) }
  | .channel k => modDma s k (fun d => { d with buf := some s.allocOut })

/-- The oldest waiting allocation that can be granted is granted. -/
def serveOne (s : State) (p : Fin 8) : State :=
  match s.pools[p].waiting.findIdx? (fun w => canAlloc s p w.live) with
  | none => s
  | some k =>
    match s.pools[p].waiting[k]? with
    | none => s
    | some w => deliver (grant (modPool s p (fun x => { x with waiting := x.waiting.eraseIdx k })) p w.live) w.user

/-- Every waiting allocation that can be granted is granted, in the order of arrival. -/
def serveWaiting (s : State) (p : Fin 8) : State :=
  (List.range s.pools[p].waiting.length).foldl (fun s _ => serveOne s p) (notePool s p)

/-- An allocation that does not wait: older ones that can be granted go first; `allocOut` = 0 if it is not granted. -/
def tryAlloc (s : State) (p : Fin 8) (live : Bool) : State :=
  let s := serveWaiting s p
  if canAlloc s p live then grant s p live else { s with allocOut := 0 }

/-- An allocation that joins those that wait. -/
def waitAlloc (s : State) (p : Fin 8) (live : Bool) (u : PoolUser) : State :=
  modPool s p (fun x => { x with waiting := x.waiting ++ [{ live := live, user := u }] })

/-- What a user waits for is withdrawn. -/
def leavePools (s : State) (u : PoolUser) : State :=
  { s with pools := s.pools.map (fun x => { x with waiting := x.waiting.filter (fun w => w.user != u) }) }

/-- BPM_ALLOC: a unit allocates, or waits behind those that wait already. -/
def execBpmAlloc (p : Fin 8) (live : Bool) (s : State) : Host.Outcome State Fault Refusal :=
  .next (if planesRun s then
      let t := tryAlloc s p live
      if t.allocOut = 0 then waitAlloc t p live .unit else t
    else s)

/-- READY_LIST_REFILL (R281): at 16 buffers or fewer, the lowest line with a free bit gives its lowest free buffers. -/
def refill (p : Fin 8) (s : State) : State :=
  if planesRun s && poolEn s p && rdb s R.BPM_POOL_CFG_INIT_DONE p.val && s.pools[p].ready.length ≤ 16 then
    match (List.range 4096).find? (fun k => s.pools[p].summary.getLsbD k) with
    | none => s
    | some line =>
      let free := lineFree s p line
      let take := free.take (32 - s.pools[p].ready.length)
      let r := memRead s reqBpm (poolMap s p + line * 64) 64
      let cleared := (List.range 64).map (fun j =>
        (List.range 8).foldl (fun (b : Byte) k =>
          if take.contains (line * 512 + j * 8 + k) then b &&& ~~~BitVec.ofNat 8 (2 ^ k) else b) (r.bytes.getD j 0))
      let t := memWrite r.s reqBpm (poolMap s p + line * 64) cleared false
      let t := setReady t p (t.pools[p].ready ++ take)
      serveWaiting (setSummary t p line (take.length < free.length)) p
  else s

def execReadyListRefill (p : Fin 8) (s : State) : Host.Outcome State Fault Refusal := .next (refill p s)

/-! ## Free, hold and release (R283, R284) -/

/-- The operations that name a buffer pointer. -/
def poolOf (s : State) (a : Nat) : Option (Fin 8) :=
  (List.finRange 8).find? (fun p => poolEn s p && poolBase s p ≤ a && a < poolEnd s p)

/-- An operation is cancelled, or COUNT_ZERO is reported: recorded, counted in the pool and logged. -/
def bpmError (s : State) (p : Option (Fin 8)) (a code : Nat) : State :=
  let s := match p with
    | some q => bump s R.BPM_POOL_ERRORS q.val 1
    | none => s
  let s := wrb (wr (wr s R.BPM_ERR_LAST_PTR 0 a) R.BPM_ERR_LAST_CODE 0 code) R.BPM_ERR_LAST_VALID 0 true
  logIt s planeData 0x41 code 3 45 a 0

/-- A buffer returns to its pool. -/
def returnBuffer (s : State) (p : Fin 8) (i : Nat) : State :=
  let s := setSummary (setBitmap s p i true) p (i / 512) true
  let s := bump s R.BPM_POOL_FREES p.val 1
  serveWaiting (setFree s p (poolFree s p + 1)) p

/-- The count of holds on a buffer: its byte 3. -/
def holdCount (s : State) (p : Fin 8) (i : Nat) : Nat := natOfBytes (peek s (bufAddr s p i + 3) 1)

def setHold (s : State) (p : Fin 8) (i n : Nat) : State :=
  memWrite (memRead s reqBpm (bufAddr s p i + 3) 1).s reqBpm (bufAddr s p i + 3) [BitVec.ofNat 8 n] false

/-- Subtracts a hold; at 0 the buffer is freed, and a count already 0 is reported. -/
def dropHold (s : State) (p : Fin 8) (i : Nat) : State :=
  match holdCount s p i with
  | 0 => returnBuffer (bpmError s (some p) (bufAddr s p i) 7) p i
  | 1 => returnBuffer (setHold s p i 0) p i
  | n => setHold s p i (n - 1)

/-- The first check of R283 that fails, 0 for none. -/
def bpmCheck (s : State) (op : BpmOp) (p : Fin 8) (a : Nat) : Nat :=
  let off := a - poolBase s p
  let i := off / poolSize s p
  if off % poolSize s p ≠ 0 then 2
  else if op ≠ .free ∧ ¬ poolHolds s p then 6
  else if op = .free ∧ ¬ allocated s p i then 3
  else if op ≠ .free ∧ ¬ allocated s p i then 4
  else if op = .hold ∧ holdCount s p i ≥ 255 then 5
  else 0

/-- An operation on a buffer pointer. -/
def bpmOp (s : State) (op : BpmOp) (a : Nat) : State :=
  match poolOf s a with
  | none => bpmError s none a 1
  | some p =>
    let code := bpmCheck s op p a
    let i := (a - poolBase s p) / poolSize s p
    if code ≠ 0 then bpmError s (some p) a code
    else
      match op with
      | .hold => setHold s p i (holdCount s p i + 1)
      | .release => dropHold s p i
      | .free => if poolHolds s p then dropHold s p i else returnBuffer s p i

/-- An operation of a unit, or the one at the head of the queue of host operations. -/
def bpmFrom (op : BpmOp) (src : BpmSrc) (s : State) : State :=
  match src with
  | .unit a => bpmOp s op a.toNat
  | .hostQueue =>
    match s.hostOps with
    | (o, a) :: rest => if o = op then bpmOp { s with hostOps := rest } op a.toNat else s
    | [] => s

def execBpmFree (src : BpmSrc) (s : State) : Host.Outcome State Fault Refusal := .next (if planesRun s then bpmFrom .free src s else s)
def execBpmHold (src : BpmSrc) (s : State) : Host.Outcome State Fault Refusal := .next (if planesRun s then bpmFrom .hold src s else s)
def execBpmRelease (src : BpmSrc) (s : State) : Host.Outcome State Fault Refusal := .next (if planesRun s then bpmFrom .release src s else s)

/-- BPM_HOST_OP_WRITE (R286): queued, or dropped while 256 are pending. -/
def hostOpWrite (op : BpmOp) (a : Addr) (s : State) : State :=
  if s.hostOps.length < 256 then { s with hostOps := s.hostOps ++ [(op, a)] }
  else logIt (bump s R.BPM_OP_DROPS 0 1) planeData 0x41 0x20 3 45 a.toNat 0

def execBpmHostOpWrite (op : BpmOp) (ptr : Addr) (s : State) : Host.Outcome State Fault Refusal :=
  .next (if planesRun s then hostOpWrite op ptr s else s)

/-! ## Host allocation (R282, R287) -/

/-- A host read of BPM_POOL_ALLOC or BPM_POOL_ALLOC_LIVE: it never waits, and a read that returns 0 is counted. -/
def hostAlloc (p : Fin 8) (live : Bool) (s : State) : State :=
  let t := tryAlloc s p live
  if t.allocOut = 0 then bump t R.BPM_POOL_ALLOC_FAILS p.val 1 else t

/-- The completion of a successful read of eight bytes. -/
def answer8 (s : State) (v : Nat) : State := complete s .success false (bytesOf 8 v)

/-- The read and its completion; after a trip the endpoint answers nothing (R374). -/
def answerAlloc (p : Fin 8) (live : Bool) (s : State) : State :=
  if s.phase == .tripped then s
  else
    let t := hostAlloc p live s
    answer8 t t.allocOut.toNat

def execBpmPoolAlloc (p : Fin 8) (s : State) : Host.Outcome State Fault Refusal := .next (answerAlloc p false s)

def execBpmPoolAllocLive (p : Fin 8) (s : State) : Host.Outcome State Fault Refusal := .next (answerAlloc p true s)

/-! ## Enabling and disabling (R279, R280, R302) -/

/-- The statistics that enabling a pool clears (R302). -/
def clearPoolStats (s : State) (p : Fin 8) : State :=
  [R.BPM_POOL_MAX_USED, R.BPM_POOL_ALLOCS, R.BPM_POOL_FREES, R.BPM_POOL_ALLOC_WAIT_CYC, R.BPM_POOL_ALLOC_FAILS,
    R.BPM_POOL_ERRORS, R.BPM_POOL_THROTTLE_CYC, R.BPM_POOL_STOP_CYC].foldl (fun s f => wr s f p.val 0) s

/-- The plain fields of BPM_POOL_CFG take what is written: HOLD_EN only while EN = 0 (R300). -/
def poolCfgFields (p : Fin 8) (cfg : Nat) (s : State) : State :=
  let s := wr s R.BPM_POOL_CFG_SIZE_LOG2 p.val (bitsOf cfg 8 5)
  if poolEn s p then s else wrb s R.BPM_POOL_CFG_HOLD_EN p.val (bitOf cfg 1)

/-- BPM_POOL_ENABLE: a write of BPM_POOL_CFG with EN = 1. A pool that is already enabled goes on as it is: the write is
checked and clears the statistics (log entry 171). -/
def poolEnable (p : Fin 8) (cfg : BitVec 32) (s : State) : State :=
  if !planesRun s then s
  else
    let was := poolEn s p
    let s := poolCfgFields p cfg.toNat s
    if !poolConfigOk s p then wrb s R.BPM_POOL_CFG_CFG_ERR p.val true
    else if was then wrb (clearPoolStats s p) R.BPM_POOL_CFG_CFG_ERR p.val false
    else
      let s := clearPoolStats s p
      let s := wrb (wrb (wrb s R.BPM_POOL_CFG_EN p.val true) R.BPM_POOL_CFG_CFG_ERR p.val false) R.BPM_POOL_CFG_INIT_DONE p.val false
      let s := wr (wr s R.BPM_POOL_STATUS_FREE p.val (poolCount s p)) R.BPM_POOL_STATUS_LEVEL p.val 0
      setReady (modPool s p (fun x => { Pool.init with initialising := true, waiting := x.waiting })) p []

def execBpmPoolEnable (p : Fin 8) (cfg : BitVec 32) (s : State) : Host.Outcome State Fault Refusal :=
  .next (poolEnable p cfg s)

/-- The bitmap with every buffer free: bits beyond COUNT are 0. -/
def fullBitmap (count bytes : Nat) : List Byte :=
  (List.range bytes).map (fun j => BitVec.ofNat 8 (2 ^ (min 8 (count - 8 * j)) - 1))

/-- BITMAP_INIT_DONE (R280). -/
def bitmapInit (p : Fin 8) (s : State) : State :=
  if planesRun s && s.pools[p].initialising then
    let lines := mapBytes s p / 64
    let s := memWrite s reqBpm (poolMap s p) (fullBitmap (poolCount s p) (mapBytes s p)) false
    let s := modPool s p (fun x => { x with initialising := false, summary := BitVec.ofNat 4096 (2 ^ lines - 1) })
    serveWaiting (wrb s R.BPM_POOL_CFG_INIT_DONE p.val true) p
  else s

def execBitmapInitDone (p : Fin 8) (s : State) : Host.Outcome State Fault Refusal := .next (bitmapInit p s)

/-- A write of EN = 0 to an enabled pool is refused unless every buffer is free (R280). -/
def poolClear (p : Fin 8) (s : State) : State :=
  if poolFree s p ≠ poolCount s p then wrb s R.BPM_POOL_CFG_CFG_ERR p.val true
  else
    notePool (wrb (wrb (wrb s R.BPM_POOL_CFG_EN p.val false) R.BPM_POOL_CFG_CFG_ERR p.val false)
      R.BPM_POOL_CFG_INIT_DONE p.val false) p

/-- A write of EN = 0: to a pool that is off it is not refused. -/
def poolOff (p : Fin 8) (s : State) : State :=
  if poolEn s p then poolClear p s else wrb s R.BPM_POOL_CFG_CFG_ERR p.val false

/-- BPM_POOL_DISABLE: a write of EN = 0 that leaves the other fields as they are. -/
def poolDisable (p : Fin 8) (s : State) : State := if planesRun s then poolOff p s else s

def execBpmPoolDisable (p : Fin 8) (s : State) : Host.Outcome State Fault Refusal := .next (poolDisable p s)

/-- Nanoseconds until the gap after the pool's last non-live grant is over. -/
def gapNs (s : State) (p : Fin 8) : Nat :=
  match s.pools[p].lastOther with
  | some t => nsToCyc s (t + max 1 (rd s R.BPM_POOL_BP_THR_GAP p.val))
  | none => 0

/-- THR_GAP_EXPIRY (R287): THR_GAP c-cycles after the last non-live grant a waiting non-live allocation may be granted
again. -/
def thrGapExpiry (p : Fin 8) (s : State) : State :=
  if !planesRun s || rd s R.MC_CLK_STATUS_CORE_MHZ 0 = 0 then s
  else serveWaiting (if inGap s p then passTime s (gapNs s p) else s) p

def execThrGapExpiry (p : Fin 8) (s : State) : Host.Outcome State Fault Refusal := .next (thrGapExpiry p s)

end Sys2Proof.Machine
end

