-- ==== Sys2Proof/Machine/Dma.lean ====
section
/-! DEFINITION. The DMA channels but for the moving of lines (R288 to R302), and host reads on their behalf (R346). -/

namespace Sys2Proof.Machine

/-! ## Descriptors (R291) -/

def ctlFill (d : Desc) : Bool := d.ctl.getLsbD 0
def ctlArrive (d : Desc) : Bool := d.ctl.getLsbD 1
def ctlWaitPrev (d : Desc) : Bool := d.ctl.getLsbD 2
def ctlAlloc (d : Desc) : Bool := d.ctl.getLsbD 3
def ctlFreeSrc (d : Desc) : Bool := d.ctl.getLsbD 4
def ctlLive (d : Desc) : Bool := d.ctl.getLsbD 5
def ctlIrq (d : Desc) : Bool := d.ctl.getLsbD 6
def ctlPool (d : Desc) : Fin 8 := Fin.ofNat 8 (bitsOf d.ctl.toNat 8 3)

/-- The descriptor in 64 bytes read at an address. -/
def parseDesc (a : Addr) (bs : List Byte) : Desc :=
  { at_ := a, next := BitVec.ofNat 48 (fieldOf bs 0 6), src := BitVec.ofNat 48 (fieldOf bs 8 6),
    dst := BitVec.ofNat 48 (fieldOf bs 16 6), lineLen := fieldOf bs 24 3, lines := fieldOf bs 28 2,
    ctl := BitVec.ofNat 16 (fieldOf bs 30 2), srcStride := BitVec.ofNat 32 (fieldOf bs 32 4),
    dstStride := BitVec.ofNat 32 (fieldOf bs 36 4), fill := BitVec.ofNat 32 (fieldOf bs 40 4) }

/-- Every reserved field is 0 and NEXT is aligned (R296, code 7). -/
def descFormatOk (bs : List Byte) : Bool :=
  fieldOf bs 6 2 == 0 && fieldOf bs 0 1 % 64 == 0 && fieldOf bs 14 2 == 0 && fieldOf bs 22 2 == 0 &&
    fieldOf bs 27 1 == 0 && !bitOf (fieldOf bs 30 2) 7 && bitsOf (fieldOf bs 30 2) 11 5 == 0 &&
    fieldOf bs 44 4 == 0 && fieldOf bs 60 4 == 0

/-- The descriptor moves something (R292). -/
def moves (d : Desc) : Bool := d.lineLen != 0 && d.lines != 0

/-- First source byte of line `l`. -/
def lineSrc (d : Desc) (l : Nat) : Nat := (BitVec.ofInt 48 ((d.src.toNat : Int) + l * d.srcStride.toInt)).toNat

/-- First destination byte of line `l`, in the buffer allocated under ALLOC_DST (R291). -/
def lineDst (d : Desc) (buf : Option Addr) (l : Nat) : Nat :=
  let base := match buf with
    | some b => (b.toNat : Int)
    | none => 0
  (BitVec.ofInt 48 (base + d.dst.toNat + l * d.dstStride.toInt)).toNat

def inHost (s : State) (a : Nat) : Bool :=
  match regionOf s a with
  | .host _ => true
  | _ => false

def inRegs (s : State) (a : Nat) : Bool :=
  match regionOf s a with
  | .regs _ => true
  | _ => false

/-- A register-space line is 4 or 8 bytes and naturally aligned (R292). -/
def regLineOk (s : State) (a len : Nat) : Bool := !inRegs s a || ((len == 4 || len == 8) && a % len == 0)

/-- The code that stops the descriptor at line `l`, 0 for none (R296: 1 UNMAPPED, 5 REG_ACCESS). -/
def lineCode (s : State) (d : Desc) (buf : Option Addr) (l : Nat) : Nat :=
  let a := lineSrc d l
  let b := lineDst d buf l
  if (!ctlFill d && !mapped s a d.lineLen) || !mapped s b d.lineLen then 1
  else if (!ctlFill d && !regLineOk s a d.lineLen) || !regLineOk s b d.lineLen then 5
  else 0

/-- The lines before the first that addresses stop the descriptor at. -/
def linesAddressed (s : State) (d : Desc) (buf : Option Addr) : Nat :=
  match (List.range d.lines).find? (fun l => lineCode s d buf l != 0) with
  | some l => l
  | none => d.lines

/-- A line addresses host memory on a channel that may not (R296, code 4). -/
def noHost (s : State) (k : Fin 64) (d : Desc) : Bool :=
  k.val ≥ 32 && moves d && (List.range d.lines).any (fun l =>
    (!ctlFill d && inHost s (lineSrc d l)) || (!ctlAlloc d && inHost s (lineDst d none l)))

/-! ## Host reads (R346) -/

/-- Outbound non-posted requests that the tags in use allow (R326). -/
def tagLimit (s : State) : Nat := if s.pci.tag10 then 768 else if s.pci.extTag then 256 else 32

def maxReadRequest (s : State) : Nat := 128 * 2 ^ (min s.pci.mrrs.toNat 5)

/-- A read split at Max_Read_Request_Size and at 4 KiB boundaries: host address, length, position in the staging. -/
def splitRead (mrrs : Nat) : Nat → Nat → Nat → Nat → List (Nat × Nat × Nat)
  | 0, _, _, _ => []
  | fuel + 1, addr, len, pos =>
    if len = 0 then []
    else
      let n := min len (min mrrs (4096 - addr % 4096))
      (addr, n, pos) :: splitRead mrrs fuel (addr + n) (len - n) (pos + n)

/-- Transactions outstanding; quarantined tags hold none. -/
def outstanding (s : State) : Nat := (s.tags.filter (fun t => !t.quarantined)).length

/-- The lowest tag not in use, if the limits of R290 and R326 leave one. -/
def freeTag (s : State) (k : Fin 64) : Option Nat :=
  if (s.tags.filter (fun t => t.ch == k && !t.quarantined)).length ≥ 256 then none
  else (List.range (tagLimit s)).find? (fun t => !s.tags.any (fun x => x.tag.toNat == t))

/-- A read goes out under a tag. -/
def useTag (s : State) (k : Fin 64) (t : Nat) (r : Nat × Nat × Nat) (flush : Option W32) : State :=
  let s := linkUsed { s with tags := s.tags ++ [{ tag := BitVec.ofNat 10 t, ch := k, addr := r.1, len := r.2.1, pos := r.2.2,
                                                  got := 0, sentAt := nowW s, quarantined := false, flush := flush }] }
  raiseTo s R.DMA_OUTSTANDING_MAX 0 (outstanding s)

/-- One read of a channel's lines is sent, or waits for a tag. -/
def sendRead (k : Fin 64) (s : State) (r : Nat × Nat × Nat) : State :=
  match freeTag s k with
  | none => modDma s k (fun c => { c with unsent := c.unsent ++ [r] })
  | some t => useTag s k t r none

/-- A place in no staging: that of a read for no line. -/
def noPlace : Nat := 2 ^ 48

/-- The flush read of a channel is sent, if one is due and has a tag: 4 B at the last host write's address (R295). -/
def sendFlush (s : State) (k : Fin 64) : State :=
  match s.dma[k].flushDue, s.dma[k].lastHost, freeTag s k with
  | true, some a, some t =>
    let s := useTag s k t (a, 4, noPlace) (some (BitVec.ofNat 32 (rd s R.DMA_CH_COUNT k.val)))
    modDma s k (fun c => { c with lastHost := none, flushDue := false })
  | _, _, _ => s

/-- Sends what a channel has to read, in order. -/
def sendReads (s : State) (k : Fin 64) : State :=
  sendFlush (s.dma[k].unsent.foldl (sendRead k) (modDma s k (fun c => { c with unsent := [] }))) k

/-- Tags have been freed: waiting reads go, lowest channel first. -/
def sendAll (s : State) : State := (List.finRange 64).foldl sendReads s

/-- The flush read of a channel that is outstanding. -/
def flushTag (s : State) (k : Fin 64) : Option Tag := s.tags.find? (fun t => t.ch == k && !t.quarantined && t.flush.isSome)

/-- Some write of the channel to host memory has not been proved performed (R295). -/
def unflushed (s : State) (k : Fin 64) : Bool := s.dma[k].lastHost.isSome || (flushTag s k).isSome

/-- A flush read is wanted: it goes out unless one is out already or there is nothing to flush. -/
def startFlush (s : State) (k : Fin 64) : State :=
  if s.dma[k].lastHost.isSome && (flushTag s k).isNone then sendFlush (modDma s k (fun c => { c with flushDue := true })) k
  else s

/-- The channel's completion count `c` has reached `t` (R198). -/
def countReached (c t : W32) : Bool := 0 ≤ (c - t).toInt

/-- The channel's completion count has reached `t` (R198). -/
def reached (s : State) (k : Fin 64) (t : W32) : Bool := countReached (BitVec.ofNat 32 (rd s R.DMA_CH_COUNT k.val)) t

/-- The writes of the chains that had completed when COUNT was `n` are performed (R200, R295). -/
def performed (s : State) (k : Fin 64) (n : W32) : State :=
  { s with cores := s.cores.map (fun c => { c with chains := c.chains.filter (fun e => !(e.1 == k && countReached n e.2)) }) }

/-- A read has ended, in whatever way: a flush read then proves the writes before it (DESIGN CHOICE where it ended in error,
log entry 192). -/
def readEnds (s : State) (t : Tag) : State :=
  match t.flush with
  | some n => performed s t.ch n
  | none => s

/-! ## Outbound completions (R347 to R349) -/

/-- Bytes arrive in a channel's staging. -/
def stage_ (s : State) (k : Fin 64) (pos : Nat) (bs : List Staged) : State :=
  modDma s k (fun c => { c with
    staged := (c.staged.zipIdx).map (fun e => if pos ≤ e.2 ∧ e.2 < pos + bs.length then bs.getD (e.2 - pos) e.1 else e.1) })

/-- An Unexpected Completion is discarded (R349). -/
def unexpected (s : State) (a : Nat) : State :=
  hifError (bump (aerUnc s 16 true) R.HIF_UNEXP_CPL 0 1) planeData 9 3 a

def setTag (s : State) (tag : BitVec 10) (f : Tag → Tag) : State :=
  { s with tags := s.tags.map (fun t => if t.tag = tag then f t else t) }

def dropTag (s : State) (tag : BitVec 10) : State := sendAll { s with tags := s.tags.filter (fun t => t.tag ≠ tag) }

/-- Completion data with EP set is reported, counted and logged (R347, R356). -/
def poisonIn (s : State) (a : Nat) : State := hifError (bump (aerUnc s 12 true) R.HIF_POISON_IN 0 1) planeData 11 3 a

/-- Completion data for a read that is waited for. -/
def completionData (s : State) (t : Tag) (bytes : List Byte) (ep : Bool) : State :=
  let bs := (bytes.take (t.len - t.got)).map (fun b => if ep then Staged.poison else Staged.data b)
  let s := if ep then poisonIn s t.addr else s
  let s := stage_ s t.ch (t.pos + t.got) bs
  if t.got + bs.length ≥ t.len then readEnds (dropTag s t.tag) t else setTag s t.tag (fun x => { x with got := t.got + bs.length })

/-- The read ends in error: every byte not yet received is lost. -/
def readError (s : State) (t : Tag) : State :=
  stage_ s t.ch (t.pos + t.got) (List.replicate (t.len - t.got) Staged.error)

/-- OUTBOUND_COMPLETION (R347, R349). A quarantined tag is freed by the completion that carries the request's last byte. -/
def completionIn (tag : BitVec 10) (st : CplStatus) (bytes : List Byte) (ep : Bool) (s : State) : State :=
  match s.tags.find? (fun t => t.tag == tag) with
  | none => unexpected s 0
  | some t =>
    if t.quarantined then
      let s := unexpected s t.addr
      if t.got + bytes.length ≥ t.len then dropTag s tag
      else setTag s tag (fun x => { x with got := t.got + bytes.length })
    else if st ≠ .success then readEnds (dropTag (hifError (readError s t) planeData 10 3 t.addr) tag) t
    else completionData s t bytes ep

/-- A completion that the link brings: one not decoded before the link is down is dropped (R350), and any other is a use of the
link (R354). -/
def outboundCompletion (tag : BitVec 10) (st : CplStatus) (bytes : List Byte) (ep : Bool) (s : State) : State :=
  if linkIsUp s then completionIn tag st bytes ep (linkUsed s) else s

def execOutboundCompletion (tag : BitVec 10) (st : CplStatus) (bytes : List Byte) (ep : Bool) (s : State) :
    Host.Outcome State Fault Refusal := .next (outboundCompletion tag st bytes ep s)

/-- The completion timeout in use, in µs (R348). -/
def cplTimeoutUs (v : BitVec 4) : Nat :=
  if v = 1 then 80 else if v = 2 then 8000 else if v = 5 then 40000 else if v = 6 then 160000 else 20000

/-- The timeout of a read expires: its tag is quarantined (R349). -/
def timeOut (s : State) (t : Tag) : State :=
  let s := passTo s (t.sentAt.toNat + cplTimeoutUs s.pci.cplTimeout * 1000)
  let s := hifError (bump (aerUnc (readError s t) 14 false) R.HIF_CPL_TIMEOUTS 0 1) planeData 8 3 t.addr
  readEnds (setTag s t.tag (fun x => { x with quarantined := true, sentAt := nowW s })) t

/-- CPL_TIMEOUT. -/
def cplTimeout (tag : BitVec 10) (s : State) : State :=
  match s.tags.find? (fun t => t.tag == tag && !t.quarantined) with
  | none => s
  | some t => timeOut s t

def execCplTimeout (tag : BitVec 10) (s : State) : Host.Outcome State Fault Refusal := .next (cplTimeout tag s)

/-- TAG_QUARANTINE_END: a second interval has passed (R349). -/
def tagQuarantineEnd (tag : BitVec 10) (s : State) : State :=
  match s.tags.find? (fun t => t.tag == tag && t.quarantined) with
  | none => s
  | some t => dropTag (passTo s (t.sentAt.toNat + cplTimeoutUs s.pci.cplTimeout * 1000)) tag

def execTagQuarantineEnd (tag : BitVec 10) (s : State) : Host.Outcome State Fault Refusal :=
  .next (tagQuarantineEnd tag s)

/-- A read of host memory that begins and ends in one step, for a channel: of a descriptor, or of a job ring's (R346 to
R349). Without a free tag it waits. -/
def hostFetch (s : State) (k : Fin 64) (a len : Nat) (got : HostRead) : Option State :=
  (freeTag s k).map (fun t =>
    let s := useTag s k t (a, len, noPlace) none
    let tag := BitVec.ofNat 10 t
    match got with
    | .data _ => dropTag s tag
    | .poisoned => dropTag (poisonIn s a) tag
    | .errorStatus => dropTag (hifError s planeData 10 3 a) tag
    | .timeout =>
      match s.tags.find? (fun x => x.tag == tag) with
      | some x => timeOut s x
      | none => s)

/-- Host reads are outstanding or unsent for the channel. -/
def reading (s : State) (k : Fin 64) : Bool :=
  !s.dma[k].unsent.isEmpty || s.tags.any (fun t => t.ch == k && !t.quarantined && t.pos < s.dma[k].staged.length)

/-- The descriptor's lines begin to move: host source lines are read into the staging. -/
def startMove (s : State) (k : Fin 64) (d : Desc) : State :=
  let lines := List.range (linesAddressed s d s.dma[k].buf)
  let host := fun l => !ctlFill d && inHost s (lineSrc d l)
  let reads := lines.flatMap (fun l =>
    if host l then splitRead (maxReadRequest s) d.lineLen (lineSrc d l - 0x400000000000) d.lineLen (l * d.lineLen) else [])
  let staged := if lines.any host then
      lines.flatMap (fun l => List.replicate d.lineLen (if host l then Staged.waiting else Staged.data 0))
    else []
  sendReads (modDma s k (fun c => { c with phase := .move d, staged := staged, unsent := reads })) k

/-! ## STATUS, failures and completion (R293 to R296) -/

/-- The engine writes to a descriptor's bytes in memory or in host memory. -/
def descWrite (s : State) (k : Fin 64) (a : Nat) (bs : List Byte) : State :=
  match regionOf s a with
  | .host h => modDma (sendWrite s h bs false) k (fun c => { c with lastHost := some h })
  | _ => memWrite s reqDma a bs false

/-- STATUS, ALLOC_PTR if an allocation was made, and NEXT if the descriptor ends its chain (R293). -/
def writeStatus (s : State) (k : Fin 64) (d : Desc) (code lines : Nat) (next : Bool) : State :=
  let st := 1 + b2n (code != 0) * 2 + code * 16 + lines * 65536
  let s := match s.dma[k].buf with
    | some b => descWrite s k (d.at_.toNat + 48) (bytesOf 8 b.toNat)
    | none => s
  let s := if next then descWrite s k d.at_.toNat (bytesOf 8 0) else s
  descWrite s k (d.at_.toNat + 56) (bytesOf 4 st)

/-- A failure is counted and recorded: BAD and BAD_ADDR (R296, R302). -/
def recordBad (s : State) (k : Fin 64) (a code : Nat) : State :=
  wrb (wr (wr (bump s R.DMA_CH_BAD k.val 1) R.DMA_CH_BAD_ADDR_ADDR k.val a) R.DMA_CH_BAD_ADDR_CODE k.val code)
    R.DMA_CH_BAD_ADDR_VALID k.val true

/-- The error-log entry of a failure. -/
def logDma (s : State) (k : Fin 64) (code a : Nat) : State := logIt s planeData 0x42 code 3 44 a k.val

/-- The channel's vector, if enabled. -/
def dmaIrq (s : State) (k : Fin 64) : State :=
  if rdb s R.DMA_CH_IRQ_IRQ_EN k.val then raiseVector s (rd s R.DMA_CH_IRQ_VECTOR k.val) else s

def setPhase (s : State) (k : Fin 64) (p : ChPhase) : State := modDma s k (fun c => { c with phase := p })

/-- The descriptor completes: the last one leaves its IRQ to the chain's completion. -/
def finishDesc (s : State) (k : Fin 64) (d : Desc) (last : Bool) : State :=
  let s := modDma s k (fun c => { c with buf := none, staged := [] })
  if last then setPhase s k (.done (ctlIrq d))
  else setPhase (if ctlIrq d then dmaIrq s k else s) k (.fetch d.next)

/-- STATUS is written; an ARRIVE descriptor waits for its writes, any other completes (R293, R295). -/
def closeDesc (s : State) (k : Fin 64) (d : Desc) (code lines : Nat) : State :=
  let s := writeStatus s k d code lines (d.next == 0)
  let d := if code = 7 then { d with next := 0 } else d
  if ctlArrive d then startFlush (setPhase s k (.arrive d lines)) k else finishDesc s k d (d.next == 0)

/-- A descriptor that failed as a whole, with nothing written. -/
def failDesc (s : State) (k : Fin 64) (d : Desc) (code : Nat) : State :=
  closeDesc (logDma (recordBad s k d.at_.toNat code) k code d.at_.toNat) k d code 0

/-! ## Queueing and starting chains (R288, R289, R298, R299) -/

/-- A chain is accepted: QCOUNT counts it. -/
def queueChain (s : State) (k : Fin 64) (a : Addr) : State :=
  bump (modDma s k (fun c => { c with queue := c.queue ++ [a] })) R.DMA_CH_QCOUNT k.val 1

def queueFull (s : State) (k : Fin 64) : Bool := s.dma[k].queue.length ≥ 16

/-- DMA_CH_QUEUE: a host write of a chain's address. -/
def dmaQueueWrite (k : Fin 64) (addr : BitVec 64) (s : State) : State :=
  let a := bitsOf addr.toNat 6 42 * 64
  if !planesRun s then s
  else if queueFull s k then logDma (bump s R.DMA_CH_DROPS k.val 1) k 0x20 a
  else queueChain s k (BitVec.ofNat 48 a)

def execDmaChQueue (k : Fin 64) (addr : BitVec 64) (s : State) : Host.Outcome State Fault Refusal :=
  .next (dmaQueueWrite k addr s)

/-- PACE as it acts: 3 acts as 0 (R299). -/
def paceMode (s : State) (k : Fin 64) : Nat := let p := rd s R.DMA_CH_CFG_PACE k.val; if p = 3 then 0 else p

def dmaIdle (s : State) (k : Fin 64) : Bool := s.dma[k].phase == .idle

/-- The next queued chain starts. -/
def startChain (s : State) (k : Fin 64) : State :=
  match s.dma[k].queue with
  | [] => s
  | a :: rest => ltrUpdate (modDma s k (fun c => { c with queue := rest, phase := .fetch a }))

/-- DMA_CHAIN_START: an idle, enabled channel starts its next queued chain; a chained channel takes a grant. A channel
paced by a timer starts only at PACE_EVENT. -/
def chainStart (k : Fin 64) (s : State) : State :=
  if !dmaIdle s k || !rdb s R.DMA_CH_CFG_EN k.val || s.dma[k].queue.isEmpty then s
  else
    match paceMode s k with
    | 0 => startChain s k
    | 1 => s
    | _ =>
      let g := rd s R.DMA_CH_PACE_STAT_GRANTS k.val
      if g = 0 then s else startChain (wr s R.DMA_CH_PACE_STAT_GRANTS k.val (g - 1)) k

def execDmaChainStart (k : Fin 64) (s : State) : Host.Outcome State Fault Refusal := .next (chainStart k s)

/-! ## Fetching a descriptor (R291, R296) -/

/-- The chain ends because its descriptor could not be fetched. -/
def fetchFail (s : State) (k : Fin 64) (a code : Nat) : State :=
  setPhase (logDma (recordBad s k a code) k code a) k (.done false)

/-- A buffer is asked for, behind what waits already (R286): one that the pool can grant is granted at once (R282), and the
channel waits for any other. -/
def startAlloc (s : State) (k : Fin 64) (d : Desc) : State :=
  serveWaiting
    (waitAlloc (modDma s k (fun c => { c with phase := .alloc d, allocSince := elapsedW s })) (ctlPool d) (ctlLive d) (.channel k))
    (ctlPool d)

/-- The descriptor goes on to its allocation, or to its lines. -/
def afterWait (s : State) (k : Fin 64) (d : Desc) : State :=
  if ctlAlloc d && moves d then startAlloc s k d else startMove s k d

/-- A descriptor has been fetched. -/
def gotDesc (s : State) (k : Fin 64) (a : Addr) (bs : List Byte) : State :=
  let d := parseDesc a bs
  let s := modDma s k (fun c => { c with buf := none, staged := [], unsent := [] })
  if !descFormatOk bs then failDesc s k d 7
  else if noHost s k d then failDesc s k d 4
  else if ctlWaitPrev d && moves d && !ctlFill d then startFlush (setPhase s k (.waitPrev d)) k
  else afterWait s k d

/-- DMA_DESCRIPTOR_FETCH. `got` is what host memory returned, for a descriptor there. -/
def descFetch (k : Fin 64) (got : HostRead) (s : State) : State :=
  if !rdb s R.DMA_CH_CFG_EN k.val || !planesRun s then s
  else
    match s.dma[k].phase with
    | .fetch a =>
      match regionOf s a.toNat with
      | .host h =>
        if k.val ≥ 32 then fetchFail s k a.toNat 4
        else
          match hostFetch s k h 64 got with
          | none => s
          | some t =>
            match got with
            | .data bs => gotDesc t k a bs
            | .poisoned => fetchFail t k a.toNat 2
            | .errorStatus => fetchFail t k a.toNat 3
            | .timeout => fetchFail t k a.toNat 3
      | _ =>
        if !inMemory s a.toNat 64 then fetchFail s k a.toNat 1
        else
          let r := memRead s reqDma a.toNat 64
          if r.poison then fetchFail r.s k a.toNat 2 else gotDesc r.s k a r.bytes
    | _ => s

def execDmaDescriptorFetch (k : Fin 64) (got : HostRead) (s : State) : Host.Outcome State Fault Refusal :=
  .next (descFetch k got s)

/-- DMA_ALLOC_DST: the descriptor goes on with the buffer that the pool has granted or, in its turn, grants now. -/
def allocDst (k : Fin 64) (s : State) : State :=
  match s.dma[k].phase with
  | .alloc d =>
    let s := serveWaiting s (ctlPool d)
    if s.dma[k].buf.isSome then startMove s k d else s
  | _ => s

def execDmaAllocDst (k : Fin 64) (s : State) : Host.Outcome State Fault Refusal :=
  .next (if planesRun s then allocDst k s else s)

/-- DMA_ALLOC_WAIT in ns; 0 acts as 1 µs (R301). -/
def allocWaitNs (s : State) : Nat := max 1 (rd s R.DMA_ALLOC_WAIT 0) * 1000

/-- DMA_ALLOC_TIMEOUT: the wait reaches DMA_ALLOC_WAIT and the descriptor fails with code 6 (R296), unless the pool can grant
the buffer by then. -/
def allocTimeout (k : Fin 64) (s : State) : State :=
  match s.dma[k].phase with
  | .alloc d =>
    if s.dma[k].buf.isSome then s
    else
      let s := serveWaiting (passUntil s (s.dma[k].allocSince.toNat + allocWaitNs s)) (ctlPool d)
      if s.dma[k].buf.isSome then s
      else failDesc (bump (leavePools s (.channel k)) R.BPM_POOL_ALLOC_FAILS (ctlPool d).val 1) k d 6
  | _ => s

def execDmaAllocTimeout (k : Fin 64) (s : State) : Host.Outcome State Fault Refusal :=
  .next (if planesRun s then allocTimeout k s else s)


/-- Some core waits in a FENCE DMA that covers a chain on the channel (R200, R295). -/
def fenceWaits (s : State) (k : Fin 64) : Bool :=
  (List.finRange 16).any (fun n => match s.cores[n].mode with
    | .waitFence m => m.getLsbD 2 && s.cores[n].chains.any (fun c => c.1 == k)
    | .ending => s.cores[n].chains.any (fun c => c.1 == k)
    | .trapped _ => s.cores[n].chains.any (fun c => c.1 == k)
    | _ => false)

/-- A flush read is wanted: by an ARRIVE or WAIT_PREV descriptor, or by a fence. -/
def wantsFlush (s : State) (k : Fin 64) : Bool :=
  match s.dma[k].phase with
  | .arrive _ _ => true
  | .waitPrev _ => true
  | _ => fenceWaits s k

/-- The channel's flush read completes; one that is wanted and not out yet goes out first. -/
def flushDone (s : State) (k : Fin 64) : State :=
  let s := if wantsFlush s k then startFlush s k else s
  match flushTag s k with
  | some t => readEnds (dropTag s t.tag) t
  | none => s

/-- DMA_WAIT_PREV_DONE: every earlier write of the channel is performed. -/
def waitPrevDone (k : Fin 64) (s : State) : State :=
  match s.dma[k].phase with
  | .waitPrev d =>
    let s := flushDone s k
    if unflushed s k then s else afterWait s k d
  | _ => s

def execDmaWaitPrevDone (k : Fin 64) (s : State) : Host.Outcome State Fault Refusal :=
  .next (if planesRun s then waitPrevDone k s else s)

/-- DMA_ARRIVE_FLUSH: the flush read of an ARRIVE descriptor, or of a fence, completes (R295). -/
def arriveFlush (k : Fin 64) (s : State) : State :=
  let s := flushDone s k
  match s.dma[k].phase with
  | .arrive d _ => if unflushed s k then s else finishDesc s k d (d.next == 0)
  | _ => s

def execDmaArriveFlush (k : Fin 64) (s : State) : Host.Outcome State Fault Refusal := .next (arriveFlush k s)

/-! ## Completion of a chain (R294, R299) -/

/-- One grant for channel `j`; beyond 255 it is lost and counted. -/
def addGrant (s : State) (j : Fin 64) (n : Nat) : State :=
  let g := rd s R.DMA_CH_PACE_STAT_GRANTS j.val + n
  let s := wr s R.DMA_CH_PACE_STAT_GRANTS j.val (min g 255)
  if g > 255 then bump s R.DMA_CH_PACE_STAT_MISSED j.val (g - 255) else s

/-- A chain of channel `k` has completed: COUNT, and a grant to every channel chained to it. -/
def countChain (k : Fin 64) (s : State) : State :=
  let s := bump s R.DMA_CH_COUNT k.val 1
  (List.finRange 64).foldl (fun s j =>
    if paceMode s j = 2 ∧ rd s R.DMA_CH_CFG_PACE_SRC j.val = k.val then addGrant s j 1 else s) s

/-- DMA_CHAIN_COMPLETE: not while the channel is paused (R297). -/
def chainComplete (k : Fin 64) (s : State) : State :=
  match s.dma[k].phase with
  | .done irq =>
    if rdb s R.DMA_CH_CFG_EN k.val then
      let s := countChain k s
      let s := if fenceWaits s k then startFlush s k else s
      ltrUpdate (setPhase (if irq then dmaIrq s k else s) k .idle)
    else s
  | _ => s

def execDmaChainComplete (k : Fin 64) (s : State) : Host.Outcome State Fault Refusal := .next (chainComplete k s)

/-! ## Abort, pause and resume (R297) -/

/-- The descriptor in progress, if any, with the lines it has counted. -/
def inProgress (s : State) (k : Fin 64) : Option (Desc × Nat) :=
  match s.dma[k].phase with
  | .alloc d => some (d, 0)
  | .waitPrev d => some (d, 0)
  | .move d => some (d, 0)
  | .arrive d l => some (d, l)
  | _ => none

/-- The channel stops: `lines` of the descriptor in progress have been issued. Completions of reads still outstanding
find no staging. -/
def abortChannel (s : State) (k : Fin 64) (lines : Nat) : State :=
  let chains := b2n (!dmaIdle s k) + s.dma[k].queue.length
  let at_ := match inProgress s k with
    | some (d, _) => d.at_.toNat
    | none => 0
  let s := match inProgress s k with
    | some (d, l) => writeStatus s k d 8 (max l lines) false
    | none => s
  let s := modDma s k (fun c => { c with queue := [], phase := .idle, buf := none, staged := [], unsent := [], flushDue := false })
  let s := leavePools { s with tags := s.tags.map (fun t => if t.ch = k then { t with pos := noPlace } else t) } (.channel k)
  let s := (List.range chains).foldl (fun s _ => countChain k s) s
  ltrUpdate (logDma (bump s R.DMA_CH_ABORTED k.val chains) k 0x21 at_)

/-- DMA_CH_PAUSE: EN is cleared. -/
def execDmaChPause (k : Fin 64) (s : State) : Host.Outcome State Fault Refusal :=
  .next (if planesRun s then wrb s R.DMA_CH_CFG_EN k.val false else s)

/-- DMA_CH_RESUME: EN is set. -/
def execDmaChResume (k : Fin 64) (s : State) : Host.Outcome State Fault Refusal :=
  .next (if planesRun s then wrb s R.DMA_CH_CFG_EN k.val true else s)

/-! ## Legacy pacing (R298, R299) -/

/-- The first pacing event after the present time. -/
def nextPace (s : State) (k : Fin 64) : Nat :=
  let p := max 1000 (rd s R.DMA_CH_PACE_PERIOD k.val)
  let t := now s + 1
  t + (((rd s R.DMA_CH_PACE_PHASE k.val : Int) - t) % p).toNat

/-- PACE_EVENT (R298). -/
def paceEvent (k : Fin 64) (s : State) : State :=
  if paceMode s k = 1 then
    let s := passTo s (nextPace s k)
    if !dmaIdle s k then bump s R.DMA_CH_PACE_STAT_MISSED k.val 1
    else if rdb s R.DMA_CH_CFG_EN k.val then startChain s k
    else s
  else s

def execPaceEvent (k : Fin 64) (s : State) : Host.Outcome State Fault Refusal := .next (paceEvent k s)

/-- PACE_GRANT (R299). -/
def execPaceGrant (k : Fin 64) (grants : BitVec 8) (s : State) : Host.Outcome State Fault Refusal :=
  .next (if planesRun s then addGrant s k grants.toNat else s)

/-- PACE_CONFIG: a write of DMA_CH_CFG, with the refusals of R299. -/
def dmaCfgWrite (k : Fin 64) (cfg : Nat) (s : State) : State :=
  let pace := bitsOf cfg 4 2
  let src := bitsOf cfg 8 6
  let refused := pace ≠ 0 ∧ (k.val < 2 ∨ (pace = 2 ∧ src = k.val))
  let s := wr (wr (wrb s R.DMA_CH_CFG_EN k.val (bitOf cfg 0)) R.DMA_CH_CFG_CLASS k.val (bitsOf cfg 1 3)) R.DMA_CH_CFG_PACE_SRC k.val src
  let s := if refused then logDma (wr s R.DMA_CH_CFG_PACE k.val 0) k 0x22 0 else wr s R.DMA_CH_CFG_PACE k.val pace
  if bitOf cfg 16 then abortChannel s k 0 else s

def execPaceConfig (k : Fin 64) (cfg : BitVec 32) (s : State) : Host.Outcome State Fault Refusal :=
  .next (if planesRun s then dmaCfgWrite k cfg.toNat s else s)

end Sys2Proof.Machine
end

