-- ==== Sys2Proof/Machine/Float.lean ====
section
/-! DEFINITION. The element formats and the exact arithmetic they are rounded from (R155 to R157). A value is exact:
a sign, a magnitude and a power of two. Every operation is performed exactly and rounded once. -/

namespace Sys2Proof.Machine

/-- A floating-point format (R155). -/
structure FpFmt where
  expBits : Nat
  manBits : Nat
  bias : Nat
  /-- The encoding of the largest finite value. -/
  maxFin : Nat
  /-- Subnormals are read and written as zero. -/
  flushes : Bool
  /-- The format has an infinity. -/
  hasInf : Bool
  deriving DecidableEq, Repr

def fp32 : FpFmt := ⟨8, 23, 127, 0x7F7FFFFF, true, true⟩
def bf16 : FpFmt := ⟨8, 7, 127, 0x7F7F, true, true⟩
def fp16 : FpFmt := ⟨5, 10, 15, 0x7BFF, true, true⟩
def e4m3 : FpFmt := ⟨4, 3, 7, 0x7E, false, false⟩
def e5m2 : FpFmt := ⟨5, 2, 15, 0x7B, false, true⟩

/-- A value: NaN, an infinity, or sign, magnitude `m` and exponent `e` for m × 2^e. -/
inductive Fv where
  | nan
  | inf (neg : Bool)
  | fin (neg : Bool) (m : Nat) (e : Int)
  deriving DecidableEq, Repr

def Fv.isFinite (v : Fv) : Bool :=
  match v with
  | .fin _ _ _ => true
  | _ => false

def Fv.isNan (v : Fv) : Bool :=
  match v with
  | .nan => true
  | _ => false

/-- +0. -/
def fvZero : Fv := .fin false 0 0

/-- The value that bits of a format stand for; a subnormal of a format that flushes reads as zero with its sign. -/
def fpDecode (f : FpFmt) (bits : Nat) : Fv :=
  let neg := bits.testBit (f.expBits + f.manBits)
  let ex := bits / 2 ^ f.manBits % 2 ^ f.expBits
  let fr := bits % 2 ^ f.manBits
  let top := ex == 2 ^ f.expBits - 1
  if top && f.hasInf then (if fr = 0 then .inf neg else .nan)
  else if top && fr == 2 ^ f.manBits - 1 then .nan
  else if ex = 0 then
    (if f.flushes then .fin neg 0 0 else .fin neg fr (1 - (f.bias : Int) - f.manBits))
  else .fin neg (2 ^ f.manBits + fr) ((ex : Int) - f.bias - f.manBits)

/-- `m` divided by 2^k, rounded to nearest with ties to even (R2). -/
def rneShift (m k : Nat) : Nat :=
  let q := m / 2 ^ k
  let r := m % 2 ^ k
  if 2 * r > 2 ^ k ∨ (2 * r = 2 ^ k ∧ q % 2 = 1) then q + 1 else q

/-- An exact product of two values (R157). -/
def fpMul (a b : Fv) : Fv :=
  match a, b with
  | .nan, _ => .nan
  | _, .nan => .nan
  | .inf s, .inf t => .inf (s != t)
  | .inf s, .fin t m _ => if m = 0 then .nan else .inf (s != t)
  | .fin t m _, .inf s => if m = 0 then .nan else .inf (s != t)
  | .fin s m e, .fin t n g => .fin (s != t) (m * n) (e + g)

/-- The signed integer that a finite value is, in units of 2^u for u no more than its exponent. -/
def fvUnits (neg : Bool) (m : Nat) (e u : Int) : Int :=
  let x : Int := m * 2 ^ (e - u).toNat
  if neg then -x else x

/-- An exact sum of two values. A zero sum is +0 unless both terms are −0. -/
def fpAdd (a b : Fv) : Fv :=
  match a, b with
  | .nan, _ => .nan
  | _, .nan => .nan
  | .inf s, .inf t => if s = t then .inf s else .nan
  | .inf s, .fin _ _ _ => .inf s
  | .fin _ _ _, .inf t => .inf t
  | .fin s m e, .fin t n g =>
    let u := min e g
    let x := fvUnits s m e u + fvUnits t n g u
    if x = 0 then .fin (s && t && m == 0 && n == 0) 0 0 else .fin (x < 0) x.natAbs u

/-- The value of an integer. -/
def fvOfInt (x : Int) : Fv := .fin (x < 0) x.natAbs 0

/-- Negation. -/
def fpNeg (a : Fv) : Fv :=
  match a with
  | .nan => .nan
  | .inf s => .inf (!s)
  | .fin s m e => .fin (!s) m e

/-- a < b for values that are not NaN; −0 equals +0. -/
def fpLt (a b : Fv) : Bool :=
  match a, b with
  | .nan, _ => false
  | _, .nan => false
  | .inf s, .inf t => s && !t
  | .inf s, .fin _ _ _ => s
  | .fin _ _ _, .inf t => !t
  | .fin s m e, .fin t n g => fvUnits s m e (min e g) < fvUnits t n g (min e g)

/-- a = b as values; NaN equals nothing. -/
def fpEq (a b : Fv) : Bool := !a.isNan && !b.isNan && !fpLt a b && !fpLt b a

/-- a < b or a is −0 and b is +0: the order of minimum and maximum. -/
def fpBelow (a b : Fv) : Bool :=
  fpLt a b ||
    match a, b with
    | .fin true 0 _, .fin false 0 _ => true
    | _, _ => false

/-- The result of rounding to a format: its bits, whether it was flushed to zero, whether a finite value exceeded the
largest finite value. -/
structure FpRes where
  bits : Nat
  flush : Bool
  tooBig : Bool
  deriving DecidableEq, Repr

def fpSign (f : FpFmt) (neg : Bool) : Nat := if neg then 2 ^ (f.expBits + f.manBits) else 0

/-- The infinity of a format. -/
def fpInf (f : FpFmt) (neg : Bool) : Nat := fpSign f neg + (2 ^ f.expBits - 1) * 2 ^ f.manBits

/-- The NaN that is written: canonical quiet NaN, or 0x7F in the FP8 formats (R157, R168). -/
def fpNan (f : FpFmt) : Nat :=
  if f.flushes then (2 ^ f.expBits - 1) * 2 ^ f.manBits + 2 ^ (f.manBits - 1) else 0x7F

/-- The largest finite value with a sign. -/
def fpMax (f : FpFmt) (neg : Bool) : Nat := fpSign f neg + f.maxFin

/-- Bits of a nonzero magnitude that fits the format: `m` × 2^e with at most manBits + 2 bits. -/
def fpPack (f : FpFmt) (neg : Bool) (m : Nat) (e : Int) : Nat :=
  let l := m.log2
  let top := e + l
  if top < 1 - (f.bias : Int) then
    fpSign f neg + m * 2 ^ (e - (1 - (f.bias : Int) - f.manBits)).toNat
  else
    let fr := if l ≤ f.manBits then m * 2 ^ (f.manBits - l) else m / 2 ^ (l - f.manBits)
    fpSign f neg + (top + f.bias).toNat * 2 ^ f.manBits + (fr - 2 ^ f.manBits)

/-- round_f (R156). A finite value beyond the largest finite value sets `over`; its bits are then the infinity, or the
largest finite value of a format that has none or that saturates. -/
def fpRound (f : FpFmt) (v : Fv) : FpRes :=
  match v with
  | .nan => ⟨fpNan f, false, false⟩
  | .inf s => ⟨if f.hasInf then fpInf f s else fpMax f s, false, false⟩
  | .fin s m e =>
    if m = 0 then ⟨fpSign f s, false, false⟩
    else
      let drop : Int := (m.log2 : Int) - f.manBits
      let least : Int := 1 - (f.bias : Int) - f.manBits - e
      let k := if f.flushes then drop else max drop least
      let m' := if k > 0 then rneShift m k.toNat else m
      let e' := if k > 0 then e + k else e
      let top := e' + m'.log2
      if m' = 0 then ⟨fpSign f s, false, false⟩
      else if f.flushes && top < 1 - (f.bias : Int) then ⟨fpSign f s, true, false⟩
      else
        match fpDecode f f.maxFin with
        | .fin _ mm me =>
          if fpLt (.fin false mm me) (.fin false m' e') then
            ⟨if f.flushes then fpInf f s else fpMax f s, false, true⟩
          else ⟨fpPack f s m' e', false, false⟩
        | _ => ⟨fpNan f, false, false⟩

/-- Rounds an exact value to an integer, ties to even. -/
def fvToInt (s : Bool) (m : Nat) (e : Int) : Int :=
  let x : Nat := if e ≥ 0 then m * 2 ^ e.toNat else rneShift m (-e).toNat
  if s then -(x : Int) else x

/-- Clamps an integer. -/
def clampInt (x lo hi : Int) : Int := if x < lo then lo else if x > hi then hi else x

/-- The key of FP32 bits in the IEEE 754 total order (R197). -/
def fpTotalKey (b : Nat) : Nat := if b.testBit 31 then 2 ^ 32 - 1 - b else 2 ^ 31 + b

end Sys2Proof.Machine
end

