-- ==== Sys2Proof/Machine/Operands.lean ====
section
/-! DEFINITION. A core's registers, guards, operand forms and effective addresses (R186, R189 to R191, R194), the
issue of an instruction, and the one way a core traps (R204 to R206). -/

namespace Sys2Proof.Machine

/-! ## Registers (R186) -/

def sGet (c : Core) (i : BitVec 5) : W64 := c.s[(i.toFin : Fin 32)]

/-- Writes an s-register; a write to s0 is discarded. -/
def sSet (c : Core) (i : BitVec 5) (v : W64) : Core :=
  if i = 0 then c else { c with s := c.s.set (i.toFin : Fin 32) v }

def aGet (c : Core) (i : BitVec 5) : Addr := c.a[(Fin.ofNat 16 i.toNat : Fin 16)]
def aSet (c : Core) (i : BitVec 5) (v : Addr) : Core := { c with a := c.a.set (Fin.ofNat 16 i.toNat : Fin 16) v }
def bGet (c : Core) (i : BitVec 5) : W32 := c.b[(Fin.ofNat 16 i.toNat : Fin 16)]
def bSet (c : Core) (i : BitVec 5) (v : W32) : Core := { c with b := c.b.set (Fin.ofNat 16 i.toNat : Fin 16) v }
def tGet (c : Core) (i : BitVec 5) : BitVec 512 := c.t[(Fin.ofNat 16 i.toNat : Fin 16)]
def tSet (c : Core) (i : BitVec 5) (v : BitVec 512) : Core := { c with t := c.t.set (Fin.ofNat 16 i.toNat : Fin 16) v }
def pGet (c : Core) (i : BitVec 5) : BitVec 128 := c.p[(Fin.ofNat 8 i.toNat : Fin 8)]

/-- Writes a predicate register; a write to p0 is discarded. -/
def pSet (c : Core) (i : BitVec 5) (v : BitVec 128) : Core :=
  if i.toNat % 8 = 0 then c else { c with p := c.p.set (Fin.ofNat 8 i.toNat : Fin 8) v }

def vGet (c : Core) (i : BitVec 5) : BitVec 4096 := c.v[(i.toFin : Fin 32)]
def vSet (c : Core) (i : BitVec 5) (v : BitVec 4096) : Core := { c with v := c.v.set (i.toFin : Fin 32) v }

/-- Lane `i` of a vector register. -/
def laneOf (v : BitVec 4096) (i : Nat) : W32 := v.extractLsb' (32 * i) 32

/-- The vector register whose lane i is `f i`. -/
def ofLanes (f : Nat → W32) : BitVec 4096 :=
  BitVec.ofNat 4096 ((List.range 128).foldr (fun i acc => (f i).toNat + 2 ^ 32 * acc) 0)

/-- The 128 predicate bits `f i`. -/
def ofBits (f : Nat → Bool) : BitVec 128 :=
  BitVec.ofNat 128 ((List.range 128).foldr (fun i acc => b2n (f i) + 2 * acc) 0)

/-- A register number within a file of `n`. -/
def regIn (i : BitVec 5) (n : Nat) : Bool := i.toNat < n

/-! ## Guards (R190) -/

def guardBits (c : Core) (pg : BitVec 3) (pn : Bool) : BitVec 128 :=
  let g := c.p[(Fin.ofNat 8 pg.toNat : Fin 8)]
  if pn then ~~~g else g

/-- The guard of an instruction that is not a vector instruction: bit 0. -/
def guardTrue (c : Core) (pg : BitVec 3) (pn : Bool) : Bool := (guardBits c pg pn).getLsbD 0

/-- The guarded lanes of a vector instruction. -/
def guarded (c : Core) (w : Insn) (i : Nat) : Bool := (guardBits c w.PG w.PN).getLsbD i

/-! ## Operand forms (R189, R191): which fields an instruction uses. An unused field must be 0. -/

def noFields (w : Insn) : Bool := w.D == 0 && w.A == 0 && w.B == 0 && w.C == 0 && w.X == 0
def usesDAB (w : Insn) : Bool := w.C == 0 && w.X == 0
def usesDA (w : Insn) : Bool := w.B == 0 && w.C == 0 && w.X == 0
def usesDAX (w : Insn) : Bool := w.B == 0 && w.C == 0
def usesDX (w : Insn) : Bool := w.A == 0 && w.B == 0 && w.C == 0
def usesAX (w : Insn) : Bool := w.D == 0 && w.B == 0 && w.C == 0
def usesX (w : Insn) : Bool := w.D == 0 && w.A == 0 && w.B == 0 && w.C == 0

/-- X[31:n] = 0. -/
def xBelow (w : Insn) (n : Nat) : Bool := w.X.toNat < 2 ^ n

/-- The signed immediate, as 64 bits. -/
def immS (w : Insn) : W64 := w.X.signExtend 64

/-- The effective address aA + X of a memory instruction (R189), modulo 2^48. -/
def effAddr (c : Core) (w : Insn) : Addr := aGet c w.A + w.X.signExtend 48

/-! ## Encodings (R189, R211): the words that trap records hold -/

/-- The 64-bit word of an instruction with opcode `op`. -/
def encodeInsn (op : Nat) (w : Insn) : Nat :=
  op * 2 ^ 56 + w.D.toNat * 2 ^ 51 + w.A.toNat * 2 ^ 46 + w.B.toNat * 2 ^ 41 + w.C.toNat * 2 ^ 36 +
    w.PG.toNat * 2 ^ 33 + b2n w.PN * 2 ^ 32 + w.X.toNat

/-- The opcode and the fields of a 64-bit instruction word. -/
def decodeInsn (x : Nat) : Nat × Insn :=
  (x / 2 ^ 56 % 256,
   { D := BitVec.ofNat 5 (x / 2 ^ 51), A := BitVec.ofNat 5 (x / 2 ^ 46), B := BitVec.ofNat 5 (x / 2 ^ 41),
     C := BitVec.ofNat 5 (x / 2 ^ 36), PG := BitVec.ofNat 3 (x / 2 ^ 33), PN := x.testBit 32, X := BitVec.ofNat 32 x })

/-- Word 0 of a tensor instruction with opcode `op`. -/
def encodeTensor0 (op : Nat) (w : TensorInsn) : Nat :=
  op * 2 ^ 56 + w.TX.toNat * 2 ^ 52 + w.TY.toNat * 2 ^ 48 + w.TD.toNat * 2 ^ 44 + w.TE.toNat * 2 ^ 40 +
    w.TM.toNat * 2 ^ 36 + w.PG.toNat * 2 ^ 33 + b2n w.PN * 2 ^ 32 + w.PLAN.toNat * 2 ^ 16 + w.TAG_BASE.toNat

/-! ## A core's own memory (R20, R194) -/

/-- The `len` bytes at `a` lie in the core's own core memory or its own cluster's bag, within the mapped part. -/
def ownMem (s : State) (n : Fin 16) (a len : Nat) : Bool :=
  mapped s a len &&
    match regionOf s a with
    | .core m _ => m == n
    | .bag c _ => c == clusterOf n
    | _ => false

/-- The address lies in the core's own core memory. -/
def ownCoreMem (n : Fin 16) (a : Nat) : Bool := coreBase n ≤ a && a < coreBase n + 0x800000

/-! ## Traps (R204 to R206) -/

def causeCode (c : TrapCause) : Nat :=
  match c with
  | .illegal => 0x01 | .fetchRange => 0x02 | .addrRange => 0x03 | .misaligned => 0x04 | .poisonLoad => 0x05
  | .semTimeout => 0x06 | .dmaWaitTimeout => 0x07 | .dmaChannel => 0x08 | .badPost => 0x09 | .semRange => 0x0A
  | .semOverflow => 0x0B | .brk => 0x0C | .boundOverPlan => 0x10 | .tensorRange => 0x11
  | .ckptFault => 0x20 | .scaleSyncFault => 0x21 | .checksumFault => 0x22 | .poisonOperand => 0x23 | .stopShed => 0x24

/-- The fields of a trap record that differ from trap to trap (R206). -/
structure TrapInfo where
  insn : Nat := 0
  addr : Nat := 0
  tile : Nat := 0
  progress : Nat := 0
  detail : Nat := 0
  deriving DecidableEq, Repr

/-- The 64-byte trap record (R206). -/
def trapRecord (s : State) (n : Fin 16) (cause : TrapCause) (i : TrapInfo) : List Byte :=
  let c := s.cores[n]
  bytesOf 2 1 ++ bytesOf 1 (causeCode cause) ++ bytesOf 1 n.val ++ bytesOf 4 (rd s R.CORE_JOB_TAG n.val) ++
    bytesOf 8 c.pc.toNat ++ bytesOf 8 i.insn ++ bytesOf 8 i.addr ++ bytesOf 8 (now s) ++ bytesOf 4 i.tile ++
    bytesOf 4 i.progress ++ bytesOf 4 i.detail ++ List.replicate 12 0

/-- TRAP_ADDR is not 0 and lies in the core's own core memory, its own bag or DRAM (R206). -/
def trapAddrOk (s : State) (n : Fin 16) (a : Nat) : Bool :=
  a != 0 && (ownMem s n a 64 || (regionOf s a == .dram && mapped s a 64))

/-- Leaves the semaphore queues of the core's cluster, and withdraws a POST whose records the writer has not read (R179,
R203, R205). -/
def leaveQueue (s : State) (n : Fin 16) : State :=
  let keep := fun (e : Record) => !(e.core == some n && e.bytes.isEmpty)
  let s := { s with mqs := s.mqs.map (fun x => { x with waiting := x.waiting.filter keep }) }
  modCluster s (clusterOf n) (fun c => { c with waiters := c.waiters.filter (fun w => w.core ≠ n) })

/-- The core traps: issue stops, the tensor queue is discarded, the trap registers, the trap record and an error-log
entry are written, and the job drains (R178, R205, R206). -/
def trap (s : State) (n : Fin 16) (cause : TrapCause) (i : TrapInfo) : State :=
  let code := causeCode cause
  let pc := s.cores[n].pc.toNat
  let ta := match s.cores[n].job with
    | some j => j.trapAddr.toNat
    | none => 0
  let s := if trapAddrOk s n ta then memWrite s reqDma ta (trapRecord s n cause i) false else s
  let s := wr (wrb (wr (wr s R.CORE_TRAP_CAUSE n.val code) R.CORE_TRAP_PC n.val pc) R.CORE_TRAP_VALID n.val true)
    R.CORE_TRAP_ADDR n.val i.addr
  let s := logIt (bump s R.CORE_TRAPS n.val 1) planeCtrl 0x31 code 3 n.val pc i.addr
  modCore (leaveQueue s n) n (fun c => { c with mode := .trapped (BitVec.ofNat 8 code), tq := [], cur := none })

/-! ## Issue (R190, R191, R207) -/

/-- The core's program issues instructions. -/
def canIssue (s : State) (n : Fin 16) : Bool := s.phase == .up && s.cores[n].mode == .running

/-- The instruction has completed: the PC moves past its `len` bytes, and it is counted. -/
def retire (s : State) (n : Fin 16) (len : Nat) : State :=
  bump (modCore s n (fun c => { c with pc := c.pc + BitVec.ofNat 48 len })) R.CORE_INSNS n.val 1

/-- Traps with the instruction word of a base instruction. -/
def trapInsn (s : State) (n : Fin 16) (op : Nat) (w : Insn) (cause : TrapCause) (addr detail : Nat) : State :=
  trap s n cause { insn := encodeInsn op w, addr := addr, detail := detail }

/-- What comes before an instruction's own work: a core that does not issue ignores it, a fetch outside the core's own
memory traps FETCH_RANGE, a false guard completes with no effect, and fields the instruction does not use must be 0. -/
def issue (n : Fin 16) (op : Nat) (w : Insn) (fieldsOk : Bool) (guard : Bool) (body : State → State) (s : State) : State :=
  if !canIssue s n then s
  else if !ownCoreMem n s.cores[n].pc.toNat then trap s n .fetchRange { addr := s.cores[n].pc.toNat }
  else if !guard then retire s n 8
  else if !fieldsOk then trapInsn s n op w .illegal 0 0
  else body s

/-- An instruction under a scalar guard. -/
def issueScalar (n : Fin 16) (op : Nat) (w : Insn) (fieldsOk : Bool) (body : State → State) (s : State) : State :=
  issue n op w fieldsOk (guardTrue s.cores[n] w.PG w.PN) body s

/-- A scalar instruction that only changes the core's registers. -/
def issueRegs (n : Fin 16) (op : Nat) (w : Insn) (fieldsOk : Bool) (f : Core → Core) (s : State) : State :=
  issueScalar n op w fieldsOk (fun s => retire (modCore s n f) n 8) s

/-- A t-register is named by a queued or running tensor instruction (R217): TPOOL and TRSZ read neither TY nor TE, TBD
reads no TE, and TM is read with a mask only (R223, R234). -/
def tNamed (e : TEntry) (i : Nat) : Bool :=
  let reducer := e.op == .tpool || e.op == .trsz
  e.insn.TX.toNat == i || (!reducer && e.insn.TY.toNat == i) || e.insn.TD.toNat == i ||
    (!reducer && e.op != .tbd && e.insn.TE.toNat == i) || (e.insn.MASK != 0 && e.insn.TM.toNat == i)

def tInUse (c : Core) (i : Nat) : Bool :=
  c.tq.any (fun e => tNamed e i) ||
    match c.cur with
    | some r => tNamed r.e i
    | none => false

end Sys2Proof.Machine
end

