-- ==== Sys2Proof/Machine/Rings.lean ====
section
/-! DEFINITION. Job rings, completion rings and metadata queues (R71 to R78), and the checks every doorbell meets
(R336). -/

namespace Sys2Proof.Machine

/-! ## Counts -/

def subW (a b : Nat) : Nat := (a + 2 ^ 32 - b % 2 ^ 32) % 2 ^ 32

/-- The count `p` is newer than `last` (R74). -/
def newer (p last : Nat) : Bool := let d := subW p last; 1 ≤ d && d < 2 ^ 31

def jrSize (s : State) (r : Nat) : Nat := 2 ^ rd s R.JR_LOG2 r
def crSize (s : State) (r : Nat) : Nat := 2 ^ rd s R.CR_LOG2 r
def mqSize (s : State) (m : Fin 16) : Nat := 2 ^ rd s R.MQ_CFG_LOG2 m.val

/-- Entries of a completion ring that host software has not consumed. -/
def crUsed (s : State) (r : Nat) : Nat := subW (rd s R.CR_TAIL r) (rd s R.CR_HEAD r)
def mqUsed (s : State) (m : Fin 16) : Nat := subW (rd s R.MQ_TAIL m.val) (rd s R.MQ_HEAD m.val)
def crFull (s : State) (r : Nat) : Bool := crUsed s r ≥ crSize s r
def mqFull (s : State) (m : Fin 16) : Bool := mqUsed s m ≥ mqSize s m

/-- Host address of a base register [45:12]. -/
def hostBase (s : State) (f : RegField) (i : Nat) : Nat := rd s f i * 2 ^ 12

/-- PHASE of the entry at a free-running position: 1 on the first pass, toggling on each wrap (R73). -/
def phaseBit (pos size : Nat) : Bool := pos / size % 2 == 0

/-! ## Doorbells (R74, R336) -/

/-- Why a doorbell write is discarded: 5 DB_SIZE, 6 DB_REJECTED, 0 for an accepted one. -/
def doorbellCode (s : State) (d : DbWrite) : Nat :=
  if !d.beFull || !(d.dws == 1 || d.dws == 2) then 5
  else if !serving s then 6
  else 0

/-- A doorbell write is discarded: counted and logged. -/
def dropDoorbell (s : State) (code off : Nat) : State := hifError (bump s R.HIF_DB_DROPS 0 1) planeCtrl code 2 off

/-- Every doorbell: a write that BAR4 claims meets the checks of R336, and then what the doorbell does with its value. -/
def doorbell (off : Nat) (d : DbWrite) (act : State → State) (s : State) : State :=
  if !claimed s then s
  else
    match doorbellCode s d with
    | 0 => act (linkUsed s)
    | c => dropDoorbell (linkUsed s) c off

/-- A count that would pass what has been written or fetched (R74): RING_COUNT. -/
def ringCount (s : State) (unit off v : Nat) : State := logIt s planeCtrl 0x20 0x23 3 unit off v

def jrDoorbellOff (r : Fin 31) : Nat := r.val * 8
def crDoorbellOff (r : Fin 31) : Nat := 0x100 + r.val * 8
def mqDoorbellOff (m : Fin 16) : Nat := 0x200 + m.val * 8

/-- JOB_RING_DOORBELL: a ring with EN = 0 only records the count (R336). -/
def jobRingCount (r : Fin 31) (p : W32) (s : State) : State :=
  if rdb s R.JR_EN r.val then
    if !newer p.toNat s.rings[r].prod.toNat then s
    else if subW p.toNat (rd s R.JR_HEAD r.val) > jrSize s r.val then ringCount s 46 (jrDoorbellOff r) p.toNat
    else ltrUpdate (modRing s r (fun x => { x with prod := p }))
  else modRing s r (fun x => { x with prod := p })

def jobRingBell (r : Fin 31) (d : DbWrite) (s : State) : State := doorbell (jrDoorbellOff r) d (jobRingCount r d.value) s

def execJobRingDoorbell (r : Fin 31) (d : DbWrite) (s : State) : Host.Outcome State Fault Refusal := .next (jobRingBell r d s)

/-- A consumer count: accepted up to the tail. -/
def consumerCount (head tail : RegField) (i : Nat) (en : Bool) (unit off : Nat) (c : W32) (s : State) : State :=
  if en then
    if !newer c.toNat (rd s head i) then s
    else if subW c.toNat (rd s head i) > subW (rd s tail i) (rd s head i) then ringCount s unit off c.toNat
    else ltrUpdate (wr s head i c.toNat)
  else wr s head i c.toNat

def completionRingBell (r : Fin 31) (d : DbWrite) (s : State) : State :=
  doorbell (crDoorbellOff r) d
    (consumerCount R.CR_HEAD R.CR_TAIL r.val (rdb s R.CR_EN r.val) 46 (crDoorbellOff r) d.value) s

def execCompletionRingDoorbell (r : Fin 31) (d : DbWrite) (s : State) : Host.Outcome State Fault Refusal :=
  .next (completionRingBell r d s)

def mqHeadBell (m : Fin 16) (d : DbWrite) (s : State) : State :=
  doorbell (mqDoorbellOff m) d
    (consumerCount R.MQ_HEAD R.MQ_TAIL m.val (rdb s R.MQ_CFG_EN m.val) 47 (mqDoorbellOff m) d.value) s

def execMqHeadDoorbell (m : Fin 16) (d : DbWrite) (s : State) : Host.Outcome State Fault Refusal := .next (mqHeadBell m d s)

/-! ## Completion entries (R72, R73, R78) -/

/-- A completion entry of this moment joins those that wait for room in the ring. -/
def pushCompletion (s : State) (r : Fin 31) (tag : W32) (status core : Nat) : State :=
  ltrUpdate (modRing s r (fun x => { x with
    waiting := x.waiting ++ [{ tag := tag, status := BitVec.ofNat 16 status, core := BitVec.ofNat 8 core, time := nowW s }] }))

/-- The completion entry of a job, on the ring that receives its entries. -/
def jobEntry (s : State) (j : Job) (status core : Nat) : State :=
  match j.ring with
  | some r => pushCompletion s r j.tag status core
  | none => s

/-- The completion ring can take the job's entry: a full ring holds completions back, and with them what the job holds
(R73, R275). -/
def cplRoom (s : State) (j : Job) : Bool :=
  match j.ring with
  | some r => rdb s R.CR_EN r.val && crUsed s r.val + s.rings[r].waiting.length < crSize s r.val
  | none => true

def completionBytes (e : CplEntry) (phase : Bool) : List Byte :=
  bytesOf 4 e.tag.toNat ++ bytesOf 2 e.status.toNat ++ [if phase then 0x80 else 0, e.core] ++ bytesOf 8 e.time.toNat

/-- The interrupt threshold in force: 0 acts as 1. -/
def countThr (s : State) (f : RegField) (i : Nat) : Nat := max 1 (rd s f i)

/-- COMPLETION_ENTRY_WRITE: the oldest waiting entry is written when the ring has room. -/
def completionWrite (r : Fin 31) (s : State) : State :=
  match s.rings[r].waiting with
  | [] => s
  | e :: rest =>
    if !rdb s R.CR_EN r.val || crFull s r.val then s
    else
      let t := rd s R.CR_TAIL r.val
      let n := s.rings[r].unsignalled + 1
      let signal := rdb s R.CR_IRQ_EN r.val && n ≥ countThr s R.CR_COUNT_THR r.val
      let first := if n = 1 then elapsedW s else s.rings[r].firstAt
      let s := sendWrite s (hostBase s R.CR_BASE r.val + t % crSize s r.val * 16) (completionBytes e (phaseBit t (crSize s r.val))) false
      let s := bump s R.CR_TAIL r.val 1
      let s := modRing s r (fun x => { x with waiting := rest, unsignalled := if signal then 0 else n, firstAt := first })
      ltrUpdate (if signal then raiseVector s (rd s R.CR_VECTOR r.val) else s)

def execCompletionEntryWrite (r : Fin 31) (s : State) : Host.Outcome State Fault Refusal := .next (completionWrite r s)

/-- CR_TIME_THR_EXPIRY (R78): µs after the first unsignalled entry. -/
def crTimeThr (r : Fin 31) (s : State) : State :=
  let thr := rd s R.CR_TIME_THR r.val
  if thr = 0 ∨ s.rings[r].unsignalled = 0 ∨ !rdb s R.CR_IRQ_EN r.val then s
  else
    let s := passUntil s (s.rings[r].firstAt.toNat + thr * 1000)
    raiseVector (modRing s r (fun x => { x with unsignalled := 0 })) (rd s R.CR_VECTOR r.val)

def execCrTimeThrExpiry (r : Fin 31) (s : State) : Host.Outcome State Fault Refusal := .next (crTimeThr r s)

/-! ## Fetching job descriptors (R71, R176) -/

/-- The job in a 64-byte descriptor; `ring` receives its completion entries (R176). -/
def parseJob (bs : List Byte) (ring : Option (Fin 31)) (batch : Option (Fin 4 × Fin 4)) (header : Addr) : Job :=
  let cores := bitsOf (fieldOf bs 5 1) 0 4
  { tag := BitVec.ofNat 32 (fieldOf bs 0 4), cluster := Fin.ofNat 4 (fieldOf bs 4 1 % 4),
    cores := BitVec.ofNat 4 (if cores = 0 then 15 else cores), live := bitOf (fieldOf bs 6 1) 0,
    noPreempt := bitOf (fieldOf bs 6 1) 1, prio := BitVec.ofNat 3 (fieldOf bs 7 1),
    image := BitVec.ofNat 48 (fieldOf bs 8 6), entry := BitVec.ofNat 32 (fieldOf bs 16 4),
    arg0 := BitVec.ofNat 64 (fieldOf bs 24 8), arg1 := BitVec.ofNat 64 (fieldOf bs 32 8),
    arg2 := BitVec.ofNat 64 (fieldOf bs 40 8), arg3 := BitVec.ofNat 64 (fieldOf bs 48 8),
    trapAddr := BitVec.ofNat 48 (fieldOf bs 56 6), crc := none, ring := ring, batch := batch, header := header }

/-- A job ring has a descriptor to fetch and may: the device serves, both rings are enabled, and the completion ring
has room (R71, R73). -/
def canFetchJob (s : State) (r : Fin 31) : Bool :=
  serving s && !s.pci.d3hot && rdb s R.JR_EN r.val && rdb s R.CR_EN r.val && !crFull s r.val &&
    s.rings[r].prod.toNat != rd s R.JR_HEAD r.val

/-- A descriptor's read has ended: the job goes to its cluster, or its entry is FETCH_ERROR. On a cluster that is not usable no
core can be dispatched, and no chanter takes the job: its entry is NO_CORE (R177). -/
def jobFetched (r : Fin 31) (got : HostRead) (pos : Nat) (s : State) : State :=
  let s := bump s R.JR_HEAD r.val 1
  match got with
  | .data bs =>
    let j := parseJob bs (some r) none 0
    if !clusterUsable s j.cluster then ltrUpdate (pushCompletion s r j.tag 0x20 0xFF)
    else
    let s := modCluster s j.cluster (fun c => { c with jobs := c.jobs ++ [(s.order, j)] })
    ltrUpdate { s with order := s.order + 1 }
  | _ =>
    let s := logIt s planeCtrl 0x20 0x24 3 46 (jrDoorbellOff r) pos
    ltrUpdate (pushCompletion s r (BitVec.ofNat 32 pos) 0x22 0xFF)

/-- JOB_DESCRIPTOR_FETCH (R71): a read of channel 0. -/
def jobFetch (r : Fin 31) (got : HostRead) (s : State) : State :=
  if !canFetchJob s r then s
  else
    let pos := rd s R.JR_HEAD r.val
    match hostFetch s 0 (hostBase s R.JR_BASE r.val + pos % jrSize s r.val * 64) 64 got with
    | none => s
    | some t => jobFetched r got pos t

def execJobDescriptorFetch (r : Fin 31) (got : HostRead) (s : State) : Host.Outcome State Fault Refusal :=
  .next (jobFetch r got s)

/-- The resident is the image of a job: IMAGE and CRC name it (R185). -/
def isImageOf (r : Resident) (j : Job) : Bool := j.image == r.image && j.crc == some r.crc

/-- The resident is the image of the running or of the pre-empted unit. -/
def imageUsed (cl : Cluster) (r : Resident) : Bool :=
  (match cl.cur with | some (j, _) => isImageOf r j | none => false) ||
    (match cl.preempted with | some (j, _, _) => isImageOf r j | none => false)

/-- Images that were flushed while in use go when their last job ends (R209). -/
def dropFlushed (s : State) (c : Fin 4) : State :=
  modCluster s c (fun x => { x with residents := x.residents.filter (fun r => !(r.flushed && !imageUsed x r)) })

/-- A job of ring `r`. -/
def ofRing (r : Fin 31) (j : Job) : Bool := j.ring == some r && j.batch.isNone

/-- The jobs of a cluster that have not been dispatched and that `gone` names end with CANCELLED. -/
def cancelOn (gone : Job → Bool) (s : State) (c : Fin 4) : State :=
  let cur := match s.clusters[c].cur with
    | some (j, .running) => (some (j, UnitPhase.running), [])
    | some (j, .over st) => (some (j, UnitPhase.over st), [])
    | some (j, p) => if gone j then (none, [j]) else (some (j, p), [])
    | none => (none, [])
  let out := cur.2 ++ (s.clusters[c].jobs.filter (fun e => gone e.2)).map (fun e => e.2)
  let s := modCluster s c (fun x => { x with cur := cur.1, jobs := x.jobs.filter (fun e => !gone e.2) })
  out.foldl (fun s j => jobEntry s j 0x21 0xFF) (dropFlushed s c)

/-- JOB_RING_DISABLE (R178). -/
def jobRingDisable (r : Fin 31) (s : State) : State :=
  ltrUpdate ((List.finRange 4).foldl (cancelOn (ofRing r)) (wrb s R.JR_EN r.val false))

def execJobRingDisable (r : Fin 31) (s : State) : Host.Outcome State Fault Refusal := .next (jobRingDisable r s)

/-- The MC withdraws the undispatched jobs of a ring that carry a tag (R178). -/
def withdrawJob (s : State) (r : Fin 31) (tag : W32) : State :=
  ltrUpdate ((List.finRange 4).foldl (cancelOn (fun j => ofRing r j && j.tag == tag)) s)

/-! ## Metadata queues (R73, R76 to R78) -/

/-- Records ahead of a newly posted one, in the queue and in the writer. -/
def mqAhead (s : State) (m : Fin 16) : Nat := mqUsed s m + (s.mqs[m].waiting.map (fun e => e.count)).foldl (· + ·) 0

/-- A post reaches the writer: one that has to wait for room is counted, once (R77). -/
def postEntry (m : Fin 16) (s : State) (e : Record) : State :=
  let waits := mqAhead s m + e.count > mqSize s m
  let s := ltrUpdate (modMq { s with order := s.order + 1 } m (fun x => { x with waiting := x.waiting ++ [{ e with seq := s.order }] }))
  if waits then bump s R.MQ_STALL_STALLS m.val 1 else s

/-- A record of the device's own reaches the writer. -/
def postRecord (m : Fin 16) (s : State) (bytes : List Byte) : State :=
  postEntry m s { core := none, bytes := bytes, count := 1, seq := 0 }

/-- A record with PHASE in bit 7 of FLAGS. -/
def withPhase (bs : List Byte) (phase : Bool) : List Byte :=
  putBytes bs 1 [(bs.getD 1 0 &&& 0x7F) ||| (if phase then 0x80 else 0)]

/-- The record that a queue would take next: none while it is full or off, or while its oldest POST still waits. -/
def writable (s : State) (m : Fin 16) : Option Record :=
  match s.mqs[m].waiting with
  | e :: _ => if rdb s R.MQ_CFG_EN m.val && !mqFull s m && !e.bytes.isEmpty then some e else none
  | [] => none

/-- No queue has an earlier record that could be written: the writer keeps to the order in which posts arrived (R77). -/
def isNext (s : State) (e : Record) : Bool :=
  (List.finRange 16).all (fun m => match writable s m with | some x => e.seq ≤ x.seq | none => true)

/-- METADATA_RECORD_WRITE: the oldest record waiting for the queue is placed when there is room and its turn has come. Records
behind a POST that waits stay behind it, and records for a queue with EN = 0 stay in the writer (DESIGN CHOICE, log
entry 172). -/
def recordWrite (m : Fin 16) (s : State) : State :=
  match s.mqs[m].waiting with
  | [] => s
  | e :: rest =>
    if !rdb s R.MQ_CFG_EN m.val || mqFull s m || e.bytes.isEmpty || !isNext s e then s
    else
      let t := rd s R.MQ_TAIL m.val
      let n := s.mqs[m].unsignalled + 1
      let signal := rdb s R.MQ_IRQ_IRQ_EN m.val && n ≥ countThr s R.MQ_IRQ_COUNT_THR m.val
      let first := if n = 1 then elapsedW s else s.mqs[m].firstAt
      let s := sendWrite s (hostBase s R.MQ_BASE m.val + t % mqSize s m * 64) (withPhase e.bytes (phaseBit t (mqSize s m))) false
      let s := bump s R.MQ_TAIL m.val 1
      let s := modMq s m (fun x => { x with waiting := rest, unsignalled := if signal then 0 else n, firstAt := first })
      let s := match e.core with
        | some n => modCore s n (fun c => { c with posts := c.posts - 1 })
        | none => s
      ltrUpdate (if signal then raiseVector s (rd s R.MQ_IRQ_VECTOR m.val) else s)

def execMetadataRecordWrite (m : Fin 16) (s : State) : Host.Outcome State Fault Refusal := .next (recordWrite m s)

/-- MQ_TIME_THR_EXPIRY (R78). -/
def mqTimeThr (m : Fin 16) (s : State) : State :=
  let thr := rd s R.MQ_IRQ_TIME_THR m.val
  if thr = 0 ∨ s.mqs[m].unsignalled = 0 ∨ !rdb s R.MQ_IRQ_IRQ_EN m.val then s
  else
    let s := passUntil s (s.mqs[m].firstAt.toNat + thr * 1000)
    raiseVector (modMq s m (fun x => { x with unsignalled := 0 })) (rd s R.MQ_IRQ_VECTOR m.val)

def execMqTimeThrExpiry (m : Fin 16) (s : State) : Host.Outcome State Fault Refusal := .next (mqTimeThr m s)

end Sys2Proof.Machine
end

