-- ==== Sys2Proof/Machine/Sync.lean ====
section
/-! DEFINITION. The DMA, synchronisation and posting instructions, the waits they begin, and traps as events
(R198 to R206). A waiting core's PC stays at the instruction until the wait ends (R179). -/

namespace Sys2Proof.Machine

/-! ## Beginning a wait -/

/-- The core begins to wait, from now, in the instruction word `word`. -/
def beginWait (s : State) (n : Fin 16) (word : Nat) (m : CoreMode) : State :=
  modCore s n (fun c => { c with mode := m, waitSince := nowW s, waitFrom := elapsedW s, insn := BitVec.ofNat 64 word })

/-- The wait is over and its instruction completes. -/
def endWait (s : State) (n : Fin 16) : State := retire (modCore s n (fun c => { c with mode := .running })) n 8

/-- CLU_SEM_TIMEOUT in ns; 0 acts as 1 µs (R209). -/
def semTimeoutNs (s : State) (n : Fin 16) : Nat := max 1 (rd s R.CLU_SEM_TIMEOUT (clusterOf n).val) * 1000

/-! ## DMAQ and DMAW (R198) -/

/-- Channel X[5:0]. -/
def insnChannel (w : Insn) : Fin 64 := Fin.ofNat 64 w.X.toNat

def mayUse (s : State) (n : Fin 16) (k : Fin 64) : Bool := s.cores[n].plan.dmaMask.getLsbD k.val

/-- DMAQ: the FENCE MEM it begins with is met, since loads and stores are performed when they issue. A full queue
stalls the instruction: nothing happens until it issues again. -/
def dmaq (n : Fin 16) (w : Insn) (s : State) : State :=
  let k := insnChannel w
  if !mayUse s n k then trapInsn s n 0x80 w .dmaChannel 0 k.val
  else if queueFull s k then s
  else
    let s := queueChain s k (aGet s.cores[n] w.A &&& ~~~(63#48))
    let q := BitVec.ofNat 32 (rd s R.DMA_CH_QCOUNT k.val)
    retire (modCore s n (fun c => { sSet c w.D (q.setWidth 64) with chains := c.chains ++ [(k, q)] })) n 8

def execDmaq (n : Fin 16) (w : Insn) (s : State) : Host.Outcome State Fault Refusal :=
  .next (issueScalar n 0x80 w (w.B == 0 && w.C == 0 && xBelow w 6 && regIn w.A 16) (dmaq n w) s)

def dmaw (n : Fin 16) (w : Insn) (s : State) : State :=
  let k := insnChannel w
  if !mayUse s n k then trapInsn s n 0x81 w .dmaChannel 0 k.val
  else beginWait s n (encodeInsn 0x81 w) (.waitDma k ((sGet s.cores[n] w.A).setWidth 32))

def execDmaw (n : Fin 16) (w : Insn) (s : State) : Host.Outcome State Fault Refusal :=
  .next (issueScalar n 0x81 w (usesAX w && xBelow w 6) (dmaw n w) s)

/-- DMAW_SATISFIED: the channel's count has reached the target. -/
def dmawSatisfied (n : Fin 16) (s : State) : State :=
  match s.cores[n].mode with
  | .waitDma k t => if reached s k t then endWait s n else s
  | _ => s

def execDmawSatisfied (n : Fin 16) (s : State) : Host.Outcome State Fault Refusal := .next (dmawSatisfied n s)

/-- Traps the waiting core, in the instruction that waits. -/
def trapWaiting (s : State) (n : Fin 16) (cause : TrapCause) (detail : Nat) : State :=
  trap s n cause { insn := s.cores[n].insn.toNat, detail := detail }

/-- DMA_WAIT_TIMEOUT (R203): a wait that is satisfied in the cycle in which it expires succeeds. -/
def dmaWaitTimeout (n : Fin 16) (s : State) : State :=
  match s.cores[n].mode with
  | .waitDma k t =>
    let s := passTo s (s.cores[n].waitSince.toNat + semTimeoutNs s n)
    if reached s k t then endWait s n else trapWaiting s n .dmaWaitTimeout k.val
  | _ => s

def execDmaWaitTimeout (n : Fin 16) (s : State) : Host.Outcome State Fault Refusal := .next (dmaWaitTimeout n s)

/-! ## FENCE (R200) -/

/-- The flush reads that a fence of scope DMA needs go out (R295). -/
def fenceFlush (s : State) (n : Fin 16) : State :=
  (s.cores[n].chains.filter (fun e => reached s e.1 e.2)).foldl (fun s e => if fenceWaits s e.1 then startFlush s e.1 else s) s

def execFence (n : Fin 16) (w : Insn) (s : State) : Host.Outcome State Fault Refusal :=
  .next (issueScalar n 0x82 w (usesX w && xBelow w 4)
    (fun s => fenceFlush (beginWait s n (encodeInsn 0x82 w) (.waitFence (if w.X = 0 then 15 else w.X.setWidth 4))) n) s)

/-- The writes of every chain the core has issued that has completed are performed. -/
def dmaFenced (s : State) (n : Fin 16) : Bool :=
  s.cores[n].chains.all (fun e => !reached s e.1 e.2 || !unflushed s e.1)

def tensorFenced (s : State) (n : Fin 16) : Bool := s.cores[n].tq.isEmpty && s.cores[n].cur.isNone

/-- Every scope of a fence is satisfied; MEM always is. -/
def fenced (s : State) (n : Fin 16) (m : BitVec 4) : Bool :=
  (!m.getLsbD 1 || tensorFenced s n) && (!m.getLsbD 2 || dmaFenced s n) && (!m.getLsbD 3 || s.cores[n].posts == 0)

/-- FENCE_DONE. -/
def fenceDone (n : Fin 16) (s : State) : State :=
  match s.cores[n].mode with
  | .waitFence m => if fenced s n m then endWait s n else s
  | _ => s

def execFenceDone (n : Fin 16) (s : State) : Host.Outcome State Fault Refusal := .next (fenceDone n s)

/-! ## Semaphores (R198, R201 to R203) -/

/-- Semaphore X[5:0]. -/
def insnSem (w : Insn) : Fin 64 := Fin.ofNat 64 w.X.toNat

/-- n: X[23:8], or sA[15:0] when that is 0. -/
def semAmount (c : Core) (w : Insn) : BitVec 16 :=
  let x := w.X.extractLsb' 8 16
  if x = 0 then (sGet c w.A).setWidth 16 else x

/-- X[7:6] and X[31:24] are 0. -/
def semX (w : Insn) : Bool := bitsOf w.X.toNat 6 2 == 0 && bitsOf w.X.toNat 24 8 == 0

def semCount (s : State) (c : Fin 4) (k : Fin 64) : BitVec 16 := s.clusters[c].sems[k]

def setSem (s : State) (c : Fin 4) (k : Fin 64) (v : BitVec 16) : State :=
  modCluster s c (fun x => { x with sems := x.sems.set k v })

/-- A semaphore instruction on a semaphore the plan does not cover traps SEM_RANGE. -/
def onSem (n : Fin 16) (op : Nat) (w : Insn) (body : State → State) (s : State) : State :=
  if (insnSem w).val ≥ s.cores[n].plan.sems then trapInsn s n op w .semRange 0 (insnSem w).val else body s

/-- SEMSIG: a sum above 65,535 traps and leaves the count. -/
def semsig (n : Fin 16) (w : Insn) (s : State) : State :=
  let c := clusterOf n
  let t := (semCount s c (insnSem w)).toNat + (semAmount s.cores[n] w).toNat
  if t > 65535 then trapInsn s n 0x83 w .semOverflow 0 (insnSem w).val
  else retire (setSem s c (insnSem w) (BitVec.ofNat 16 t)) n 8

def execSemsig (n : Fin 16) (w : Insn) (s : State) : Host.Outcome State Fault Refusal :=
  .next (issueScalar n 0x83 w (usesAX w && semX w) (onSem n 0x83 w (semsig n w)) s)

/-- SEMWAIT: the wait joins the tail of the semaphore's queue. -/
def semwait (n : Fin 16) (w : Insn) (s : State) : State :=
  let a := semAmount s.cores[n] w
  let s := beginWait s n (encodeInsn 0x84 w) (.waitSem (insnSem w) a)
  modCluster s (clusterOf n) (fun c => { c with waiters := c.waiters ++ [{ sem := insnSem w, core := n, n := a }] })

def execSemwait (n : Fin 16) (w : Insn) (s : State) : Host.Outcome State Fault Refusal :=
  .next (issueScalar n 0x84 w (usesAX w && semX w) (onSem n 0x84 w (semwait n w)) s)

/-- The first waiter of a semaphore. -/
def firstWaiter (s : State) (c : Fin 4) (k : Fin 64) : Option SemWaiter :=
  s.clusters[c].waiters.find? (fun w => w.sem == k)

/-- SEMTRY: succeeds only if nothing waits and the count is at least n. -/
def semtry (n : Fin 16) (w : Insn) (s : State) : State :=
  let c := clusterOf n
  let a := semAmount s.cores[n] w
  let v := semCount s c (insnSem w)
  if (firstWaiter s c (insnSem w)).isNone && a ≤ v then
    retire (modCore (setSem s c (insnSem w) (v - a)) n (fun x => pSet x w.D (BitVec.allOnes 128))) n 8
  else retire (modCore s n (fun x => pSet x w.D 0)) n 8

def execSemtry (n : Fin 16) (w : Insn) (s : State) : Host.Outcome State Fault Refusal :=
  .next (issueScalar n 0x85 w (w.B == 0 && w.C == 0 && semX w && regIn w.D 8) (onSem n 0x85 w (semtry n w)) s)

/-- The longest wait, in µs (R208). -/
def noteSemWait (s : State) (n : Fin 16) : State :=
  raiseTo s R.CORE_SEM_WAIT_MAX n.val ((elapsed s - s.cores[n].waitFrom.toNat) / 1000)

/-- A waiter that can be served takes its amount and its core goes on. -/
def serveWaiter (s : State) (c : Fin 4) (w : SemWaiter) : State :=
  let s := noteSemWait (setSem s c w.sem (semCount s c w.sem - w.n)) w.core
  endWait (leaveQueue s w.core) w.core

/-- SEMWAIT_GRANT: the first waiter is served if the count suffices; it blocks those behind it (R202). -/
def semwaitGrant (c : Fin 4) (k : Fin 64) (s : State) : State :=
  match firstWaiter s c k with
  | some w => if w.n ≤ semCount s c k then serveWaiter s c w else s
  | none => s

def execSemwaitGrant (c : Fin 4) (k : Fin 64) (s : State) : Host.Outcome State Fault Refusal :=
  .next (semwaitGrant c k s)

/-- SEM_TIMEOUT (R203): a wait that can be served in the cycle in which it expires succeeds. -/
def semTimeout (n : Fin 16) (s : State) : State :=
  match s.cores[n].mode with
  | .waitSem k a =>
    let s := passTo s (s.cores[n].waitSince.toNat + semTimeoutNs s n)
    match firstWaiter s (clusterOf n) k with
    | some w =>
      if w.core = n ∧ a ≤ semCount s (clusterOf n) k then serveWaiter s (clusterOf n) w
      else trapWaiting (noteSemWait s n) n .semTimeout k.val
    | none => trapWaiting (noteSemWait s n) n .semTimeout k.val
  | _ => s

def execSemTimeout (n : Fin 16) (s : State) : Host.Outcome State Fault Refusal := .next (semTimeout n s)

/-! ## POST (R199, R77) -/

def insnMq (w : Insn) : Fin 16 := Fin.ofNat 16 (bitsOf w.X.toNat 8 4)
def insnPostCount (w : Insn) : Nat := bitsOf w.X.toNat 0 5

/-- TYPE is one that a program may post (R75, R199). -/
def postType (b : Byte) : Bool := b == 0x10 || b == 0x12 || b == 0x13 || b.toNat ≥ 0x80

/-- The records ahead of a core's POST in the writer of its queue; none where another POST waits ahead of it. -/
def recordsAhead (n : Fin 16) : List Record → Option Nat
  | [] => none
  | e :: rest => if e.bytes.isEmpty then (if e.core = some n then some 0 else none) else (recordsAhead n rest).map (· + 1)

/-- The POST begins: its records stay in the core's memory until the writer takes them. -/
def postBegin (n : Fin 16) (w : Insn) (s : State) : State :=
  let m := insnMq w
  let cnt := insnPostCount w
  let a := (aGet s.cores[n] w.A).toNat
  if !(1 ≤ cnt && cnt ≤ 16) || !s.cores[n].plan.mqMask.getLsbD m.val || !rdb s R.MQ_CFG_EN m.val then
    trapInsn s n 0x86 w .badPost 0 0
  else if !ownMem s n a (64 * cnt) then trapInsn s n 0x86 w .addrRange a 0
  else
    let r := memRead s n.val a (64 * cnt)
    if r.poison then trapInsn r.s n 0x86 w .poisonLoad a 0
    else if !(List.range cnt).all (fun i => postType (r.bytes.getD (64 * i) 0)) then trapInsn r.s n 0x86 w .badPost 0 0
    else
      beginWait (postEntry m r.s { core := some n, bytes := [], count := cnt, seq := 0 }) n (encodeInsn 0x86 w) (.waitPost m cnt)

def execPost (n : Fin 16) (w : Insn) (s : State) : Host.Outcome State Fault Refusal :=
  .next (issueScalar n 0x86 w (usesAX w && bitsOf w.X.toNat 5 3 == 0 && xBelow w 12 && regIn w.A 16) (postBegin n w) s)

/-- Register number A of the waiting instruction's word (R189). -/
def waitingA (c : Core) : BitVec 5 := c.insn.extractLsb' 46 5

/-- The writer reads a POST's records into its place. -/
def fillPost (n : Fin 16) (recs : List Record) (q : List Record) : List Record :=
  q.flatMap (fun e => if e.bytes.isEmpty && e.core == some n then recs.map (fun x => { x with seq := e.seq }) else [e])

/-- POST_RETIRE: the writer takes every record, contiguously, once the queue has room for all of them (DEDUCED from R76
and the stop rule of R179, log entry 129). -/
def postRetire (n : Fin 16) (s : State) : State :=
  match s.cores[n].mode with
  | .waitPost m cnt =>
    match recordsAhead n s.mqs[m].waiting with
    | none => s
    | some ahead =>
      if mqUsed s m + ahead + cnt > mqSize s m then s
      else
        let a := (aGet s.cores[n] (waitingA s.cores[n])).toNat
        let r := memRead s n.val a (64 * cnt)
        let recs := (List.range cnt).map (fun i => ({ core := some n, bytes := sliceOf r.bytes (64 * i) 64, count := 1, seq := 0 } : Record))
        let s := modMq r.s m (fun x => { x with waiting := fillPost n recs x.waiting })
        endWait (modCore s n (fun c => { c with posts := c.posts + cnt })) n
  | _ => s

def execPostRetire (n : Fin 16) (s : State) : Host.Outcome State Fault Refusal := .next (postRetire n s)

/-! ## TRAP as an event (R204 to R206) -/

/-- The core runs a job that can still trap: one trap is reported per job. -/
def canTrap (c : Core) : Bool :=
  c.job.isSome &&
    match c.mode with
    | .idle => false
    | .trapped _ => false
    | .held => false
    | _ => true

/-- The OP codes of the base and tensor instructions (R192, R195, R197, R198, R213, R234). -/
def opAssigned (op : Nat) : Bool :=
  let within := fun lo hi => lo ≤ op && op ≤ hi
  within 0x00 0x1C || within 0x20 0x27 || within 0x30 0x36 || within 0x38 0x3E || within 0x40 0x44 || within 0x50 0x63 ||
    within 0x68 0x6B || within 0x70 0x73 || within 0x80 0x86 || within 0xF0 0xF4 || within 0xF8 0xFB

/-- TRAP: a core that issues a word with an OP that is not assigned traps ILLEGAL (R191). -/
def execTrap (n : Fin 16) (cause : TrapCause) (insn : BitVec 64) (addr : Addr) (detail : BitVec 32) (s : State) :
    Host.Outcome State Fault Refusal :=
  .next (if canTrap s.cores[n] then
      trap s n (if canIssue s n && !opAssigned (insn.toNat / 2 ^ 56) then .illegal else cause)
        { insn := insn.toNat, addr := addr.toNat, detail := detail.toNat }
    else s)

end Sys2Proof.Machine
end

