-- ==== Sys2Proof/Machine/Flags.lean ====
section
/-! DEFINITION. Condition codes (R193) and the numeric counters (R174), the device's only flag-like results. -/

namespace Sys2Proof.Machine

/-- cond(x, y) for condition codes 0 EQ, 1 NE, 2 LT, 3 GE, 4 LTU, 5 GEU (R193). -/
def condHolds {w : Nat} (code : Nat) (x y : BitVec w) : Bool :=
  match code with
  | 0 => x == y
  | 1 => x != y
  | 2 => x.slt y
  | 3 => !x.slt y
  | 4 => x.ult y
  | _ => !x.ult y

/-- All 128 predicate bits equal to one. -/
def allBits (b : Bool) : BitVec 128 := if b then BitVec.allOnes 128 else 0

/-- The three counters whose first increment in a job is logged under NUM_CTL.SAT_LOG, with their details in class
0x32 (R174, R393). -/
inductive SatKind where
  | epiSat | accOvf | nonfinite
  deriving DecidableEq, Repr

def SatKind.field (k : SatKind) : RegField :=
  match k with
  | .epiSat => R.NUM_EPI_SAT
  | .accOvf => R.NUM_ACC_OVF
  | .nonfinite => R.NUM_NONFINITE

def SatKind.detail (k : SatKind) : Nat :=
  match k with
  | .epiSat => 4
  | .accOvf => 5
  | .nonfinite => 6

def SatKind.bit (k : SatKind) : BitVec 3 :=
  match k with
  | .epiSat => 1
  | .accOvf => 2
  | .nonfinite => 4

/-- Adds to one of those counters of core `n`; `arr` and `cell` are what the log entry names. -/
def countSat (s : State) (n : Fin 16) (k : SatKind) (times arr cell : Nat) : State :=
  if times = 0 then s
  else
    let first := (s.cores[n].satLogged &&& k.bit) == 0
    let s := modCore (bump s k.field n.val times) n (fun c => { c with satLogged := c.satLogged ||| k.bit })
    if rdb s R.NUM_CTL_SAT_LOG n.val && first then logIt s planeData 0x32 k.detail 2 n.val (Config.arrayArg n.val arr) cell else s

/-- Counts values flushed to zero (R156). -/
def countFlush (s : State) (n : Fin 16) (times : Nat) : State :=
  if times = 0 then s else bump s R.NUM_FLUSH n.val times

end Sys2Proof.Machine
end

