-- ==== Sys2Proof/Machine/TensorDesc.lean ====
section
/-! DEFINITION. Tensor instructions as data: formats, descriptors, geometry, the place of every operand element, and
the regions an instruction touches (R211 to R228, R234 to R248). -/

namespace Sys2Proof.Machine

/-! ## Formats (R123, R155, R214) -/

/-- Bits of an element. -/
def fmtBits (f : Nat) : Nat :=
  match f with
  | 2 => 4 | 3 => 4 | 6 => 16 | 7 => 16 | 8 => 32
  | _ => 8

def fmtInt (f : Nat) : Bool := f ≤ 3

/-- The class that R123 and the plan's FMT check count a format in: 0 INT8, 1 INT4, 2 FP8, 3 BF16, 4 none. -/
def fmtClass (f : Nat) : Nat :=
  match f with
  | 0 => 0 | 1 => 0 | 2 => 1 | 3 => 1 | 4 => 2 | 5 => 2 | 6 => 3
  | _ => 4

/-- A pair of R123. -/
def fmtPair (fx fy : Nat) : Bool :=
  match fmtClass fx, fmtClass fy with
  | 0, 0 => true | 0, 1 => true | 1, 1 => true | 2, 2 => true | 3, 3 => true
  | _, _ => false

/-- Elements consumed per step (R123). -/
def perStep (fx fy : Nat) : Nat := if fmtClass fx = 1 ∧ fmtClass fy = 1 then 2 else 1

def fmtOf (f : Nat) : FpFmt :=
  match f with
  | 4 => e4m3 | 5 => e5m2 | 6 => bf16 | 7 => fp16
  | _ => fp32

/-- The integer an element stands for. -/
def intOf (f raw : Nat) : Int :=
  match f with
  | 0 => signedOf 8 raw
  | 1 => (raw % 256 : Nat)
  | 2 => signedOf 4 raw
  | _ => (raw % 16 : Nat)

/-- Least and greatest value of an integer format. -/
def intMin (f : Nat) : Int := match f with | 0 => -128 | 2 => -8 | _ => 0
def intMax (f : Nat) : Int := match f with | 0 => 127 | 1 => 255 | 2 => 7 | _ => 15

/-! ## Operations -/

def TOp.code (o : TOp) : Nat :=
  match o with
  | .tmm => 0xF0 | .tbd => 0xF1 | .twg => 0xF2 | .tqk => 0xF3 | .tpv => 0xF4
  | .tconv => 0xF8 | .tdw => 0xF9 | .tpool => 0xFA | .trsz => 0xFB

def TOp.window (o : TOp) : Bool :=
  match o with
  | .tconv => true | .tdw => true | .tpool => true | .trsz => true
  | _ => false

/-- Computed by the window reducer (R247). -/
def TOp.reducer (o : TOp) : Bool :=
  match o with
  | .tpool => true | .trsz => true
  | _ => false

/-- A backward or weight-gradient form. -/
def TOp.tune (o : TOp) : Bool :=
  match o with
  | .tbd => true | .twg => true
  | _ => false

/-- Y is a weight stream with scale blocks and tags. -/
def TOp.streamed (o : TOp) : Bool :=
  match o with
  | .tmm => true | .tconv => true
  | _ => false

/-! ## Descriptors: little-endian fields of a t-register (R219 to R225, R236) -/

/-- Bytes [at, at + n) of a t-register. -/
def tField (v : BitVec 512) (at_ n : Nat) : Nat := bitsOf v.toNat (8 * at_) (8 * n)

/-- The given bytes are 0. -/
def tZero (v : BitVec 512) (rs : List (Nat × Nat)) : Bool := rs.all (fun r => tField v r.1 r.2 == 0)

def dKind (v : BitVec 512) : Nat := tField v 0 1
def dLayout (v : BitVec 512) : Nat := tField v 1 1
def dW (v : BitVec 512) : Nat := tField v 4 2
def dBase (v : BitVec 512) : Nat := tField v 8 6
def dCbStride (v : BitVec 512) : Nat := tField v 16 4
def dZp (v : BitVec 512) : Nat := tField v 20 1
def dScale (v : BitVec 512) : Nat := tField v 24 4
def dIH (v : BitVec 512) : Nat := tField v 32 2
def dPT (v : BitVec 512) : Nat := tField v 34 1
def dPB (v : BitVec 512) : Nat := tField v 35 1
def dPL (v : BitVec 512) : Nat := tField v 36 1
def dPR (v : BitVec 512) : Nat := tField v 37 1
def dOY0 (v : BitVec 512) : Nat := tField v 38 2
def dPosStride (v : BitVec 512) : Nat := tField v 48 4
def dRowStride (v : BitVec 512) : Nat := tField v 52 4
def dChStride (v : BitVec 512) : Nat := tField v 56 4
def eAccum (v : BitVec 512) : Bool := bitOf (tField v 1 1) 0
def eColBase (v : BitVec 512) : Nat := tField v 8 6
def eLo (v : BitVec 512) : Nat := tField v 16 4
def eHi (v : BitVec 512) : Nat := tField v 20 4
def eAlpha (v : BitVec 512) : Nat := tField v 24 4
def mHalo (v : BitVec 512) : Nat := tField v 2 1
def mStrideLog2 (v : BitVec 512) : Nat := tField v 3 1
def mMapW (v : BitVec 512) : Nat := tField v 4 2
def mMapH (v : BitVec 512) : Nat := tField v 6 2
def mMapBase (v : BitVec 512) : Nat := tField v 8 6
def mMapStride (v : BitVec 512) : Nat := tField v 16 4
def mHistBase (v : BitVec 512) : Nat := tField v 24 6

/-- A dense descriptor whose fixed bytes are right; CB_STRIDE is a multiple of 64 (R219). -/
def denseOk (v : BitVec 512) : Bool :=
  dKind v == 1 && tZero v [(2, 2), (6, 2), (14, 2), (21, 3), (28, 4)] && dCbStride v % 64 == 0

def streamOk (v : BitVec 512) : Bool := dKind v == 2 && tZero v [(1, 7), (14, 2), (22, 2), (32, 32)]
def epilogueOk (v : BitVec 512) : Bool :=
  dKind v == 4 && tField v 1 1 ≤ 1 && tZero v [(2, 6), (14, 2), (28, 36)]
def maskOk (v : BitVec 512) : Bool :=
  dKind v == 3 && mHalo v ≤ 15 && mStrideLog2 v ≤ 6 && tZero v [(1, 1), (14, 2), (20, 4), (30, 2), (32, 32)]

/-- The X descriptor of a window operator (R236). -/
def windowXOk (op : TOp) (v : BitVec 512) : Bool :=
  dW v != 0 && 1 ≤ dIH v && dIH v ≤ 8192 && tZero v [(40, 8), (60, 4)] && (op != .trsz || tField v 34 4 == 0)

/-- The Y descriptor of TCONV: a stream named by a KIND 1 descriptor (R236). -/
def convYOk (v : BitVec 512) : Bool :=
  dKind v == 1 && tZero v [(1, 7), (14, 2), (16, 16), (38, 2), (48, 16)]

/-! ## A running instruction: its descriptors and shape -/

def xD (c : Core) (e : TEntry) : BitVec 512 := c.t[(e.insn.TX.toFin : Fin 16)]
def yD (c : Core) (e : TEntry) : BitVec 512 := c.t[(e.insn.TY.toFin : Fin 16)]
def dD (c : Core) (e : TEntry) : BitVec 512 := c.t[(e.insn.TD.toFin : Fin 16)]
def eD (c : Core) (e : TEntry) : BitVec 512 := c.t[(e.insn.TE.toFin : Fin 16)]
def mD (c : Core) (e : TEntry) : BitVec 512 := c.t[(e.insn.TM.toFin : Fin 16)]

def fxOf (e : TEntry) : Nat := e.insn.FX.toNat
def fyOf (e : TEntry) : Nat := e.insn.FY.toNat
def fdOf (e : TEntry) : Nat := e.insn.FD.toNat

/-- The integer path: group banks and closes (R160, R164). -/
def integerPath (e : TEntry) : Bool := fmtInt (fxOf e)

/-- The plan entry an instruction names. -/
def planEntry? (c : Core) (i : TensorInsn) : Option PlanEntry := c.plan.entries[i.PLAN.toNat]?

/-- Compression mode of the plan entry: bytes of a block, and residual width (R172). -/
def compMode (c : Core) (e : TEntry) : Nat :=
  match planEntry? c e.insn with
  | some p => p.compression
  | none => 0
def compBytes (mode : Nat) : Nat := if mode = 1 then 64 else 96
def compRw (mode : Nat) : Nat := if mode = 1 then 3 else 5

/-- Column slices per array, rows and columns of a tile (R218); the reducer's tile is 128 positions of one channel
block of the destination (R247). -/
def slices (e : TEntry) : Nat := match e.insn.SHAPE.toNat with | 1 => 4 | 2 => 8 | _ => 1
def tileRows (e : TEntry) : Nat := 128 / slices e
def blockWidth (v : BitVec 512) : Nat := if dLayout v = 1 then 16 else 32
def tileCols (c : Core) (e : TEntry) : Nat := if e.op.reducer then blockWidth (dD c e) else 256 * slices e

/-- Elements per group (R160, R220). -/
def groupSize (e : TEntry) : Nat :=
  if integerPath e then 32 * 2 ^ e.insn.GS.toNat else 128

/-! ## Window geometry (R235 to R241) -/

def wKH (e : TEntry) : Nat := bitsOf e.insn.W3.toNat 59 5
def wKW (e : TEntry) : Nat := bitsOf e.insn.W3.toNat 54 5
def wSY (e : TEntry) : Nat := bitsOf e.insn.W3.toNat 48 6
def wSX (e : TEntry) : Nat := bitsOf e.insn.W3.toNat 42 6
def wDY (e : TEntry) : Nat := bitsOf e.insn.W3.toNat 34 8
def wDX (e : TEntry) : Nat := bitsOf e.insn.W3.toNat 26 8
def wSub (e : TEntry) : Nat := bitsOf e.insn.W3.toNat 22 4
def tCausal (e : TEntry) : Bool := e.op == .tqk && bitOf e.insn.W3.toNat 0
def tOffset (e : TEntry) : Int := signedOf 16 (bitsOf e.insn.W3.toNat 16 16)

/-- Output height and width (R238). -/
def outSize (c : Core) (e : TEntry) : Nat × Nat :=
  let x := xD c e
  if e.op = .trsz then (dIH x * wSY e, dW x * wSX e)
  else
    let ey : Int := (dIH x : Int) + dPT x + dPB x - wDY e * ((wKH e : Int) - 1) - 1
    let ex : Int := (dW x : Int) + dPL x + dPR x - wDX e * ((wKW e : Int) - 1) - 1
    (if ey < 0 then 0 else ey.toNat / wSY e + 1, if ex < 0 then 0 else ex.toNat / wSX e + 1)

/-- Positions computed: M, or Mw of a window operator (R238). -/
def rowsM (c : Core) (e : TEntry) : Nat :=
  if e.op.window then
    let (oh, ow) := outSize c e
    if dOY0 (xD c e) ≥ oh then 0 else min e.M ((oh - dOY0 (xD c e)) * ow)
  else e.M

def tilesM (c : Core) (e : TEntry) : Nat := ceilDiv (rowsM c e) (tileRows e)
def tilesN (c : Core) (e : TEntry) : Nat := ceilDiv e.N (tileCols c e)
def totalTiles (c : Core) (e : TEntry) : Nat := e.BATCH * tilesM c e * tilesN c e

/-- Batch iteration, M tile and N tile of a tile index (R218). -/
def tileAt (c : Core) (e : TEntry) (t : Nat) : Nat × Nat × Nat :=
  (t / tilesN c e / tilesM c e, t / tilesN c e % tilesM c e, t % tilesN c e)

/-- Output pixel of a computed position (R238). -/
def pixelOf (c : Core) (e : TEntry) (m : Nat) : Nat × Nat :=
  let ow := (outSize c e).2
  (dOY0 (xD c e) + m / ow, m % ow)

/-- Input row and column that tap (ty, tx) of a pixel reads, if inside the image (R239). -/
def tapInput (c : Core) (e : TEntry) (oy ox ty tx : Nat) : Option (Nat × Nat) :=
  let iy : Int := (oy : Int) * wSY e - dPT (xD c e) + ty * wDY e
  let ix : Int := (ox : Int) * wSX e - dPL (xD c e) + tx * wDX e
  if 0 ≤ iy ∧ iy < dIH (xD c e) ∧ 0 ≤ ix ∧ ix < dW (xD c e) then some (iy.toNat, ix.toNat) else none

/-- Kernel row `ty` is live: some output row gives a valid input row (R240). -/
def liveRow (c : Core) (e : TEntry) (ty : Nat) : Bool :=
  let mw := rowsM c e
  let rows := ceilDiv mw (outSize c e).2
  (List.range rows).any (fun r =>
    let iy : Int := ((dOY0 (xD c e) + r : Nat) : Int) * wSY e - dPT (xD c e) + ty * wDY e
    decide (0 ≤ iy ∧ iy < dIH (xD c e)))

def liveCol (c : Core) (e : TEntry) (tx : Nat) : Bool :=
  (List.range (min (rowsM c e) (outSize c e).2)).any (fun ox =>
    let ix : Int := (ox : Int) * wSX e - dPL (xD c e) + tx * wDX e
    decide (0 ≤ ix ∧ ix < dW (xD c e)))

/-- A tap in the reduction order: its pass, place and ordinal (R241). -/
structure Tap1 where
  pass : Nat
  ty : Nat
  tx : Nat
  ord : Nat
  deriving DecidableEq, Repr

/-- Every tap in order: passes in row-major order, taps in row-major order within a pass. -/
def allTaps (e : TEntry) : List Tap1 :=
  let pw := ceilDiv (wKW e) 7
  let taps := (List.range (ceilDiv (wKH e) 7 * pw)).flatMap (fun p =>
    let y0 := 7 * (p / pw)
    let x0 := 7 * (p % pw)
    (List.range (min 7 (wKH e - y0))).flatMap (fun y =>
      (List.range (min 7 (wKW e - x0))).map (fun x => (p, y0 + y, x0 + x))))
  taps.zipIdx.map (fun t => ⟨t.1.1, t.1.2.1, t.1.2.2, t.2⟩)

def liveTaps (c : Core) (e : TEntry) : List Tap1 := (allTaps e).filter (fun t => liveRow c e t.ty && liveCol c e t.tx)

/-- Passes that hold a live tap. -/
def livePasses (c : Core) (e : TEntry) : Nat := ((liveTaps c e).map (fun t => t.pass)).eraseDups.length

/-- Steps of one live tap (R241, R244). -/
def stepsPerTap (e : TEntry) : Nat := if e.op = .tdw then 256 else ceilDiv e.K (perStep (fxOf e) (fyOf e))

/-- S: steps of every tile (R124, R241). -/
def stepsOf (c : Core) (e : TEntry) : Nat :=
  if e.op.window then (liveTaps c e).length * stepsPerTap e + 2 * (livePasses c e - 1)
  else ceilDiv e.K (perStep (fxOf e) (fyOf e))

/-- The tap and the step within it of step `st`; none for a bubble step. -/
def tapAt (spt : Nat) : List Tap1 → Option Nat → Nat → Option (Tap1 × Nat)
  | [], _, _ => none
  | t :: ts, prev, st =>
    let gap := match prev with
      | some p => if p = t.pass then 0 else 2
      | none => 0
    if st < gap then none
    else if st - gap < spt then some (t, st - gap)
    else tapAt spt ts (some t.pass) (st - gap - spt)

/-- What one step reduces within one group: reduction elements of a tap, and the group. -/
structure StepWork where
  tap : Tap1
  /-- First reduction element along K, or the channel of the tile under TDW. -/
  k : Nat
  group : Nat
  /-- Reduction elements, from `k` on. -/
  len : Nat
  deriving DecidableEq, Repr

/-- Channels of one tap in the reduction order (R242). -/
def redC (c : Core) (e : TEntry) : Nat := if e.op = .tconv then tField (yD c e) 40 4 else 1

/-- Elements of a step of `e` elements, from `k` with place `r` in the reduction, that lie in the group of the first: a pair
of INT4 elements may lie in two groups where PACK_K is odd (R160, R242). -/
def partLen (e : TEntry) (k r per : Nat) : Nat :=
  if per = 2 ∧ (r + 1) % groupSize e = 0 ∧ k + 1 < e.K then 1 else per

/-- The work of step `st` of a tile, in the group of its first element; none for a bubble (R241, R242). -/
def stepWork (c : Core) (e : TEntry) (st : Nat) : Option StepWork :=
  if e.op.window then
    match tapAt (stepsPerTap e) (liveTaps c e) none st with
    | none => none
    | some (t, j) =>
      let k := if e.op = .tdw then j else j * perStep (fxOf e) (fyOf e)
      let r := if e.op = .tdw then t.ord else t.ord * redC c e + k
      some ⟨t, k, r / groupSize e, if e.op = .tdw then 1 else partLen e k r (perStep (fxOf e) (fyOf e))⟩
  else
    let k := st * perStep (fxOf e) (fyOf e)
    some ⟨⟨0, 0, 0, 0⟩, k, k / groupSize e, perStep (fxOf e) (fyOf e)⟩

/-- What is left of a step after its part in the first element's group. -/
def stepRest (e : TEntry) (w : StepWork) : Option StepWork :=
  if e.op ≠ .tdw ∧ w.len < perStep (fxOf e) (fyOf e) then
    some { w with k := w.k + w.len, group := w.group + 1, len := perStep (fxOf e) (fyOf e) - w.len }
  else none

/-! ## Places of elements (R219, R243) -/

/-- Byte offset and bit shift of element (m, ch) of an uncompressed tensor. -/
def denseOff (v : BitVec 512) (f m ch : Nat) : Nat × Nat :=
  let β := fmtBits f
  match dLayout v with
  | 2 => (m * dPosStride v + ch * (β / 8), 0)
  | 3 => (ch * dCbStride v + m * (β / 8), 0)
  | 4 => (m / dW v * dRowStride v + m % dW v * dPosStride v + ch * dChStride v, 0)
  | _ =>
    let g := blockWidth v
    let i := m * g + ch % g
    (ch / g * dCbStride v + i * β / 8, i * β % 8)

/-- Byte offset of the compression block of element (m, ch), and the element's index in it (R219, R262). -/
def compOff (v : BitVec 512) (mode m ch : Nat) : Nat × Nat :=
  let g := blockWidth v
  let per := 128 / g
  (ch / g * dCbStride v + m / per * compBytes mode, m % per * g + ch % g)

/-- Little-endian number in memory. -/
def peekNat (s : State) (a n : Nat) : Nat := natOfBytes (peek s a n)

/-- The raw bits of an uncompressed element. -/
def rawAt (s : State) (base : Nat) (f : Nat) (p : Nat × Nat) : Nat :=
  bitsOf (peekNat s (base + p.1) (max 1 (fmtBits f / 8))) p.2 (fmtBits f)

/-- The raw bits of an element of a compressed block (R172, R262). -/
def compElem (blk rw i : Nat) : Nat :=
  let mn := bitsOf blk 0 8
  let k := bitsOf blk 8 3
  min 255 (mn + bitsOf blk (128 + rw * i) rw * 2 ^ k)

/-- The element of a compressed tensor; INT8 values are stored biased by 128. -/
def compAt (s : State) (base mode f : Nat) (p : Nat × Nat) : Nat :=
  let u := compElem (peekNat s (base + p.1) (compBytes mode)) (compRw mode) p.2
  if f = 0 then (u + 128) % 256 else u

/-- Base of an operand in batch iteration `b` (R212). -/
def baseX (c : Core) (e : TEntry) (b : Nat) : Nat := dBase (xD c e) + b * 64 * e.insn.SX.toNat
def baseY (c : Core) (e : TEntry) (b : Nat) : Nat := dBase (yD c e) + b * 64 * e.insn.SY.toNat
def baseD (c : Core) (e : TEntry) (b : Nat) : Nat := dBase (dD c e) + b * 64 * e.insn.SD.toNat
def baseH (c : Core) (e : TEntry) (b : Nat) : Nat := mHistBase (mD c e) + b * 64 * e.insn.SD.toNat

/-- Bytes that hold element (pos, ch) of X, and its raw bits. -/
def xBytes (c : Core) (e : TEntry) (b pos ch : Nat) : Nat × Nat :=
  if e.insn.CX then (baseX c e b + (compOff (xD c e) (compMode c e) pos ch).1, compBytes (compMode c e))
  else (baseX c e b + (denseOff (xD c e) (fxOf e) pos ch).1, max 1 (fmtBits (fxOf e) / 8))

def xRaw (s : State) (c : Core) (e : TEntry) (b pos ch : Nat) : Nat :=
  if e.insn.CX then compAt s (baseX c e b) (compMode c e) (fxOf e) (compOff (xD c e) (compMode c e) pos ch)
  else rawAt s (baseX c e b) (fxOf e) (denseOff (xD c e) (fxOf e) pos ch)

/-! ## Weight streams (R220, R221, R242) -/

def packK (c : Core) (e : TEntry) : Nat :=
  if e.op = .tconv then wKH e * wKW e * tField (yD c e) 40 4 else tField (yD c e) 24 4
def packN (c : Core) (e : TEntry) : Nat := if e.op = .tconv then tField (yD c e) 44 4 else tField (yD c e) 28 4
def scaleBase (c : Core) (e : TEntry) : Nat := if e.op = .tconv then tField (yD c e) 32 6 else tField (yD c e) 16 6

/-- Groups along the packed reduction. -/
def streamGk (c : Core) (e : TEntry) : Nat := ceilDiv (packK c e) (groupSize e)

/-- Bytes of one weight group block. -/
def blockBytes (e : TEntry) : Nat :=
  let w := ceilDiv (groupSize e * 128 * fmtBits (fyOf e)) 8
  if integerPath e then w + 32 else w

def streamBlocks (c : Core) (e : TEntry) : Nat := ceilDiv (packN c e) (256 * slices e) * streamGk c e * 2 * slices e

/-- Index of block (nt, g, a, h). -/
def blockIdx (c : Core) (e : TEntry) (nt g a h : Nat) : Nat := ((nt * streamGk c e + g) * 2 + a) * slices e + h

/-- Address of the weight and of the scale block (nt, g, a, h). -/
def weightBlock (c : Core) (e : TEntry) (b nt g a h : Nat) : Nat := baseY c e b + blockIdx c e nt g a h * blockBytes e
def scaleBlock (c : Core) (e : TEntry) (nt g a h : Nat) : Nat := scaleBase c e + blockIdx c e nt g a h * 416

/-- The tag expected for group `g` of N tile `nt` (R163, R242). -/
def expectedTag (c : Core) (e : TEntry) (nt g : Nat) : Nat :=
  let gk := if e.op = .tconv then streamGk c e else ceilDiv e.K (groupSize e)
  (e.insn.TAG_BASE.toNat + nt * gk + g) % 65536

/-- Byte offset and bit shift of the Y element that column `col` of slice `h` of array `a` takes in a step, for
reduction element `k`, with its address. -/
def yPlace (c : Core) (e : TEntry) (b nt : Nat) (w : StepWork) (k a h col : Nat) : Nat × Nat :=
  let f := fyOf e
  let n := nt * tileCols c e + a * (tileCols c e / 2) + h * 128 + col
  match e.op with
  | .tmm | .tconv =>
    let r := if e.op = .tconv then w.tap.ord * redC c e + k else k
    let i := r % groupSize e * 128 + col
    (weightBlock c e b nt (r / groupSize e) a h + i * fmtBits f / 8, i * fmtBits f % 8)
  | .tbd =>
    let gk := ceilDiv (packK c e) 128
    let idx := (k / 256 * gk + n / 128) * 2 + k % 256 / 128
    (baseY c e b + idx * (128 * 128 * 2) + (col * 128 + k % 128) * 2, 0)
  | .tqk => let p := denseOff (yD c e) f n k; (baseY c e b + p.1, p.2)
  | .tdw =>
    let p := denseOff (yD c e) f w.tap.ord n
    (baseY c e b + p.1, p.2)
  | _ => let p := denseOff (yD c e) f k n; (baseY c e b + p.1, p.2)

/-- ACCUM: TWG adds to what the destination holds, when its TE names an epilogue descriptor that says so (R222). -/
def accumulates (c : Core) (e : TEntry) : Bool := e.op == .twg && epilogueOk (eD c e) && eAccum (eD c e)

/-! ## Regions (R213, R216, R222, R228) -/

/-- A byte range. -/
abbrev Span := Nat × Nat

/-- The region of `pos` positions by `chs` channels of a dense tensor at `base`: the bytes of its elements. A block of C32 or
C16 that has channels outside the region is taken position by position (R213, R219). -/
def denseSpans (v : BitVec 512) (f : Nat) (comp : Bool) (mode base pos chs : Nat) : List Span :=
  if pos = 0 ∨ chs = 0 then []
  else
    let eb := max 1 (fmtBits f / 8)
    match dLayout v with
    | 2 => (List.range pos).map (fun m => (base + (denseOff v f m 0).1, chs * eb))
    | 3 => (List.range chs).map (fun ch => (base + (denseOff v f 0 ch).1, pos * eb))
    | 4 => (List.range pos).flatMap (fun m => (List.range chs).map (fun ch => (base + (denseOff v f m ch).1, eb)))
    | _ =>
      let g := blockWidth v
      (List.range (ceilDiv chs g)).flatMap (fun cb =>
        let at_ := base + cb * dCbStride v
        if comp then [(at_, ceilDiv pos (128 / g) * compBytes mode)]
        else if cb * g + g ≤ chs then [(at_, pos * g * fmtBits f / 8)]
        else (List.range pos).map (fun m => (at_ + m * g * fmtBits f / 8, ceilDiv ((chs - cb * g) * fmtBits f) 8)))

/-- Extents of the plan entry: M, N, K. -/
def extents (c : Core) (e : TEntry) : Nat × Nat × Nat :=
  match planEntry? c e.insn with
  | some p => (p.mExt, p.nExt, p.kExt)
  | none => (0, 0, 0)

/-- The same spans in every batch iteration, moved by `b` times the stride in 64 B units. -/
def overBatch (e : TEntry) (stride : Nat) (f : Nat → List Span) : List Span :=
  (List.range e.BATCH).flatMap (fun b => (f 0).map (fun r => (r.1 + b * 64 * stride, r.2)))

def spansX (c : Core) (e : TEntry) : List Span :=
  let (m, n, k) := extents c e
  let x := xD c e
  overBatch e e.insn.SX.toNat (fun _ =>
    match e.op with
    | .twg => denseSpans x (fxOf e) e.insn.CX (compMode c e) (dBase x) k m
    | .tconv => denseSpans x (fxOf e) e.insn.CX (compMode c e) (dBase x) (dIH x * dW x) k
    | .tdw | .tpool | .trsz =>
      denseSpans x (fxOf e) e.insn.CX (compMode c e) (dBase x) (dIH x * dW x) (if dLayout x ≥ 2 then k else n)
    | _ => denseSpans x (fxOf e) e.insn.CX (compMode c e) (dBase x) m k)

def spansY (c : Core) (e : TEntry) : List Span :=
  let (_, n, k) := extents c e
  let y := yD c e
  overBatch e e.insn.SY.toNat (fun _ =>
    match e.op with
    | .tmm | .tconv => [(dBase y, streamBlocks c e * blockBytes e)]
    | .tbd => [(dBase y, ceilDiv (packN c e) 256 * ceilDiv (packK c e) 128 * 2 * (128 * 128 * 2))]
    | .tqk => denseSpans y (fyOf e) false 0 (dBase y) n k
    | .tdw => denseSpans y (fyOf e) false 0 (dBase y) (wKH e * wKW e) n
    | .tpool | .trsz => []
    | _ => denseSpans y (fyOf e) false 0 (dBase y) k n)

def spansScale (c : Core) (e : TEntry) : List Span :=
  if e.op.streamed && integerPath e && e.BATCH != 0 then [(scaleBase c e, streamBlocks c e * 416)] else []

def readsColumns (e : TEntry) : Bool := !e.op.tune && !e.op.reducer

def spansCol (c : Core) (e : TEntry) : List Span :=
  if readsColumns e && e.BATCH != 0 then [(eColBase (eD c e), 16 * (extents c e).2.1)] else []

/-- Bytes of map or bitmap per batch iteration (R227). -/
def mapBytesOf (c : Core) (e : TEntry) : Nat :=
  match e.insn.MASK.toNat with
  | 1 => ceilDiv (tilesM c e) 8
  | 2 => mMapW (mD c e) * mMapH (mD c e)
  | _ => 0

def spansMask (c : Core) (e : TEntry) : List Span :=
  if e.insn.MASK = 0 then []
  else (List.range e.BATCH).map (fun b => (mMapBase (mD c e) + b * mMapStride (mD c e), mapBytesOf c e))

def spansD (c : Core) (e : TEntry) : List Span :=
  let (m, n, _) := extents c e
  overBatch e e.insn.SD.toNat (fun _ => denseSpans (dD c e) (fdOf e) e.insn.CD (compMode c e) (dBase (dD c e)) m n)

def spansH (c : Core) (e : TEntry) : List Span :=
  let (m, n, _) := extents c e
  if e.insn.COPY && e.insn.MASK != 0 then
    overBatch e e.insn.SD.toNat (fun _ => denseSpans (dD c e) (fdOf e) e.insn.CD (compMode c e) (mHistBase (mD c e)) m n)
  else []

/-- Two byte ranges share a byte. -/
def spanMeets (r t : Span) : Bool := r.2 != 0 && t.2 != 0 && r.1 < t.1 + t.2 && t.1 < r.1 + r.2

end Sys2Proof.Machine
end

