-- ==== Sys2Proof/Machine/Image.lean ====
section
/-! DEFINITION. Deckan images and the checks of the cluster loader (R180 to R185). -/

namespace Sys2Proof.Machine

/-! ## CRC-32 (R180, R427) -/

/-- One bit of the CRC with the IEEE 802.3 polynomial, reflected. -/
def crcBit (c : W32) : W32 := if c.getLsbD 0 then (c >>> 1) ^^^ 0xEDB88320 else c >>> 1

def crcByte (c : W32) (b : Byte) : W32 :=
  crcBit (crcBit (crcBit (crcBit (crcBit (crcBit (crcBit (crcBit (c ^^^ b.setWidth 32))))))))

/-- CRC-32 with the IEEE 802.3 polynomial. -/
def crc32 (bs : List Byte) : W32 := ~~~(bs.foldl crcByte 0xFFFFFFFF)

/-! ## The layout of an image (R180 to R183) -/

/-- The image header (R180). -/
structure ImgHeader where
  magic : Nat
  version : Nat
  part : Nat
  stepMajor : Nat
  stepMinor : Nat
  sections : Nat
  bytes : Nat
  crc : Nat
  planOff : Nat
  planBytes : Nat
  deriving DecidableEq, Repr

def parseHeader (bs : List Byte) : ImgHeader :=
  { magic := fieldOf bs 0 4, version := fieldOf bs 4 2, part := fieldOf bs 6 2, stepMajor := fieldOf bs 8 1,
    stepMinor := fieldOf bs 9 1, sections := fieldOf bs 10 2, bytes := fieldOf bs 12 4, crc := fieldOf bs 16 4,
    planOff := fieldOf bs 20 4, planBytes := fieldOf bs 24 4 }

/-- Section table entry `i` (R181). -/
def parseSection (bs : List Byte) (i : Nat) : Section :=
  let o := 64 + 32 * i
  { typ := fieldOf bs o 1, dest := fieldOf bs (o + 1) 1, src := fieldOf bs (o + 4) 4, bytes := fieldOf bs (o + 8) 4,
    destOff := fieldOf bs (o + 12) 4 }

def parseSections (h : ImgHeader) (bs : List Byte) : List Section := (List.range h.sections).map (parseSection bs)

/-- Tensor entry `i` of a plan record at `p` (R183). -/
def parseEntry (bs : List Byte) (p i : Nat) : PlanEntry :=
  let o := p + 64 + 32 * i
  let mode := fieldOf bs (o + 19) 1
  { textOffset := fieldOf bs o 4, mMax := fieldOf bs (o + 4) 4, nMax := fieldOf bs (o + 8) 4, kMax := fieldOf bs (o + 12) 4,
    batchMax := fieldOf bs (o + 16) 2, actFmt := bitsOf (fieldOf bs (o + 18) 1) 0 4, wgtFmt := bitsOf (fieldOf bs (o + 18) 1) 4 4,
    compression := bitsOf mode 0 2, gather := bitOf mode 2, shape := bitsOf mode 3 2,
    mExt := fieldOf bs (o + 20) 4, nExt := fieldOf bs (o + 24) 4, kExt := fieldOf bs (o + 28) 4 }

/-- The plan record at `p` (R182). -/
def parsePlan (bs : List Byte) (p : Nat) : Plan :=
  { entries := (List.range (fieldOf bs p 4)).map (parseEntry bs p), needsLead := bitOf (fieldOf bs (p + 4) 1) 0,
    tune := bitOf (fieldOf bs (p + 4) 1) 1, sems := fieldOf bs (p + 5) 1, dmaMask := BitVec.ofNat 64 (fieldOf bs (p + 8) 8),
    mqMask := BitVec.ofNat 16 (fieldOf bs (p + 16) 2),
    semInit := (List.range 16).map (fun k => BitVec.ofNat 16 (fieldOf bs (p + 32 + 2 * k) 2)) }

def textSection? (ss : List Section) : Option Section := ss.find? (fun x => x.typ == 1)

/-! ## The checks (R184) -/

/-- Checks 2 to 5, on the header: the failing code, or 0. -/
def headerCode (s : State) (h : ImgHeader) : Nat :=
  if h.magic ≠ 0x4E4B4344 then 2
  else if h.version ≠ 1 then 3
  else if h.part ≠ rd s R.GLB_ID_PART 0 then 4
  else if s.fuses.stepMajor.toNat < h.stepMajor ∨ (s.fuses.stepMajor.toNat = h.stepMajor ∧ s.fuses.stepMinor.toNat < h.stepMinor) then 5
  else 0

/-- The CRC of the image, its own four bytes taken as 0. -/
def crcOk (h : ImgHeader) (bs : List Byte) : Bool := (crc32 (putBytes bs 16 [0, 0, 0, 0])).toNat == h.crc

/-- The fixed bytes of a section entry are 0. -/
def sectionZeros (bs : List Byte) (i : Nat) : Bool := fieldOf bs (64 + 32 * i + 2) 2 == 0 && fieldOf bs (64 + 32 * i + 16) 16 == 0

def sectionOk (h : ImgHeader) (x : Section) : Bool :=
  1 ≤ x.typ && x.typ ≤ 3 && x.dest ≤ 1 && x.src % 64 == 0 && x.bytes % 64 == 0 && x.destOff % 64 == 0 &&
    (if x.typ = 3 then x.src == 0 else x.src + x.bytes ≤ h.bytes)

/-- Check 7. -/
def sectionsOk (h : ImgHeader) (bs : List Byte) : Bool :=
  let ss := parseSections h bs
  1 ≤ h.sections && h.sections ≤ 16 && 64 + 32 * h.sections ≤ h.bytes &&
    (List.range h.sections).all (sectionZeros bs) && ss.all (sectionOk h) &&
    (match ss.filter (fun x => x.typ == 1) with
      | [x] => x.dest == 0
      | _ => false)

/-- Slots of a batch class: 0 and values above 64 act as 64 (R105). -/
def bqSize (s : State) (c q : Fin 4) : Nat :=
  let n := rd s R.BQ_SIZE (bqIx c q)
  if n = 0 ∨ n > 64 then 64 else n

def slotStride (s : State) (c q : Fin 4) : Nat := rd s R.BQ_SLOT_STRIDE (bqIx c q) * 4096

/-- Bytes of a batch area (R92). -/
def areaBytes (s : State) (c q : Fin 4) : Nat := 4096 + bqSize s c q * slotStride s c q

/-- First byte of area `a` of a class. -/
def areaAddr (s : State) (c q a : Fin 4) : Nat := rd s R.BQ_AREA (bqIx c q) * 4096 + a.val * areaBytes s c q

/-- The areas of the enabled classes of a cluster. -/
def enabledAreas (s : State) (c : Fin 4) : List Span :=
  ((List.finRange 4).filter (fun q => rdb s R.BQ_EN (bqIx c q))).map (fun q =>
    (areaAddr s c q 0, (rd s R.BQ_NAREA (bqIx c q) + 1) * areaBytes s c q))

/-- The checkpoint areas, as offsets in core memory, of the cluster's cores with PREEMPT_EN = 1. -/
def ckptOffsets (s : State) (c : Fin 4) : List Span :=
  ((List.finRange 4).filter (fun i => rdb s R.ARRAY_CTL_PREEMPT_EN (coreOf c i).val)).map (fun i =>
    (rd s R.ARRAY_CKPT_BASE_BASE (coreOf c i).val * 4096 - coreBase (coreOf c i), 428 * 1024))

/-- Two sections are placed over one another. -/
def sectionsMeet (x y : Section) : Bool := x.dest == y.dest && spanMeets (x.destOff, x.bytes) (y.destOff, y.bytes)

/-- No two of the sections meet. -/
def sectionsApart : List Section → Bool
  | [] => true
  | x :: xs => xs.all (fun y => !sectionsMeet x y) && sectionsApart xs

/-- Check 8. -/
def rangesOk (s : State) (c : Fin 4) (ss : List Section) : Bool :=
  ss.all (fun x => x.destOff + x.bytes ≤ (if x.dest = 0 then 0x800000 else 0x1800000)) && sectionsApart ss &&
    ss.all (fun x =>
      if x.dest = 0 then (ckptOffsets s c).all (fun r => !spanMeets r (x.destOff, x.bytes))
      else (enabledAreas s c).all (fun r => !spanMeets r (bagBase c + x.destOff, x.bytes)))

/-- The reserved codes of a tensor entry are not used. -/
def entryCodes (bs : List Byte) (p i : Nat) : Bool :=
  let e := parseEntry bs p i
  e.actFmt ≤ 8 && e.wgtFmt ≤ 8 && e.compression != 3 && e.shape != 3 && bitsOf (fieldOf bs (p + 64 + 32 * i + 19) 1) 5 3 == 0

/-- The tensor instructions of the text, by offset, each with the index it carries: `fuel` words from offset `o`. -/
def tensorWords (text : List Byte) : Nat → Nat → List (Nat × Nat)
  | 0, _ => []
  | fuel + 1, o =>
    if o ≥ text.length then []
    else
      let w := fieldOf text o 8
      if w / 2 ^ 56 ≥ 0xF0 ∧ o % 32 = 0 then (o, bitsOf w 16 16) :: tensorWords text fuel (o + 32)
      else tensorWords text fuel (o + 8)

/-- Check 9. -/
def planRecordOk (h : ImgHeader) (bs : List Byte) (ss : List Section) : Bool :=
  let p := h.planOff
  let n := fieldOf bs p 4
  let plan := parsePlan bs p
  let text := match textSection? ss with
    | some x => sliceOf bs x.src x.bytes
    | none => []
  p % 64 == 0 && h.planBytes % 64 == 0 && 64 ≤ h.planBytes && p + h.planBytes ≤ h.bytes && n ≤ 65535 && 64 + 32 * n ≤ h.planBytes &&
    bitsOf (fieldOf bs (p + 4) 1) 2 6 == 0 && fieldOf bs (p + 6) 2 == 0 && fieldOf bs (p + 18) 14 == 0 &&
    (List.range n).all (entryCodes bs p) &&
    (tensorWords text (text.length / 8 + 1) 0).all (fun t => (plan.entries[t.2]?).any (fun e => e.textOffset == t.1))

/-- Check 10. -/
def planFormatsOk (p : Plan) : Bool :=
  p.entries.all (fun e => fmtPair e.actFmt e.wgtFmt && (e.compression == 0 || e.actFmt ≤ 1))

/-- Check 11. -/
def resourcesOk (p : Plan) (j : Job) : Bool :=
  p.sems ≤ 64 && bitsOf p.dmaMask.toNat 0 2 == 0 && (!p.needsLead || j.cores == 1)

/-- Check 12. -/
def entryOk (ss : List Section) (j : Job) : Bool :=
  match textSection? ss with
  | some x => j.entry.toNat < x.bytes && j.entry.toNat % 8 == 0
  | none => false

/-- Checks 6 to 12, on the bytes of the image. -/
def imageCode (s : State) (c : Fin 4) (j : Job) (h : ImgHeader) (bs : List Byte) : Nat :=
  let ss := parseSections h bs
  let p := parsePlan bs h.planOff
  if !crcOk h bs then 6
  else if !sectionsOk h bs then 7
  else if !rangesOk s c ss then 8
  else if !planRecordOk h bs ss then 9
  else if !planFormatsOk p then 10
  else if !resourcesOk p j then 11
  else if !entryOk ss j then 12
  else 0

/-- The checks that depend on the job, for an image that is resident. -/
def jobCode (r : Resident) (j : Job) : Nat :=
  if !resourcesOk r.plan j then 11 else if !entryOk r.sections j then 12 else 0

end Sys2Proof.Machine
end

