-- ==== Sys2Proof/Machine/Chanter.lean ====
section
/-! DEFINITION. The chanter and the cluster loader: choosing a unit at a batch boundary, loading its image, dispatching
its jobs and ending them (R22 to R27, R97, R176 to R185, R209, R210). A unit is a ready batch or a ring job. -/

namespace Sys2Proof.Machine

def clusterIx (c : Fin 4) : Nat := 16 + c.val

/-! ## Units that can run -/

/-- A batch area that is ready, or a ring job that has been fetched. -/
inductive UnitRef where
  | batch (q a : Fin 4)
  | ring (order : Nat)
  deriving DecidableEq, Repr

/-- A unit with its place in the order of arrival and whether it ranks with live ones (R97, R177). -/
structure Waiting where
  order : Nat
  live : Bool
  ref : UnitRef
  deriving DecidableEq, Repr

/-- A class's batches may be dispatched: those of site tuning not from stage 2 on (R103). -/
def classMayRun (s : State) (c q : Fin 4) : Bool := !(rdb s R.BQ_TUNE (bqIx c q) && stage s ≥ 2)

def readyBatches (s : State) (c : Fin 4) : List Waiting :=
  (List.finRange 4).flatMap (fun q => (List.finRange 4).filterMap (fun a =>
    let x := s.clusters[c].bq[q].areas[a]
    if x.st = .ready ∧ classMayRun s c q then some ⟨x.readyAt, rdb s R.BQ_LIVE (bqIx c q), .batch q a⟩ else none))

/-- The completion ring of a ring job lets it be dispatched: enabled and not full (R73). -/
def ringMayRun (s : State) (j : Job) : Bool :=
  match j.ring, j.batch with
  | some r, none => rdb s R.CR_EN r.val && !crFull s r.val
  | _, _ => true

def ringUnits (s : State) (c : Fin 4) : List Waiting :=
  (s.clusters[c].jobs.filter (fun e => ringMayRun s e.2)).map (fun e => ⟨e.1, e.2.live, .ring e.1⟩)

/-- The oldest of some units. -/
def oldestUnit (ws : List Waiting) : Option Waiting :=
  ws.foldl (fun o w => match o with
    | none => some w
    | some v => if w.order < v.order then some w else some v) none

/-- The unit the chanter takes at a boundary: the oldest live one, else, below stage 4, the oldest other. -/
def nextUnit (s : State) (c : Fin 4) : Option Waiting :=
  let ws := readyBatches s c ++ ringUnits s c
  match oldestUnit (ws.filter (fun w => w.live)) with
  | some w => some w
  | none => if stage s ≥ 4 then none else oldestUnit ws

/-! ## Ending a unit -/

/-- The unit is over: its batch area is free (R96). -/
def endUnit (s : State) (c : Fin 4) (j : Job) : State :=
  let s := modCluster s c (fun x => { x with cur := none, busy := 0, sent := 0 })
  let s := match j.batch with
    | some (q, a) => modArea s c q a (fun _ => Area.init)
    | none => s
  dropFlushed s c

/-- A unit ends without having run. Until its completion entry has room, the chanter holds the unit, and with it the batch
area (R73, R275). -/
def closeUnit (s : State) (c : Fin 4) (j : Job) (status : Nat) : State :=
  if cplRoom s j then endUnit (jobEntry s j status 0xFF) c j
  else modCluster s c (fun x => { x with cur := some (j, .over (BitVec.ofNat 16 status)) })

/-- The loader rejects the unit's job (R184). -/
def rejectUnit (s : State) (c : Fin 4) (j : Job) (code : Nat) : State :=
  let s := bump (wr s R.CLU_LDR_STATUS_LAST_REJECT c.val code) R.CLU_LDR_REJECTS c.val 1
  let s := logIt s planeCtrl 0x30 code 3 (clusterIx c) j.image.toNat j.tag.toNat
  closeUnit s c j code

/-! ## BATCH_BOUNDARY (R24, R26, R97) -/

/-- The template of a batch's job: BQ_JOB_ADDR, with CORES from BQ_CORES (R97, R176). -/
def batchJob (s : State) (c q a : Fin 4) (bs : List Byte) : Job :=
  let cr := fieldOf bs 20 1
  let ring : Option (Fin 31) := if bitOf cr 7 then some (Fin.ofNat 31 (bitsOf cr 0 5)) else none
  { parseJob bs ring (some (q, a)) (BitVec.ofNat 48 (areaAddr s c q a)) with
    cluster := c, cores := BitVec.ofNat 4 (rd s R.BQ_CORES (bqIx c q)) }

/-- The unit becomes the cluster's current one. -/
def takeUnit (s : State) (c : Fin 4) (r : UnitRef) : State :=
  match r with
  | .ring o =>
    match s.clusters[c].jobs.find? (fun e => e.1 == o) with
    | none => s
    | some (_, j) =>
      modCluster s c (fun x => { x with jobs := x.jobs.filter (fun e => e.1 != o), cur := some (j, .loading) })
  | .batch q a =>
    let addr := rd s R.BQ_JOB_ADDR (bqIx c q) * 64
    let r := memRead s (reqLoader c) addr 64
    let s := modArea r.s c q a (fun x => { x with st := .dispatched })
    let j := batchJob s c q a r.bytes
    if r.poison ∨ !inMemory s addr 64 then rejectUnit s c j 1
    else modCluster s c (fun x => { x with cur := some (j, .loading) })

/-- Every core that has not finished its job of the current unit holds a checkpoint. -/
def allHeld (s : State) (c : Fin 4) : Bool :=
  s.clusters[c].busy != 0 &&
    (List.finRange 4).all (fun i => !s.clusters[c].busy.getLsbD i.val || s.cores[coreOf c i].mode == .held)

/-- Some core of the unit has finished its job while others have not: the drain has started (R26). -/
def draining (s : State) (c : Fin 4) : Bool := s.clusters[c].busy != s.clusters[c].sent

/-- The chanter of the cluster may dispatch. -/
def chanterRuns (s : State) (c : Fin 4) : Bool :=
  s.phase == .up && serving s && !s.pci.d3hot && clusterUsable s c && !s.clusters[c].gated

/-- The live ring job that takes the place of a unit all of whose cores hold checkpoints: a batch waits for the boundary, which
such a unit does not reach (R26, R97). -/
def nextLiveJob (s : State) (c : Fin 4) : Option Waiting := oldestUnit ((ringUnits s c).filter (fun w => w.live))

/-- A boundary, or a live ring job taking the place of a unit that is held: what runs next is chosen. A unit that waits for room
for its completion entry ends when there is some. -/
def batchBoundary (c : Fin 4) (s : State) : State :=
  if !chanterRuns s c then s
  else
    match s.clusters[c].cur, s.clusters[c].preempted with
    | none, some (j, b, t) =>
      modCluster s c (fun x => { x with cur := some (j, .running), busy := b, sent := t, preempted := none })
    | none, none =>
      match nextUnit s c with
      | some w => takeUnit s c w.ref
      | none => s
    | some (j, .running), none =>
      match nextLiveJob s c with
      | some w =>
        if j.live || draining s c || !allHeld s c then s
        else
          takeUnit (modCluster s c (fun x => { x with preempted := some (j, x.busy, x.sent), cur := none, busy := 0, sent := 0 }))
            c w.ref
      | none => s
    | some (j, .over st), _ => closeUnit s c j st.toNat
    | _, _ => s

def execBatchBoundary (c : Fin 4) (s : State) : Host.Outcome State Fault Refusal := .next (batchBoundary c s)

/-! ## IMAGE_CHECK and IMAGE_COPY_DONE (R184, R185) -/

def setPhaseOf (s : State) (c : Fin 4) (j : Job) (p : UnitPhase) : State := modCluster s c (fun x => { x with cur := some (j, p) })

/-- Two images place sections over one another. -/
def imagesMeet (x y : Resident) : Bool := x.sections.any (fun a => y.sections.any (sectionsMeet a))

/-- The residents that loading an image evicts: idle ones it overlaps, then the least recently dispatched idle one if
more than 8 would be held. -/
def afterEviction (cl : Cluster) (img : Resident) : List Resident :=
  let rest := cl.residents.filter (fun r => imageUsed { cl with cur := none } r || !imagesMeet r img)
  if rest.length < 8 then rest
  else
    let idle := rest.filter (fun r => !imageUsed { cl with cur := none } r)
    match idle.foldl (fun (o : Option Resident) r => match o with
      | none => some r
      | some v => if r.lastUse < v.lastUse then some r else some v) none with
    | some v => rest.erase v
    | none => rest

/-- An image in use, that of the pre-empted unit, is in the way. -/
def imageBlocked (cl : Cluster) (img : Resident) : Bool :=
  cl.residents.any (fun r => imageUsed { cl with cur := none } r && imagesMeet r img)

/-- The unit goes back to wait, and the pre-empted unit runs on. -/
def putBack (s : State) (c : Fin 4) (j : Job) : State :=
  let s := match j.batch with
    | some (q, a) => modArea s c q a (fun x => { x with st := .ready })
    | none => modCluster s c (fun x => { x with jobs := (0, j) :: x.jobs })
  modCluster s c (fun x => match x.preempted with
    | some (k, b, t) => { x with cur := some (k, .running), busy := b, sent := t, preempted := none }
    | none => { x with cur := none })

/-- The loader has read the whole image. -/
def checkImage (s : State) (c : Fin 4) (j : Job) (h : ImgHeader) (bs : List Byte) : State :=
  match imageCode s c j h bs with
  | 0 =>
    let img : Resident := { image := j.image, crc := BitVec.ofNat 32 h.crc, plan := parsePlan bs h.planOff,
                            sections := parseSections h bs, lastUse := 0, flushed := false }
    if imageBlocked s.clusters[c] img then putBack s c j else setPhaseOf s c j (.copying img)
  | code => rejectUnit s c j code

/-- The cluster's loader works: not in a cluster that drone mode has taken out of service (R376). -/
def loaderRuns (s : State) (c : Fin 4) : Bool := s.phase == .up && planesRun s && !s.clusters[c].gated

/-- IMAGE_CHECK: a resident image only has the checks that depend on the job. -/
def imageCheck (c : Fin 4) (s : State) : State :=
  match s.clusters[c].cur with
  | some (j, .loading) =>
    if !loaderRuns s c then s
    else
    let a := j.image.toNat
    let r := memRead s (reqLoader c) a 64
    let h := parseHeader r.bytes
    let s := r.s
    if r.poison then rejectUnit s c j 1
    else
      match s.clusters[c].residents.find? (fun x => x.image == j.image && x.crc.toNat == h.crc && !x.flushed) with
      | some x =>
        match jobCode x j with
        | 0 => setPhaseOf s c { j with crc := some x.crc } .loaded
        | code => rejectUnit s c j code
      | none =>
        match headerCode s h with
        | 0 =>
          let r := memRead s (reqLoader c) a (max 64 h.bytes)
          if r.poison then rejectUnit r.s c j 1 else checkImage r.s c j h (r.bytes.take h.bytes)
        | code => rejectUnit s c j code
  | _ => s

def execImageCheck (c : Fin 4) (s : State) : Host.Outcome State Fault Refusal := .next (imageCheck c s)

/-- The memories a section goes to: every usable core's, or the bag (R181). -/
def sectionBases (s : State) (c : Fin 4) (x : Section) : List Nat :=
  if x.dest = 0 then ((List.finRange 4).filter (fun i => coreUsable s (coreOf c i))).map (fun i => coreBase (coreOf c i))
  else [bagBase c]

/-- Copies one section; poisoned source data is reported. -/
def copySection (c : Fin 4) (image : Nat) (sp : State × Bool) (x : Section) : State × Bool :=
  let r := if x.typ = 3 then { s := sp.1, bytes := List.replicate x.bytes 0, poison := false : MemRead }
    else memRead sp.1 (reqLoader c) (image + x.src) x.bytes
  if sp.2 || r.poison then (r.s, true)
  else ((sectionBases sp.1 c x).foldl (fun s b => memWrite s (reqLoader c) (b + x.destOff) r.bytes false) r.s, false)

/-- IMAGE_COPY_DONE. -/
def imageCopyDone (c : Fin 4) (s : State) : State :=
  match s.clusters[c].cur with
  | some (j, .copying img) =>
    if !loaderRuns s c then s
    else
    let s := modCluster s c (fun x => { x with residents := afterEviction x img })
    let r := img.sections.foldl (copySection c j.image.toNat) (s, false)
    if r.2 then rejectUnit r.1 c j 1
    else
      let s := modCluster r.1 c (fun x => { x with residents := x.residents ++ [img] })
      setPhaseOf (bump s R.CLU_LDR_LOADS c.val 1) c { j with crc := some img.crc } .loaded
  | _ => s

def execImageCopyDone (c : Fin 4) (s : State) : Host.Outcome State Fault Refusal := .next (imageCopyDone c s)

/-- CLU_LDR_FLUSH (R209): idle images go, an image in use goes when its last job ends. -/
def ldrFlush (c : Fin 4) (s : State) : State :=
  modCluster s c (fun x => { x with
    residents := (x.residents.filter (imageUsed x)).map (fun r => { r with flushed := true }) })

def execCluLdrFlush (c : Fin 4) (s : State) : Host.Outcome State Fault Refusal := .next (ldrFlush c s)

/-! ## JOB_DISPATCH (R177, R201) -/

/-- The resident image of a unit: of one loaded again after a flush, the new copy. -/
def residentOf (cl : Cluster) (j : Job) : Option Resident := cl.residents.reverse.find? (fun r => isImageOf r j)

/-- The cores that are given the unit's jobs. -/
def dispatchCores (s : State) (c : Fin 4) (j : Job) : List (Fin 4) :=
  (List.finRange 4).filter (fun i =>
    j.cores.getLsbD i.val && coreUsable s (coreOf c i) && rdb s R.CORE_CTL_EN (coreOf c i).val)

/-- The core at the start of a job (R177): index `ix` among `cnt` jobs. The ramp of its arrays goes on as it was (R133). -/
def startedCore (c : Core) (j : Job) (r : Resident) (base : Nat) (ix cnt : Nat) : Core :=
  let text := base + (match textSection? r.sections with | some x => x.destOff | none => 0)
  { Core.init with
    s := ((((((Vector.replicate 32 (0 : W64)).set 1 (j.header.setWidth 64)).set 2 (BitVec.ofNat 64 ix)).set 3
      (BitVec.ofNat 64 cnt)).set 4 j.arg0).set 5 j.arg1).set 6 j.arg2 |>.set 7 j.arg3
    pc := BitVec.ofNat 48 (text + j.entry.toNat), textBase := BitVec.ofNat 48 text, mode := .running,
    job := some j, plan := r.plan, held := c.held, posts := c.posts, ramp := c.ramp, busyAt := c.busyAt }

/-- One job is dispatched. -/
def startJob (c : Fin 4) (j : Job) (r : Resident) (cnt : Nat) (s : State) (e : Fin 4 × Nat) : State :=
  let n := coreOf c e.1
  wr (modCore s n (fun x => startedCore x j r (coreBase n) e.2 cnt)) R.CORE_JOB_TAG n.val j.tag.toNat

/-- The counts of the semaphores at a boundary (R201). -/
def initSems (p : Plan) : Vector (BitVec 16) 64 := Vector.ofFn (fun k => p.semInit.getD k.val 0)

def coreBits (is : List (Fin 4)) : BitVec 4 := is.foldl (fun b i => b ||| BitVec.ofNat 4 (2 ^ i.val)) 0

/-- From stage 2 on neither a job whose plan sets TUNE nor one of a site-tuning batch is dispatched (R103, R185). -/
def tuneMayRun (s : State) (c : Fin 4) (j : Job) (p : Plan) : Bool :=
  !(p.tune && stage s ≥ 2) && (match j.batch with | some (q, _) => classMayRun s c q | none => true)

/-- JOB_DISPATCH. -/
def jobDispatch (c : Fin 4) (s : State) : State :=
  match s.clusters[c].cur with
  | some (j, .loaded) =>
    match residentOf s.clusters[c] j with
    | none => s
    | some r =>
      if !chanterRuns s c || !tuneMayRun s c j r.plan || !ringMayRun s j then s
      else
        let is := dispatchCores s c j
        if is.isEmpty then closeUnit s c j 0x20
        else
          let boundary := s.clusters[c].preempted.isNone
          let s := modCluster s c (fun x => { x with
            cur := some (j, .running), busy := coreBits is, sent := coreBits is,
            sems := if boundary then initSems r.plan else x.sems,
            residents := x.residents.map (fun y => if y = r then { y with lastUse := s.order } else y) })
          is.zipIdx.foldl (startJob c j r is.length) { s with order := s.order + 1 }
  | _ => s

def execJobDispatch (c : Fin 4) (s : State) : Host.Outcome State Fault Refusal := .next (jobDispatch c s)

/-! ## The end of a job (R22, R178) -/

/-- Every chain the job has issued has completed and its writes have been performed. -/
def chainsDone (s : State) (n : Fin 16) : Bool :=
  s.cores[n].chains.all (fun e => reached s e.1 e.2 && !unflushed s e.1)

/-- The core has finished its job of the current unit; the last one ends the unit. -/
def coreFinished (s : State) (n : Fin 16) (j : Job) : State :=
  let c := clusterOf n
  let s := modCore s n (fun x => { x with
    mode := if x.held.isSome then .held else .idle, job := none, chains := [], tq := [], cur := none })
  let s := modCluster s c (fun x => { x with busy := x.busy &&& ~~~BitVec.ofNat 4 (2 ^ (n.val % 4)) })
  if s.clusters[c].busy = 0 then endUnit s c j else s

/-- The completion entry of the core's job becomes visible. -/
def finishJob (s : State) (n : Fin 16) (j : Job) (status : Nat) : State :=
  coreFinished (bump (jobEntry s j status n.val) R.CORE_JOBS n.val 1) n j

/-- JOB_COMPLETE: END's fence of all four scopes is met, and every chain is complete. -/
def jobComplete (n : Fin 16) (s : State) : State :=
  match s.cores[n].mode, s.cores[n].job with
  | .ending, some j =>
    if tensorFenced s n && s.cores[n].posts == 0 && chainsDone s n && cplRoom s j then
      finishJob (bump s R.CORE_INSNS n.val 1) n j 0
    else s
  | _, _ => s

def execJobComplete (n : Fin 16) (s : State) : Host.Outcome State Fault Refusal := .next (jobComplete n s)

/-- TRAP_DRAIN_DONE: the failed job's entry is written (R178); its checkpoint area holds no valid state (R27). -/
def trapDrainDone (n : Fin 16) (s : State) : State :=
  match s.cores[n].mode, s.cores[n].job with
  | .trapped cause, some j =>
    if s.cores[n].posts == 0 && chainsDone s n && cplRoom s j then
      let s := if s.cores[n].held.isNone then wrb s R.ARRAY_STATUS_CKPT_VALID n.val false else s
      finishJob s n j (0x100 + cause.toNat)
    else s
  | _, _ => s

def execTrapDrainDone (n : Fin 16) (s : State) : Host.Outcome State Fault Refusal := .next (trapDrainDone n s)

/-- CORE_DISABLE: CORE_CTL.EN is cleared; the current job finishes (R208). -/
def execCoreDisable (n : Fin 16) (s : State) : Host.Outcome State Fault Refusal :=
  .next (if planesRun s then wrb s R.CORE_CTL_EN n.val false else s)

end Sys2Proof.Machine
end

