-- ==== Sys2Proof/Machine/Batch.lean ====
section
/-! DEFINITION. Batch classes and batch areas: opening, reserving, closing, filling and becoming ready; writes of BQ_CFG
(R92 to R96, R102, R105, R106). -/

namespace Sys2Proof.Machine

/-- The areas a class has. -/
def classAreas (s : State) (c q : Fin 4) : List (Fin 4) :=
  (List.finRange 4).filter (fun a => a.val ≤ rd s R.BQ_NAREA (bqIx c q))

def areaOf (s : State) (c q a : Fin 4) : Area := s.clusters[c].bq[q].areas[a]

/-- The open batch of a class. -/
def openArea (s : State) (c q : Fin 4) : Option (Fin 4) := (classAreas s c q).find? (fun a => (areaOf s c q a).st == .opened)

/-- The area in which a batch would open: the lowest-numbered free one (R92). -/
def freeArea (s : State) (c q : Fin 4) : Option (Fin 4) := (classAreas s c q).find? (fun a => (areaOf s c q a).st == .free)

/-- No open, closing or dispatched batch (R105). -/
def classIdle (s : State) (c q : Fin 4) : Bool := (List.finRange 4).all (fun a => (areaOf s c q a).st == .free)

/-- The class takes samples: enabled, on a usable cluster. -/
def classOn (s : State) (c q : Fin 4) : Bool := rdb s R.BQ_EN (bqIx c q) && clusterUsable s c

/-- First byte of slot `j` of an area. -/
def slotAddr (s : State) (c q a : Fin 4) (j : Nat) : Nat := areaAddr s c q a + 4096 + j * slotStride s c q

/-! ## Filling (R95) -/

/-- A slot is filled: BQ_PAD below MAP_OFF, 0 from there on. -/
def fillSlot (s : State) (c q a : Fin 4) (j : Nat) : State :=
  let n := slotStride s c q
  let cut := min (rd s R.BQ_FILL_MAP_OFF (bqIx c q) * 256) n
  memWrite s 0 (slotAddr s c q a j)
    (List.replicate cut (BitVec.ofNat 8 (rd s R.BQ_PAD (bqIx c q))) ++ List.replicate (n - cut) 0) false

/-! ## Becoming ready (R93, R95) -/

/-- The bits of the slots that satisfy a condition. -/
def slotBits (l : List Slot) (f : Slot → Bool) : Nat := (l.zipIdx.map (fun e => if f e.1 then 2 ^ e.2 else 0)).foldl (· + ·) 0

/-- A slot entry; that of a slot that no sample reserved is 32 bytes of 0 (DESIGN CHOICE, log entry 183). -/
def slotEntry (x : Slot) : List Byte :=
  if x.valid then
    bytesOf 8 x.sampleId.toNat ++ bytesOf 8 x.time.toNat ++ bytesOf 4 x.chunkTag.toNat ++ [x.flags, x.reason] ++ List.replicate 10 0
  else List.replicate 32 0

/-- The 4 KiB batch header. -/
def batchHeader (s : State) (c q : Fin 4) (x : Area) : List Byte :=
  let tune := rdb s R.BQ_TUNE (bqIx c q)
  let bs := bytesOf 8 x.seq.toNat ++ bytesOf 8 (slotBits x.slots (fun y => y.valid)) ++
    bytesOf 8 (slotBits x.slots (fun y => y.valid && y.replaced)) ++ bytesOf 4 (if tune then x.epoch.toNat else 0) ++
    bytesOf 1 (x.slots.filter (fun y => y.valid)).length ++ bytesOf 1 (bqSize s c q) ++ bytesOf 1 (q.val + 128 * b2n tune) ++
    bytesOf 1 0 ++ bytesOf 8 x.closeTime.toNat ++ List.replicate 24 0 ++ x.slots.flatMap slotEntry
  bs ++ List.replicate (4096 - bs.length) 0

/-- The closed batch that comes first in BATCH_SEQ order. -/
def firstClosed (s : State) (c q : Fin 4) : Option (Fin 4) :=
  ((List.finRange 4).filter (fun a => (areaOf s c q a).st == .closed)).foldl (fun o a => match o with
    | none => some a
    | some b => if (areaOf s c q a).seq.toNat < (areaOf s c q b).seq.toNat then some a else some b) none

/-- The first closed batch becomes ready if every slot of it is complete. -/
def readyStep (c q : Fin 4) (s : State) : State :=
  match firstClosed s c q with
  | some a =>
    if (areaOf s c q a).slots.all (fun x => x.complete) then
      let s := memWrite s 0 (areaAddr s c q a) (batchHeader s c q (areaOf s c q a)) false
      modArea { s with order := s.order + 1 } c q a (fun x => { x with st := .ready, readyAt := s.order })
    else s
  | none => s

/-- Batches of a class become ready in BATCH_SEQ order. -/
def readyClass (c q : Fin 4) (s : State) : State := (List.range 4).foldl (fun s _ => readyStep c q s) s

/-! ## Reserving and closing (R94) -/

/-- A slot that no sample has reserved. -/
def emptySlot : Slot :=
  { sampleId := 0, time := 0, chunkTag := 0, flags := 0, reason := 0, valid := false, replaced := false, complete := false }

/-- The open batch closes: it takes its number, and its unreserved slots await the fill. -/
def closeBatch (s : State) (c q a : Fin 4) : State :=
  let b := s.clusters[c].bq[q]
  let n := bqSize s c q
  let s := modBq s c q (fun b => { b with seq := b.seq + 1 })
  let s := modArea s c q a (fun x => { x with
    st := .closed, seq := b.seq, closeTime := nowW s, closedCyc := s.clock.cyc,
    slots := x.slots ++ List.replicate (n - x.slots.length) emptySlot })
  readyClass c q (wr s R.BQ_SEQ (bqIx c q) (b.seq.toNat + 1))

/-- A slot of area `a`, open or free, is reserved for a sample. -/
def reserveIn (s : State) (c q a : Fin 4) (sid epoch : Nat) : State :=
  modArea s c q a (fun x => { x with
    st := .opened, epoch := BitVec.ofNat 32 epoch, firstAt := if x.slots.isEmpty then nowW s else x.firstAt,
    slots := x.slots ++ [{ emptySlot with sampleId := BitVec.ofNat 64 sid, valid := true }] })

/-- The area that takes the class's next sample. -/
def nextArea (s : State) (c q : Fin 4) : Option (Fin 4) := openArea s c q <|> freeArea s c q

def modSlot (s : State) (c q a : Fin 4) (j : Nat) (f : Slot → Slot) : State :=
  modArea s c q a (fun x => { x with slots := x.slots.modify j f })

/-- BATCH_TIMEOUT. -/
def batchTimeout (c q : Fin 4) (s : State) : State :=
  let t := rd s R.BQ_TIMEOUT (bqIx c q)
  match openArea s c q with
  | some a =>
    if t = 0 ∨ rdb s R.BQ_TUNE (bqIx c q) = true then s
    else closeBatch (passTo s ((areaOf s c q a).firstAt.toNat + t * 1000)) c q a
  | none => s

def execBatchTimeout (c q : Fin 4) (s : State) : Host.Outcome State Fault Refusal := .next (batchTimeout c q s)

/-- Unreserved slots that await the fill. -/
def unfilled (x : Area) : List Nat :=
  (x.slots.zipIdx.filter (fun e => !e.1.valid && !e.1.complete)).map (fun e => e.2)

/-- Fills one unreserved slot. -/
def fillOne (c q a : Fin 4) (s : State) (j : Nat) : State :=
  bump (modSlot (fillSlot s c q a j) c q a j (fun x => { x with complete := true })) R.BQ_PADDED (bqIx c q) 1

/-- The fill of `n` slots has ended: ceil(SLOT_STRIDE / 128) c-cycles each from the close (R95). -/
def passFill (s : State) (c q a : Fin 4) (n : Nat) : State :=
  passToCyc s ((areaOf s c q a).closedCyc + n * ceilDiv (slotStride s c q) 128)

/-- BATCH_FILL_DONE: the fill of the oldest batch that has one under way. -/
def batchFillDone (c q : Fin 4) (s : State) : State :=
  let cands := (List.finRange 4).filter (fun a => (areaOf s c q a).st == .closed && !(unfilled (areaOf s c q a)).isEmpty)
  match cands.foldl (fun (o : Option (Fin 4)) a => match o with
    | none => some a
    | some b => if (areaOf s c q a).seq.toNat < (areaOf s c q b).seq.toNat then some a else some b) none with
  | some a =>
    let js := unfilled (areaOf s c q a)
    readyClass c q (js.foldl (fillOne c q a) (passFill s c q a js.length))
  | none => s

def execBatchFillDone (c q : Fin 4) (s : State) : Host.Outcome State Fault Refusal := .next (batchFillDone c q s)

/-! ## BQ_CFG (R92, R105, R106) -/

/-- The areas lie in the first 24 MiB of the cluster's bag. -/
def areasFit (s : State) (c q : Fin 4) : Bool :=
  bagBase c ≤ areaAddr s c q 0 &&
    areaAddr s c q 0 + (rd s R.BQ_NAREA (bqIx c q) + 1) * areaBytes s c q ≤ bagBase c + 0x1800000

/-- EN = 1 is written to a class that is off. -/
def bqOn (c q : Fin 4) (s : State) : State :=
  let i := bqIx c q
  if !classIdle s c q || !areasFit s c q then wrb s R.BQ_CFG_ERR i true
  else
    let s := modBq s c q (fun _ => { Bq.init with repl := [] })
    wrb (wrb (wr (wr (wrb s R.BQ_EN i true) R.BQ_SEQ i 0) R.BQ_POS i 0) R.BQ_CFG_ERR i false) R.BQ_DONE i false

/-- The holds on the class's replacement frames are released (R99). -/
def dropClassRepl (s : State) (c q : Fin 4) : State :=
  let l := s.clusters[c].bq[q].repl
  modBq (l.foldl (fun s e => bpmOp s .release e.2.toNat) s) c q (fun b => { b with repl := [] })

/-- EN = 0: the open batch closes at once, with padding. -/
def bqOff (c q : Fin 4) (s : State) : State :=
  let s := wrb s R.BQ_EN (bqIx c q) false
  let s := match openArea s c q with
    | some a => closeBatch s c q a
    | none => s
  dropClassRepl s c q

/-- A write of BQ_CFG. -/
def bqCfgWrite (c q : Fin 4) (v : Nat) (s : State) : State :=
  let i := bqIx c q
  let s := wrb (wrb (wrb (wrb s R.BQ_LIVE i (bitOf v 1)) R.BQ_TUNE i (bitOf v 2)) R.BQ_OVERRUN i (bitOf v 3)) R.BQ_REPL i (bitOf v 4)
  let s := wr (wr (wr s R.BQ_NAREA i (bitsOf v 8 2)) R.BQ_SIZE i (bitsOf v 16 7)) R.BQ_CORES i (bitsOf v 24 4)
  if !bitOf v 0 then bqOff c q s
  else if rdb s R.BQ_EN i then s
  else bqOn c q s

/-- BQ_ENABLE. -/
def execBqEnable (c q : Fin 4) (cfg : BitVec 32) (s : State) : Host.Outcome State Fault Refusal := .next (if planesRun s then bqCfgWrite c q cfg.toNat s else s)

/-- BQ_DISABLE. -/
def execBqDisable (c q : Fin 4) (s : State) : Host.Outcome State Fault Refusal := .next (if planesRun s then bqOff c q s else s)

end Sys2Proof.Machine
end

