-- ==== Sys2Proof/Machine/Streams.lean ====
section
/-! DEFINITION. Stream contexts and their cache, chunk rings, frame buffers, DEC records, and the doorbells of streams
(R41 to R57, R68, R75, R76, R80, R107). -/

namespace Sys2Proof.Machine

/-- The block index of the stream-context cache and the decoder scheduler. -/
def unitSched : Nat := 46

/-! ## Fields of a context entry (R42, R83, R108) -/

/-- Bytes [at, at + n) of an entry. -/
def entryField (e : BitVec 2048) (at_ n : Nat) : Nat := bitsOf e.toNat (8 * at_) (8 * n)

/-- A bit of an entry. -/
def entryBit (e : BitVec 2048) (i : Nat) : Bool := e.getLsbD i

def ctlValid (e : BitVec 2048) : Bool := entryBit e 0
def ctlLiveBit (e : BitVec 2048) : Bool := entryBit e 1
def ctlSuspend (e : BitVec 2048) : Bool := entryBit e 2
def ctlReportAll (e : BitVec 2048) : Bool := entryBit e 3
def ctlCodec (e : BitVec 2048) : Nat := bitsOf e.toNat 4 2
def ctlP010 (e : BitVec 2048) : Bool := entryBit e 6
def ctlFramePool (e : BitVec 2048) : Fin 8 := Fin.ofNat 8 (bitsOf e.toNat 12 3)
def ctlBsPool (e : BitVec 2048) : Fin 8 := Fin.ofNat 8 (bitsOf e.toNat 16 3)
def ctlPrio (e : BitVec 2048) : Nat := bitsOf e.toNat 8 3
def ctlDecMq (e : BitVec 2048) : Fin 16 := Fin.ofNat 16 (bitsOf e.toNat 20 4)
def ctxMaxW (e : BitVec 2048) : Nat := entryField e 4 2
def ctxMaxH (e : BitVec 2048) : Nat := entryField e 6 2
def ctxRing (e : BitVec 2048) : Nat := bitsOf e.toNat (64 + 12) 36 * 4096
def ctxRingLog2 (e : BitVec 2048) : Nat := entryField e 0x10 1
def ctxMotionThr (e : BitVec 2048) : Nat := let v := entryField e 0x18 1; if v = 0 then 2 else v
def ctxResidThr (e : BitVec 2048) : Nat := let v := entryField e 0x19 1; if v = 0 then 6 else v
def ctxShCtl (e : BitVec 2048) : Nat := entryField e 0x80 4
def ctxEvery (e : BitVec 2048) : Nat := bitsOf (ctxShCtl e) 20 4
def ctxPreroll (e : BitVec 2048) : Nat := entryField e 0xC1 1

/-- CODEC, P010 and FRAME_POOL, whose change R48 speaks of. -/
def ctxFormat (e : BitVec 2048) : Nat := ctlCodec e + 4 * b2n (ctlP010 e) + 8 * (ctlFramePool e).val

/-- Address of the entry of a stream (R41). -/
def ctxAddr (s : State) (n : Fin 1024) : Nat := rd s R.VID_CTX_BASE_BASE 0 * 4096 + 256 * n.val

def ctxEnabled (s : State) : Bool := rdb s R.VID_CTX_CFG_ENABLE 0
def ctxCount (s : State) : Nat := rd s R.VID_CTX_CFG_COUNT 0

/-- What a read of an entry gives: its 256 bytes, or the DETAIL of R68 that it fails with. -/
structure CtxRead where
  s : State
  bytes : List Byte
  detail : Nat

/-- Reads a context entry from DRAM. -/
def readCtx (s : State) (n : Fin 1024) : CtxRead :=
  let a := ctxAddr s n
  if a + 256 > rd s R.DRC_WINDOW 0 then ⟨s, [], 10⟩
  else
    let r := memRead s reqDma a 256
    ⟨r.s, r.bytes, if r.poison then 5 else 0⟩

def entryOfBytes (bs : List Byte) : BitVec 2048 := BitVec.ofNat 2048 (natOfBytes bs)

/-- The cached entry as it is read. -/
def ctxOfEntry (e : BitVec 2048) : Ctx :=
  { entry := e, chunkCons := BitVec.ofNat 32 (entryField e 0x40 4), framesDecoded := BitVec.ofNat 32 (entryField e 0x44 4),
    framesConcealed := BitVec.ofNat 32 (entryField e 0x48 4), framesAbandoned := BitVec.ofNat 32 (entryField e 0x4C 4),
    posOffset := BitVec.ofNat 32 (entryField e 0x50 4), avgVcycles := BitVec.ofNat 32 (entryField e 0x54 4),
    lastGood := BitVec.ofNat 48 (entryField e 0x58 6), frameSeq := BitVec.ofNat 32 (entryField e 0x60 4),
    resync := entryBit e (8 * 0x64), drift := entryBit e (8 * 0x64 + 1), error := entryBit e (8 * 0x64 + 2),
    bsErrors := BitVec.ofNat 32 (entryField e 0x68 4), treatedLive := false, refused := false, lastDispatch := 0, dirty := false }

def modCtx (s : State) (n : Fin 1024) (f : Ctx → Ctx) : State :=
  modStream s n (fun x => { x with ctx := x.ctx.map f })

/-- The device-owned 64 bytes, 0x40 to 0x7F (R42). -/
def deviceFields (c : Ctx) : List Byte :=
  bytesOf 4 c.chunkCons.toNat ++ bytesOf 4 c.framesDecoded.toNat ++ bytesOf 4 c.framesConcealed.toNat ++
    bytesOf 4 c.framesAbandoned.toNat ++ bytesOf 4 c.posOffset.toNat ++ bytesOf 4 c.avgVcycles.toNat ++
    bytesOf 8 c.lastGood.toNat ++ bytesOf 4 c.frameSeq.toNat ++
    bytesOf 4 (b2n c.resync + 2 * b2n c.drift + 4 * b2n c.error + 8 * b2n (c.lastGood != 0)) ++
    bytesOf 4 c.bsErrors.toNat ++ List.replicate 20 0

/-- An entry that could not be read, with its DETAIL: no copy is kept, nothing is written back, and the error log alone
says so (R43, R68). -/
def ctxUnreadable (s : State) (n : Fin 1024) (detail : Nat) : State :=
  logIt (modStream s n (fun x => { x with ctx := none, readyAt := none, unread := true })) planeCtrl 0x20 10 3 unitSched n.val detail

/-- A stream's cached copy is read, if it has one: true if it was poison, and is gone. -/
def ctxCopyRead (s : State) (n : Fin 1024) : State × Bool :=
  if (streamOf s n).ctx.isNone then (s, false)
  else
    let q := hiddenRead s (.ctx n)
    if q.2 then (ctxUnreadable q.1 n 5, true) else q

/-- The device-owned fields are written back as one 64 B write (R43). -/
def writeBack (s : State) (n : Fin 1024) : State :=
  let s := (ctxCopyRead s n).1
  match (streamOf s n).ctx with
  | some c => modCtx (memWrite s reqDma (ctxAddr s n + 0x40) (deviceFields c) false) n (fun x => { x with dirty := false })
  | none => s

/-- A copy leaves the cache. Device fields that no write-back has covered yet stay with the device, so that a stream put
into RESYNC by R48, R50 or R64 is in RESYNC when its entry is read again (log entry 173). -/
def uncache (x : Stream) : Stream :=
  { x with ctx := none, readyAt := none,
           unsaved := match x.ctx with
             | some c => if c.dirty then some c else none
             | none => x.unsaved }

/-- An entry that has been read takes the device fields that had not been written back. -/
def restoreFields (c : Ctx) (u : Option Ctx) : Ctx :=
  match u with
  | some d =>
    { d with entry := c.entry, treatedLive := c.treatedLive, refused := c.refused, lastDispatch := c.lastDispatch, dirty := true }
  | none => c

/-! ## The cache (R45) -/

/-- Streams with a cached entry. -/
def cachedStreams (s : State) : List (Fin 1024 × Stream) :=
  s.streams.filterMap (fun e => if e.2.ctx.isSome then some (Fin.ofNat 1024 e.1, e.2) else none)

/-- The stream is treated as live; one that is not cached is treated as it last was. -/
def isLive (x : Stream) : Bool := match x.ctx with | some c => c.treatedLive | none => x.live

def liveCount (s : State) : Nat := ((cachedStreams s).filter (fun e => isLive e.2)).length

/-- The least recently dispatched cached entry that may be evicted. -/
def evictable (s : State) : Option (Fin 1024) :=
  let cands := (cachedStreams s).filter (fun e => !isLive e.2 && !e.2.inDecode)
  let at_ := fun (e : Fin 1024 × Stream) => match e.2.ctx with | some c => c.lastDispatch | none => 0
  (cands.foldl (fun o e => match o with
    | none => some e
    | some v => if at_ e < at_ v then some e else some v) none).map (fun e => e.1)

/-! ## Holds on frames, and offers that are released (R56, R81, R284) -/

def hold (s : State) (a : Addr) : State := bpmOp s .hold a.toNat
def release (s : State) (a : Addr) : State := bpmOp s .release a.toNat
def releaseAll (s : State) (l : List Addr) : State := l.foldl release s

/-- The shaper whose SH_SKIPPED counts a frame that no shaper has taken. -/
def skipShaper (s : State) : Nat :=
  match (List.finRange 8).find? (fun k => shUsable s k && rdb s R.SH_CTL_EN k.val) with
  | some k => k.val
  | none => 0

/-- An offered frame is released unshaped. -/
def skipOffer (s : State) (o : Offer) : State := bump (release s o.frame) R.SH_SKIPPED (skipShaper s) 1

/-- Offered frames that satisfy a condition are released unshaped. -/
def skipOffers (s : State) (f : Offer → Bool) : State :=
  (s.offers.filter f).foldl skipOffer { s with offers := s.offers.filter (fun o => !f o) }

/-- At stage 4 and above, offered frames of streams that are not live are released unshaped (R81). -/
def shedOffers (s : State) : State :=
  if stage s ≥ 4 then skipOffers s (fun o => !isLive (streamOf s o.stream)) else s

/-- The stream is treated as live from now on, or not. A live stream is not suspended by shedding (R375). -/
def setLive (s : State) (n : Fin 1024) (b : Bool) : State :=
  shedOffers (ltrUpdate (modStream (modCtx s n (fun x => { x with treatedLive := b })) n
    (fun x => { x with live := b, shedSuspended := x.shedSuspended && !b })))

/-- Decides whether an entry with LIVE = 1 is treated as live (R45). -/
def decideLive (s : State) (n : Fin 1024) : State :=
  match (streamOf s n).ctx with
  | some c =>
    if !ctlLiveBit c.entry then setLive s n false
    else if c.treatedLive then s
    else if liveCount s < 256 then setLive s n true
    else if c.refused then setLive s n false
    else
      logIt (modCtx (setLive s n false) n (fun x => { x with refused := true })) planeCtrl 0x20 0x20 2 unitSched n.val
        c.frameSeq.toNat
  | none => s

/-- FRAME_SEQ of a stream as the scheduler knows it; 0 for one whose entry is not cached (DESIGN CHOICE, log entry 216). -/
def knownSeq (s : State) (n : Fin 1024) : Nat :=
  match (streamOf s n).ctx with
  | some c => c.frameSeq.toNat
  | none => 0

/-! ## Reference frames and LAST_GOOD (R56) -/

/-- Releases the reference frames. -/
def dropRefs (s : State) (n : Fin 1024) : State :=
  modStream (releaseAll s (streamOf s n).refs) n (fun x => { x with refs := [] })

/-- Releases LAST_GOOD and sets it to 0. -/
def dropLastGood (s : State) (n : Fin 1024) : State :=
  match (streamOf s n).ctx with
  | some c => if c.lastGood = 0 then s else modCtx (release s c.lastGood) n (fun x => { x with lastGood := 0, dirty := true })
  | none => s

/-- Releases pre-roll holds, oldest first, until at most `k` are left (R107). -/
def trimPreroll (s : State) (n : Fin 1024) (k : Nat) : State :=
  let l := (streamOf s n).preroll
  let gone := l.take (l.length - k)
  modStream (releaseAll s (gone.map (fun p => p.1))) n (fun x => { x with preroll := x.preroll.drop (l.length - k) })

/-! ## DEC records and errors (R68, R75, R76) -/

/-- What a DEC record says of the access unit. -/
structure DecInfo where
  decoder : Nat := 0xFF
  pos : AuPos := ⟨0, 0, 0⟩
  tag : Nat := 0
  cycles : Nat := 0
  budget : Nat := 0
  detail : Nat := 0
  time : Nat := 0
  concealed : Bool := false

def decRecord (c : Ctx) (n : Fin 1024) (code : Nat) (i : DecInfo) : List Byte :=
  [1, BitVec.ofNat 8 (32 * b2n c.treatedLive + 16 * b2n i.concealed + 8 * b2n c.drift)] ++ bytesOf 2 n.val ++
    bytesOf 4 c.frameSeq.toNat ++ bytesOf 8 i.time ++ bytesOf 1 code ++ bytesOf 1 i.decoder ++ bytesOf 2 i.pos.slice.toNat ++
    bytesOf 4 i.pos.block.toNat ++ bytesOf 4 i.pos.offset.toNat ++ bytesOf 4 i.tag ++ bytesOf 4 i.cycles ++ bytesOf 4 i.budget ++
    bytesOf 1 i.detail ++ List.replicate 23 0

/-- Posts a DEC record to the stream's queue. -/
def postDec (s : State) (n : Fin 1024) (code : Nat) (i : DecInfo) : State :=
  match (streamOf s n).ctx with
  | some c => postRecord (ctlDecMq c.entry) s (decRecord c n code i)
  | none => s

/-- The stream enters ERROR: a DEC record, an error-log entry and the write-back of its fields (R43, R68). -/
def enterError (s : State) (n : Fin 1024) (code : Nat) (i : DecInfo) (plane : Fin 3) (unit : Nat) : State :=
  let s := postDec s n code i
  let seq := match (streamOf s n).ctx with | some c => c.frameSeq.toNat | none => 0
  let s := logIt s plane 0x20 code 3 unit n.val (if code = 10 then i.detail else seq)
  writeBack (modStream (modCtx s n (fun c => { c with error := true })) n (fun x => { x with readyAt := none })) n

/-- An error that arises outside decode (R68). -/
def schedError (s : State) (n : Fin 1024) (code detail : Nat) : State :=
  enterError s n code { detail := detail, time := now s } planeCtrl unitSched

/-! ## Chunk rings (R49, R50) -/

/-- The fields of a chunk entry. Of LEN, whose range the spec gives as 0 to 16,777,215, the low 24 bits count
(DESIGN CHOICE, log entry 174). -/
def parseChunk (bs : List Byte) : Chunk :=
  let f := fieldOf bs 6 1
  { addr := BitVec.ofNat 48 (fieldOf bs 0 6), auEnd := bitOf f 0, eos := bitOf f 1, discont := bitOf f 2,
    poolFree := bitOf f 3, len := fieldOf bs 8 3, tag := BitVec.ofNat 32 (fieldOf bs 12 4), bad := false }

/-- An entry that could not be read: none of its fields is trusted (R50). -/
def unreadChunk (a : Nat) : Chunk :=
  { addr := 0, auEnd := false, eos := false, discont := false, poolFree := false, len := 0, tag := Config.unreadTag a, bad := true }

/-- Address of the chunk entry at a free-running count. -/
def chunkAddr (c : Ctx) (count : Nat) : Nat := ctxRing c.entry + count % 2 ^ ctxRingLog2 c.entry * 16

/-- The chunk entry as its bytes stand, without the effects of a read. -/
def peekChunk (s : State) (c : Ctx) (count : Nat) : Chunk :=
  let a := chunkAddr c count
  if !inMemory s a 16 || (eccCovers s a && (badWords s a 16).any (fun e => e.2 = .poison || e.2 = .double)) then unreadChunk a
  else parseChunk (peek s a 16)

/-- The group of chunks from count `k` on, within `left` entries: none if its end is not there yet. -/
def groupFrom (f : Nat → Chunk) : Nat → Nat → Option (List Chunk)
  | 0, _ => none
  | left + 1, k =>
    let x := f k
    if x.auEnd || x.eos || x.bad then some [x]
    else (groupFrom f left (k + 1)).map (fun l => x :: l)

/-- Entries written and not consumed. -/
def chunksLeft (x : Stream) (c : Ctx) : Nat := min (subW x.prod.toNat c.chunkCons.toNat) (2 ^ ctxRingLog2 c.entry)

/-- The next group of a stream, if it is complete. -/
def nextChunks (s : State) (x : Stream) (c : Ctx) : Option (List Chunk) :=
  groupFrom (peekChunk s c) (chunksLeft x c) c.chunkCons.toNat

/-- The group forms an access unit: it holds bytes, or ends with an entry that could not be read (R50). -/
def formsUnit (g : List Chunk) : Bool := g.any (fun x => x.bad || x.len != 0)

/-- A producer count passes the ring (R51). -/
def overruns (x : Stream) (c : Ctx) : Bool := subW x.prod.toNat c.chunkCons.toNat > 2 ^ ctxRingLog2 c.entry

/-- TIME of the access unit that ends at count `k` (R57). -/
def arrivalTime (x : Stream) (k : Nat) : Nat :=
  match x.arrivals.find? (fun a => subW a.1.toNat k < 2 ^ 31) with
  | some a => a.2.toNat
  | none => 0

/-! ## Readiness (R58) -/

/-- The stream has an access unit or group to take, but for a frame buffer; one with an invalidate queued waits for
it (R47). -/
def readyBut (s : State) (n : Fin 1024) : Bool :=
  let x := streamOf s n
  match x.ctx with
  | some c =>
    ctxEnabled s && ctlValid c.entry && !ctlSuspend c.entry && !x.shedSuspended && !c.error && !x.inDecode &&
      !s.invalidates.any (fun i => i.1 == n) && (nextChunks s x c).isSome
  | none => false

/-- Notes when the stream became ready, or that it is not. -/
def noteReady (s : State) (n : Fin 1024) : State :=
  let r := readyBut s n
  modStream s n (fun x => { x with readyAt := if r then (if x.readyAt.isSome then x.readyAt else some (elapsedW s)) else none })

/-! ## CHUNK_DOORBELL (R51) -/

def chunkDoorbellOff (n : Fin 1024) : Nat := 0x2000 + n.val * 8

/-- A count that is taken over as the stream's producer count. -/
def acceptChunks (s : State) (n : Fin 1024) (p : W32) : State :=
  modStream s n (fun x => { x with prod := p, arrivals := x.arrivals ++ [(p, nowW s)] })

def chunkCount (n : Fin 1024) (p : W32) (s : State) : State :=
  if n.val ≥ ctxCount s then logIt s planeCtrl 0x20 0x22 3 unitSched n.val (knownSeq s n)
  else if !ctxEnabled s then acceptChunks s n p
  else if !newer p.toNat (streamOf s n).prod.toNat then s
  else
    let s := acceptChunks s n p
    match (streamOf s n).ctx with
    | some c => if overruns (streamOf s n) c && !c.error then schedError s n 7 0 else noteReady s n
    | none => s

def chunkBell (n : Fin 1024) (d : DbWrite) (s : State) : State := doorbell (chunkDoorbellOff n) d (chunkCount n d.value) s

def execChunkDoorbell (n : Fin 1024) (d : DbWrite) (s : State) : Host.Outcome State Fault Refusal := .next (chunkBell n d s)

/-! ## CONTEXT_INVALIDATE (R46, R47) -/

/-- VID_CTX_INV_ACK shows the stream and the token. -/
def ackInvalidate (s : State) (n : Fin 1024) (token : BitVec 16) : State :=
  wr (wr s R.VID_CTX_INV_ACK_STREAM 0 n.val) R.VID_CTX_INV_ACK_TOKEN 0 token.toNat

/-- The cached copy is dropped; an entry that could not be read will be read again. -/
def dropCached (s : State) (n : Fin 1024) : State :=
  modStream s n (fun x => { uncache x with unread := false, shapeLogged := false })

/-- A write of the doorbell. With ENABLE = 0 the copy goes at once, even while an access unit of the stream is in decode:
that unit then ends only once the entry has been fetched again (DESIGN CHOICE, log entry 176). -/
def invalidateWrite (v : W32) (s : State) : State :=
  let n : Fin 1024 := Fin.ofNat 1024 (bitsOf v.toNat 0 10)
  let token := BitVec.ofNat 16 (bitsOf v.toNat 16 16)
  if n.val ≥ ctxCount s then ackInvalidate (logIt s planeCtrl 0x20 0x22 3 unitSched n.val (knownSeq s n)) n token
  else if !ctxEnabled s then ackInvalidate (dropCached s n) n token
  else if s.invalidates.length ≥ 64 then
    logIt (bump s R.VID_CTX_INV_STAT_OVERFLOWS 0 1) planeCtrl 0x20 0x21 3 unitSched n.val (knownSeq s n)
  else noteReady { s with invalidates := s.invalidates ++ [(n, token)] } n

def invalidateBell (d : DbWrite) (s : State) : State := doorbell 0x400 d (invalidateWrite d.value) s

def execContextInvalidate (d : DbWrite) (s : State) : Host.Outcome State Fault Refusal := .next (invalidateBell d s)

/-! ## VID_CTX_CFG (R51, R78) -/

/-- A recorded producer count of a stream is acted on: one beyond the ring size puts the stream in ERROR, any other
makes its chunks ready. -/
def actOnCount (s : State) (n : Fin 1024) : State :=
  match (streamOf s n).ctx with
  | some c => if ctxEnabled s && overruns (streamOf s n) c && !c.error then schedError s n 7 0 else noteReady s n
  | none => noteReady s n

/-- A write of VID_CTX_CFG: a COUNT above 1,024 is stored as 1,024. -/
def vidCtxCfgWrite (cfg : Nat) (s : State) : State :=
  let s := wr (wrb s R.VID_CTX_CFG_ENABLE 0 (bitOf cfg 16)) R.VID_CTX_CFG_COUNT 0 (min (bitsOf cfg 0 11) 1024)
  (s.streams.map (fun e => (Fin.ofNat 1024 e.1 : Fin 1024))).foldl actOnCount s

/-- VID_CTX_ENABLE: recorded counts are acted on from now on. -/
def execVidCtxEnable (cfg : BitVec 32) (s : State) : Host.Outcome State Fault Refusal :=
  .next (if planesRun s then vidCtxCfgWrite cfg.toNat s else s)

/-! ## CONTEXT_FETCH (R45, R48, R64, R68) -/

/-- FRAME_POOL is enabled and counts holds (R285). -/
def framePoolOk (s : State) (e : BitVec 2048) : Bool := poolEn s (ctlFramePool e) && poolHolds s (ctlFramePool e)

/-- The ranges of R42. -/
def ctxRangesOk (e : BitVec 2048) : Bool :=
  64 ≤ ctxMaxW e && ctxMaxW e ≤ 8192 && 64 ≤ ctxMaxH e && ctxMaxH e ≤ 4352 && 4 ≤ ctxRingLog2 e && ctxRingLog2 e ≤ 16

/-- A stream seen for the first time since a close starts in RESYNC; one whose format changed does too, with its
reference frames and LAST_GOOD released. -/
def openStream (s : State) (n : Fin 1024) (e : BitVec 2048) : State :=
  let f := ctxFormat e
  match (streamOf s n).fmt with
  | none => modCtx (modStream s n (fun x => { x with fmt := some f, allChanged := true, skipReported := false, resyncDue := false }))
      n (fun c => { c with resync := true, dirty := true })
  | some g =>
    if f = g then s
    else
      let s := dropLastGood (dropRefs s n) n
      modCtx (modStream s n (fun x => { x with fmt := some f, allChanged := true, skipReported := false })) n
        (fun c => { c with resync := true, dirty := true })

/-- The checks on a valid entry (R51, R68). -/
def checkCtx (s : State) (n : Fin 1024) (c : Ctx) : State :=
  if c.error then s
  else if !framePoolOk s c.entry then schedError s n 10 8
  else if !ctxRangesOk c.entry then schedError s n 10 9
  else if overruns (streamOf s n) c then schedError s n 7 0
  else noteReady s n

/-- The entry is in the cache. It counts as dispatched at its fetch in the order of eviction, and an entry whose access unit
is in decode is not evicted (DESIGN CHOICE, log entry 175). -/
def cacheCtx (s : State) (n : Fin 1024) (e : BitVec 2048) : State :=
  let s := modStream (hiddenWrite s (.ctx n)) n (fun x =>
    { x with ctx := some (restoreFields { ctxOfEntry e with lastDispatch := s.order } x.unsaved), unsaved := none })
  if !ctlValid e then s
  else
    let s := decideLive (openStream { s with order := s.order + 1 } n e) n
    match (streamOf s n).ctx with
    | some c => checkCtx s n c
    | none => s

/-- Room for one more entry. -/
def makeRoom (s : State) : Option State :=
  if (cachedStreams s).length < 512 then some s
  else (evictable s).map (fun v => modStream s v uncache)

def contextFetch (n : Fin 1024) (s : State) : State :=
  let x := streamOf s n
  if !ctxEnabled s || !serving s || n.val ≥ ctxCount s || x.ctx.isSome || x.unread then s
  else
    match makeRoom s with
    | none => s
    | some s =>
      let r := readCtx s n
      if r.detail ≠ 0 then ctxUnreadable r.s n r.detail
      else cacheCtx r.s n (entryOfBytes r.bytes)

def execContextFetch (n : Fin 1024) (s : State) : Host.Outcome State Fault Refusal := .next (contextFetch n s)

/-! ## Offers to the shapers (R80, R81) -/

/-- A frame that SH_CTL selects is offered, with a hold. -/
def offerFrame (s : State) (n : Fin 1024) (c : Ctx) (a : Addr) : State :=
  if bitOf (ctxShCtl c.entry) 0 && c.frameSeq.toNat % (ctxEvery c.entry + 1) == 0 then
    shedOffers { hold s a with offers := (hold s a).offers ++ [{ stream := n, frame := a, seq := c.frameSeq, at_ := elapsedW s }] }
  else s

/-- Adds the pre-roll hold of a frame. -/
def prerollFrame (s : State) (n : Fin 1024) (c : Ctx) (a : Addr) : State :=
  if ctxPreroll c.entry = 0 then s
  else modStream (hold s a) n (fun x => { x with preroll := x.preroll ++ [(a, c.frameSeq)] })

/-! ## Frame headers (R55) -/

/-- A frame header as it is read. -/
structure FrameHdr where
  stream : Nat
  flags : Nat
  seq : Nat
  time : Nat
  tag : Nat
  width : Nat
  height : Nat
  pitch : Nat
  chroma : Nat
  map : Nat
  mapStride : Nat
  deriving DecidableEq, Repr

def parseFrame (bs : List Byte) : FrameHdr :=
  { stream := bitsOf (fieldOf bs 0 2) 0 10, flags := fieldOf bs 2 1, seq := fieldOf bs 4 4, time := fieldOf bs 8 8, tag := fieldOf bs 16 4,
    width := fieldOf bs 20 2, height := fieldOf bs 22 2, pitch := fieldOf bs 24 4, chroma := fieldOf bs 28 4,
    map := fieldOf bs 32 4, mapStride := fieldOf bs 36 2 }

def roundUp (x m : Nat) : Nat := ceilDiv x m * m

/-- The geometry of a frame of a size, in NV12 or P010. -/
def frameGeometry (p010 : Bool) (w h : Nat) : FrameHdr :=
  let pitch := roundUp (if p010 then 2 * w else w) 256
  let luma := pitch * roundUp h 16
  { stream := 0, flags := 0, seq := 0, time := 0, tag := 0, width := w, height := h, pitch := pitch, chroma := 256 + luma,
    map := 256 + luma + luma / 2, mapStride := roundUp (ceilDiv w 16) 64 }

/-- Bytes of the whole frame in its buffer. -/
def frameBytes (g : FrameHdr) : Nat := g.map + g.mapStride * ceilDiv g.height 16

/-- The 256 bytes of the header, but for byte 3, which is the BPM's (R285). -/
def writeHeader (s : State) (req : Nat) (a : Addr) (h : FrameHdr) : State :=
  let s := memWrite s req a.toNat (bytesOf 2 h.stream ++ bytesOf 1 h.flags) false
  memWrite s req (a.toNat + 4)
    (bytesOf 4 h.seq ++ bytesOf 8 h.time ++ bytesOf 4 h.tag ++ bytesOf 2 h.width ++ bytesOf 2 h.height ++ bytesOf 4 h.pitch ++
      bytesOf 4 h.chroma ++ bytesOf 4 h.map ++ bytesOf 2 h.mapStride ++ List.replicate 218 0) false

end Sys2Proof.Machine
end

