-- ==== Sys2Proof/Machine/Picture.lean ====
section
/-! DEFINITION. Crops of a picture as shapers and encoders read them: source positions, interpolation and 8-bit rounding
(R54, R55, R83, R85, R111). -/

namespace Sys2Proof.Machine

/-- How a crop of a picture is turned, scaled and shaped (R83); the encoders use the geometry alone (R108, R111). -/
structure ShCfg where
  rot : Nat
  mirror : Bool
  filter : Nat
  csc : Nat
  fold : Nat
  c16 : Bool
  bgr : Bool
  concealCorrupt : Bool
  cluster : Fin 4
  cls : Fin 4
  cropX : Nat
  cropY : Nat
  cropW : Nat
  cropH : Nat
  outW : Nat
  outH : Nat
  /-- MUL and ADD in the order R, G, B. -/
  mul : List Int
  add : List Int
  deriving DecidableEq, Repr

/-! ## Source positions (R85) -/

/-- A crop of a picture as it is read: parameters, crop size after the selection of 0, and the frame. -/
structure Shot where
  p : ShCfg
  cw : Nat
  ch : Nat
  h : FrameHdr
  frame : Nat
  deriving DecidableEq, Repr

def shotOf (p : ShCfg) (h : FrameHdr) (frame : Nat) : Shot :=
  { p := p, cw := if p.cropW = 0 then h.width else p.cropW, ch := if p.cropH = 0 then h.height else p.cropH, h := h, frame := frame }

def turned (p : ShCfg) : Bool := p.rot == 1 || p.rot == 3
def Shot.rw (x : Shot) : Nat := if turned x.p then x.ch else x.cw
def Shot.rh (x : Shot) : Nat := if turned x.p then x.cw else x.ch

/-- 16.16 position of output coordinate `o` on an axis of `r` source and `n` output pixels. -/
def axisPos (r n o : Nat) : Nat := min ((2 * o + 1) * r * 32768 / n - 32768) ((r - 1) * 65536)

/-- The picture position that fetch(u, v) reads. -/
def Shot.place (x : Shot) (u v : Nat) : Nat × Nat :=
  let u : Int := if x.p.mirror then x.rw - 1 - (u : Int) else u
  let (a, b) : Int × Int := match x.p.rot with
    | 0 => (x.p.cropX + u, x.p.cropY + v)
    | 1 => (x.p.cropX + v, x.p.cropY + x.ch - 1 - u)
    | 2 => (x.p.cropX + x.cw - 1 - u, x.p.cropY + x.ch - 1 - v)
    | _ => (x.p.cropX + x.cw - 1 - v, x.p.cropY + u)
  (min a.toNat (x.h.width - 1), min b.toNat (x.h.height - 1))

/-! ## Samples of the picture (R54, R55) -/

def framep010 (h : FrameHdr) : Bool := bitOf h.flags 4

/-- Address of a sample: plane 0 Y, 1 Cb, 2 Cr, at picture position (x, y). -/
def Shot.sampleAddr (t : Shot) (plane x y : Nat) : Nat :=
  let w := if framep010 t.h then 2 else 1
  if plane = 0 then t.frame + 256 + y * t.h.pitch + x * w
  else t.frame + t.h.chroma + y / 2 * t.h.pitch + x / 2 * 2 * w + (plane - 1) * w

/-- A sample as a 10-bit value. -/
def Shot.sample (t : Shot) (s : State) (plane x y : Nat) : Nat :=
  if framep010 t.h then natOfBytes (peek s (t.sampleAddr plane x y) 2) / 64
  else natOfBytes (peek s (t.sampleAddr plane x y) 1) * 4

/-- Division by 2^k, rounded half to even (R2). -/
def rneInt (x : Int) (k : Nat) : Int := if x < 0 then -(rneShift x.natAbs k : Int) else rneShift x.natAbs k

/-- The four taps of an output position on one axis: near index, far index and the fraction; nearest has one index. -/
def axisTaps (filter r n o : Nat) : Nat × Nat × Nat :=
  let p := axisPos r n o
  let i := p / 65536
  let f := p / 256 % 256
  if filter = 1 then let k := min (i + b2n (f ≥ 128)) (r - 1); (k, k, 0) else (i, min (i + 1) (r - 1), f)

/-- The positions that output pixel (ox, oy) reads with their weights out of 65,536. -/
def Shot.taps (t : Shot) (ox oy : Nat) : List ((Nat × Nat) × Nat) :=
  let (u0, u1, fu) := axisTaps t.p.filter t.rw t.p.outW ox
  let (v0, v1, fv) := axisTaps t.p.filter t.rh t.p.outH oy
  if t.p.filter = 1 then [(t.place u0 v0, 65536)]
  else
    [(t.place u0 v0, (256 - fu) * (256 - fv)), (t.place u1 v0, fu * (256 - fv)), (t.place u0 v1, (256 - fu) * fv),
     (t.place u1 v1, fu * fv)]

/-- A component of output pixel (ox, oy). -/
def Shot.comp (t : Shot) (s : State) (ox oy plane : Nat) : Int :=
  rneInt ((t.taps ox oy).foldl (fun a e => a + (t.sample s plane e.1.1 e.1.2 * e.2 : Nat)) (0 : Int)) 16

/-- The 64 B lines that the pixels lie in, in the order of their use, with repetitions. -/
def Shot.pixelLines (t : Shot) : List Nat :=
  (List.range t.p.outH).flatMap (fun oy => (List.range t.p.outW).flatMap (fun ox =>
    (t.taps ox oy).flatMap (fun e => (List.range 3).map (fun p => t.sampleAddr p e.1.1 e.1.2 / 64))))

/-- The distinct luma pixels that a crop reads. -/
def Shot.luma (t : Shot) : List (Nat × Nat) :=
  ((List.range t.p.outH).flatMap (fun oy => (List.range t.p.outW).flatMap (fun ox => (t.taps ox oy).map (fun e => e.1)))).eraseDups

/-- A 10-bit value in 8 bits: v10 / 4 with ties to even, capped at 255 (R54). -/
def to8 (v : Nat) : Nat := min 255 (v / 4 + b2n (v % 4 > 2 || (v % 4 == 2 && v / 4 % 2 == 1)))

end Sys2Proof.Machine
end

