-- ==== Sys2Proof/Machine/Jpeg.lean ====
section
/-! DEFINITION. The JFIF file of a thumbnail but for its entropy-coded data (R112, R113). The example tables of T.81 Annex K
are the standard's, which the manual names and does not print (PRESUMED, log entry 166). -/

namespace Sys2Proof.Machine

/-! ## Quantisation tables (R113) -/

/-- The example luminance table of T.81 Annex K, in raster order. -/
def quantLuma : List Nat :=
  [16, 11, 10, 16, 24, 40, 51, 61,
   12, 12, 14, 19, 26, 58, 60, 55,
   14, 13, 16, 24, 40, 57, 69, 56,
   14, 17, 22, 29, 51, 87, 80, 62,
   18, 22, 37, 56, 68, 109, 103, 77,
   24, 35, 55, 64, 81, 104, 113, 92,
   49, 64, 78, 87, 103, 121, 120, 101,
   72, 92, 95, 98, 112, 100, 103, 99]

/-- The example chrominance table of T.81 Annex K, in raster order. -/
def quantChroma : List Nat :=
  [17, 18, 24, 47, 99, 99, 99, 99,
   18, 21, 26, 66, 99, 99, 99, 99,
   24, 26, 56, 99, 99, 99, 99, 99,
   47, 66, 99, 99, 99, 99, 99, 99] ++ List.replicate 32 99

/-- The scale of a quality. -/
def jpegScale (q : Nat) : Nat := if q < 50 then 5000 / q else 200 - 2 * q

/-- A table entry at a quality. -/
def quantEntry (q base : Nat) : Nat := min (max ((base * jpegScale q + 50) / 100) 1) 255

/-- Raster index of each zigzag position: the diagonals x + y = 0, 1, … in turn, odd ones downwards. -/
def zigzag : List Nat :=
  (List.range 15).flatMap (fun d =>
    let l := (List.range 8).filterMap (fun y => if y ≤ d ∧ d - y < 8 then some (8 * y + (d - y)) else none)
    if d % 2 = 1 then l else l.reverse)

/-- A table's bytes in a DQT segment. -/
def quantBytes (q : Nat) (base : List Nat) : List Byte := zigzag.map (fun i => BitVec.ofNat 8 (quantEntry q (base.getD i 0)))

/-! ## Huffman tables: the counts of the code lengths 1 to 16, then the values -/

def dcLuma : List Byte := [0, 1, 5, 1, 1, 1, 1, 1, 1, 0, 0, 0, 0, 0, 0, 0] ++ (List.range 12).map (fun i => BitVec.ofNat 8 i)
def dcChroma : List Byte := [0, 3, 1, 1, 1, 1, 1, 1, 1, 1, 1, 0, 0, 0, 0, 0] ++ (List.range 12).map (fun i => BitVec.ofNat 8 i)

def acLuma : List Byte :=
  [0, 2, 1, 3, 3, 2, 4, 3, 5, 5, 4, 4, 0, 0, 1, 0x7D] ++
    [0x01, 0x02, 0x03, 0x00, 0x04, 0x11, 0x05, 0x12, 0x21, 0x31, 0x41, 0x06, 0x13, 0x51, 0x61, 0x07, 0x22, 0x71,
     0x14, 0x32, 0x81, 0x91, 0xA1, 0x08, 0x23, 0x42, 0xB1, 0xC1, 0x15, 0x52, 0xD1, 0xF0, 0x24, 0x33, 0x62, 0x72,
     0x82, 0x09, 0x0A, 0x16, 0x17, 0x18, 0x19, 0x1A, 0x25, 0x26, 0x27, 0x28, 0x29, 0x2A, 0x34, 0x35, 0x36, 0x37] ++
    [0x38, 0x39, 0x3A, 0x43, 0x44, 0x45, 0x46, 0x47, 0x48, 0x49, 0x4A, 0x53, 0x54, 0x55, 0x56, 0x57, 0x58, 0x59,
     0x5A, 0x63, 0x64, 0x65, 0x66, 0x67, 0x68, 0x69, 0x6A, 0x73, 0x74, 0x75, 0x76, 0x77, 0x78, 0x79, 0x7A, 0x83,
     0x84, 0x85, 0x86, 0x87, 0x88, 0x89, 0x8A, 0x92, 0x93, 0x94, 0x95, 0x96, 0x97, 0x98, 0x99, 0x9A, 0xA2, 0xA3] ++
    [0xA4, 0xA5, 0xA6, 0xA7, 0xA8, 0xA9, 0xAA, 0xB2, 0xB3, 0xB4, 0xB5, 0xB6, 0xB7, 0xB8, 0xB9, 0xBA, 0xC2, 0xC3,
     0xC4, 0xC5, 0xC6, 0xC7, 0xC8, 0xC9, 0xCA, 0xD2, 0xD3, 0xD4, 0xD5, 0xD6, 0xD7, 0xD8, 0xD9, 0xDA, 0xE1, 0xE2,
     0xE3, 0xE4, 0xE5, 0xE6, 0xE7, 0xE8, 0xE9, 0xEA, 0xF1, 0xF2, 0xF3, 0xF4, 0xF5, 0xF6, 0xF7, 0xF8, 0xF9, 0xFA]

def acChroma : List Byte :=
  [0, 2, 1, 2, 4, 4, 3, 4, 7, 5, 4, 4, 0, 1, 2, 0x77] ++
    [0x00, 0x01, 0x02, 0x03, 0x11, 0x04, 0x05, 0x21, 0x31, 0x06, 0x12, 0x41, 0x51, 0x07, 0x61, 0x71, 0x13, 0x22,
     0x32, 0x81, 0x08, 0x14, 0x42, 0x91, 0xA1, 0xB1, 0xC1, 0x09, 0x23, 0x33, 0x52, 0xF0, 0x15, 0x62, 0x72, 0xD1,
     0x0A, 0x16, 0x24, 0x34, 0xE1, 0x25, 0xF1, 0x17, 0x18, 0x19, 0x1A, 0x26, 0x27, 0x28, 0x29, 0x2A, 0x35, 0x36] ++
    [0x37, 0x38, 0x39, 0x3A, 0x43, 0x44, 0x45, 0x46, 0x47, 0x48, 0x49, 0x4A, 0x53, 0x54, 0x55, 0x56, 0x57, 0x58,
     0x59, 0x5A, 0x63, 0x64, 0x65, 0x66, 0x67, 0x68, 0x69, 0x6A, 0x73, 0x74, 0x75, 0x76, 0x77, 0x78, 0x79, 0x7A,
     0x82, 0x83, 0x84, 0x85, 0x86, 0x87, 0x88, 0x89, 0x8A, 0x92, 0x93, 0x94, 0x95, 0x96, 0x97, 0x98, 0x99, 0x9A] ++
    [0xA2, 0xA3, 0xA4, 0xA5, 0xA6, 0xA7, 0xA8, 0xA9, 0xAA, 0xB2, 0xB3, 0xB4, 0xB5, 0xB6, 0xB7, 0xB8, 0xB9, 0xBA,
     0xC2, 0xC3, 0xC4, 0xC5, 0xC6, 0xC7, 0xC8, 0xC9, 0xCA, 0xD2, 0xD3, 0xD4, 0xD5, 0xD6, 0xD7, 0xD8, 0xD9, 0xDA,
     0xE2, 0xE3, 0xE4, 0xE5, 0xE6, 0xE7, 0xE8, 0xE9, 0xEA, 0xF2, 0xF3, 0xF4, 0xF5, 0xF6, 0xF7, 0xF8, 0xF9, 0xFA]

/-! ## Segments -/

/-- A number of two bytes, high byte first, as T.81 has them. -/
def be2 (v : Nat) : List Byte := [BitVec.ofNat 8 (v / 256), BitVec.ofNat 8 v]

/-- A marker segment: its length counts itself and its contents. -/
def segment (marker : Byte) (body : List Byte) : List Byte := [0xFF, marker] ++ be2 (body.length + 2) ++ body

/-- APP0 of JFIF 1.01, with density 1 by 1 and no thumbnail of its own. -/
def jfifApp0 : List Byte := segment 0xE0 [0x4A, 0x46, 0x49, 0x46, 0, 1, 1, 0, 0, 1, 0, 1, 0, 0]

/-- SOF0: baseline, 8 bits, three components in 4:2:0. -/
def jpegFrame (w h : Nat) : List Byte :=
  segment 0xC0 ([8] ++ be2 h ++ be2 w ++ [3, 1, 0x22, 0, 2, 0x11, 1, 3, 0x11, 1])

/-- SOS of one interleaved scan. -/
def jpegScan : List Byte := segment 0xDA [3, 1, 0, 2, 0x11, 3, 0x11, 0, 63, 0]

/-- A JFIF file at quality `q` around entropy-coded data, without restart markers (the order of its segments: log entry
166). -/
def jfifFile (q w h : Nat) (data : List Byte) : List Byte :=
  [0xFF, 0xD8] ++ jfifApp0 ++ segment 0xDB ([0] ++ quantBytes q quantLuma) ++ segment 0xDB ([1] ++ quantBytes q quantChroma) ++
    jpegFrame w h ++ segment 0xC4 ([0x00] ++ dcLuma) ++ segment 0xC4 ([0x10] ++ acLuma) ++ segment 0xC4 ([0x01] ++ dcChroma) ++
    segment 0xC4 ([0x11] ++ acChroma) ++ jpegScan ++ data ++ [0xFF, 0xD9]

end Sys2Proof.Machine
end

