-- ==== Sys2Proof/Machine/Encoder.lean ====
section
/-! DEFINITION. Encode requests, encoders and CLIP records (R107 to R120). -/

namespace Sys2Proof.Machine

/-! ## The fields a request copies (R108): bytes 0xC0 to 0xDF of the context entry -/

def encField (v : BitVec 256) (at_ n : Nat) : Nat := bitsOf v.toNat (8 * at_) (8 * n)
def encCodec (v : BitVec 256) : Nat := bitsOf v.toNat 0 1
def encPool (v : BitVec 256) : Fin 8 := Fin.ofNat 8 (bitsOf v.toNat 1 3)
def encRot (v : BitVec 256) : Nat := bitsOf v.toNat 4 2
def encMirror (v : BitVec 256) : Bool := bitOf v.toNat 6
def encGop (v : BitVec 256) : Nat := encField v 2 1
def encJpegQ (v : BitVec 256) : Nat := let q := encField v 3 1; if q = 0 then 75 else q
def encCropX (v : BitVec 256) : Nat := encField v 4 2
def encCropY (v : BitVec 256) : Nat := encField v 6 2
def encCropW (v : BitVec 256) : Nat := encField v 8 2
def encCropH (v : BitVec 256) : Nat := encField v 10 2
def encCqQp (v : BitVec 256) : Nat := let q := encField v 0x15 1; if q = 0 then 28 else q
def encQpInit (v : BitVec 256) : Nat := let q := encField v 0x14 1; if q = 0 then encCqQp v else q
def encQpMin (v : BitVec 256) : Nat := encField v 0x16 1
def encQpMax (v : BitVec 256) : Nat := let q := encField v 0x17 1; if q = 0 then 51 else q
def encCap (v : BitVec 256) : Nat := encField v 0x18 4
def encWindow (v : BitVec 256) : Nat := let w := encField v 0x1C 2; if w = 0 then 1000 else w
def encMq (v : BitVec 256) : Fin 16 := Fin.ofNat 16 (bitsOf (encField v 0x1E 1) 0 4)

/-- Output width and height asked for; 0 selects the rotated crop size. -/
def encOut (v : BitVec 256) (thumb : Bool) : Nat × Nat :=
  if thumb then (encField v 0x10 2, encField v 0x12 2) else (encField v 0x0C 2, encField v 0x0E 2)

def inRange (x lo hi : Nat) : Bool := lo ≤ x && x ≤ hi
def zeroOr (x : Nat) (b : Bool) : Bool := x == 0 || b

/-- An axis is scaled by at most 4 upwards and 16 downwards; a size that is not known yet is not tested. -/
def scaleOk (src out : Nat) : Bool := src == 0 || out == 0 || (out ≤ 4 * src && src ≤ 16 * out)

/-- The ranges of R108, and the scale factors of the output asked for where the fields give the crop's size. R108 gives QP_MIN
and QP_MAX no range: a value above 51 is refused, and QP_MIN above QP_MAX is not (DESIGN CHOICE, log entry 240). -/
def encFieldsOk (v : BitVec 256) (thumb : Bool) : Bool :=
  let (cw, ch) := (encCropW v, encCropH v)
  let (rw, rh) := if encRot v = 1 ∨ encRot v = 3 then (ch, cw) else (cw, ch)
  let out := encOut v false
  let th := encOut v true
  let evenIn := fun x lo => zeroOr x (x % 2 == 0 && inRange x lo 4096)
  zeroOr cw (inRange cw 16 8192) && zeroOr ch (inRange ch 16 8192) && evenIn out.1 64 && evenIn out.2 64 &&
    evenIn th.1 16 && evenIn th.2 16 && encField v 3 1 ≤ 100 && encField v 0x14 1 ≤ 51 && encField v 0x15 1 ≤ 51 &&
    encField v 0x16 1 ≤ 51 && encField v 0x17 1 ≤ 51 && bitsOf (encField v 0x1E 1) 4 4 == 0 &&
    scaleOk rw (encOut v thumb).1 && scaleOk rh (encOut v thumb).2

/-! ## Ending a request (R110, R117 to R119) -/

/-- Payload bytes of an output buffer. -/
def encCapacity (s : State) (r : EncReq) : Nat := poolSize s (encPool r.cfg) - 64

/-- Output buffers that the payload fills, in whole or part. -/
def usedBuffers (s : State) (r : EncReq) : Nat := ceilDiv r.bytes (encCapacity s r)

/-- A field that speaks of a last encoded frame; with no frame encoded it is free. -/
def lastField (r : EncReq) (draw at_ v : Nat) : Nat := if r.encoded = 0 then Config.clipField draw at_ else v

/-- The CLIP record (R119): LIVE if some frame was taken as a live one (DEDUCED, log entry 187). -/
def clipRecord (s : State) (r : EncReq) (status : Nat) : List Byte :=
  let n := usedBuffers s r
  let d := s.freeCtr
  [2, BitVec.ofNat 8 (32 * b2n r.servedLive + 16 * b2n (r.concealed != 0))] ++ bytesOf 2 r.stream.val ++ bytesOf 4 r.first.toNat ++
    bytesOf 8 (now s) ++ bytesOf 4 r.tag.toNat ++ bytesOf 1 status ++ bytesOf 1 (if r.thumb then 2 else encCodec r.cfg) ++
    bytesOf 2 n ++ bytesOf 8 (if n = 0 then 0 else (r.buffers.headD 0).toNat) ++ bytesOf 4 r.bytes ++ bytesOf 2 r.encoded ++
    bytesOf 2 (r.count - r.encoded) ++ bytesOf 2 r.concealed ++
    bytesOf 1 (if r.thumb then Config.clipField d 42 else lastField r d 42 r.qpLast) ++ bytesOf 1 0 ++
    bytesOf 4 (lastField r d 44 r.lastSeq.toNat) ++ bytesOf 8 (lastField r d 48 r.timeFirst.toNat) ++
    bytesOf 8 (lastField r d 56 r.timeLast.toNat)

/-- Returns output buffers beyond those the payload fills. -/
def freeUnused (s : State) (r : EncReq) : State :=
  (r.buffers.drop (usedBuffers s r)).foldl (fun s a => bpmOp s .free a.toNat) s

def dropReq (s : State) (id : Nat) : State := { s with encReqs := s.encReqs.filter (fun r => r.id != id) }

/-- A request ends: its holds are released and its CLIP record is posted. -/
def endRequest (s : State) (r : EncReq) (status : Nat) : State :=
  let s := dropReq (freeUnused (releaseAll s (r.frames.map (fun f => f.frame))) r) r.id
  postRecord (encMq r.cfg) { s with freeCtr := s.freeCtr + 1 } (clipRecord s r status)

/-- The stream's sequence numbers have passed the request's range. -/
def rangePassed (r : EncReq) : Bool := let d := subW r.next.toNat r.first.toNat; r.count ≤ d && d < 2 ^ 31

/-- A request with nothing left to encode and nothing to wait for ends. -/
def checkRequest (s : State) (r : EncReq) : State :=
  if !r.frames.isEmpty || r.busy then s
  else if rangePassed r then endRequest s r (if r.encoded = r.count then 0 else 1)
  else if r.streamClosed then endRequest s r 4
  else s

def modReq (s : State) (id : Nat) (f : EncReq → EncReq) : State :=
  { s with encReqs := s.encReqs.map (fun r => if r.id = id then f r else r) }

def reqOf (s : State) (id : Nat) : Option EncReq := s.encReqs.find? (fun r => r.id == id)

def checkId (s : State) (id : Nat) : State := match reqOf s id with | some r => checkRequest s r | none => s

/-! ## What a frame and a frame boundary of a stream do to its requests (R110) -/

/-- A sequence number lies in the request's range. -/
def wants (r : EncReq) (n : Fin 1024) (seq : W32) : Bool :=
  r.stream == n && !r.streamClosed && subW seq.toNat r.first.toNat < r.count

/-- The frame joins a request, with an encoder hold. -/
def giveFrame (a : Addr) (seq : W32) (s : State) (r : EncReq) : State :=
  modReq (hold s a) r.id (fun r => { r with
    frames := r.frames ++ [{ seq := seq, frame := a }], lastArrival := elapsedW s,
    readyAt := if r.frames.isEmpty && !r.busy then elapsedW s else r.readyAt })

/-- A frame of the stream is written. -/
def encFrame (s : State) (n : Fin 1024) (a : Addr) (seq : W32) : State :=
  (s.encReqs.filter (fun r => wants r n seq)).foldl (giveFrame a seq) s

/-- The stream's next sequence number is `seq`. -/
def encBoundary (s : State) (n : Fin 1024) (seq : W32) : State :=
  let s := { s with encReqs := s.encReqs.map (fun (r : EncReq) => if r.stream = n ∧ !r.streamClosed then { r with next := seq } else r) }
  ((s.encReqs.filter (fun (r : EncReq) => r.stream == n)).map (fun (r : EncReq) => r.id)).foldl checkId s

/-- The stream closes. -/
def encClose (s : State) (n : Fin 1024) : State :=
  let s := { s with encReqs := s.encReqs.map (fun (r : EncReq) => if r.stream = n then { r with streamClosed := true } else r) }
  ((s.encReqs.filter (fun (r : EncReq) => r.stream == n)).map (fun (r : EncReq) => r.id)).foldl checkId s

/-! ## Accepting requests (R109, R110) -/

/-- VE_REQ_PROD. -/
def execVeReqProd (prod : BitVec 32) (s : State) : Host.Outcome State Fault Refusal := .next (if planesRun s then wr s R.VE_REQ_PROD 0 prod.toNat else s)

/-- A request from its 32 bytes and the context entry it names. -/
def parseReq (s : State) (bs : List Byte) (e : BitVec 2048) : EncReq :=
  let flags := fieldOf bs 6 1
  let thumb := bitOf flags 0
  let cfg : BitVec 256 := e.extractLsb' (8 * 0xC0) 256
  { id := s.order, tag := BitVec.ofNat 32 (fieldOf bs 0 4), stream := Fin.ofNat 1024 (fieldOf bs 4 2), thumb := thumb,
    liveFlag := bitOf flags 1, servedLive := false, first := BitVec.ofNat 32 (fieldOf bs 8 4), count := if thumb then 1 else fieldOf bs 12 4,
    waitMs := (let w := fieldOf bs 16 4; if w = 0 then 10000 else w), cfg := cfg, lastArrival := elapsedW s,
    frames := [], next := BitVec.ofNat 32 (entryField e 0x60 4), encoded := 0, concealed := 0, fill := 0, qp := encQpInit cfg,
    qpLast := 0, lastSeq := 0, timeFirst := 0, timeLast := 0, bytes := 0, buffers := [], readyAt := elapsedW s,
    streamClosed := false, busy := false }

/-- The context entry of a stream, for an encoder's request or a shaper: the cached one with its own fields, or the entry in
DRAM, which is then not cached (DESIGN CHOICE, log entry 223). A cached copy that reads as poison cannot be read. -/
def encEntry (s : State) (n : Fin 1024) : CtxRead :=
  let q := ctxCopyRead s n
  if q.2 then ⟨q.1, [], 5⟩
  else
    match (streamOf q.1 n).ctx with
    | some c => ⟨q.1, putBytes (bytesOf 256 c.entry.toNat) 0x40 (deviceFields c), 0⟩
    | none => if n.val < ctxCount q.1 then readCtx q.1 n else ⟨q.1, [], 10⟩

/-- The ranges of R109 and R285. -/
def reqOk (s : State) (r : EncReq) : Bool :=
  1 ≤ r.count && r.count ≤ 65535 && encFieldsOk r.cfg r.thumb && !poolHolds s (encPool r.cfg)

/-- A request takes holds on the frames of its range that pre-roll still holds. -/
def takePreroll (s : State) (r : EncReq) : State :=
  ((streamOf s r.stream).preroll.filter (fun p => wants r r.stream p.2)).foldl
    (fun s p => match reqOf s r.id with | some r => giveFrame p.1 p.2 s r | none => s) s

/-- What becomes of a request that has been read. -/
def startRequest (s : State) (r : EncReq) (detail : Nat) (valid : Bool) : State :=
  let s := { s with order := s.order + 1 }
  if stage s ≥ 1 then endRequest s r 2
  else if detail = 5 then endRequest s r 6
  else if !valid then endRequest s r 4
  else if !reqOk s r then endRequest s r 6
  else checkId (takePreroll { s with encReqs := s.encReqs ++ [r] } r) r.id

/-- ENCODE_REQUEST_ACCEPT. -/
def requestAccept (s : State) : State :=
  let cons := rd s R.VE_REQ_CONS 0
  if !serving s || !rdb s R.VE_REQ_EN 0 || rd s R.VE_REQ_PROD 0 = cons || s.encReqs.length ≥ 64 then s
  else
    let q := memRead s reqDma (rd s R.VE_REQ_BASE 0 * 32 + cons % 2 ^ rd s R.VE_REQ_LOG2 0 * 32) 32
    let s := bump q.s R.VE_REQ_CONS 0 1
    if q.poison then s
    else
      let n : Fin 1024 := Fin.ofNat 1024 (fieldOf q.bytes 4 2)
      let c := encEntry s n
      let e := entryOfBytes c.bytes
      let r := parseReq c.s q.bytes e
      startRequest c.s r c.detail (c.detail = 0 && ctlValid e)

def execEncodeRequestAccept (s : State) : Host.Outcome State Fault Refusal := .next (requestAccept s)

/-! ## Scheduling (R115) -/

def hasFrame (r : EncReq) : Bool := !r.frames.isEmpty && !r.busy

/-- A request is live by its flag or by its stream's LIVE bit. -/
def reqLive (s : State) (r : EncReq) : Bool := r.liveFlag || isLive (streamOf s r.stream)

/-- The request an idle encoder serves: the oldest live one with a frame ready, else the oldest other. -/
def nextRequest (s : State) : Option EncReq :=
  s.encReqs.find? (fun r => hasFrame r && reqLive s r) <|> s.encReqs.find? hasFrame

/-- The encoder's geometry as a crop: bilinear, at the size asked for or the rotated crop's (R108, R111). -/
def encShot (r : EncReq) (h : FrameHdr) (frame : Nat) : Shot :=
  let base : ShCfg := { rot := encRot r.cfg, mirror := encMirror r.cfg, filter := 0, csc := 0, fold := 0, c16 := false, bgr := false,
                        concealCorrupt := false, cluster := 0, cls := 0, cropX := encCropX r.cfg, cropY := encCropY r.cfg,
                        cropW := encCropW r.cfg, cropH := encCropH r.cfg, outW := 0, outH := 0, mul := [], add := [] }
  let t := shotOf base h frame
  let o := encOut r.cfg r.thumb
  { t with p := { base with outW := if o.1 = 0 then t.rw else o.1, outH := if o.2 = 0 then t.rh else o.2 } }

/-- The scale factors in a picture whose size is known. -/
def encScaleOk (t : Shot) : Bool := scaleOk t.rw t.p.outW && scaleOk t.rh t.p.outH

/-- The request's next frame goes to encoder `k`. -/
def takeFrame (s : State) (k : Fin 4) (r : EncReq) (f : EncFrame) (rest : List EncFrame) : State :=
  let live := reqLive s r
  let s := if live then raiseTo s R.VE_LIVE_WAIT_MAX 0 (vCycles (elapsed s - r.readyAt.toNat)) else s
  let s := modReq s r.id (fun x => { x with frames := rest, busy := true, servedLive := x.servedLive || live })
  { s with ves := s.ves.set k (some { req := r.id, stream := r.stream, live := live, frame := f, startAt := elapsedW s, coded := none }),
           veWait := s.veWait.set k none }

/-- ENCODE_FRAME_START: an idle encoder takes a frame. -/
def frameStart (k : Fin 4) (s : State) : State :=
  if !serving s || !veUsable s k || !rdb s R.VE_CTL_EN k.val || s.ves[k].isSome || stage s ≥ 1 then s
  else
    match nextRequest s with
    | none => s
    | some r =>
      match r.frames with
      | [] => s
      | f :: rest =>
        let q := memRead s (12 + k.val) f.frame.toNat 64
        if !encScaleOk (encShot r (parseFrame q.bytes) f.frame.toNat) then endRequest q.s r 6 else takeFrame q.s k r f rest

def execEncodeFrameStart (k : Fin 4) (s : State) : Host.Outcome State Fault Refusal := .next (frameStart k s)

/-! ## The output picture (R111) -/

/-- A luma byte of the output. -/
def Shot.luma8 (t : Shot) (s : State) (ox oy : Nat) : Byte := BitVec.ofNat 8 (to8 (t.comp s ox oy 0).toNat)

/-- A chroma byte of the output: the group's average, half to even, in 8 bits. -/
def Shot.chroma8 (t : Shot) (s : State) (plane cx cy : Nat) : Byte :=
  let group := (List.range 2).flatMap (fun dy => (List.range 2).filterMap (fun dx =>
    if 2 * cx + dx < t.p.outW ∧ 2 * cy + dy < t.p.outH then some (t.comp s (2 * cx + dx) (2 * cy + dy) plane) else none))
  let v := if group.length = 4 then (rneInt group.sum 2).toNat else (Config.edgeChroma group).toNat
  BitVec.ofNat 8 (to8 v)

/-- A plane of `w` by `h` values in raster order. -/
def plane (w h : Nat) (f : Nat → Nat → Byte) : List Byte := (List.range h).flatMap (fun y => (List.range w).map (fun x => f x y))

/-- The format of a request's units: 0 H.264, 1 H.265, 2 JPEG. -/
def encFormat (r : EncReq) : Nat := if r.thumb then 2 else encCodec r.cfg

/-- An IDR picture: the first frame, and every GOP frames (R112). -/
def isIdr (r : EncReq) : Bool := r.encoded == 0 || (encGop r.cfg != 0 && r.encoded % encGop r.cfg == 0)

/-- The features of R112: High profile in H.264, Main profile and Main tier in H.265. -/
def codingTools (format w h : Nat) : Option CodingTools :=
  let t : CodingTools :=
    { profileIdc := 100, mainTier := false, level := min 51 (Config.codecLevel format w h), bitDepth := 8,
      progressive := true, refFrames := 1, cabac := true, transform8x8 := true, ctu := 16, sao := false, deblocking := true }
  match format with
  | 0 => some t
  | 1 => some { t with profileIdc := 1, mainTier := true, transform8x8 := false, ctu := 64, sao := true }
  | _ => none

/-- What the encoder codes of a frame. -/
def encPicture (s : State) (r : EncReq) (t : Shot) : EncPicture :=
  let (w, h) := (t.p.outW, t.p.outH)
  { format := encFormat r, idr := isIdr r, quantiser := if r.thumb then encJpegQ r.cfg else r.qp, width := w, height := h,
    tools := codingTools (encFormat r) w h, colour := (streamOf s r.stream).colour,
    luma := plane w h (t.luma8 s), cb := plane (ceilDiv w 2) (ceilDiv h 2) (t.chroma8 s 1),
    cr := plane (ceilDiv w 2) (ceilDiv h 2) (t.chroma8 s 2) }

/-- v-cycles of a frame (R115). -/
def encCycles (t : Shot) : Nat := max (ceilDiv (t.p.outW * t.p.outH * 8) 5) (ceilDiv (t.luma.length * 2) 5) + 2048

/-! ## Units (R112, R118) -/

/-- A NAL unit in Annex B form: start code, header, payload (log entry 186). -/
def nalUnit (format type : Nat) (body : List Byte) : List Byte :=
  [0, 0, 0, 1] ++ (if format = 0 then [BitVec.ofNat 8 (96 + type)] else [BitVec.ofNat 8 (2 * type), 1]) ++ body

/-- `n` coded bytes of a part of the unit. -/
def codedBytes (d : Nat) (x : EncPicture) (part n : Nat) : List Byte := (List.range n).map (Config.codedByte d x part)

/-- Bytes of parameter sets that R112 fixes: profile_idc 100 (High) and the level_idc in an H.264 SPS; Main profile in the
Main tier in an H.265 VPS and SPS. The other bytes spell the features by syntax that is the standards' own. -/
def profileByte (x : EncPicture) (part i : Nat) (b : Byte) : Byte :=
  match x.format, part, i with
  | 0, 0, 0 => 100
  | 0, 0, 2 => match x.tools with
    | some t => BitVec.ofNat 8 t.level
    | none => b
  | 1, 0, 4 => 1
  | 1, 1, 1 => 1
  | _, _, _ => b

/-- NAL unit types of the parameter sets: SPS and PPS, or VPS, SPS and PPS. -/
def paramTypes (format : Nat) : List Nat := if format = 0 then [7, 8] else [32, 33, 34]

/-- The parameter sets of an IDR access unit, of the lengths given. -/
def paramSets (d : Nat) (x : EncPicture) (lens : List Nat) : List Byte :=
  (paramTypes x.format).zipIdx.flatMap (fun e =>
    nalUnit x.format e.1 ((codedBytes d x e.2 (lens.getD e.2 0)).zipIdx.map (fun b => profileByte x e.2 b.2 b.1)))

/-- The type of the one slice's NAL unit: IDR or P. -/
def sliceType (x : EncPicture) : Nat :=
  match x.format, x.idr with
  | 0, true => 5
  | 0, false => 1
  | _, true => 20
  | _, false => 1

/-- A frame's unit: an access unit of one slice, after the parameter sets if it is an IDR picture, or a JFIF file. -/
def codedUnit (d : Nat) (x : EncPicture) (bytes : Nat) (lens : List Nat) : List Byte :=
  let data := codedBytes d x 3 bytes
  if x.format = 2 then jfifFile x.quantiser x.width x.height data
  else (if x.idr then paramSets d x lens else []) ++ nalUnit x.format (sliceType x) data

/-! ## Output buffers (R116, R118) -/

/-- The encoder waits for an output buffer. -/
def encWaits (s : State) (k : Fin 4) : Bool :=
  (List.finRange 8).any (fun p => s.pools[p].waiting.any (fun w => w.user == .encoder k))

/-- The buffers that the pool has granted to the waiting encoder join the request's chain. -/
def collectGot (s : State) (k : Fin 4) (id : Nat) : State :=
  let got := s.veGot[k]
  modReq { s with veGot := s.veGot.set k [] } id (fun r => { r with buffers := r.buffers ++ got })

/-- Takes one output buffer, or begins to wait for it. -/
def takeBuffer (s : State) (k : Fin 4) (id : Nat) (p : Fin 8) (live : Bool) : State :=
  if encWaits s k then s
  else
    let t := tryAlloc s p live
    if t.allocOut = 0 then { waitAlloc t p live (.encoder k) with veWait := t.veWait.set k (some (elapsedW t)) }
    else modReq t id (fun r => { r with buffers := r.buffers ++ [t.allocOut] })

/-- Takes output buffers until the request has room for `n` more bytes, or waits for one. A pool whose buffers hold nothing
beside the header is one that supplies none. -/
def takeBuffers (s : State) (k : Fin 4) (r : EncReq) (live : Bool) (n : Nat) : State :=
  let need := if encCapacity s r = 0 then 1 else ceilDiv (r.bytes + n) (encCapacity s r) - r.buffers.length
  (List.range need).foldl (fun s _ => takeBuffer s k r.id (encPool r.cfg) live) s

/-- A byte string at a place of the output chain. -/
def putPayload (s : State) (k : Fin 4) (r : EncReq) (at_ : Nat) (bs : List Byte) : State :=
  let cap := encCapacity s r
  (List.range (r.buffers.length)).foldl (fun s i =>
    let lo := max at_ (i * cap)
    let hi := min (at_ + bs.length) ((i + 1) * cap)
    if lo < hi then
      memWrite s (12 + k.val) ((r.buffers.getD i 0).toNat + 64 + (lo - i * cap)) ((bs.drop (lo - at_)).take (hi - lo)) false
    else s) s

/-- The header of output buffer `i` (R118). -/
def putBufHeader (k : Fin 4) (r : EncReq) (cap : Nat) (s : State) (i : Nat) : State :=
  memWrite s (12 + k.val) (r.buffers.getD i 0).toNat
    (bytesOf 8 (r.buffers.getD (i + 1) 0).toNat ++ bytesOf 4 (min cap (r.bytes - i * cap)) ++ bytesOf 4 r.tag.toNat ++ List.replicate 48 0)
    false

/-! ## Rate control (R114) -/

/-- Rate control after a frame of `bits` bits, `dt` ns after the one before (R114): fill and the next quantiser. -/
def rateControl (v : BitVec 256) (fill qp bits dt : Nat) : Nat × Nat :=
  let cap := encCap v
  let size := cap * encWindow v
  let fill := fill - cap * dt / 1000000 + bits
  let add := if cap = 0 then 0 else min 12 (8 * fill / size - 4)
  let lim := fun (x lo hi : Int) => min (max x lo) hi
  let q := lim ((encCqQp v + add : Nat) : Int) ((qp : Int) - 2) ((qp : Int) + 4)
  (fill, (lim q (encQpMin v) (encQpMax v)).toNat)

/-- The request after a frame of `n` bytes with header `h` has been encoded. -/
def encodedReq (r : EncReq) (f : EncFrame) (h : FrameHdr) (n : Nat) (at_ : W64) : EncReq :=
  let dt := if r.encoded = 0 then 0 else h.time - r.timeLast.toNat
  let rc := if r.thumb then (r.fill, r.qp) else rateControl r.cfg r.fill r.qp (8 * n) dt
  { r with encoded := r.encoded + 1, concealed := r.concealed + b2n (bitOf h.flags 0), fill := rc.1, qp := rc.2, qpLast := r.qp,
           lastSeq := f.seq, timeFirst := if r.encoded = 0 then BitVec.ofNat 64 h.time else r.timeFirst,
           timeLast := BitVec.ofNat 64 h.time, bytes := r.bytes + 16 + n, busy := false, readyAt := at_ }

/-- The fill is more than twice the window (R114). -/
def capExceeded (r : EncReq) : Bool := !r.thumb && r.fill > 2 * (encCap r.cfg * encWindow r.cfg)

/-! ## The end of a frame (R114 to R118) -/

/-- The frame has been coded: its pixels are read and its v-cycles have passed since its start. -/
def codeFrame (s : State) (k : Fin 4) (r : EncReq) (j : EncJob) (bytes : Nat) (lens : List Nat) : State × List Byte :=
  let t := encShot r (parseFrame (peek s j.frame.frame.toNat 64)) j.frame.frame.toNat
  let s := t.pixelLines.eraseDups.foldl (fun s l => (memRead s (12 + k.val) (64 * l) 64).s) s
  let (s, d) := drawFree (passUntil s (j.startAt.toNat + vNs (encCycles t)))
  (s, codedUnit d (encPicture s r t) bytes lens)

/-- The frame's block is written: prefix and unit (R118). -/
def writeBlockOut (s : State) (k : Fin 4) (r : EncReq) (j : EncJob) (unit : List Byte) : State :=
  let n := unit.length
  let h := parseFrame (peek s j.frame.frame.toNat 64)
  let s := putPayload s k r r.bytes (bytesOf 4 (16 + n) ++ bytesOf 4 j.frame.seq.toNat ++ bytesOf 8 h.time ++ unit)
  let r' := encodedReq r j.frame h n (elapsedW s)
  let s := (List.range (usedBuffers s r')).foldl (putBufHeader k r' (encCapacity s r')) s
  let s := modReq s r.id (fun _ => r')
  let s := bump (bump s R.VE_FRAMES k.val 1) R.VE_BYTES k.val (16 + n)
  let s := if capExceeded r' then bump s R.VE_CAP_OVER k.val 1 else s
  checkId (release { s with ves := s.ves.set k none, veWait := s.veWait.set k none } j.frame.frame) r.id

/-- A coded unit is written once its request has the buffers it needs; until then the encoder waits. -/
def placeUnit (s : State) (k : Fin 4) (j : EncJob) (unit : List Byte) : State :=
  let s := collectGot s k j.req
  match reqOf s j.req with
  | none => s
  | some r =>
    let s := takeBuffers s k r j.live (16 + unit.length)
    match reqOf s j.req with
    | none => s
    | some r =>
      if r.buffers.length * encCapacity s r < r.bytes + 16 + unit.length then
        { s with ves := s.ves.set k (some { j with coded := some unit }) }
      else writeBlockOut s k r j unit

/-- ENCODE_FRAME_DONE: the frame is coded, with `bytes` bytes of slice or entropy-coded data and parameter sets of the
lengths `lens`, and its unit is written. A unit that waits for buffers is the one coded before. -/
def frameDone (k : Fin 4) (bytes : Nat) (lens : List Nat) (s : State) : State :=
  match s.ves[k] with
  | none => s
  | some j =>
    match j.coded, reqOf s j.req with
    | _, none => s
    | some unit, some _ => placeUnit s k j unit
    | none, some r => let c := codeFrame (hiddenRead s (.encoder k)).1 k r j bytes lens; placeUnit c.1 k j c.2

def execEncodeFrameDone (k : Fin 4) (sizes : CodedSizes) (s : State) : Host.Outcome State Fault Refusal :=
  .next (frameDone k sizes.bytes sizes.params s)

/-- The encoder gives up its frame; buffers granted to it stay with the request. -/
def dropEncode (s : State) (k : Fin 4) : State :=
  match s.ves[k] with
  | some j =>
    let s := collectGot (leavePools s (.encoder k)) k j.req
    release { s with ves := s.ves.set k none, veWait := s.veWait.set k none } j.frame.frame
  | none => s

/-- NO_BUFFER (R116): OUT_POOL has not supplied the buffer within VE_OUT_WAIT. -/
def noBuffer (k : Fin 4) (s : State) : State :=
  match s.veWait[k], s.ves[k] with
  | some t, some j =>
    if !encWaits s k then s
    else
      let s := passUntil s (t.toNat + rd s R.VE_OUT_WAIT 0 * 1000)
      let s := match reqOf s j.req with | some r => serveWaiting s (encPool r.cfg) | none => s
      if !encWaits s k then s
      else
        let s := dropEncode s k
        match reqOf s j.req with
        | some r => endRequest s r 3
        | none => s
  | _, _ => s

def execNoBuffer (k : Fin 4) (s : State) : Host.Outcome State Fault Refusal := .next (noBuffer k s)

/-- ENCODE_WAIT_TIMEOUT: WAIT_MS passes with no requested frame arriving (R110). -/
def waitTimeout (slot : Nat) (s : State) : State :=
  match s.encReqs[slot]? with
  | some r =>
    if r.frames.isEmpty && !r.busy then endRequest (passUntil s (r.lastArrival.toNat + r.waitMs * 1000000)) r 5 else s
  | none => s

def execEncodeWaitTimeout (slot : Nat) (s : State) : Host.Outcome State Fault Refusal := .next (waitTimeout slot s)

/-- VE_DISABLE: VE_CTL.EN is cleared; the current frame finishes (R120). -/
def execVeDisable (k : Fin 4) (s : State) : Host.Outcome State Fault Refusal := .next (if planesRun s then wrb s R.VE_CTL_EN k.val false else s)

/-- Requests in the ring that have not been accepted: at most the ring's entries. -/
def queuedRequests (s : State) : Nat :=
  min (subW (rd s R.VE_REQ_PROD 0) (rd s R.VE_REQ_CONS 0)) (2 ^ rd s R.VE_REQ_LOG2 0)

/-- Entry to shedding stage 1: frames in progress are discarded, and every active and every queued request ends with SHED
(R117). -/
def shedEncoders (s : State) : State :=
  let s := (List.finRange 4).foldl dropEncode s
  let s := (s.encReqs.map (fun r => r.id)).foldl (fun s id => match reqOf s id with
    | some r => endRequest s r 2
    | none => s) s
  (List.range (queuedRequests s)).foldl (fun s _ => requestAccept s) s

end Sys2Proof.Machine
end

