-- ==== Sys2Proof/Machine/Decoder.lean ====
section
/-! DEFINITION. The decoder scheduler and the decoders, and the application of invalidates (R47, R48, R50, R52 to R70,
R79). What a bitstream holds comes with the command; the samples of a decoded frame are free values. -/

namespace Sys2Proof.Machine

/-! ## Which stream is dispatched (R58 to R60) -/

/-- A decoder of the drone set; every decoder while the stage is below 5 (R37, R376). -/
def inDroneSet {k : Nat} (s : State) (ok : Fin k → Bool) (n : Nat) (i : Fin k) : Bool :=
  stage s < 5 || (droneSet ok n).contains i

/-- D: decoders that are usable and enabled. -/
def decodersInUse (s : State) : Nat := ((List.finRange 12).filter (fun k => vdUsable s k && rdb s R.VD_CTL_EN k.val)).length

/-- The effective reserve e (R58). -/
def liveReserve (s : State) : Nat := min (min 12 (rd s R.VID_SCHED_CTL_LIVE_RESERVE 0)) (decodersInUse s - 1)

/-- Enabled decoders that hold non-live access units. -/
def nonLiveHeld (s : State) : Nat :=
  ((List.finRange 12).filter (fun k => rdb s R.VD_CTL_EN k.val && (match s.vds[k] with | some j => !j.live | none => false))).length

/-- The next group of the stream needs a frame buffer: it is an access unit. -/
def needsBuffer (s : State) (x : Stream) (c : Ctx) : Bool :=
  match nextChunks s x c with
  | some g => formsUnit g
  | none => false

/-- The stream is ready: it can also allocate a frame buffer, if it needs one. One whose FRAME_POOL has become one that
R285 forbids is taken, so that it enters ERROR. -/
def streamReady (s : State) (n : Fin 1024) (x : Stream) : Bool :=
  readyBut s n &&
    match x.ctx with
    | some c => !needsBuffer s x c || !framePoolOk s c.entry || canAlloc s (ctlFramePool c.entry) c.treatedLive
    | none => false

/-- When the stream became ready: its access unit, and a buffer for it (R58). -/
def readySince (s : State) (x : Stream) : Nat :=
  let unit := match x.readyAt with
    | some t => t.toNat
    | none => 2 ^ 64
  match x.ctx with
  | some c =>
    if needsBuffer s x c then
      let p := s.pools[ctlFramePool c.entry]
      max unit ((if c.treatedLive then p.okLive else p.okOther).getD 0).toNat
    else unit
  | none => unit

/-- The ready streams of a rank, that which became ready first at the front; of several at the same time, that with the
lowest number (DESIGN CHOICE, log entry 177). -/
def headOf (s : State) (live : Bool) : Option (Fin 1024) :=
  let cands := (cachedStreams s).filter (fun e => isLive e.2 == live && streamReady s e.1 e.2)
  let at_ := fun (e : Fin 1024 × Stream) => readySince s e.2
  (cands.foldl (fun o e => match o with
    | none => some e
    | some v => if at_ e < at_ v then some e else some v) none).map (fun e => e.1)

/-- The stream an idle decoder takes. -/
def nextStream (s : State) : Option (Fin 1024) :=
  match headOf s true with
  | some n => some n
  | none =>
    if stage s ≥ 4 ∨ nonLiveHeld s + 1 > decodersInUse s - liveReserve s then none else headOf s false

/-! ## Budgets (R61, R62) -/

def firstUseAvg (e : BitVec 2048) : Nat := ceilDiv (ctxMaxW e * ctxMaxH e * 16) 27

def avgOf (c : Ctx) : Nat := if c.avgVcycles = 0 then firstUseAvg c.entry else c.avgVcycles.toNat

/-- The budget of an access unit, in v-cycles. -/
def budgetOf (c : Ctx) : Nat :=
  let floorV := max (entryField c.entry 0x12 2) 2000 * 800
  let fixed := entryField c.entry 0x14 4
  let mult := entryField c.entry 0x11 1
  if fixed ≠ 0 then max fixed floorV else max ((if mult = 0 then 8 else mult) * avgOf c) floorV

/-- The running average after a unit of `cycles` (R62). -/
def avgAfter (c : Ctx) (cycles : Nat) : Nat := ((avgOf c : Int) + ((cycles : Int) - avgOf c) / 8).toNat

/-- A count of v-cycles in a field of 32 bits; one that does not fit is a free value (log entry 178). -/
def cycleField (v : Nat) : W32 := if v < 2 ^ 32 then BitVec.ofNat 32 v else Config.wideCycles v

/-- A decode of `cycles` v-cycles is one that the moment allows: no less than the time that has passed since dispatch, and
within the budget (R63, R428). -/
def cyclesOk (s : State) (j : DecJob) (cycles : Nat) : Bool := vCycles (elapsed s - j.startAt.toNat) ≤ cycles && cycles ≤ j.budget

/-- `cycles` v-cycles after dispatch. -/
def passCycles (s : State) (j : DecJob) (cycles : Nat) : State := passUntil s (j.startAt.toNat + vNs cycles)

/-! ## Consuming chunks (R50, R64) -/

/-- The stream enters RESYNC; its next frame's map is all 0xFF (R70). -/
def enterResync (s : State) (n : Fin 1024) : State :=
  modCtx (modStream s n (fun x => { x with allChanged := true })) n (fun c => { c with resync := true, dirty := true })

/-- A POOL_FREE return: a pointer outside BS_POOL is cancelled with code 1, and counted in no pool's ERRORS, even if it lies
in another pool (DESIGN CHOICE, log entry 217). -/
def freeChunk (p : Fin 8) (s : State) (x : Chunk) : State :=
  if !x.poolFree || x.bad then s
  else if poolEn s p && poolBase s p ≤ x.addr.toNat && x.addr.toNat < poolEnd s p then bpmOp s .free x.addr.toNat
  else bpmError s none x.addr.toNat 1

/-- The chunks of a group are consumed and their flags act. -/
def consume (s : State) (n : Fin 1024) (g : List Chunk) : State :=
  match (streamOf s n).ctx with
  | none => s
  | some c =>
    let cons := c.chunkCons + BitVec.ofNat 32 g.length
    let s := g.foldl (freeChunk (ctlBsPool c.entry)) s
    let s := modCtx s n (fun c => { c with chunkCons := cons, posOffset := 0, dirty := true })
    let s := modStream s n (fun x => { x with arrivals := x.arrivals.filter (fun a => newer a.1.toNat cons.toNat) })
    if g.any (fun x => x.eos) then enterResync (dropRefs s n) n
    else if g.any (fun x => x.bad) then enterResync s n
    else s

/-! ## DECODER_DISPATCH (R58) -/

/-- Reads the chunk entries of a group. -/
def readGroup (s : State) (c : Ctx) (k : Nat) (len : Nat) : State :=
  (List.range len).foldl (fun s i => if inMemory s (chunkAddr c (k + i)) 16 then (memRead s reqDma (chunkAddr c (k + i)) 16).s else s) s

/-- The access unit goes to the decoder. A wait counts in VID_LIVE_WAIT_MAX if the stream was treated as live while it
waited. -/
def startUnit (s : State) (k : Fin 12) (n : Fin 1024) (c : Ctx) (wasLive : Bool) (g : List Chunk) : State :=
  let s := if g.any (fun x => x.discont) then enterResync s n else s
  let x := streamOf s n
  let s := if c.treatedLive && wasLive then raiseTo s R.VID_LIVE_WAIT_MAX_VCYCLES 0 (vCycles (elapsed s - readySince s x)) else s
  let s := grant s (ctlFramePool c.entry) c.treatedLive
  let j : DecJob := { stream := n, live := c.treatedLive, startAt := elapsedW s, budget := budgetOf c,
                      frame := s.allocOut, chunks := g,
                      time := BitVec.ofNat 64 (arrivalTime x (c.chunkCons.toNat + g.length)), conceal := none,
                      spoiled := false }
  let s := modStream { s with vds := s.vds.set k (some j) } n (fun x => { x with inDecode := true, readyAt := none })
  modCtx { s with order := s.order + 1 } n (fun y => { y with lastDispatch := s.order })

/-- An access unit is dispatched if a buffer can be had for it, and only then is it decided whether its stream is live
(R45). -/
def dispatchUnit (s : State) (k : Fin 12) (n : Fin 1024) (c : Ctx) (g : List Chunk) : State :=
  let s := serveWaiting s (ctlFramePool c.entry)
  let t := decideLive s n
  match (streamOf t n).ctx with
  | some d => if canAlloc t (ctlFramePool d.entry) d.treatedLive then startUnit t k n d c.treatedLive g else s
  | none => s

/-- A group that holds no bytes is consumed when a dispatch takes it (R50; DESIGN CHOICE, log entry 218). -/
def takeEmpty (s : State) (n : Fin 1024) (g : List Chunk) : State :=
  let s := if g.any (fun x => x.discont) then enterResync s n else s
  noteReady (modStream (consume s n g) n (fun x => { x with readyAt := none })) n

/-- What is at the head of a stream's ring is taken: an access unit, or a group that holds no bytes (R50). -/
def takeUnitOf (s : State) (k : Fin 12) (n : Fin 1024) : State :=
  let s := (ctxCopyRead s n).1
  match (streamOf s n).ctx with
  | none => s
  | some c =>
    match nextChunks s (streamOf s n) c with
    | none => s
    | some g =>
      let s := readGroup s c c.chunkCons.toNat g.length
      if !framePoolOk s c.entry then schedError s n 10 8
      else if formsUnit g then dispatchUnit s k n c g
      else takeEmpty s n g

def decoderDispatch (k : Fin 12) (s : State) : State :=
  if !serving s || !vdUsable s k || !rdb s R.VD_CTL_EN k.val || s.vds[k].isSome || !inDroneSet s (vdUsable s) 2 k then s
  else
    match nextStream s with
    | some n => takeUnitOf s k n
    | none => s

def execDecoderDispatch (k : Fin 12) (s : State) : Host.Outcome State Fault Refusal := .next (decoderDispatch k s)

/-! ## The end of an access unit -/

/-- The decoder is idle and the stream has no access unit in decode. -/
def leaveDecoder (s : State) (k : Fin 12) (n : Fin 1024) : State :=
  noteReady (modStream { s with vds := s.vds.set k none } n (fun x => { x with inDecode := false, readyAt := none })) n

/-- A frame boundary: the unit is consumed, sequence numbers and pre-roll move on, and the device-owned fields are
written back (R43, R57, R107). VD_FRAMES counts every unit that ends so: decoded, concealed, skipped or dropped, and not one
that is refused (R53; DESIGN CHOICE, log entry 221). -/
def endUnitOf (s : State) (k : Fin 12) (j : DecJob) : State :=
  let n := j.stream
  let s := modCtx (consume s n j.chunks) n (fun c => { c with frameSeq := c.frameSeq + 1 })
  let s := bump s R.VD_FRAMES k.val 1
  match (streamOf s n).ctx with
  | some c => leaveDecoder (writeBack (encBoundary (trimPreroll s n (ctxPreroll c.entry)) n c.frameSeq) n) k n
  | none => leaveDecoder s k n

/-- The record's fields for a unit. -/
def unitInfo (k : Fin 12) (j : DecJob) (pos : AuPos) (cycles detail : Nat) : DecInfo :=
  { decoder := k.val, pos := pos, tag := (match j.chunks with | c :: _ => c.tag.toNat | [] => 0), cycles := (cycleField cycles).toNat,
    budget := (cycleField j.budget).toNat, detail := detail, time := j.time.toNat }

/-! ## Good frames (R52 to R55, R62, R66, R69, R70) -/

/-- Number of bits of a value, at most 15. -/
def bitLen (v : Nat) : Nat := ((List.range 16).find? (fun k => v < 2 ^ k)).getD 15

/-- A vector component in quarter-pel units: an eighth-pel one halved with ties to even. -/
def quarterPel (eighth : Bool) (v : Int) : Nat :=
  let a := v.natAbs
  if eighth then a / 2 + b2n (a % 2 == 1 && a / 2 % 2 == 1) else a

/-- The largest |mvx| + |mvy| of a prediction block (R69). -/
def predMotion (p : PredBlock) : Nat :=
  (p.vectors.map (fun v => quarterPel p.eighth v.1 + quarterPel p.eighth v.2)).foldl max 0

/-- What a transform block contributes to each map block it covers: the sum of its absolute dequantised coefficients, or
residual samples with transform skip, and of one larger than the map block its share (R69). -/
def transSum (t : TransBlock) : Nat :=
  let e := ((if t.skip then t.residuals else t.coeffs).map Int.natAbs).foldl (· + ·) 0
  if t.area > 256 then e * 256 / t.area else e

/-- The activity byte of a map block (R69). -/
def mapByte (e : BitVec 2048) (b : MapBlock) : Byte :=
  let motion := min 7 (bitLen ((b.preds.map predMotion).foldl max 0))
  let resid := min 15 (bitLen ((b.trans.map transSum).foldl (· + ·) 0 / 16))
  if b.preds.any (fun p => p.intra) then 0xFF
  else BitVec.ofNat 8 (128 * b2n (motion ≥ ctxMotionThr e || resid ≥ ctxResidThr e) + 16 * motion + resid)

/-- The map's bytes, for a frame with geometry `g`: block (i, j) has byte `f i j`. -/
def mapPlane (g : FrameHdr) (f : Nat → Nat → Byte) : List Byte :=
  (List.range (ceilDiv g.height 16)).flatMap (fun i =>
    (List.range g.mapStride).map (fun j => if j < ceilDiv g.width 16 then f i j else 0))

/-- A decoded sample as a 10-bit value (R54). -/
def sample10 (d : Nat) (ten : Bool) (plane x y : Nat) : Nat :=
  let v := (Config.decodedSample d plane x y).toNat
  if ten then v else v % 256 * 4

def sampleBytes (p010 : Bool) (v : Nat) : List Byte := if p010 then bytesOf 2 (v * 64) else bytesOf 1 (to8 v)

/-- A line of samples, padded with 0 to the pitch. -/
def paddedLine (pitch : Nat) (bs : List Byte) : List Byte := bs ++ List.replicate (pitch - bs.length) 0

def lumaPlane (g : FrameHdr) (p010 : Bool) (f : Nat → Nat → Nat) : List Byte :=
  (List.range (roundUp g.height 16)).flatMap (fun y =>
    paddedLine g.pitch (if y < g.height then (List.range g.width).flatMap (fun x => sampleBytes p010 (f x y)) else []))

def chromaPlane (g : FrameHdr) (p010 : Bool) (cb cr : Nat → Nat → Nat) : List Byte :=
  (List.range (roundUp g.height 16 / 2)).flatMap (fun y =>
    paddedLine g.pitch (if y < ceilDiv g.height 2 then
      (List.range (ceilDiv g.width 2)).flatMap (fun x => sampleBytes p010 (cb x y) ++ sampleBytes p010 (cr x y)) else []))

/-- The picture is within the device's limits (R53). -/
def withinDevice (e : BitVec 2048) (w h : Nat) : Bool :=
  64 ≤ w && 64 ≤ h && w ≤ (if ctlCodec e = 0 then 4096 else 8192) && h ≤ (if ctlCodec e = 0 then 2304 else 4352)

/-- The picture fits the stream's limits and one buffer of FRAME_POOL. -/
def withinStream (s : State) (e : BitVec 2048) (w h : Nat) : Bool :=
  w ≤ ctxMaxW e && h ≤ ctxMaxH e && frameBytes (frameGeometry (ctlP010 e) w h) ≤ poolSize s (ctlFramePool e)

/-- The access unit is not consumed; its buffer is released and the stream enters ERROR (R53). -/
def refuseUnit (s : State) (k : Fin 12) (j : DecJob) (code detail : Nat) (pos : AuPos) (cycles : Nat) : State :=
  let s := release s j.frame
  let s := enterError s j.stream code (unitInfo k j pos cycles detail) planeData (20 + k.val)
  leaveDecoder s k j.stream

/-- The reference frames after a good frame: the kept ones, and the frame itself if it is one. -/
def updateRefs (s : State) (n : Fin 1024) (kept : List Addr) (self : Option Addr) : State :=
  let old := (streamOf s n).refs
  let s := releaseAll s (old.filter (fun a => !kept.contains a))
  let s := match self with | some a => hold s a | none => s
  modStream s n (fun x => { x with refs := old.filter (fun a => kept.contains a) ++ self.toList })

/-- LAST_GOOD becomes the frame. -/
def updateLastGood (s : State) (n : Fin 1024) (a : Addr) : State :=
  modCtx (dropLastGood (hold s a) n) n (fun c => { c with lastGood := a })

/-- The frame becomes visible: the holds of shapers, pre-roll and encoders are taken before the decoder's own is
released (R80, R107, R110). -/
def showFrame (s : State) (n : Fin 1024) (c : Ctx) (a : Addr) : State :=
  release (encFrame (prerollFrame (offerFrame s n c a) n c a) n a c.frameSeq) a

/-- Writes a decoded frame. The header's KEY is set for a random access point (DESIGN CHOICE, log entry 219). -/
def writeFrame (s : State) (k : Fin 12) (j : DecJob) (c : Ctx) (drift all : Bool) (r : DecodeResult) : State :=
  let g := frameGeometry (ctlP010 c.entry) r.width.toNat r.height.toNat
  let flags := 2 * b2n drift + 4 * b2n r.rap + 8 * b2n r.grain + 16 * b2n (ctlP010 c.entry) + 32 * b2n all
  let h := { g with stream := j.stream.val, flags := flags, seq := c.frameSeq.toNat, time := j.time.toNat,
                    tag := (match j.chunks with | x :: _ => x.tag.toNat | [] => 0) }
  let (s, d) := drawFree s
  let p := sample10 d r.bitDepth10
  let s := writeHeader s k.val j.frame h
  let s := memWrite s k.val (j.frame.toNat + 256) (lumaPlane g (ctlP010 c.entry) (p 0)) false
  let s := memWrite s k.val (j.frame.toNat + g.chroma) (chromaPlane g (ctlP010 c.entry) (p 1) (p 2)) false
  memWrite s k.val (j.frame.toNat + g.map)
    (mapPlane g (fun i b => if all then 0xFF else mapByte c.entry (r.blocks.getD (i * ceilDiv g.width 16 + b) ⟨[], []⟩))) false

/-- An access unit before a random access point is skipped (R64). Its record has 0 for the position (DESIGN CHOICE, log
entry 220). -/
def skipUnit (s : State) (k : Fin 12) (j : DecJob) (c : Ctx) (cycles : Nat) : State :=
  let n := j.stream
  let s := release s j.frame
  let s := if !(streamOf s n).skipReported || ctlReportAll c.entry then postDec s n 4 (unitInfo k j ⟨0, 0, 0⟩ cycles 0) else s
  endUnitOf (modStream s n (fun x => { x with skipReported := true })) k j

/-- The random access point that a stream in RESYNC waits for has come: decoding starts at it (R64). -/
def startDecoding (s : State) (n : Fin 1024) (rap : Bool) : State :=
  match (streamOf s n).ctx with
  | some c =>
    if c.resync || rap then modCtx (modStream s n (fun x => { x with started := c.resync })) n (fun c => { c with resync := false })
    else s
  | none => s

/-- A good frame. A FRAME_OK or RESYNC_DONE record has 0 for the position (DESIGN CHOICE, log entry 220). -/
def goodFrame (s : State) (k : Fin 12) (j : DecJob) (c : Ctx) (r : DecodeResult) : State :=
  let n := j.stream
  let x := streamOf s n
  let drift := c.drift && !r.rap
  let s := modCtx (startDecoding s n r.rap) n (fun c => { c with
    drift := drift, framesDecoded := c.framesDecoded + 1, avgVcycles := cycleField (avgAfter c r.cycles) })
  let s := writeFrame s k j c drift x.allChanged r
  let s := updateRefs s n r.refs (if r.selfRef then some j.frame else none)
  let s := if drift then s else updateLastGood s n j.frame
  let done := r.rap && x.resyncDue
  let s := if done || ctlReportAll c.entry then postDec s n (if done then 8 else 9) (unitInfo k j ⟨0, 0, 0⟩ r.cycles 0) else s
  let s := modStream s n (fun x => { x with
    allChanged := false, skipReported := false, resyncDue := x.resyncDue && !r.rap, colour := if r.rap then r.colour else x.colour })
  endUnitOf (showFrame s n c j.frame) k j

/-- Some byte of the unit's chunks cannot be read, so that it cannot decode without an error. -/
def unreadable (s : State) (g : List Chunk) : Bool :=
  g.any (fun x => x.bad || (x.len != 0 && (!inMemory s x.addr.toNat x.len ||
    (eccCovers s x.addr.toNat && (badWords s x.addr.toNat x.len).any (fun e => e.2 = .poison || e.2 = .double)))))

/-- Reads the unit's bitstream. -/
def readStream (s : State) (k : Fin 12) (g : List Chunk) : State :=
  g.foldl (fun s x => if inMemory s x.addr.toNat x.len then (memRead s k.val x.addr.toNat x.len).s else s) s

/-- A picture that uses a feature outside R52: a reserved CODEC (R42), 10-bit H.264, or a size beyond the device (R53). -/
def unsupportedPicture (c : Ctx) (r : DecodeResult) : Bool :=
  ctlCodec c.entry == 3 || (ctlCodec c.entry == 0 && r.bitDepth10) || !withinDevice c.entry r.width.toNat r.height.toNat

/-- The unit has read poison from the decoder's cache: it can only stop (R261). Its chunks are as they were. -/
def spoilUnit (s : State) (k : Fin 12) (j : DecJob) : State := { s with vds := s.vds.set k (some { j with spoiled := true }) }

/-- Nothing but poison can stop the unit: it has read some, or one of its chunk entries could not be read (R50). -/
def poisonOnly (j : DecJob) : Bool := j.spoiled || j.chunks.any (fun x => x.bad)

/-- FRAME_OK: the unit has been decoded `cycles` v-cycles after dispatch. A refusal that the tests of R53 find reports
position 0 (DESIGN CHOICE, log entry 179). -/
def frameOk (k : Fin 12) (r : DecodeResult) (s : State) : State :=
  match s.vds[k] with
  | none => s
  | some j =>
    match (streamOf s j.stream).ctx with
    | none => s
    | some c =>
      let (s, bad) := hiddenRead s (.decoder k)
      if bad then spoilUnit s k j
      else if j.conceal.isSome || j.spoiled || unreadable s j.chunks || !cyclesOk s j r.cycles then s
      else
        let s := readStream (passCycles s j r.cycles) k j.chunks
        if unsupportedPicture c r then refuseUnit s k j 5 6 ⟨0, 0, 0⟩ r.cycles
        else if !withinStream s c.entry r.width.toNat r.height.toNat then refuseUnit s k j 6 0 ⟨0, 0, 0⟩ r.cycles
        else if !r.rap && (c.resync || (r.rasl && (streamOf s j.stream).started)) then skipUnit s k j c r.cycles
        else goodFrame s k j c r

def execFrameOk (k : Fin 12) (r : DecodeResult) (s : State) : Host.Outcome State Fault Refusal := .next (frameOk k r s)

/-! ## Errors and concealment (R63, R65 to R67) -/

/-- An access unit whose decode stopped is counted when it ends, so that one stopped by drone-mode entry and decoded again
counts once (R42, R60, R63). -/
def countStop (s : State) (k : Fin 12) (n : Fin 1024) (code detail : Nat) : State :=
  if code = 2 then bump (modCtx s n (fun c => { c with framesAbandoned := c.framesAbandoned + 1 })) R.VD_ABANDONED k.val 1
  else if detail ≤ 4 then modCtx s n (fun c => { c with bsErrors := c.bsErrors + 1 })
  else s

/-- A random access point ends RESYNC even if its decode stops; any other unit leaves it as it is (R64). -/
def stoppedRap (s : State) (n : Fin 1024) (rap : Bool) : State := if rap then startDecoding s n true else s

/-- No frame is written: a DROPPED_NO_HISTORY record. -/
def dropUnit (s : State) (k : Fin 12) (j : DecJob) (e : Conceal) : State :=
  let s := postDec (release (countStop (stoppedRap s j.stream e.rap) k j.stream e.code.toNat e.detail.toNat) j.frame) j.stream 3
    (unitInfo k j e.pos e.cycles e.detail.toNat)
  endUnitOf (modStream s j.stream (fun x => { x with skipReported := false })) k j

/-- Decode has stopped: the frame is to be concealed from LAST_GOOD, or the unit is dropped. RESYNC ends with the unit, so
that one stopped by drone-mode entry leaves it as it was (R60, R64). -/
def stopUnit (s : State) (k : Fin 12) (j : DecJob) (code detail : Nat) (pos : AuPos) (cycles : Nat) (rap : Bool) : State :=
  let e : Conceal := { code := BitVec.ofNat 8 code, detail := BitVec.ofNat 8 detail, pos := pos, cycles := cycles,
                       since := elapsedW s, rap := rap }
  match (streamOf s j.stream).ctx with
  | none => s
  | some c =>
    if c.lastGood = 0 then dropUnit s k j e
    else
      let q := memRead s k.val c.lastGood.toNat 64
      if q.poison then dropUnit (dropLastGood q.s j.stream) k j e
      else { q.s with vds := q.s.vds.set k (some { j with conceal := some e }) }

/-- DETAIL of the errors of R65 (R76). -/
def faultDetail (why : DecodeFault) : Nat :=
  match why with
  | .badSyntax => 1
  | .missingRef => 2
  | .outOfRange => 3
  | .truncated => 4
  | .poisoned => 5
  | _ => 0

/-- What a stopped decode found: a feature outside R52 (DETAIL 6), a picture too large for the stream, or an error. -/
def stopFound (s : State) (k : Fin 12) (j : DecJob) (c : Ctx) (why : DecodeFault) (pos : AuPos) (cycles : Nat) (rap : Bool) : State :=
  match why with
  | .unsupported => refuseUnit s k j 5 6 pos cycles
  | .tooLarge w h =>
    if withinDevice c.entry w.toNat h.toNat then refuseUnit s k j 6 0 pos cycles else refuseUnit s k j 5 6 pos cycles
  | _ => stopUnit s k j 1 (faultDetail why) pos cycles rap

/-- The error is one that the unit can stop with: an unreadable chunk entry stops it as a poisoned read (R50), and a
picture is too large only if it is so for the device or the stream (R53). -/
def faultFits (s : State) (j : DecJob) (c : Ctx) (why : DecodeFault) : Bool :=
  if poisonOnly j then why == .poisoned
  else match why with
    | .tooLarge w h => !withinDevice c.entry w.toNat h.toNat || !withinStream s c.entry w.toNat h.toNat
    | _ => true

/-- DECODE_ERROR: decode stops `cycles` v-cycles after dispatch. A stream with the reserved CODEC is unsupported (R42). -/
def decodeError (k : Fin 12) (why : DecodeFault) (pos : AuPos) (cycles : Nat) (rap : Bool) (s : State) : State :=
  match s.vds[k] with
  | none => s
  | some j =>
    match (streamOf s j.stream).ctx with
    | none => s
    | some c =>
      if j.conceal.isSome || !faultFits s j c why || !cyclesOk s j cycles then s
      else
        let s := readStream (passCycles s j cycles) k j.chunks
        if ctlCodec c.entry = 3 then refuseUnit s k j 5 6 pos cycles else stopFound s k j c why pos cycles rap

def execDecodeError (k : Fin 12) (why : DecodeFault) (stop : AuStop) (cycles : Nat) (s : State) :
    Host.Outcome State Fault Refusal := .next (decodeError k why stop.pos cycles stop.rap s)

/-- BUDGET_EXPIRY (R63). A stream with the reserved CODEC is unsupported all the same (R42), and an unreadable chunk entry
has stopped its unit before (R50). -/
def budgetExpiry (k : Fin 12) (pos : AuPos) (rap : Bool) (s : State) : State :=
  match s.vds[k] with
  | none => s
  | some j =>
    match (streamOf s j.stream).ctx with
    | none => s
    | some c =>
      if j.conceal.isSome || poisonOnly j then s
      else
        let s := passCycles s j j.budget
        if ctlCodec c.entry = 3 then refuseUnit s k j 5 6 pos j.budget else stopUnit s k j 2 7 pos j.budget rap

def execBudgetExpiry (k : Fin 12) (stop : AuStop) (s : State) : Host.Outcome State Fault Refusal :=
  .next (budgetExpiry k stop.pos stop.rap s)

/-- Copies bytes line by line; poison goes with the line it lies in (R259). -/
def copyLines (s : State) (req src dst n : Nat) : State :=
  (List.range (ceilDiv n 64)).foldl (fun s i =>
    let q := memRead s req (src + 64 * i) (min 64 (n - 64 * i))
    memWrite q.s req (dst + 64 * i) q.bytes q.poison) s

/-- Writes a concealed frame: LAST_GOOD's planes under the unit's own header (R65), with KEY and GRAIN_SKIPPED 0 (DESIGN
CHOICE, log entry 219). -/
def writeConcealed (s : State) (k : Fin 12) (j : DecJob) (c : Ctx) : State :=
  let q := memRead s k.val c.lastGood.toNat 64
  let g := parseFrame q.bytes
  let flags := 1 + 2 * b2n c.drift + bitsOf g.flags 4 1 * 16 + 32
  let h := { g with stream := j.stream.val, flags := flags, seq := c.frameSeq.toNat, time := j.time.toNat,
                    tag := (match j.chunks with | x :: _ => x.tag.toNat | [] => 0) }
  let s := writeHeader q.s k.val j.frame h
  let s := copyLines s k.val (c.lastGood.toNat + 256) (j.frame.toNat + 256) (g.map - 256)
  memWrite s k.val (j.frame.toNat + g.map) (mapPlane g (fun _ _ => 0xFF)) false

/-- The planes of LAST_GOOD have been copied: at 64 B per v-cycle from the stop (R65). -/
def passCopy (s : State) (c : Ctx) (e : Conceal) : State :=
  let g := parseFrame (peek s c.lastGood.toNat 64)
  passUntil s (e.since.toNat + vNs (ceilDiv (g.map - 256) 64))

/-- CONCEAL_DONE. -/
def concealDone (k : Fin 12) (refs : List Addr) (self : Bool) (s : State) : State :=
  match s.vds[k] with
  | none => s
  | some j =>
    match (streamOf s j.stream).ctx, j.conceal with
    | some c, some e =>
      let n := j.stream
      let s := countStop (writeConcealed (passCopy s c e) k j c) k n e.code.toNat e.detail.toNat
      let s := stoppedRap s n e.rap
      let s := if e.code = 1 then
          bump (modCtx s n (fun c => { c with framesConcealed := c.framesConcealed + 1 })) R.VD_CONCEALED k.val 1
        else s
      let s := postDec s n e.code.toNat { unitInfo k j e.pos e.cycles e.detail.toNat with concealed := true }
      let s := modCtx s n (fun c => { c with drift := true })
      let s := modStream s n (fun x => { x with allChanged := true, skipReported := false, resyncDue := true })
      let s := updateRefs s n refs (if self then some j.frame else none)
      endUnitOf (showFrame s n c j.frame) k j
    | _, _ => s

def execConcealDone (k : Fin 12) (refs : List Addr) (selfRef : Bool) (s : State) : Host.Outcome State Fault Refusal :=
  .next (concealDone k refs selfRef s)

/-- VD_DISABLE: the decoder finishes its access unit and is not dispatched again (R79). -/
def execVdDisable (k : Fin 12) (s : State) : Host.Outcome State Fault Refusal := .next (if planesRun s then wrb s R.VD_CTL_EN k.val false else s)

/-- An access unit is stopped without being consumed (R60). -/
def stopDecoder (s : State) (k : Fin 12) : State :=
  match s.vds[k] with
  | some j => leaveDecoder (release s j.frame) k j.stream
  | none => s

/-! ## INVALIDATE_APPLY (R47, R48) -/

/-- The shapers' replacement frames of a stream are released (R99). -/
def dropReplacements (s : State) (n : Fin 1024) : State :=
  (List.finRange 4).foldl (fun s c => (List.finRange 4).foldl (fun s q =>
    let gone := s.clusters[c].bq[q].repl.filter (fun e => e.1 == n)
    modBq (releaseAll s (gone.map (fun e => e.2))) c q (fun b => { b with repl := b.repl.filter (fun e => e.1 != n) })) s) s

/-- Device fields of a dropped copy that had not been written back are written. -/
def writeUnsaved (s : State) (n : Fin 1024) : State :=
  match (streamOf s n).unsaved with
  | some d => memWrite s reqDma (ctxAddr s n + 0x40) (deviceFields d) false
  | none => s

/-- LAST_GOOD of a stream that is not cached: as its entry has it, or as a dropped copy had it. -/
def keptLastGood (x : Stream) (e : BitVec 2048) : Addr :=
  match x.unsaved with
  | some d => d.lastGood
  | none => if x.fmt.isSome then BitVec.ofNat 48 (entryField e 0x58 6) else 0

/-- The device-owned fields of a stream that has been open are written back. -/
def saveFields (s : State) (n : Fin 1024) : State :=
  if (streamOf s n).fmt.isSome then writeUnsaved (writeBack s n) n else s

/-- The stream closes; `lastGood` is the frame its entry names. -/
def closeStream (s : State) (n : Fin 1024) (lastGood : Addr) : State :=
  let x := streamOf s n
  let s := dropRefs (saveFields s n) n
  let s := if lastGood = 0 then s else release s lastGood
  let s := dropReplacements (trimPreroll s n 0) n
  let s := encClose (skipOffers s (fun o => o.stream == n)) n
  modStream s n (fun _ => { Stream.init with shedSuspended := x.shedSuspended })

/-- LAST_GOOD of a stream that closes: the cached entry's, or the one kept; none for a stream that is not open, whatever its
entry says. -/
def closingLastGood (x : Stream) (e : BitVec 2048) : Addr :=
  match x.ctx with
  | some c => if x.fmt.isSome then c.lastGood else 0
  | none => keptLastGood x e

/-- An invalidate acts on a stream with no access unit in decode: CTL is read to see whether the stream closes. -/
def applyInvalidate (s : State) (n : Fin 1024) : State :=
  if n.val ≥ ctxCount s ∨ !ctxEnabled s then dropCached s n
  else
    let r := readCtx s n
    let e := entryOfBytes r.bytes
    if r.detail = 0 ∧ !ctlValid e then closeStream r.s n (closingLastGood (streamOf r.s n) e) else dropCached r.s n

/-- INVALIDATE_APPLY: the oldest queued one, at the stream's frame boundary. -/
def invalidateApply (s : State) : State :=
  match s.invalidates with
  | [] => s
  | (n, token) :: rest =>
    if (streamOf s n).inDecode then s
    else ltrUpdate (ackInvalidate (applyInvalidate { s with invalidates := rest } n) n token)

def execInvalidateApply (s : State) : Host.Outcome State Fault Refusal := .next (invalidateApply s)

end Sys2Proof.Machine
end

