-- ==== Sys2Proof/Machine/Shaper.lean ====
section
/-! DEFINITION. Input shapers: taking frames, shaping arithmetic, gate maps, corrupt samples, replacements and site tuning
(R81 to R91, R94, R96, R98 to R104, R376). -/

namespace Sys2Proof.Machine

/-! ## Shaper fields (R83) -/

def shField (v : BitVec 512) (at_ n : Nat) : Nat := bitsOf v.toNat (8 * at_) (8 * n)

def parseSh (v : BitVec 512) : ShCfg :=
  let c := shField v 0 4
  { rot := bitsOf c 1 2, mirror := bitOf c 3, filter := bitsOf c 4 2, csc := bitsOf c 6 2, fold := bitsOf c 8 2, c16 := bitOf c 10,
    bgr := bitOf c 11, concealCorrupt := bitOf c 12, cluster := Fin.ofNat 4 (bitsOf c 16 2), cls := Fin.ofNat 4 (bitsOf c 18 2),
    cropX := shField v 4 2, cropY := shField v 6 2, cropW := shField v 8 2, cropH := shField v 10 2, outW := shField v 12 2,
    outH := shField v 14 2, mul := (List.range 3).map (fun i => signedOf 32 (shField v (16 + 4 * i) 4)),
    add := (List.range 3).map (fun i => signedOf 32 (shField v (28 + 4 * i) 4)) }

/-- The shaper fields of a context entry. -/
def shOfEntry (e : BitVec 2048) : BitVec 512 := BitVec.ofNat 512 (entryField e 0x80 64)

/-! ## Sample descriptors (R100) -/

/-- A sample descriptor's geometry replaces the stream's. -/
def applyGeom (p : ShCfg) (d : BitVec 256) : ShCfg :=
  let f := fun at_ n => bitsOf d.toNat (8 * at_) (8 * n)
  if bitOf (f 10 1) 7 then
    { p with rot := bitsOf (f 10 1) 0 2, mirror := bitOf (f 10 1) 2, cropX := f 12 2, cropY := f 14 2, cropW := f 16 2, cropH := f 18 2 }
  else p

/-- The parameters of a sample. -/
def jobCfg (j : ShJob) : ShCfg :=
  match j.tune with
  | some d => applyGeom (parseSh j.cfg) d
  | none => parseSh j.cfg

/-- BRIGHT and CONTRAST. -/
def tuneBright (d : BitVec 256) : Int := signedOf 16 (bitsOf d.toNat 160 16)
def tuneContrast (d : BitVec 256) : Int := let c := bitsOf d.toNat 176 16; if c = 0 then 256 else c

/-! ## Colour, augmentation, quantisation, fold (R86 to R89) -/

/-- ky, krv, kgu, kgv, kbu and yo. -/
def cscRow (csc : Nat) : Int × Int × Int × Int × Int × Int :=
  match csc with
  | 0 => (4769, 7343, 873, 2183, 8652, 64)
  | 1 => (4769, 6537, 1605, 3330, 8263, 64)
  | 2 => (4096, 6450, 767, 1917, 7601, 0)
  | _ => (4096, 5743, 1410, 2925, 7258, 0)

/-- R, G and B of Y, Cb and Cr (R86). -/
def toRgb (csc : Nat) (y cb cr : Int) : List Int :=
  let (ky, krv, kgu, kgv, kbu, yo) := cscRow csc
  let d := ky * (y - yo)
  [d + krv * (cr - 512), d - kgu * (cb - 512) - kgv * (cr - 512), d + kbu * (cb - 512)].map (fun x => clampInt (rneInt x 12) 0 1023)

/-- The augmentation of site tuning (R87). -/
def augment (d : BitVec 256) (x : Int) : Int := clampInt (rneInt ((x - 512) * tuneContrast d) 8 + 512 + tuneBright d) 0 1023

/-- Quantisation before the clamp (R88). -/
def quantise (x mul add : Int) : Int := rneInt (x * mul + add) 16

/-- The three quantised values of an output pixel in channel order, unclamped. -/
def Shot.pixel (t : Shot) (s : State) (tune : Option (BitVec 256)) (ox oy : Nat) : List Int :=
  let rgb := toRgb t.p.csc (t.comp s ox oy 0) (t.comp s ox oy 1) (t.comp s ox oy 2)
  let rgb := match tune with | some d => rgb.map (augment d) | none => rgb
  let q := (rgb.zip (t.p.mul.zip t.p.add)).map (fun e => quantise e.1 e.2.1 e.2.2)
  if t.p.bgr then q.reverse else q

/-- Fold factors fx and fy. -/
def foldOf (p : ShCfg) : Nat × Nat :=
  match p.fold with
  | 0 => (1, 1)
  | 1 => (2, 2)
  | _ => (4, 2)

def channelBytesOf (p : ShCfg) : Nat := if p.c16 then 16 else 32

def tensorBytes (p : ShCfg) : Nat := let (fx, fy) := foldOf p; (p.outW / fx) * (p.outH / fy) * channelBytesOf p
def gateBytes (p : ShCfg) : Nat := ceilDiv p.outW 16 * ceilDiv p.outH 16
def gateOff (p : ShCfg) : Nat := roundUp (tensorBytes p) 256

/-- The channels of one folded pixel, unclamped; channels without a sample hold `pad`. -/
def Shot.folded (t : Shot) (s : State) (tune : Option (BitVec 256)) (pad : Int) (x y : Nat) : List Int :=
  let (fx, fy) := foldOf t.p
  let qs := (List.range fy).flatMap (fun dy => (List.range fx).flatMap (fun dx => t.pixel s tune (fx * x + dx) (fy * y + dy)))
  qs ++ List.replicate (channelBytesOf t.p - qs.length) pad

/-- The tensor's values, unclamped. -/
def Shot.tensor (t : Shot) (s : State) (tune : Option (BitVec 256)) (pad : Int) : List Int :=
  let (fx, fy) := foldOf t.p
  (List.range (t.p.outH / fy)).flatMap (fun y => (List.range (t.p.outW / fx)).flatMap (fun x => t.folded s tune pad x y))

/-! ## Gate map (R90) -/

/-- First and last source index that the 16 outputs of block `b` read on an axis: from iu of the first to iu + 1 of the
last, with the index of bilinear filtering for both filters (DESIGN CHOICE, log entry 222). -/
def gateSpan (r n b : Nat) : Nat × Nat :=
  (axisPos r n (16 * b) / 65536, axisPos r n (min (16 * b + 15) (n - 1)) / 65536 + 1)

/-- The activity-map bytes that gate block (bx, by) reads, as addresses. -/
def Shot.gateReads (t : Shot) (bx by_ : Nat) : List Nat :=
  let (u0, u1) := gateSpan t.rw t.p.outW bx
  let (v0, v1) := gateSpan t.rh t.p.outH by_
  let a := t.place u0 v0
  let b := t.place u1 v1
  let (x0, x1) := (min a.1 b.1 / 16, max a.1 b.1 / 16)
  let (y0, y1) := (min a.2 b.2 / 16, max a.2 b.2 / 16)
  (List.range (y1 + 1 - y0)).flatMap (fun i => (List.range (x1 + 1 - x0)).map (fun j =>
    t.frame + t.h.map + (y0 + i) * t.h.mapStride + x0 + j))

/-- Every gate block is 0xFF: site tuning, a replacement, or a frame with ALL_CHANGED (R90). -/
def allChangedGate (j : ShJob) (h : FrameHdr) : Bool := j.tune.isSome || j.replacing || bitOf h.flags 5

def Shot.gateByte (t : Shot) (s : State) (all : Bool) (bx by_ : Nat) : Byte :=
  if all then 0xFF
  else BitVec.ofNat 8 ((t.gateReads bx by_).foldl (fun m a => max m (natOfBytes (peek s a 1))) 0)

def Shot.blocks (t : Shot) : List (Nat × Nat) :=
  (List.range (ceilDiv t.p.outH 16)).flatMap (fun y => (List.range (ceilDiv t.p.outW 16)).map (fun x => (x, y)))

def Shot.gate (t : Shot) (s : State) (all : Bool) : List Byte := t.blocks.map (fun b => t.gateByte s all b.1 b.2)

/-! ## Reading the frame -/

/-- The 64 B lines that the sample reads, in the order of their first use: pixels, then the activity map. -/
def Shot.lines (t : Shot) (all : Bool) : List Nat :=
  let mp := if all then [] else t.blocks.flatMap (fun b => (t.gateReads b.1 b.2).map (fun a => a / 64))
  (t.pixelLines ++ mp).eraseDups

/-- Reads lines until one returns poison: how many were read, and whether one did. -/
def readLines (req : Nat) : List Nat → State → Nat → State × Nat × Bool
  | [], s, n => (s, n, false)
  | l :: ls, s, n =>
    let r := memRead s req (64 * l) 64
    if r.poison then (r.s, n + 1, true) else readLines req ls r.s (n + 1)

/-- v-cycles of a sample that is shaped (R91). -/
def Shot.cycles (t : Shot) : Nat :=
  max (ceilDiv (t.luma.length * 2) 5) (ceilDiv (tensorBytes t.p + gateBytes t.p) 64) + 512

/-- v-cycles of a sample that a read of poison ended: those of the luma pixels in the lines it has read (R91; log entry
185). -/
def Shot.readCycles (t : Shot) (lines : List Nat) : Nat :=
  ceilDiv ((t.luma.filter (fun e => lines.contains (t.sampleAddr 0 e.1 e.2 / 64))).length * 2) 5 + 512

/-! ## Where a sample goes (R94, R96, R376) -/

/-- The class of a sample: in drone mode, the drone cluster's class of the same number. -/
def targetOf (s : State) (p : ShCfg) : Fin 4 × Fin 4 :=
  if stage s < 5 then (p.cluster, p.cls)
  else
    match droneCluster s with
    | some d => (d, p.cls)
    | none => (p.cluster, p.cls)

/-- The sample's identifier (R82). -/
def streamSampleId (n : Fin 1024) (seq : Nat) : Nat := n.val + seq * 2 ^ 16
def tuneSampleId (entry : Nat) : Nat := 2 ^ 63 + entry

def modSh (s : State) (k : Fin 8) (f : ShJob → ShJob) : State := { s with shs := s.shs.set k (s.shs[k].map f) }
def idleSh (s : State) (k : Fin 8) : State := { s with shs := s.shs.set k none }

/-- The frame is released unshaped by the shaper that took it. -/
def skipTaken (s : State) (k : Fin 8) (j : ShJob) : State := idleSh (bump (release s j.frame) R.SH_SKIPPED k.val 1) k

/-- The batch closes if all its slots are reserved (R94). -/
def closeIfFull (s : State) (c q a : Fin 4) : State :=
  if (areaOf s c q a).slots.length ≥ bqSize s c q then closeBatch s c q a else s

/-- A taken frame's sample starts, waits for an area, or is released unshaped. -/
def startSample (s : State) (k : Fin 8) (j : ShJob) (seq : Nat) : State :=
  let (c, q) := targetOf s (parseSh j.cfg)
  if !classOn s c q || rdb s R.BQ_TUNE (bqIx c q) then skipTaken s k j
  else
    match nextArea s c q with
    | some a =>
      let slot := (areaOf s c q a).slots.length
      let s := reserveIn s c q a (streamSampleId j.stream seq) 0
      let j := { j with cluster := c, cls := q, area := a, slot := slot, started := true, startAt := elapsedW s }
      closeIfFull { s with shs := s.shs.set k (some j) } c q a
    | none => if rdb s R.BQ_OVERRUN (bqIx c q) then skipTaken s k j else { s with shs := s.shs.set k (some j) }

/-! ## SHAPER_TAKE_FRAME (R81) -/

/-- The shaper may take frames. -/
def shaperRuns (s : State) (k : Fin 8) : Bool :=
  serving s && !s.pci.d3hot && shUsable s k && rdb s R.SH_CTL_EN k.val && inDroneSet s (shUsable s) 2 k

/-- The oldest offered frame of a live stream, else the oldest. -/
def nextOffer (s : State) : Option Offer :=
  match s.offers.find? (fun o => isLive (streamOf s o.stream)) with
  | some o => some o
  | none => s.offers.head?

/-- The frame is taken: the context entry is read, and its sample starts. -/
def takeOffer (s : State) (k : Fin 8) (o : Offer) : State :=
  let r := encEntry { s with offers := s.offers.erase o } o.stream
  let e := entryOfBytes r.bytes
  let j : ShJob := { stream := o.stream, frame := o.frame, cluster := 0, cls := 0, area := 0, slot := 0, started := false,
                     reason := 0, replacing := false, startAt := 0, cfg := shOfEntry e, tune := none }
  let s := if isLive (streamOf r.s o.stream) then raiseTo r.s R.SH_WAIT_MAX_VCYCLES 0 (vCycles (elapsed r.s - o.at_.toNat)) else r.s
  if r.detail ≠ 0 then skipTaken s k j else startSample s k j o.seq.toNat

/-- FRAME_SEQ of the frame that a waiting shaper holds, as the header in memory gives it when the sample starts (DESIGN CHOICE,
log entry 239). -/
def frameSeqOf (s : State) (j : ShJob) : Nat := (parseFrame (peek s j.frame.toNat 64)).seq

def shaperTakeFrame (k : Fin 8) (s : State) : State :=
  match s.shs[k] with
  | some j => if j.started then s else startSample s k j (frameSeqOf s j)
  | none =>
    if !shaperRuns s k then s
    else
      let s := shedOffers s
      match nextOffer s with
      | some o => takeOffer s k o
      | none => s

def execShaperTakeFrame (k : Fin 8) (s : State) : Host.Outcome State Fault Refusal := .next (shaperTakeFrame k s)

/-! ## Corrupt samples (R84, R98) -/

/-- An output size is within the scale limits of a source size. -/
def shScaleOk (src out : Nat) : Bool := out ≤ 4 * src && src ≤ 16 * out

/-- The configuration is valid for the picture (R84). -/
def shCfgOk (t : Shot) : Bool :=
  let (fx, fy) := foldOf t.p
  t.p.filter ≤ 1 && t.p.fold != 3 && !(t.p.c16 && t.p.fold == 2) && t.p.outW % fx == 0 && t.p.outH % fy == 0 &&
    inRange t.cw 16 8192 && inRange t.ch 16 8192 && inRange t.p.outW 16 4096 && inRange t.p.outH 16 4096 &&
    shScaleOk t.rw t.p.outW && shScaleOk t.rh t.p.outH

/-- What the tests of the setup find: REASON, 0 for none. -/
def setupReason (s : State) (j : ShJob) (poison : Bool) (t : Shot) : Nat :=
  if poison then 1
  else if t.h.stream ≠ j.stream.val ∨ t.h.width = 0 ∨ t.h.height = 0 then 2
  else if !shCfgOk t then 3
  else if gateOff t.p + gateBytes t.p > slotStride s j.cluster j.cls then 5
  else if t.p.concealCorrupt && bitOf t.h.flags 0 then 4
  else 0

/-- The first SHAPE_CFG sample after each invalidate writes a log entry (R84). -/
def logShape (s : State) (k : Fin 8) (n : Fin 1024) : State :=
  if (streamOf s n).shapeLogged then s
  else logIt (modStream s n (fun x => { x with shapeLogged := true })) planeData 0x21 3 3 (32 + k.val) n.val 0

/-- The slot is complete and the shaper idle. -/
def finishSample (s : State) (k : Fin 8) (j : ShJob) (reason : Nat) : State :=
  let i := bqIx j.cluster j.cls
  let s := modSlot s j.cluster j.cls j.area j.slot (fun x => { x with reason := BitVec.ofNat 8 reason, complete := true })
  let s := bump (bump s R.SH_SAMPLES k.val 1) R.BQ_DELIVERED i 1
  readyClass j.cluster j.cls (idleSh s k)

/-- The hold on the sample's own frame is released when it has been read. -/
def releaseOwn (s : State) (j : ShJob) : State := if j.tune.isSome || j.replacing then s else release s j.frame

/-- The class's replacement frame for a stream (R99). -/
def replacementOf (s : State) (j : ShJob) : Option Addr :=
  ((s.clusters[j.cluster].bq[j.cls].repl).find? (fun e => e.1 == j.stream)).map (fun e => e.2)

/-- A sample is corrupt: re-shaped from the replacement frame, or filled. A re-shape that fails is not counted again in
SH_CORRUPT and BQ_REPLACED (DESIGN CHOICE, log entry 184). Where the stream's current entry cannot be read, it keeps the
fields of the first pass (DESIGN CHOICE, log entry 238). -/
def corruptSample (s : State) (k : Fin 8) (j : ShJob) (reason : Nat) : State :=
  let s := if reason = 3 then logShape s k j.stream else s
  if j.replacing then finishSample (fillSlot s j.cluster j.cls j.area j.slot) k j (j.reason.toNat + 0x80)
  else
    let i := bqIx j.cluster j.cls
    let s := bump (bump (releaseOwn s j) R.SH_CORRUPT k.val 1) R.BQ_REPLACED i 1
    let s := modSlot s j.cluster j.cls j.area j.slot (fun x => { x with replaced := true })
    match (if rdb s R.BQ_REPL i && j.tune.isNone then replacementOf s j else none) with
    | some a =>
      let r := encEntry s j.stream
      modSh r.s k (fun j => { j with replacing := true, reason := BitVec.ofNat 8 reason, frame := a, startAt := elapsedW r.s,
                                     cfg := if r.detail = 0 then shOfEntry (entryOfBytes r.bytes) else j.cfg })
    | none => finishSample (fillSlot s j.cluster j.cls j.area j.slot) k j (reason + 0x80)

/-! ## SHAPER_SAMPLE_DONE -/

/-- A good sample of a stream becomes its replacement frame (R99); none is kept for a stream that has closed or a class
that is off. -/
def keepReplacement (s : State) (j : ShJob) : State :=
  if j.tune.isSome || j.replacing || (streamOf s j.stream).fmt.isNone || !rdb s R.BQ_EN (bqIx j.cluster j.cls) then s
  else
    let old := replacementOf s j
    let s := hold s j.frame
    let s := match old with | some a => release s a | none => s
    modBq s j.cluster j.cls (fun b => { b with repl := b.repl.filter (fun e => e.1 != j.stream) ++ [(j.stream, j.frame)] })

/-- What the slot entry says of the source frame. -/
def noteSource (s : State) (j : ShJob) (h : FrameHdr) (poison : Bool) : State :=
  if j.replacing then s
  else if poison then
    let (s, d) := drawFree s
    modSlot s j.cluster j.cls j.area j.slot (fun x => { x with
      time := BitVec.ofNat 64 (Config.slotField d 8), chunkTag := BitVec.ofNat 32 (Config.slotField d 16),
      flags := BitVec.ofNat 8 (Config.slotField d 20) })
  else
    modSlot s j.cluster j.cls j.area j.slot (fun x => { x with
      time := BitVec.ofNat 64 h.time, chunkTag := BitVec.ofNat 32 h.tag, flags := BitVec.ofNat 8 h.flags })

/-- The tensor and the gate map are written. -/
def writeSample (s : State) (k : Fin 8) (j : ShJob) (t : Shot) : State :=
  let pad := signedOf 8 (rd s R.BQ_PAD (bqIx j.cluster j.cls))
  let qs := t.tensor s j.tune pad
  let gate := t.gate s (allChangedGate j t.h)
  let at_ := slotAddr s j.cluster j.cls j.area j.slot
  let s := bump s R.SH_SAT k.val (qs.filter (fun q => q < -128 || q > 127)).length
  let s := memWrite s (16 + k.val) at_ (qs.map (fun q => BitVec.ofInt 8 (clampInt q (-128) 127))) false
  memWrite s (16 + k.val) (at_ + gateOff t.p) gate false

/-- v-cycles have passed since the sample's start (R91). -/
def passSample (s : State) (j : ShJob) (cycles : Nat) : State := passUntil s (j.startAt.toNat + vNs cycles)

/-- A sample that passed the setup is shaped, unless a read returns poison. -/
def shapeSample (s : State) (k : Fin 8) (j : ShJob) (t : Shot) : State :=
  let ls := t.lines (allChangedGate j t.h)
  let (s, n, poison) := readLines (16 + k.val) ls s 0
  let (s, bad) := hiddenRead s (.shaper k)
  if poison || bad then corruptSample (passSample s j (t.readCycles (ls.take n))) k j 1
  else
    let s := keepReplacement (writeSample (passSample s j t.cycles) k j t) j
    finishSample (releaseOwn s j) k j (if j.replacing then j.reason.toNat else 0)

/-- SHAPER_SAMPLE_DONE. A sample whose descriptor was poison has stopped at that read. -/
def shaperSampleDone (k : Fin 8) (s : State) : State :=
  match s.shs[k] with
  | none => s
  | some j =>
    if !j.started then s
    else if j.tune.isSome && j.reason != 0 then
      corruptSample (noteSource (passSample s j 512) j (parseFrame []) true) k j 1
    else
      let r := memRead s (16 + k.val) j.frame.toNat 64
      let h := parseFrame r.bytes
      let t := shotOf (jobCfg j) h j.frame.toNat
      let s := noteSource r.s j h r.poison
      match setupReason s j r.poison t with
      | 0 => shapeSample s k j t
      | c => corruptSample (passSample s j 512) k j c

def execShaperSampleDone (k : Fin 8) (s : State) : Host.Outcome State Fault Refusal := .next (shaperSampleDone k s)

/-- SH_DISABLE: the current sample finishes (R104). -/
def execShDisable (k : Fin 8) (s : State) : Host.Outcome State Fault Refusal := .next (if planesRun s then wrb s R.SH_CTL_EN k.val false else s)

/-! ## Site tuning (R100 to R103) -/

/-- Bits of a number. -/
def bitLength (n : Nat) : Nat := if n = 0 then 0 else Nat.log2 n + 1

/-- One round of the shuffle's Feistel network. -/
def shuffleRound (k mask : Nat) (lr : Nat × Nat) (j : Nat) : Nat × Nat :=
  let f := ((lr.2 + bitsOf k (16 * j) 16) * 0x2C1B3C6D) % 2 ^ 32
  let f := f ^^^ (f / 2 ^ 15)
  let f := (f * 0x297A2D39) % 2 ^ 32
  let f := f ^^^ (f / 2 ^ 12)
  (lr.2, lr.1 ^^^ (f &&& mask))

/-- One pass of four rounds. -/
def shufflePass (k half x : Nat) : Nat :=
  let mask := 2 ^ half - 1
  let lr := (List.range 4).foldl (shuffleRound k mask) (x / 2 ^ half, x &&& mask)
  lr.1 * 2 ^ half ||| lr.2

/-- Passes until the value lies below `n`: at most as many as the network has values. -/
def shuffleWalk (k half n : Nat) : Nat → Nat → Nat
  | 0, x => x
  | fuel + 1, x => let y := shufflePass k half x; if y < n then y else shuffleWalk k half n fuel y

/-- perm(p, seed, e, n) (R101). -/
def perm (p seed e n : Nat) : Nat :=
  if n = 1 then 0
  else
    let bits := max 2 (bitLength (n - 1))
    let half := (bits + bits % 2) / 2
    let k := seed ^^^ (e * 0x9E3779B97F4A7C15 % 2 ^ 64)
    shuffleWalk k half n (2 ^ (2 * half)) p

/-- The class has a position to start. -/
def tuneRuns (s : State) (c q : Fin 4) : Bool :=
  let i := bqIx c q
  classOn s c q && rdb s R.BQ_TUNE i && !rdb s R.BQ_DONE i && stage s < 2 && rd s R.BQ_LIST_N i != 0 &&
    rd s R.BQ_EPOCH i ≤ rd s R.BQ_EPOCH_LAST i

/-- The epoch's last batch has closed: the next epoch begins, or the class stops (R102). -/
def nextEpoch (s : State) (c q : Fin 4) : State :=
  let i := bqIx c q
  let e := rd s R.BQ_EPOCH i
  wrb (wr (wr s R.BQ_POS i 0) R.BQ_EPOCH i (e + 1)) R.BQ_DONE i (e ≥ rd s R.BQ_EPOCH_LAST i)

/-- The position has been started: its batch closes after the last of its positions. -/
def afterPosition (s : State) (c q a : Fin 4) (p : Nat) : State :=
  let i := bqIx c q
  if p + 1 = rd s R.BQ_LIST_N i then nextEpoch (closeBatch s c q a) c q
  else
    let s := wr s R.BQ_POS i (p + 1)
    if (p + 1) % bqSize s c q = 0 then closeBatch s c q a else s

/-- The sample of a descriptor: its stream's fields come from the context entry, unless the descriptor was poison. -/
def tuneJob (s : State) (c q a : Fin 4) (slot : Nat) (d : BitVec 256) (poison : Bool) : State × ShJob :=
  let n : Fin 1024 := Fin.ofNat 1024 (bitsOf d.toNat 64 10)
  let r : CtxRead := if poison then ⟨s, [], 5⟩ else encEntry s n
  (r.s, { stream := n, frame := BitVec.ofNat 48 d.toNat, cluster := c, cls := q, area := a, slot := slot, started := true,
          reason := if poison then 1 else 0, replacing := false, startAt := elapsedW s, cfg := if r.detail = 0 then shOfEntry (entryOfBytes r.bytes) else 0,
          tune := some d })

/-- SITE_TUNING_SAMPLE_START. -/
def siteTuningSampleStart (k : Fin 8) (c q : Fin 4) (s : State) : State :=
  if !shaperRuns s k || s.shs[k].isSome || !tuneRuns s c q then s
  else
    match nextArea s c q with
    | none => s
    | some a =>
      let i := bqIx c q
      let p := rd s R.BQ_POS i
      let entry := perm p (rd s R.BQ_SEED i) (rd s R.BQ_EPOCH i) (rd s R.BQ_LIST_N i)
      let slot := (areaOf s c q a).slots.length
      let r := memRead s (16 + k.val) (rd s R.BQ_LIST i * 32 + 32 * entry) 32
      let (s, j) := tuneJob r.s c q a slot (BitVec.ofNat 256 (natOfBytes r.bytes)) r.poison
      let s := reserveIn s c q a (tuneSampleId entry) (rd s R.BQ_EPOCH i)
      afterPosition { s with shs := s.shs.set k (some j) } c q a p

def execSiteTuningSampleStart (k : Fin 8) (c q : Fin 4) (s : State) : Host.Outcome State Fault Refusal :=
  .next (siteTuningSampleStart k c q s)

end Sys2Proof.Machine
end

