-- ==== Sys2Proof/Machine/Arbiter.lean ====
section
/-! DEFINITION. Arbitration of bag banks, DRAM ports and the host DMA engine (R256, R266 to R273, R277). Cycles are those of
the resource's domain, and come with the command. -/

namespace Sys2Proof.Machine

/-- The number of a resource. -/
def arbKey (r : ArbRes) : Nat :=
  match r with
  | .bagBank c b => c.val * 48 + b.val
  | .dramPort k => 192 + k.val
  | .hostDma => 208

/-- Requesters of a resource (R266). -/
def arbUnits (r : ArbRes) : Nat :=
  match r with
  | .bagBank _ _ => 16
  | .dramPort _ => 31
  | .hostDma => 32

/-- The longest transfer of a resource, in beats (R266). -/
def maxBeats (r : ArbRes) : Nat :=
  match r with
  | .bagBank _ _ => 16
  | .dramPort _ => 32
  | .hostDma => 8

/-! ## Classes (R256, R266, R290) -/

/-- PRIO of the job on a core. -/
def coreClass (s : State) (n : Fin 16) : Option Nat := s.cores[n].job.map (fun j => j.prio.toNat)

/-- PRIO of the job whose image a cluster's loader checks or copies. -/
def loaderClass (s : State) (c : Fin 4) : Option Nat :=
  match s.clusters[c].cur with
  | some (_, .running) => none
  | some (j, _) => some j.prio.toNat
  | none => none

/-- PRIO of a cached stream. -/
def streamClass (s : State) (n : Fin 1024) : Option Nat := (streamOf s n).ctx.map (fun c => ctlPrio c.entry)

/-- A DMA channel's class: 6 for channels 0 and 1, whatever their class field. -/
def channelClass (s : State) (k : Fin 64) : Nat := if k.val < 2 then 6 else rd s R.DMA_CH_CFG_CLASS k.val

/-- The channel has transfers to present: it fetches a descriptor, moves lines or writes STATUS. -/
def transfers (s : State) (k : Fin 64) : Bool :=
  match s.dma[k].phase with
  | .fetch _ => rdb s R.DMA_CH_CFG_EN k.val
  | .move _ => true
  | .arrive _ _ => true
  | _ => false

/-- The classes that the DMA subsystem's transfers carry: those of the channels that have some (R290), and class 7 for the
BPM's traffic (R281). -/
def dmaClasses (s : State) : List Nat := 7 :: ((List.finRange 64).filter (transfers s)).map (channelClass s)

/-- The class of a request of the DMA subsystem, which carries the class of its own transfer. One that no transfer carries any
more has the class of a channel that changed it: the highest that a channel now carries (R272). -/
def dmaClass (s : State) (cls : Nat) : Nat :=
  if (dmaClasses s).contains cls then cls else (dmaClasses s).tail.foldl max 0

/-- The class of a batch fill: that of the classes of the cluster whose batches are being filled, if they agree. -/
def fillClass (s : State) (c : Fin 4) : Option Nat :=
  let live := ((List.finRange 4).filter (fun q => (List.finRange 4).any (fun a =>
    (areaOf s c q a).st == .closed && !(unfilled (areaOf s c q a)).isEmpty))).map (fun q => rdb s R.BQ_LIVE (bqIx c q))
  if live.isEmpty then none else if live.all (fun b => b) then some 7 else if live.any (fun b => b) then none else some 3

/-- The class that the state gives a requester of a bag bank (its indices: log entry 191): cores' tensor reads 0 to 3, tensor
writes 4 to 7 and vector and scalar accesses 8 to 11, the fabric 12 and 13, the batch fill 14, the loader 15. -/
def bagClass (s : State) (c : Fin 4) (idx : Nat) : Option Nat :=
  if idx < 12 then coreClass s (coreOf c (Fin.ofNat 4 idx))
  else if idx = 14 then fillClass s c
  else if idx = 15 then loaderClass s c
  else none

/-- The class of a request at a DRAM port, which presents itself with class `cls`, as the state gives it (R266). -/
def dramClass (s : State) (idx cls : Nat) : Option Nat :=
  if idx < 12 then s.vds[(Fin.ofNat 12 idx)].bind (fun j => streamClass s j.stream)
  else if idx < 16 then s.ves[(Fin.ofNat 4 (idx - 12))].bind (fun j => streamClass s j.stream)
  else if idx < 24 then s.shs[(Fin.ofNat 8 (idx - 16))].bind (fun j => streamClass s j.stream)
  else if idx = 24 then some (dmaClass s cls)
  else if idx < 29 then loaderClass s (Fin.ofNat 4 (idx - 25))
  else some (if idx = 29 then 4 else 7)

/-- The class of a request: the one that the state gives its requester, or else the one that its transfer carries. -/
def reqClass (s : State) (r : ArbRes) (q : ArbReq) : Fin 8 :=
  Fin.ofNat 8 ((match r with
    | .bagBank c _ => bagClass s c q.idx
    | .dramPort _ => dramClass s q.idx q.cls.val
    | .hostDma => some (channelClass s (Fin.ofNat 64 q.idx))).getD q.cls.val)

/-- The request with its class at this decision (R272). -/
def classed (s : State) (r : ArbRes) (q : ArbReq) : ArbReq := { q with cls := reqClass s r q }

/-- The registers of a resource's arbiter set and their index (R277). -/
def arbField (r : ArbRes) (bag drp hde : RegField) : RegField × Nat :=
  match r with
  | .bagBank c _ => (bag, c.val)
  | .dramPort k => (drp, k.val)
  | .hostDma => (hde, 0)

def arbPreempts (s : State) (r : ArbRes) : Bool :=
  let f := arbField r R.BAG_ARB_CTL_PREEMPT_EN R.DRP_ARB_CTL_PREEMPT_EN R.HDE_ARB_CTL_PREEMPT_EN
  rdb s f.1 f.2

/-- Adds to a counter of the set. -/
def arbBump (s : State) (r : ArbRes) (bag drp hde : RegField) : State :=
  let f := arbField r bag drp hde
  bump s f.1 f.2 1

/-- Raises a maximum of the set. -/
def arbRaise (s : State) (r : ArbRes) (bag drp hde : RegField) (v : Nat) : State :=
  let f := arbField r bag drp hde
  raiseTo s f.1 f.2 v

def ArbSt.init : ArbSt := { losses := 0, promoted := none, until_ := 0, left := none }

def arbSt (s : State) (r : ArbRes) (idx : Nat) : ArbSt := storeGet ArbSt.init s.arb (arbKey r * 64 + idx)

def modArb (s : State) (r : ArbRes) (idx : Nat) (f : ArbSt → ArbSt) : State :=
  { s with arb := storeSet ArbSt.init s.arb (arbKey r * 64 + idx) (f (arbSt s r idx)) }

def grantOf (s : State) (r : ArbRes) : Option Grant := storeGet none s.grants (arbKey r)
def setGrant (s : State) (r : ArbRes) (g : Option Grant) : State := { s with grants := storeSet none s.grants (arbKey r) g }

/-- Cycles of a beat on the chip; the length of a TLP is not fixed. -/
def beatCycles (r : ArbRes) : Option Nat :=
  match r with
  | .bagBank _ _ => some 1
  | .dramPort _ => some 4
  | .hostDma => none

/-- The request that the holder presents for what is left of its transfer: it has the same age. -/
def holderEntry (g : Grant) (present : List ArbReq) : Option ArbReq :=
  present.find? (fun q => q.idx == g.req.idx && q.ready == g.req.ready)

/-- Beats of the grant performed when the beat of cycle `c` is over. -/
def beatsDone (r : ArbRes) (g : Grant) (present : List ArbReq) (c : Nat) : Nat :=
  match beatCycles r with
  | some n => min g.req.beats ((c + 1 - g.from_ + (n - 1)) / n)
  | none => match holderEntry g present with
    | some q => g.req.beats - q.beats
    | none => g.req.beats

/-- The grant is in force in cycle `c`, and this is not its last beat. -/
def holding (r : ArbRes) (g : Grant) (present : List ArbReq) (c : Nat) : Bool := beatsDone r g present c < g.req.beats

/-- The grant is in force in cycle `c`. -/
def inForce (r : ArbRes) (g : Grant) (present : List ArbReq) (c : Nat) : Bool :=
  match beatCycles r with
  | some n => c < g.from_ + g.req.beats * n
  | none => (holderEntry g present).isSome

/-- Rules 2 to 4 of R268: class, age, index. -/
def classRank (x y : ArbReq) : Bool :=
  if x.cls ≠ y.cls then y.cls < x.cls
  else if x.ready ≠ y.ready then x.ready < y.ready
  else x.idx < y.idx

/-- One request ranks above another (R268). -/
def outranks (s : State) (r : ArbRes) (x y : ArbReq) : Bool :=
  match (arbSt s r x.idx).promoted, (arbSt s r y.idx).promoted with
  | some a, some b => if a ≠ b then a < b else classRank x y
  | some _, none => true
  | none, some _ => false
  | none, none => classRank x y

/-- The highest-ranked request. -/
def bestReq (s : State) (r : ArbRes) (l : List ArbReq) : Option ArbReq :=
  l.foldl (fun o q => match o with
    | none => some q
    | some p => if outranks s r q p then some q else some p) none

/-- A request loses in cycle `c`: it takes a breath count, and the eighth loss in a row promotes it (R269, R270). -/
def lose (r : ArbRes) (c : Nat) (breath : Bool) (s : State) (idx : Nat) : State :=
  let st := arbSt s r idx
  let n := st.losses + 1
  let b := if breath then min (2 ^ n) 1024 else 1
  let s := arbBump s r R.BAG_ARB_LOSSES R.DRP_ARB_LOSSES R.HDE_ARB_LOSSES
  let s := if breath then arbRaise s r R.BAG_ARB_BREATH_MAX R.DRP_ARB_BREATH_MAX R.HDE_ARB_BREATH_MAX b else s
  let s := modArb s r idx (fun x => { x with losses := n, until_ := c + b })
  if n < 8 ∨ st.promoted.isSome then s
  else
    let s := arbBump s r R.BAG_ARB_PROMOTIONS R.DRP_ARB_PROMOTIONS R.HDE_ARB_PROMOTIONS
    modArb s r idx (fun x => { x with promoted := some c })

/-- What is left of a transfer that was displaced, with its first presentation; any other transfer as it is presented. -/
def resumedReq (st : ArbSt) (q : ArbReq) : ArbReq :=
  match st.left with
  | some (ready, beats, first) => if ready = q.ready then { q with beats := beats, first := first } else q
  | none => q

/-- A request wins in cycle `c`: its first beat follows in the next (R267, R269). -/
def win (s : State) (r : ArbRes) (c : Nat) (q : ArbReq) : State :=
  let q := resumedReq (arbSt s r q.idx) q
  let s := arbBump s r R.BAG_ARB_GRANTS R.DRP_ARB_GRANTS R.HDE_ARB_GRANTS
  let s := arbRaise s r R.BAG_ARB_WAIT_MAX R.DRP_ARB_WAIT_MAX R.HDE_ARB_WAIT_MAX (c - q.first)
  let s := modArb s r q.idx (fun _ => ArbSt.init)
  setGrant s r (some { req := q, from_ := c + 1 })

/-- The holder is displaced: it keeps its progress and its age, and presents again in the next cycle (R271). -/
def displace (s : State) (r : ArbRes) (c : Nat) (g : Grant) (done : Nat) : State :=
  let s := arbBump (lose r c false s g.req.idx) r R.BAG_ARB_PREEMPTS R.DRP_ARB_PREEMPTS R.HDE_ARB_PREEMPTS
  modArb s r g.req.idx (fun x => { x with left := some (g.req.ready, g.req.beats - done, g.req.first) })

/-- The requests that take part: those not breathing, or all if none is there and nothing is granted (R269). -/
def taking (s : State) (r : ArbRes) (c : Nat) (busy : Bool) (l : List ArbReq) : List ArbReq :=
  let ready := l.filter (fun q => (arbSt s r q.idx).until_ ≤ c)
  if ready.isEmpty && !busy then l else ready

/-- The best of the requests wins and the others lose. -/
def decide_ (s : State) (r : ArbRes) (c : Nat) (l : List ArbReq) : State :=
  match bestReq s r l with
  | some w => win (((l.filter (fun q => q.idx != w.idx)).map (fun q => q.idx)).foldl (lose r c true) s) r c w
  | none => s

/-- ARB_DECISION. A request of more beats than a transfer has is none. While a grant is in force and not in its last beat, a
decision is made only if pre-emption is enabled and some request outranks the holder. -/
def arbDecision (r : ArbRes) (c : Nat) (present : List ArbReq) (s : State) : State :=
  let present := (present.filter (fun q => q.idx < arbUnits r && 1 ≤ q.beats && q.beats ≤ maxBeats r)).map (classed s r)
  match grantOf s r with
  | none => decide_ s r c (taking s r c false present)
  | some g =>
    if !inForce r g present c then decide_ s r c (taking s r c false present)
    else if !holding r g present c then decide_ s r c (taking s r c true present)
    else
      let now_ := (holderEntry g present).getD (classed s r g.req)
      let others := taking s r c true (present.filter (fun q => q.idx != g.req.idx))
      if arbPreempts s r && others.any (fun q => outranks s r q now_) then
        decide_ (displace s r c g (beatsDone r g present c)) r c others
      else s

def execArbDecision (r : ArbRes) (cycle : Nat) (present : List ArbReq) (s : State) : Host.Outcome State Fault Refusal :=
  .next (if planesRun s then arbDecision r cycle present s else s)

/-- ARB_BREATH_END: the requester presents again. -/
def execArbBreathEnd (r : ArbRes) (idx : Nat) (s : State) : Host.Outcome State Fault Refusal :=
  .next (if planesRun s && idx < arbUnits r then modArb s r idx (fun x => { x with until_ := 0 }) else s)

end Sys2Proof.Machine
end

