-- ==== Sys2Proof/Machine/TensorIssue.lean ====
section
/-! DEFINITION. The issue of tensor instructions: bounds and checks (R211 to R223, R234 to R236). -/

namespace Sys2Proof.Machine

/-! ## Bounds (R215) -/

/-- The outcome of reading a bound: its value, or the trap it raises. -/
inductive BoundRes where
  | val (v : Nat)
  | trap (cause : TrapCause) (addr : Nat)

/-- The plan's maxima, by position M, N, K, BATCH. -/
def planMax (p : PlanEntry) (pos : Nat) : Nat :=
  match pos with
  | 0 => p.mMax
  | 1 => p.nMax
  | 2 => p.kMax
  | _ => p.batchMax

/-- One bound: a register, a word in memory, or the plan's maximum. -/
def readBound (s : State) (n : Fin 16) (i : TensorInsn) (src : BitVec 6) (pos : Nat) : State × BoundRes :=
  let c := s.cores[n]
  let ix : Fin 16 := Fin.ofNat 16 src.toNat
  match src.toNat / 16 with
  | 0 => (s, .val c.b[ix].toNat)
  | 1 =>
    let a := (c.a[ix] + BitVec.ofNat 48 (4 * pos)).toNat
    if !ownMem s n a 4 then (s, .trap .addrRange a)
    else if a % 4 ≠ 0 then (s, .trap .misaligned a)
    else
      let r := memRead s n.val a 4
      (r.s, if r.poison then .trap .poisonLoad a else .val (natOfBytes r.bytes))
  | 2 =>
    match planEntry? c i with
    | some p => (s, if ix.val = 0 then .val (planMax p pos) else .trap .illegal 0)
    | none => (s, .trap .illegal 0)
  | _ => (s, .trap .illegal 0)

/-! ## The checks at issue (R216) -/

/-- Fields that every form must hold at 0, and those a form does not use (check 1). -/
def unusedZero (op : TOp) (i : TensorInsn) : Bool :=
  i.Z1a == 0 && i.Z1b == 0 && i.Z2 == 0 &&
    (op.window || (bitsOf i.W3.toNat 1 15 == 0 && bitsOf i.W3.toNat 32 32 == 0)) &&
    (op.window || op == .tqk || i.W3 == 0) &&
    (!op.window || bitsOf i.W3.toNat 0 22 == 0) &&
    (!op.reducer || (i.TY == 0 && i.TE == 0 && i.GS == 0)) && (op != .tbd || i.TE == 0) &&
    (i.MASK != 0 || (i.TM == 0 && !i.COPY)) &&
    ((op.streamed && fmtInt i.FX.toNat) || i.TAG_BASE == 0)

/-- No reserved code (check 1). GS is ignored for floating-point formats. -/
def codesOk (i : TensorInsn) : Bool :=
  i.SHAPE != 3 && (i.GS != 3 || !fmtInt i.FX.toNat) && i.MASK != 3 && i.FX.toNat ≤ 8 && i.FY.toNat ≤ 8 && i.FD.toNat ≤ 8

/-- Every named t-register holds a descriptor of the kind its role requires (R223, R236). -/
def descriptorsOk (c : Core) (e : TEntry) : Bool :=
  let op := e.op
  denseOk (xD c e) && denseOk (dD c e) && dLayout (dD c e) ≤ 1 && dLayout (xD c e) ≤ 4 &&
    (!op.window || windowXOk op (xD c e)) &&
    (match op with
      | .tmm | .tbd => streamOk (yD c e) && (integerPath e || scaleBase c e == 0)
      | .tconv => convYOk (yD c e) && (integerPath e || scaleBase c e == 0)
      | .tpool | .trsz => true
      | _ => denseOk (yD c e) && dLayout (yD c e) ≤ 1) &&
    (op.tune || op.reducer || epilogueOk (eD c e)) && (e.insn.MASK == 0 || maskOk (mD c e)) &&
    (!readsColumns e || !eAccum (eD c e)) && (!accumulates c e || fdOf e == 8) && !(e.insn.CX && dLayout (xD c e) ≥ 2)

/-- The window fields (R234, R235), and what some forms require of the epilogue (R222, R234). -/
def formOk (e : TEntry) : Bool :=
  let op := e.op
  let i := e.insn
  (!op.window || (wKH e != 0 && wKW e != 0 && wSY e != 0 && wSX e != 0 && wDY e != 0 && wDX e != 0)) &&
    (match op with
      | .tconv | .tdw => wSub e == 0
      | .tpool => wSub e ≤ 2
      | .trsz => wSub e ≤ 1 && wKH e == 1 && wKW e == 1 && wDY e == 1 && wDX e == 1 && wSY e ≤ 8 && wSX e ≤ 8
      | _ => true) &&
    (!op.reducer || (!i.CHK && !i.BIAS && i.ACT == 0)) && (!op.tune || (!i.BIAS && i.ACT == 0))

/-- The format rules of R170, R213, R214 and R234. -/
def formatsOk (e : TEntry) : Bool :=
  let fx := fxOf e
  let fy := fyOf e
  let fd := fdOf e
  (match e.op with
    | .tmm | .tconv => fmtPair fx fy
    | .tbd | .twg => fx == 6 && fy == 6 && (fd == 6 || fd == 8)
    | .tqk | .tpv => (fx ≤ 1 && fy == 0) || (fmtClass fx == 2 && fmtClass fy == 2) || (fx == 6 && fy == 6)
    | .tdw => fx ≤ 1 && (fy == 0 || fy == 2)
    | .tpool | .trsz => fx ≤ 1 && fy == fx && fd == fx) &&
    (!e.insn.CD || fd ≤ 1) && (!e.insn.CX || fx ≤ 1)

/-- UINT8 counts as INT8 and UINT4 as INT4 in the check against the plan's FMT (R214). -/
def signedFmt (f : Nat) : Nat := match f with | 1 => 0 | 3 => 2 | _ => f

/-- Agreement with the plan entry, the core and the form (check 2). -/
def planOk (n : Fin 16) (c : Core) (e : TEntry) (p : PlanEntry) : Bool :=
  signedFmt (fxOf e) == signedFmt p.actFmt && signedFmt (fyOf e) == signedFmt p.wgtFmt && e.insn.SHAPE.toNat == p.shape &&
    e.insn.GATHER == p.gather &&
    ((p.compression == 0) == (!e.insn.CX && !e.insn.CD)) && formatsOk e && (!e.insn.GATHER || n.val % 4 == 0) &&
    (e.insn.SHAPE == 0 || e.op == .tmm || e.op == .tqk || e.op == .tpv) && (!e.op.tune || c.plan.tune) &&
    (dLayout (xD c e) ≤ 1 || (e.insn.GATHER && fxOf e != 2 && fxOf e != 3))

/-- Checks 1 and 2. -/
def legal (n : Fin 16) (c : Core) (e : TEntry) (p : PlanEntry) : Bool :=
  codesOk e.insn && unusedZero e.op e.insn && descriptorsOk c e && formOk e && planOk n c e p

/-- Check 3. -/
def withinPlan (e : TEntry) (p : PlanEntry) : Bool :=
  e.M ≤ p.mMax && e.N ≤ p.nMax && e.K ≤ p.kMax && e.BATCH ≤ p.batchMax

/-- The limits of a weight stream: K and N within what it was packed for (R220, R221, R242). -/
def streamLimits (c : Core) (e : TEntry) : Bool :=
  match e.op with
  | .tmm => e.K ≤ packK c e && e.N ≤ packN c e
  | .tbd => e.N ≤ packK c e && e.K ≤ packN c e
  | .tconv => e.K ≤ redC c e && e.N ≤ packN c e
  | _ => true

/-- Check 4: none, or the base address of the operand that fails. -/
def extentFault (c : Core) (e : TEntry) (p : PlanEntry) : Option Nat :=
  if e.M > p.mExt ∨ e.K > p.kExt then some (dBase (xD c e))
  else if e.N > p.nExt then some (dBase (dD c e))
  else if !streamLimits c e then some (dBase (yD c e))
  else none

/-- Check 5: the first operand region with a byte outside the core's own memory or its cluster's bag. -/
def regionFault (s : State) (n : Fin 16) (e : TEntry) : Option Nat :=
  let c := s.cores[n]
  let outside := fun (r : Span) => r.2 != 0 && !ownMem s n r.1 r.2
  let outsideY := fun (r : Span) => outside r || (e.insn.SHAPE != 0 && r.2 != 0 && !ownCoreMem n r.1)
  ((spansX c e).find? outside <|> (spansY c e).find? outsideY <|> (spansScale c e).find? outside <|>
    (spansCol c e).find? outside <|> (spansMask c e).find? outside <|> (spansD c e).find? outside <|>
    (spansH c e).find? outside).map (fun r => r.1)

/-- The checkpoint area of a core (R151). -/
def ckptSpan (s : State) (n : Fin 16) : Span := (rd s R.ARRAY_CKPT_BASE_BASE n.val * 2 ^ 12, 428 * 1024)

/-- Check 6: a region in the checkpoint area, or a destination over what the instruction reads. -/
def overlapFault (s : State) (n : Fin 16) (e : TEntry) : Option Nat :=
  let c := s.cores[n]
  let src := spansX c e ++ spansY c e ++ spansScale c e ++ spansCol c e ++ spansMask c e
  let dst := spansD c e ++ spansH c e
  let inCkpt := fun r => rdb s R.ARRAY_CTL_PREEMPT_EN n.val && spanMeets r (ckptSpan s n)
  ((src ++ dst).find? inCkpt <|> dst.find? (fun r => src.any (spanMeets r))).map (fun r => r.1)

/-- The trap of a tensor instruction at issue. -/
def trapTensor (s : State) (n : Fin 16) (e : TEntry) (cause : TrapCause) (addr : Nat) : State :=
  trap s n cause { insn := encodeTensor0 e.op.code e.insn, addr := addr }

/-- A zero-shape no-op (R216, R238). -/
def zeroShape (c : Core) (e : TEntry) : Bool :=
  e.M == 0 || e.N == 0 || e.K == 0 || e.BATCH == 0 || (e.op.window && rowsM c e == 0)

/-- WIN_LAST and WIN_TAPS_SKIPPED, written when a window operator issues (R249, R250). -/
def noteWindow (s : State) (n : Fin 16) (e : TEntry) : State :=
  if !e.op.window then s
  else
    let c := s.cores[n]
    let live := (liveTaps c e).length
    let lay := min 2 (dLayout (xD c e))
    let s := wr (wr (wr s R.WIN_LAST_TAPS_LIVE n.val live) R.WIN_LAST_PASSES_LIVE n.val (livePasses c e)) R.WIN_LAST_LAYOUT n.val lay
    bump s R.WIN_TAPS_SKIPPED n.val (wKH e * wKW e - live)

/-- TENSOR_ISSUE_CHECK, for bounds that have been read: a trap, a zero-shape no-op, or the queue. -/
def issueChecked (s : State) (n : Fin 16) (e : TEntry) : State :=
  let c := s.cores[n]
  match planEntry? c e.insn with
  | none => trapTensor s n e .illegal e.addr.toNat
  | some p =>
    if !legal n c e p then trapTensor s n e .illegal e.addr.toNat
    else if !withinPlan e p then trapTensor s n e .boundOverPlan e.addr.toNat
    else
      match extentFault c e p <|> regionFault s n e <|> overlapFault s n e with
      | some a => trapTensor s n e .tensorRange a
      | none =>
        if zeroShape c e then bump (retire s n 32) R.CORE_ZERO_SHAPE n.val 1
        else modCore (noteWindow (retire s n 32) n e) n (fun c => { c with tq := c.tq ++ [e] })

/-- Reads the four bounds in order; the first that traps ends the issue. -/
def issueBounds (s : State) (n : Fin 16) (op : TOp) (i : TensorInsn) : State :=
  let mk := fun m k b nn => ({ op := op, insn := i, addr := s.cores[n].pc, M := m, N := nn, K := k, BATCH := b } : TEntry)
  let fail := fun (t : State) cause a => trapTensor t n (mk 0 0 0 0) cause a
  let r1 := readBound s n i i.MSRC 0
  match r1.2 with
  | .trap c a => fail r1.1 c a
  | .val m =>
    let r2 := readBound r1.1 n i i.NSRC 1
    match r2.2 with
    | .trap c a => fail r2.1 c a
    | .val nn =>
      let r3 := readBound r2.1 n i i.KSRC 2
      match r3.2 with
      | .trap c a => fail r3.1 c a
      | .val k =>
        let r4 := readBound r3.1 n i i.BSRC 3
        match r4.2 with
        | .trap c a => fail r4.1 c a
        | .val b => issueChecked r4.1 n (mk m k b nn)

/-- A tensor instruction at the core's PC: a misaligned one is ILLEGAL (R191), a false guard retires it, and a full
queue of four stalls it (R121, R211). -/
def issueTensor (n : Fin 16) (op : TOp) (i : TensorInsn) (s : State) : State :=
  if !canIssue s n then s
  else if !ownCoreMem n s.cores[n].pc.toNat || !ownCoreMem n (s.cores[n].pc.toNat + 31) then
    trap s n .fetchRange { addr := s.cores[n].pc.toNat }
  else if s.cores[n].pc.toNat % 32 ≠ 0 then
    trap s n .illegal { insn := encodeTensor0 op.code i, addr := s.cores[n].pc.toNat }
  else if !guardTrue s.cores[n] i.PG i.PN then retire s n 32
  else if s.cores[n].tq.length ≥ 4 then s
  else issueBounds s n op i

/-- TMM (R213). -/
def execTmm (n : Fin 16) (w : TensorInsn) (s : State) : Host.Outcome State Fault Refusal := .next (issueTensor n .tmm w s)
/-- TBD (R213, R221). -/
def execTbd (n : Fin 16) (w : TensorInsn) (s : State) : Host.Outcome State Fault Refusal := .next (issueTensor n .tbd w s)
/-- TWG (R213, R222). -/
def execTwg (n : Fin 16) (w : TensorInsn) (s : State) : Host.Outcome State Fault Refusal := .next (issueTensor n .twg w s)
/-- TQK (R213, R229). -/
def execTqk (n : Fin 16) (w : TensorInsn) (s : State) : Host.Outcome State Fault Refusal := .next (issueTensor n .tqk w s)
/-- TPV (R213). -/
def execTpv (n : Fin 16) (w : TensorInsn) (s : State) : Host.Outcome State Fault Refusal := .next (issueTensor n .tpv w s)
/-- TCONV (R234). -/
def execTconv (n : Fin 16) (w : TensorInsn) (s : State) : Host.Outcome State Fault Refusal := .next (issueTensor n .tconv w s)
/-- TDW (R234, R244). -/
def execTdw (n : Fin 16) (w : TensorInsn) (s : State) : Host.Outcome State Fault Refusal := .next (issueTensor n .tdw w s)
/-- TPOOL (R234, R245). -/
def execTpool (n : Fin 16) (w : TensorInsn) (s : State) : Host.Outcome State Fault Refusal := .next (issueTensor n .tpool w s)
/-- TRSZ (R234, R246). -/
def execTrsz (n : Fin 16) (w : TensorInsn) (s : State) : Host.Outcome State Fault Refusal := .next (issueTensor n .trsz w s)

end Sys2Proof.Machine
end

