-- ==== Sys2Proof/Machine/TensorRun.lean ====
section
/-! DEFINITION. The tensor sequencer at work: reduction steps, group closes, the epilogue, the window reducer, copies
and faults (R124 to R149, R157 to R174, R218 to R248). One step performs in every row at once: the skew of R127 is
timing. -/

namespace Sys2Proof.Machine

/-! ## Reading operands -/

/-- Distinct 128 B lines of byte ranges. -/
def linesOf (rs : List Span) : List Nat :=
  (rs.flatMap (fun r => if r.2 = 0 then [] else (List.range ((r.1 + r.2 - 1) / 128 - r.1 / 128 + 1)).map (· + r.1 / 128))).eraseDups

/-- Lines read of a core memory and of a bag are counted, at each reduction step anew (DESIGN CHOICE, log entry 241). -/
def countLines (s : State) (n : Fin 16) (rs : List Span) : State :=
  let ls := linesOf rs
  let own := (ls.filter (fun l => ownCoreMem n (l * 128))).length
  bump (bump s R.CMEM_BEATS_RD n.val own) R.BAG_BEATS_RD (clusterOf n).val (ls.length - own)

/-- Reads operand bytes: their errors are met, and poison among them is reported. -/
def operandRead (s : State) (n : Fin 16) (rs : List Span) : State × Bool :=
  let s := countLines s n rs
  let bad := s.ecc.filter (fun x => rs.any (fun r => spanMeets r (x.1, 8)))
  let s := bad.foldl (checkWord n.val) s
  (s, bad.any (fun x => eccAt s x.1 == .poison))

/-! ## Faults (R149, R150) -/

/-- ARRAY_FAULT as it reads (R153). -/
def arrayFaultValue (s : State) (n : Fin 16) : Nat :=
  rd s R.ARRAY_FAULT_SCALE_SYNC n.val + rd s R.ARRAY_FAULT_CHECKSUM n.val * 2 + rd s R.ARRAY_FAULT_POISON n.val * 4 +
    rd s R.ARRAY_FAULT_CKPT n.val * 8 + rd s R.ARRAY_FAULT_STOP_SHED n.val * 16 + rd s R.ARRAY_FAULT_CKPT_CFG n.val * 32 +
    rd s R.ARRAY_FAULT_ARRAY n.val * 256 + rd s R.ARRAY_FAULT_AXIS n.val * 512 + rd s R.ARRAY_FAULT_INDEX n.val * 2 ^ 16

/-- The cause bit of ARRAY_FAULT. -/
def faultField (cause : TrapCause) : RegField :=
  match cause with
  | .scaleSyncFault => R.ARRAY_FAULT_SCALE_SYNC
  | .checksumFault => R.ARRAY_FAULT_CHECKSUM
  | .poisonOperand => R.ARRAY_FAULT_POISON
  | .stopShed => R.ARRAY_FAULT_STOP_SHED
  | _ => R.ARRAY_FAULT_CKPT

/-- Where a fault was found: array, axis and index. -/
structure FaultAt where
  arr : Nat := 0
  axis : Nat := 0
  index : Nat := 0

/-- PROGRESS: the index of the next reduction element, or of the next step in a window operator (R145, R242). -/
def progressOf (r : TRun) : Nat := if r.e.op.window then r.step else r.step * perStep (fxOf r.e) (fyOf r.e)

/-- ARRAY_FAULT records a fault (R140, R150, R153): ARRAY is that of the first fault since its cause bits were clear, AXIS
and INDEX are those of a checksum fault. -/
def recordFault (s : State) (n : Fin 16) (cause : TrapCause) (f : FaultAt) : State :=
  let s := if arrayFaultValue s n % 32 = 0 then wr s R.ARRAY_FAULT_ARRAY n.val f.arr else s
  let s := if cause = .checksumFault then wr (wr s R.ARRAY_FAULT_AXIS n.val f.axis) R.ARRAY_FAULT_INDEX n.val f.index else s
  wrb s (faultField cause) n.val true

/-- The arrays have worked in this c-cycle (R133). -/
def noteBusy (s : State) (n : Fin 16) : State := modCore s n (fun c => { c with busyAt := s.clock.cyc })

/-- The log entry that names a fault's core, array, cause and progress count (R150; its code: log entry 188). -/
def logFault (s : State) (n : Fin 16) (cause : TrapCause) (arr prog : Nat) : State :=
  logIt s planeData 0x32 (Config.faultEntry (causeCode cause) 0) (Config.faultEntry (causeCode cause) 1 % 6) n.val
    (Config.arrayArg n.val arr) prog

/-- The core traps with a tensor fault, its latched rows already dealt with. -/
def tensorTrap (s : State) (n : Fin 16) (cause : TrapCause) (f : FaultAt) (r : TRun) (tile : Nat) : State :=
  let s := logFault (recordFault s n cause f) n cause f.arr (progressOf r)
  trap s n cause { insn := encodeTensor0 r.e.op.code r.e.insn, addr := r.e.addr.toNat, tile := tile,
                   progress := progressOf r, detail := arrayFaultValue s n }

/-! ## The epilogue of one element (R165 to R170, R229) -/

/-- Rounds to FP32. A finite overflow saturates in the integer path and becomes infinite in the floating-point paths. -/
def round32 (intPath : Bool) (v : Fv) : Nat × Nat :=
  let r := fpRound fp32 v
  (if r.tooBig && intPath then (match v with | .fin s _ _ => fpMax fp32 s | _ => r.bits) else r.bits, b2n r.flush)

def f32 (bits : Nat) : Fv := fpDecode fp32 bits

/-- What an element's epilogue gives: the raw bits, and what it counts. -/
structure EpiRes where
  raw : Nat
  sat : Bool := false
  nonfinite : Bool := false
  flushes : Nat := 0
  masked : Bool := false
  deriving DecidableEq, Repr

/-- Two's complement bits of an integer of a format. -/
def rawOf (f : Nat) (x : Int) : Nat := (BitVec.ofInt (fmtBits f) x).toNat

/-- An integer clamped to its format. -/
def clampFmt (f : Nat) (x : Int) : Nat := rawOf f (clampInt x (intMin f) (intMax f))

/-- The largest finite value of a format with a sign. -/
def maxFinite (f : Nat) (neg : Bool) : Nat := fpMax (fmtOf f) neg

/-- convert (R168). -/
def convertTo (f : Nat) (v : Fv) (zo : Int) : EpiRes :=
  if fmtInt f then
    match v with
    | .nan => { raw := clampFmt f zo, sat := true, nonfinite := true }
    | .inf neg => { raw := rawOf f (if neg then intMin f else intMax f), sat := true, nonfinite := true }
    | .fin neg m e =>
      let x := fvToInt neg m e + zo
      { raw := clampFmt f x, sat := x < intMin f || x > intMax f }
  else
    match v with
    | .nan => { raw := fpNan (fmtOf f), nonfinite := true }
    | .inf neg => { raw := maxFinite f neg, sat := true, nonfinite := true }
    | .fin neg _ _ =>
      let r := fpRound (fmtOf f) v
      if r.tooBig then { raw := maxFinite f neg, sat := true } else { raw := r.bits, flushes := b2n r.flush }

/-- act (R167): the value, flushes, and whether a parameter it used is not finite. -/
def activate (intPath : Bool) (act lo hi alpha y : Nat) : Nat × Nat × Bool :=
  let v := f32 y
  match act with
  | 1 => (if fpLt v fvZero || fpEq v fvZero then 0 else y, 0, false)
  | 2 => (if fpLt v (f32 lo) then lo else if fpLt (f32 hi) v then hi else y, 0,
          !(f32 lo).isFinite || !(f32 hi).isFinite)
  | 3 =>
    if fpLt v fvZero then
      let r := round32 intPath (fpMul v (f32 alpha))
      (r.1, r.2, !(f32 alpha).isFinite)
    else (y, 0, false)
  | _ => (y, 0, false)

/-- A column entry (R166). -/
structure ColEntry where
  bias : Nat
  os : Nat
  zo : Int
  const : Bool
  deriving DecidableEq, Repr

def parseCol (bs : List Byte) : ColEntry :=
  { bias := fieldOf bs 0 4, os := fieldOf bs 4 4, zo := signedOf 16 (fieldOf bs 8 2), const := bitOf (fieldOf bs 10 1) 0 }

/-- The column entry of output channel `n`; a form that reads no table has scale 1.0 and nothing else (R170). -/
def colEntry (s : State) (c : Core) (e : TEntry) (n : Nat) : ColEntry :=
  if readsColumns e then parseCol (peek s (eColBase (eD c e) + 16 * n) 16) else ⟨0, 0x3F800000, 0, false⟩

/-- The epilogue of destination element (m, n), given M and, under ACCUM, the value already there. -/
def epiElem (c : Core) (e : TEntry) (col : ColEntry) (m n : Nat) (acc old : Nat) : EpiRes :=
  let f := fdOf e
  let ip := integerPath e
  if tCausal e && (n : Int) > m + tOffset e then
    { raw := if fmtInt f then rawOf f (intMin f) else maxFinite f true, masked := true }
  else if col.const then
    { raw := if fmtInt f then clampFmt f col.zo else (fpRound (fmtOf f) (fvOfInt col.zo)).bits }
  else
    let y0 := if accumulates c e then round32 ip (fpAdd (f32 acc) (f32 old))
      else if e.insn.BIAS then round32 ip (fpAdd (f32 acc) (f32 col.bias))
      else (acc, 0)
    let added := (accumulates c e && !(f32 old).isFinite) || (e.insn.BIAS && !(f32 col.bias).isFinite)
    let y := activate ip (if readsColumns e then e.insn.ACT.toNat else 0) (eLo (eD c e)) (eHi (eD c e)) (eAlpha (eD c e)) y0.1
    let r := convertTo f (fpMul (f32 y.1) (f32 col.os)) col.zo
    { r with
      flushes := r.flushes + y0.2 + y.2.1
      nonfinite := r.nonfinite || !(f32 acc).isFinite || added || !(f32 y0.1).isFinite || y.2.2 ||
        !(f32 y.1).isFinite || !(f32 col.os).isFinite }

/-- Counts what the epilogue of elements counted; `at_` names the first cell for the log. -/
def countEpi (s : State) (n : Fin 16) (arr cell : Nat) (rs : List EpiRes) : State :=
  let s := countSat s n .epiSat (rs.filter (fun r => r.sat)).length arr cell
  let s := countSat s n .nonfinite (rs.filter (fun r => r.nonfinite)).length arr cell
  let s := countFlush s n (rs.map (fun r => r.flushes)).sum
  let k := (rs.filter (fun r => r.masked)).length
  if k = 0 then s else bump s R.TSQ_CAUSAL_MASKED n.val k

/-! ## Writing results (R219, R224) -/

/-- Bytes of consecutive raw elements; a last half byte keeps the other half of `old`. -/
def packElems (f : Nat) (old : Byte) : List Nat → List Byte
  | [] => []
  | x :: xs =>
    if fmtBits f = 4 then
      match xs with
      | [] => [BitVec.ofNat 8 (x % 16 + old.toNat / 16 * 16)]
      | y :: ys => BitVec.ofNat 8 (x % 16 + y % 16 * 16) :: packElems f old ys
    else bytesOf (fmtBits f / 8) x ++ packElems f old xs

/-- Writes raw elements of position m, channels n0, n0 + 1, … that lie in one channel block. -/
def writeRun (s : State) (n : Fin 16) (c : Core) (e : TEntry) (b m n0 : Nat) (raws : List Nat) : State :=
  if raws.isEmpty then s
  else
    let f := fdOf e
    let a := baseD c e b + (denseOff (dD c e) f m n0).1
    let old := (peek s (a + raws.length * fmtBits f / 8) 1).headD 0
    memWriteMasked s n.val a ((packElems f old raws).map some)

/-- Writes raw elements of position m from channel n0 on, channel block by channel block. -/
def writeRow (s : State) (n : Fin 16) (c : Core) (e : TEntry) (b m n0 : Nat) (raws : List Nat) : State :=
  let g := blockWidth (dD c e)
  (List.range (ceilDiv raws.length g)).foldl
    (fun s j => writeRun s n c e b m (n0 + j * g) ((raws.drop (j * g)).take g)) s

/-- Bits of a packed compression block as a number (R172, R262). -/
def encodeBlock (rw : Nat) (us : List Nat) : Nat :=
  let mn := us.foldl min 255
  let mx := us.foldl max 0
  let top := 2 ^ rw - 1
  let k := ((List.range 8).find? (fun k => mx - mn ≤ top * 2 ^ k)).getD 7
  let code := fun u => if k = 0 then u - mn else min top ((u - mn + 2 ^ (k - 1)) / 2 ^ k)
  mn + k * 256 + (us.zipIdx.map (fun x => code x.1 * 2 ^ (128 + rw * x.2))).sum

/-- Writes one compression block of the destination: `us` are its 128 elements. -/
def writeBlock (s : State) (n : Fin 16) (c : Core) (e : TEntry) (b m n0 : Nat) (us : List Nat) : State :=
  let mode := compMode c e
  let a := baseD c e b + (compOff (dD c e) mode m n0).1
  memWriteMasked s n.val a ((bytesOf (compBytes mode) (encodeBlock (compRw mode) us)).map some)

/-- An element as it is encoded: INT8 is biased by 128 (R172). -/
def biased (f raw : Nat) : Nat := if f = 0 then (raw + 128) % 256 else raw % 256

/-- Writes the compression blocks of positions m … m + per − 1 and channels n0 … n0 + w − 1. `val` gives an element at
or below the bounds, `zp` the column's zero point, which fills positions at or beyond M. -/
def writeBlocks (s : State) (n : Fin 16) (c : Core) (e : TEntry) (b m n0 w : Nat) (val : Nat → Nat → Nat) (zp : Nat → Nat) : State :=
  let g := blockWidth (dD c e)
  (List.range (ceilDiv w g)).foldl (fun s j =>
    if n0 + j * g ≥ e.N then s
    else
      let a := baseD c e b + (compOff (dD c e) (compMode c e) m (n0 + j * g)).1
      writeBlock s n c e b m (n0 + j * g) ((List.range 128).map (fun i =>
        let mm := m + i / g
        let nn := n0 + j * g + i % g
        if nn ≥ e.N then (Config.compressedPad a i).toNat
        else biased (fdOf e) (if mm < rowsM c e then val mm nn else zp nn)))) s

/-! ## Reduction steps (R158 to R164, R239 to R244) -/

/-- Position and channel of X that row `i` takes for reduction element `k`; none for padding. -/
def actPlace (c : Core) (e : TEntry) (mt nt : Nat) (w : StepWork) (i k : Nat) : Option (Nat × Nat) :=
  let m := mt * tileRows e + i
  if m ≥ rowsM c e then none
  else if e.op.window then
    let ch := if e.op = .tdw then nt * tileCols c e + k else k
    if ch ≥ (if e.op = .tdw then e.N else e.K) then none
    else
      let p := pixelOf c e m
      (tapInput c e p.1 p.2 w.tap.ty w.tap.tx).map (fun q => (q.1 * dW (xD c e) + q.2, ch))
  else if k ≥ e.K then none
  else if e.op = .twg then some (k, m)
  else some (m, k)

/-- Column `col` of slice `h` of array `a` takes a weight in this step; otherwise it takes padding. -/
def takesWeight (c : Core) (e : TEntry) (nt : Nat) (w : StepWork) (a h col k : Nat) : Bool :=
  let n := nt * tileCols c e + a * (tileCols c e / 2) + h * 128 + col
  n < e.N && (if e.op = .tdw then a * 128 + col == w.k else k < e.K)

/-- Reduction elements of a step. -/
def stepKs (w : StepWork) : List Nat := (List.range w.len).map (· + w.k)

/-- Every operand byte range of a step, and, when it opens a group of the integer path, those of
the group's scale blocks and trailers (R161, R163, R164). -/
def stepSpans (c : Core) (e : TEntry) (b mt nt : Nat) (w : StepWork) (opens : Bool) : List Span :=
  let ks := stepKs w
  let xs := (List.range (tileRows e)).flatMap (fun i =>
    ks.filterMap (fun k => (actPlace c e mt nt w i k).map (fun p => xBytes c e b p.1 p.2)))
  let cols := (List.range 2).flatMap (fun a => (List.range (slices e)).map (fun h => (a, h)))
  let ys := cols.flatMap (fun ah => (List.range 128).flatMap (fun col =>
    ks.filterMap (fun k => if takesWeight c e nt w ah.1 ah.2 col k then
      some ((yPlace c e b nt w k ah.1 ah.2 col).1, max 1 (fmtBits (fyOf e) / 8)) else none)))
  let gs := if opens && e.op.streamed && integerPath e then
      cols.flatMap (fun ah => [(weightBlock c e b nt w.group ah.1 ah.2 + blockBytes e - 32, 32),
                               (scaleBlock c e nt w.group ah.1 ah.2, 416)])
    else []
  xs ++ ys ++ gs

/-- Activation of row `i` less the zero point. -/
def actInt (s : State) (c : Core) (e : TEntry) (b mt nt : Nat) (w : StepWork) (i k : Nat) : Int :=
  match actPlace c e mt nt w i k with
  | some p => intOf (fxOf e) (xRaw s c e b p.1 p.2) - intOf (fxOf e) (dZp (xD c e))
  | none => 0

def rawPlace (s : State) (f : Nat) (p : Nat × Nat) : Nat := bitsOf (peekNat s p.1 (max 1 (fmtBits f / 8))) p.2 (fmtBits f)

/-- Weight zero point of a column in a group (R161, R213). -/
def weightZp (s : State) (c : Core) (e : TEntry) (nt group a h col : Nat) : Int :=
  let f := fyOf e
  intOf f (if e.op.streamed then peekNat s (scaleBlock c e nt group a h + 0x100 + col) 1 else dZp (yD c e))

/-- Weight of a column less its zero point. -/
def wgtInt (s : State) (c : Core) (e : TEntry) (b nt : Nat) (w : StepWork) (a h col k : Nat) : Int :=
  if takesWeight c e nt w a h col k then
    intOf (fyOf e) (rawPlace s (fyOf e) (yPlace c e b nt w k a h col)) - weightZp s c e nt w.group a h col
  else 0

def actFp (s : State) (c : Core) (e : TEntry) (b mt nt : Nat) (w : StepWork) (i k : Nat) : Fv :=
  match actPlace c e mt nt w i k with
  | some p => fpDecode (fmtOf (fxOf e)) (xRaw s c e b p.1 p.2)
  | none => fvZero

def wgtFp (s : State) (c : Core) (e : TEntry) (b nt : Nat) (w : StepWork) (a h col k : Nat) : Fv :=
  if takesWeight c e nt w a h col k then
    fpDecode (fmtOf (fyOf e)) (rawPlace s (fyOf e) (yPlace c e b nt w k a h col))
  else fvZero

/-- The bank `b` of an array. -/
def bankOf (x : ArraySt) (b : Bool) : List (List Int) := if b then x.g1 else x.g0

def dot (xs ys : List Int) : Int := (List.zipWith (· * ·) xs ys).sum

/-- One integer step in one array (R160): the new array, and the cells that were clamped. -/
def arrayStepInt (e : TEntry) (bank : Bool) (x : ArraySt) (act : List (List Int)) (wgt : List (List (List Int))) :
    ArraySt × List (Nat × Nat) :=
  let rows := tileRows e
  let sums := (List.range 128).map (fun p =>
    let old := (bankOf x bank).getD p []
    let ar := act.getD (p % rows) []
    (wgt.getD (p / rows) []).zipIdx.map (fun wc => old.getD wc.2 0 + dot ar wc.1))
  let clamps := sums.zipIdx.flatMap (fun r =>
    (r.1.zipIdx.filter (fun v => v.1 < -(2 ^ 23) || v.1 > 2 ^ 23 - 1)).map (fun v => (r.2, v.2)))
  let g := sums.map (fun r => r.map (fun v => clampInt v (-(2 ^ 23)) (2 ^ 23 - 1)))
  let total := fun h => ((wgt.getD h []).foldl (fun acc wc => (List.range wc.length).map (fun j => acc.getD j 0 + wc.getD j 0)) [])
  let rowLane := (List.range 128).map (fun p =>
    ((if bank then x.rowLane1 else x.rowLane0).getD p 0) + BitVec.ofInt 32 (dot (act.getD (p % rows) []) (total (p / rows))))
  let actSum := act.foldl (fun acc r => (List.range r.length).map (fun j => acc.getD j 0 + r.getD j 0)) []
  let colLane := (List.range 128).map (fun q =>
    ((if bank then x.colLane1 else x.colLane0).getD q 0) + BitVec.ofInt 32 (dot actSum ((wgt.getD 0 []).getD q [])))
  let rs := (clamps.map (fun q => q.1)).eraseDups
  let cs := (clamps.map (fun q => q.2)).eraseDups
  (if bank then { x with g1 := g, rowLane1 := rowLane, colLane1 := colLane, satRows1 := x.satRows1 ++ rs, satCols1 := x.satCols1 ++ cs }
   else { x with g0 := g, rowLane0 := rowLane, colLane0 := colLane, satRows0 := x.satRows0 ++ rs, satCols0 := x.satCols0 ++ cs },
   clamps)

/-- One floating-point step in one array (R164): the new M, and the results flushed. -/
def arrayStepFp (e : TEntry) (m : List (List W32)) (act : List Fv) (wgt : List (List Fv)) : List (List W32) × Nat :=
  let rows := tileRows e
  let res := (List.range 128).map (fun p =>
    let old := m.getD p []
    let a := act.getD (p % rows) fvZero
    (wgt.getD (p / rows) []).zipIdx.map (fun wc =>
      round32 false (fpAdd (f32 (old.getD wc.2 0).toNat) (fpMul a wc.1))))
  (res.map (fun r => r.map (fun v => BitVec.ofNat 32 v.1)), (res.map (fun r => (r.map (fun v => v.2)).sum)).sum)

/-- A clamp of a group accumulator (R160). -/
def noteClamp (n : Fin 16) (arr : Nat) (s : State) (q : Nat × Nat) : State :=
  logIt (bump s R.NUM_GSAT n.val 1) planeData 0x32 3 2 n.val (Config.arrayArg n.val arr) (Config.cellArg q.1 q.2)

/-- The integer work of a step in both arrays. -/
def stepInt (s : State) (n : Fin 16) (r : TRun) (w : StepWork) : State :=
  let c := s.cores[n]
  let e := r.e
  let (b, mt, nt) := tileAt c e r.tile
  let ks := stepKs w
  let act := (List.range (tileRows e)).map (fun i => ks.map (actInt s c e b mt nt w i))
  let wgt := fun a => (List.range (slices e)).map (fun h => (List.range 128).map (fun q => ks.map (wgtInt s c e b nt w a h q)))
  let xa := arrayStepInt e r.bank c.arrA act (wgt 0)
  let xb := arrayStepInt e r.bank c.arrB act (wgt 1)
  let s := modCore s n (fun c => { c with arrA := xa.1, arrB := xb.1 })
  xb.2.foldl (noteClamp n 1) (xa.2.foldl (noteClamp n 0) s)

/-- The floating-point work of a step in both arrays; the tile's last step delivers M to the latch (R125). -/
def stepFp (s : State) (n : Fin 16) (r : TRun) (w : StepWork) (last : Bool) : State :=
  let c := s.cores[n]
  let e := r.e
  let (b, mt, nt) := tileAt c e r.tile
  let act := (List.range (tileRows e)).map (fun i => actFp s c e b mt nt w i w.k)
  let wgt := fun a => (List.range (slices e)).map (fun h => (List.range 128).map (fun q => wgtFp s c e b nt w a h q w.k))
  let ma := arrayStepFp e c.arrA.m act (wgt 0)
  let mb := arrayStepFp e c.arrB.m act (wgt 1)
  let put := fun (x : ArraySt) (m : List (List W32)) => if last then { x with latch := m, m := [] } else { x with m := m }
  countFlush (modCore s n (fun c => { c with arrA := put c.arrA ma.1, arrB := put c.arrB mb.1 })) n (ma.2 + mb.2)

/-! ## The run -/

def setRun (s : State) (n : Fin 16) (r : TRun) : State := modCore s n (fun c => { c with cur := some r })

def latchesFree (r : TRun) : Bool := r.latchA.isNone && r.latchB.isNone

/-- The tile is valid: every N tile of a valid M tile is (R226). -/
def tileValid (c : Core) (r : TRun) (t : Nat) : Bool := r.valid.getD (t / tilesN c r.e) false

/-- The first valid tile from `t` on, or the total tile count. -/
def nextValid (c : Core) (r : TRun) (t : Nat) : Nat :=
  let total := totalTiles c r.e
  ((List.range total).find? (fun u => t ≤ u && tileValid c r u)).getD total

/-- The run goes to the first valid tile from `t` on; tiles passed are counted as skipped. -/
def goTile (s : State) (n : Fin 16) (r : TRun) (t : Nat) : State :=
  let u := nextValid s.cores[n] r t
  setRun (bump s R.TSQ_TILES_SKIPPED n.val (u - t)) n { r with tile := u, step := 0 }

/-- Both latches hold tile `t`, from row 0. -/
def latched (r : TRun) (t : Nat) : TRun := { r with latchA := some (t, 0), latchB := some (t, 0) }

/-- The last step of a tile has been performed. -/
def tileStepped (s : State) (n : Fin 16) (r : TRun) : State := goTile (bump s R.TSQ_TILES_COMPUTED n.val 1) n r (r.tile + 1)

/-- The group of the next performed step of the tile, if one is left; bubbles are at most two in a row. -/
def nextGroup (c : Core) (e : TEntry) (st : Nat) : Option Nat :=
  ((List.range 3).filterMap (fun j => if st + 1 + j < stepsOf c e then (stepWork c e (st + 1 + j)).map (fun w => w.group) else none)).head?

/-- The counters of one step. -/
def countStep (s : State) (n : Fin 16) (e : TEntry) : State :=
  let s := bump s R.ARRAY_STEPS n.val 1
  if e.insn.GATHER then bump s R.WIN_GATHER_STEPS n.val 1 else s

/-- Comparisons are asked for and not switched off (R138, R153). -/
def checksOn (s : State) (n : Fin 16) (e : TEntry) : Bool := e.insn.CHK && !rdb s R.ARRAY_CTL_CHK_OFF n.val

/-- The comparisons of a floating-point tile count as skipped (R139). -/
def skipFpChecks (s : State) (n : Fin 16) (e : TEntry) : State :=
  if checksOn s n e then bump (drawFree s).1 R.ARRAY_CHK_SKIPPED n.val (Config.fpSkips (drawFree s).2) else s

/-- The open group is complete and awaits its close; the next takes the other bank. -/
def endGroup (r : TRun) (w : StepWork) (last : Bool) : TRun :=
  { r with openGroup := none, bank := !r.bank,
           closes := r.closes ++ [{ tile := r.tile, group := w.group, bank := r.bank, last := last }] }

/-- What follows the work of a step: the group may be complete and await its close, and the tile may be. -/
def afterStep (s : State) (n : Fin 16) (r : TRun) (w : StepWork) (last : Bool) : State :=
  if integerPath r.e then
    let ended := last || nextGroup s.cores[n] r.e r.step != some w.group
    let r' := if ended then endGroup r w last else { r with openGroup := some w.group }
    if last then tileStepped s n r' else setRun s n { r' with step := r.step + 1 }
  else if last then tileStepped (skipFpChecks s n r.e) n (latched r r.tile)
  else setRun s n { r with step := r.step + 1 }

/-- A tile with no step, where every tap is dead: its sum is +0 (R240). -/
def emptyTile (s : State) (n : Fin 16) (r : TRun) : State :=
  let clear := fun (x : ArraySt) => { x with latch := [], m := [] }
  tileStepped (modCore s n (fun c => { c with arrA := clear c.arrA, arrB := clear c.arrB })) n (latched r r.tile)

/-- The core's sequencer feeds steps: not while it drains for a pre-emption, nor after a trap. -/
def feeds (c : Core) : Bool :=
  match c.mode with
  | .idle => false
  | .trapped _ => false
  | .stopping => false
  | .held => false
  | _ => true

/-- One element row of an array at its latch: row `j` of the epilogue's order, with the cell values. -/
def latchRow (e : TEntry) (x : ArraySt) (j : Nat) : List W32 :=
  let h := j % slices e
  let i := j / slices e
  x.latch.getD (h * tileRows e + i) []

/-- Delivers row `j` of a latched tile of array `a`: the state, and whether a byte it read was poisoned (R126, R166). -/
def deliverRow (s : State) (n : Fin 16) (e : TEntry) (a tile j : Nat) : State × Bool :=
  let c := s.cores[n]
  let x := if a = 0 then c.arrA else c.arrB
  let (b, mt, nt) := tileAt c e tile
  let h := j % slices e
  let m := mt * tileRows e + j / slices e
  let n0 := nt * tileCols c e + a * (tileCols c e / 2) + h * 128
  let w := min 128 (e.N - n0)
  if m ≥ rowsM c e ∨ w = 0 then (s, false)
  else
    let accSpans := if accumulates c e then
        (List.range w).map (fun q => (baseD c e b + (denseOff (dD c e) 8 m (n0 + q)).1, 4)) else []
    let colSpans := if readsColumns e then [(eColBase (eD c e) + 16 * n0, 16 * w)] else []
    let (s, bad) := operandRead s n (colSpans ++ accSpans)
    if bad then (s, true)
    else
      let per := if e.insn.CD then 128 / blockWidth (dD c e) else 1
      let elem := fun mm nn =>
        let jj := (mm - mt * tileRows e) * slices e + h
        let acc := ((latchRow e x jj).getD (nn - n0) 0).toNat
        let old := if accumulates c e then rawAt s (baseD c e b) 8 (denseOff (dD c e) 8 mm nn) else 0
        epiElem c e (colEntry s c e nn) mm nn acc old
      if e.insn.CD then
        if m % per ≠ 0 then (s, false)
        else
          let rows := (List.range per).filter (fun i => m + i < rowsM c e)
          let rs := rows.flatMap (fun i => (List.range w).map (fun q => elem (m + i) (n0 + q)))
          let s := countEpi s n a (Config.cellArg (m % 128) 0) rs
          (writeBlocks s n c e b m n0 w (fun mm nn => (elem mm nn).raw)
            (fun nn => clampFmt (fdOf e) (colEntry s c e nn).zo), false)
      else
        let rs := (List.range w).map (fun q => elem m (n0 + q))
        let s := countEpi s n a (Config.cellArg (m % 128) 0) rs
        (writeRow s n c e b m n0 (rs.map (fun r => r.raw)), false)

/-- Delivers every row that is left in both latches, as a fault or a stop does (R145, R149). -/
def deliverRest (s : State) (n : Fin 16) (r : TRun) : State :=
  let one := fun (a : Nat) (l : Option (Nat × Nat)) (s : State) =>
    match l with
    | some (t, j0) => (List.range (128 - j0)).foldl (fun s j => (deliverRow s n r.e a t (j0 + j)).1) (noteBusy s n)
    | none => s
  one 1 r.latchB (one 0 r.latchA s)

/-- A fault of the tile whose steps or closes are under way: rows of earlier tiles are still delivered. -/
def tensorFault (s : State) (n : Fin 16) (cause : TrapCause) (f : FaultAt) (r : TRun) (tile : Nat) : State :=
  tensorTrap (deliverRest s n r) n cause f r tile

/-- The step waits for a bank whose group has not been closed: the one it opens, and with a second part the other. -/
def bankWaits (r : TRun) (opens second : Bool) : Bool :=
  integerPath r.e && ((opens && r.closes.any (fun q => q.bank == r.bank)) || (second && r.closes.any (fun q => q.bank != r.bank)))

/-- The first step enters the chain when the ramp is complete: 4 c-cycles for each column group it enables (R132, R133). -/
def awaitRamp (s : State) (n : Fin 16) : State :=
  let x := s.cores[n].ramp
  if x.up then passToCyc s (x.start + 4 * (8 - x.groups)) else s

/-- REDUCTION_STEP: the next step of the current tile (R127, R160, R164). -/
def reductionStep (n : Fin 16) (s : State) : State :=
  match s.cores[n].cur with
  | none => s
  | some r =>
    let c := s.cores[n]
    let S := stepsOf c r.e
    if !feeds c || r.e.op.reducer || r.tile ≥ totalTiles c r.e then s
    else if S = 0 then (if latchesFree r && r.closes.isEmpty then emptyTile s n r else s)
    else
      match stepWork c r.e r.step with
      | none => setRun (bump (bump (noteBusy s n) R.ARRAY_STEPS n.val 1) R.WIN_BUBBLES n.val 1) n { r with step := r.step + 1 }
      | some w =>
        let last := r.step + 1 == S
        let opens := r.openGroup != some w.group
        let rest := stepRest r.e w
        if bankWaits r opens rest.isSome || (!integerPath r.e && last && !latchesFree r) then s
        else
          let (b, mt, nt) := tileAt c r.e r.tile
          let s := awaitRamp s n
          let (s, bad) := operandRead s n (stepSpans c r.e b mt nt w opens ++
            (match rest with | some v => stepSpans c r.e b mt nt v true | none => []))
          if bad then tensorFault (noteBusy s n) n .poisonOperand {} r r.tile
          else
            let s := countStep (noteBusy s n) n r.e
            if !integerPath r.e then afterStep (stepFp s n r w last) n r w last
            else
              let s := stepInt s n r w
              match rest with
              | none => afterStep s n r w last
              | some v => afterStep (stepInt s n (endGroup r w false) v) n (endGroup r w false) v last

def execReductionStep (n : Fin 16) (s : State) : Host.Outcome State Fault Refusal := .next (reductionStep n s)

/-! ## Group close (R138 to R140, R161 to R163, R165) -/

/-- Some weight or scale block of the group in array `a` carries another tag than the one expected. -/
def tagWrong (s : State) (c : Core) (e : TEntry) (b nt g a : Nat) : Bool :=
  e.op.streamed && (List.range (slices e)).any (fun h =>
    peekNat s (weightBlock c e b nt g a h + blockBytes e - 32) 2 != expectedTag c e nt g ||
      peekNat s (scaleBlock c e nt g a h + 0x180) 2 != expectedTag c e nt g)

/-- A row or column whose checksum lane differs, or that is skipped, or that compares. -/
inductive CheckRes where
  | skipped | equal | differs
  deriving DecidableEq, Repr

/-- The comparisons of one array at a close: row axis then column axis (R138, R139). -/
def checksOf (s : State) (n : Fin 16) (e : TEntry) (a : Nat) (bank : Bool) : List CheckRes × List CheckRes :=
  let c := s.cores[n]
  let x := if a = 0 then c.arrA else c.arrB
  let fuse := if a = 0 then s.fuses.repairA[n] else s.fuses.repairB[n]
  let g := bankOf x bank
  let rowLane := if bank then x.rowLane1 else x.rowLane0
  let colLane := if bank then x.colLane1 else x.colLane0
  let satR := if bank then x.satRows1 else x.satRows0
  let satC := if bank then x.satCols1 else x.satCols0
  let noRowCheck := bitOf fuse.toNat 23 && bitOf fuse.toNat 31
  let noColCheck := bitOf fuse.toNat 7 && bitOf fuse.toNat 15
  let rows := (List.range 128).map (fun p =>
    if noRowCheck || satR.contains p then CheckRes.skipped
    else if BitVec.ofInt 32 ((g.getD p []).sum) == rowLane.getD p 0 then .equal else .differs)
  let cols := (List.range 128).map (fun q =>
    if noColCheck || slices e ≠ 1 || satC.contains q then CheckRes.skipped
    else if BitVec.ofInt 32 ((g.map (fun r => r.getD q 0)).sum) == colLane.getD q 0 then .equal else .differs)
  (rows, cols)

/-- Checking runs in this instruction (R138). -/
def checking (s : State) (n : Fin 16) (e : TEntry) : Bool := checksOn s n e && integerPath e

/-- The lowest logical row that differs, physical row `p` being logical row p mod `rows` (R140, R141). -/
def lowestRow (rows : Nat) (l : List CheckRes) : Option Nat :=
  (List.range rows).find? (fun i => (l.zipIdx.filter (fun x => x.1 == .differs)).any (fun x => x.2 % rows == i))

/-- The first mismatch: array, axis, index. -/
def firstMismatch (rows : Nat) (xs : List (Nat × List CheckRes × List CheckRes)) : Option FaultAt :=
  (xs.findSome? (fun x => match lowestRow rows x.2.1 with
    | some i => some { arr := x.1, axis := 0, index := i }
    | none => (x.2.2.findIdx? (· == .differs)).map (fun i => { arr := x.1, axis := 1, index := i })))

/-- Scales of one slice: SW of each column as bits, whether it is FP16 (from a block) or FP32 (from the descriptor). -/
def sliceScale (s : State) (c : Core) (e : TEntry) (nt g a h col : Nat) : Fv :=
  if e.op.streamed then fpDecode fp16 (peekNat s (scaleBlock c e nt g a h + 2 * col) 2) else f32 (dScale (yD c e))

def orZero (v : Fv) : Fv := if v.isFinite then v else fvZero

/-- A nonzero FP16 subnormal. -/
def subnormal16 (b : Nat) : Bool := b / 1024 % 32 == 0 && b % 1024 != 0

/-- Combined scales of the columns of slice `h`: FP32 bits and flushes (R161). -/
def combined (s : State) (c : Core) (e : TEntry) (nt g a h : Nat) : List (Nat × Nat) :=
  (List.range 128).map (fun col =>
    round32 true (fpMul (orZero (f32 (dScale (xD c e)))) (orZero (sliceScale s c e nt g a h col))))

/-- Scale blocks with a scale that is not finite, and subnormal weight scales, of array `a`. -/
def scaleCounts (s : State) (c : Core) (e : TEntry) (nt g a : Nat) : Nat × Nat :=
  if !e.op.streamed then (0, 0)
  else
    let hs := List.range (slices e)
    let bad := hs.filter (fun h => !(f32 (dScale (xD c e))).isFinite ||
      (List.range 128).any (fun col => !(sliceScale s c e nt g a h col).isFinite))
    let sub := (hs.map (fun h => ((List.range 128).filter (fun col =>
      subnormal16 (peekNat s (scaleBlock c e nt g a h + 2 * col) 2))).length)).sum
    (bad.length, sub)

/-- The close of one array (R162, R165): the new values of M, flushes, and the cells that saturated. -/
def closeArray (e : TEntry) (g : List (List Int)) (m : List (List W32)) (cs : List (List (Nat × Nat))) :
    List (List W32) × Nat × List (Nat × Nat) :=
  let rows := tileRows e
  let res := (List.range 128).map (fun p =>
    let cr := cs.getD (p / rows) []
    (List.range 128).map (fun q =>
      let v := fpAdd (f32 ((m.getD p []).getD q 0).toNat) (fpMul (fvOfInt ((g.getD p []).getD q 0)) (f32 (cr.getD q (0, 0)).1))
      let r := fpRound fp32 v
      (match v with | .fin neg _ _ => if r.tooBig then fpMax fp32 neg else r.bits | _ => r.bits, r.flush, r.tooBig)))
  (res.map (fun r => r.map (fun v => BitVec.ofNat 32 v.1)),
   (res.map (fun r => (r.filter (fun v => v.2.1)).length)).sum,
   res.zipIdx.flatMap (fun r => (r.1.zipIdx.filter (fun v => v.1.2.2)).map (fun v => (r.2, v.2))))

/-- The array after a close of `bank`, with new M or latch. -/
def closedArray (x : ArraySt) (bank last : Bool) (m : List (List W32)) : ArraySt :=
  let y := if bank then { x with g1 := [], rowLane1 := [], colLane1 := [], satRows1 := [], satCols1 := [] }
    else { x with g0 := [], rowLane0 := [], colLane0 := [], satRows0 := [], satCols0 := [] }
  if last then { y with latch := m, m := [] } else { y with m := m }

/-- Closes the group in array `a`, with its counts. -/
def closeIn (s : State) (n : Fin 16) (e : TEntry) (q : PendingClose) (a : Nat) : State :=
  let c := s.cores[n]
  let x := if a = 0 then c.arrA else c.arrB
  let (_, _, nt) := tileAt c e q.tile
  let cs := (List.range (slices e)).map (fun h => combined s c e nt q.group a h)
  let r := closeArray e (bankOf x q.bank) x.m cs
  let k := scaleCounts s c e nt q.group a
  let flush := r.2.1 + k.2 + (cs.map (fun h => (h.map (fun v => v.2)).sum)).sum
  let y := closedArray x q.bank q.last r.1
  let s := modCore s n (fun c => if a = 0 then { c with arrA := y } else { c with arrB := y })
  let cell := match r.2.2 with
    | (i, j) :: _ => Config.cellArg i j
    | [] => 0
  let s := countSat (countFlush s n flush) n .accOvf r.2.2.length a cell
  if k.1 = 0 then s else bump s R.NUM_BADSCALE n.val k.1

/-- GROUP_CLOSE: tags, checksums, then the close. -/
def groupClose (n : Fin 16) (s : State) : State :=
  match s.cores[n].cur with
  | none => s
  | some r =>
    match r.closes with
    | [] => s
    | q :: rest =>
      let c := s.cores[n]
      if q.last && !latchesFree r then s
      else
        let s := noteBusy s n
        let (b, _, nt) := tileAt c r.e q.tile
        let r' := { r with closes := rest }
        match (List.range 2).find? (tagWrong s c r.e b nt q.group) with
        | some a => tensorFault s n .scaleSyncFault { arr := a } r' q.tile
        | none =>
          let xs := if checking s n r.e then (List.range 2).map (fun a => (a, checksOf s n r.e a q.bank)) else []
          let all := xs.flatMap (fun x => x.2.1 ++ x.2.2)
          let s := bump (bump s R.ARRAY_CHK_DONE n.val (all.filter (· != .skipped)).length) R.ARRAY_CHK_SKIPPED n.val
            (all.filter (· == .skipped)).length
          match firstMismatch (tileRows r.e) xs with
          | some f => tensorFault s n .checksumFault f r' q.tile
          | none =>
            let s := closeIn (closeIn s n r.e q 0) n r.e q 1
            setRun s n (if q.last then latched r' q.tile else r')

def execGroupClose (n : Fin 16) (s : State) : Host.Outcome State Fault Refusal := .next (groupClose n s)

/-! ## Rows and copies -/

/-- EPILOGUE_ROW: the next row of array `arr` is delivered. -/
def epilogueRow (n : Fin 16) (arr : Fin 2) (s : State) : State :=
  match s.cores[n].cur with
  | none => s
  | some r =>
    match (if arr = 0 then r.latchA else r.latchB) with
    | none => s
    | some (t, j) =>
      let (s, bad) := deliverRow (noteBusy s n) n r.e arr.val t j
      if bad then tensorTrap s n .poisonOperand { arr := arr.val } r t
      else
        let l := if j + 1 < 128 then some (t, j + 1) else none
        setRun s n (if arr = 0 then { r with latchA := l } else { r with latchB := l })

def execEpilogueRow (n : Fin 16) (arr : Fin 2) (s : State) : Host.Outcome State Fault Refusal := .next (epilogueRow n arr s)

/-- Every step, close and row of the run is over. -/
def computed (c : Core) (r : TRun) : Bool := r.tile ≥ totalTiles c r.e && r.closes.isEmpty && latchesFree r

/-- The next skipped tile to copy, if any. -/
def nextCopy (c : Core) (r : TRun) : Option Nat :=
  if r.e.insn.COPY then (List.range (totalTiles c r.e)).find? (fun t => r.copyTile ≤ t && !tileValid c r t) else none

/-- Byte ranges that a tile writes, relative to the operand's base in its batch iteration (R224, R228). -/
def tileSpans (c : Core) (e : TEntry) (t : Nat) : List Span :=
  let (_, mt, nt) := tileAt c e t
  let v := dD c e
  let g := blockWidth v
  let f := fdOf e
  let m0 := mt * tileRows e
  let m1 := min (m0 + tileRows e) (rowsM c e)
  let n0 := nt * tileCols c e
  let n1 := min (n0 + tileCols c e) e.N
  let cbs := (List.range (ceilDiv (n1 - n0) g)).map (fun j => n0 + j * g)
  if e.insn.CD then
    let per := 128 / g
    cbs.flatMap (fun nn => (List.range (ceilDiv (m1 - m0) per)).map (fun j =>
      ((compOff v (compMode c e) (m0 + j * per) nn).1, compBytes (compMode c e))))
  else
    cbs.flatMap (fun nn => (List.range (m1 - m0)).map (fun i =>
      ((denseOff v f (m0 + i) nn).1, ceilDiv ((min g (n1 - nn)) * fmtBits f) 8)))

/-- Words from the one that holds byte `a` to the one that holds byte `a + n - 1`. -/
def wordsOf (a n : Nat) : List Nat := if n = 0 then [] else (List.range ((a + n - 1) / 8 - a / 8 + 1)).map (fun j => (a / 8 + j) * 8)

/-- Copies one byte range; poison goes with it, into every word that a poisoned word's data covers (R259). -/
def copySpan (n : Fin 16) (src dst : Nat) (s : State) (r : Span) : State :=
  let x := memRead s n.val (src + r.1) r.2
  let bad := (wordsOf (src + r.1) r.2).filter (fun w => eccAt x.s w == .poison)
  let hit := bad.flatMap (fun w =>
    let lo := max w (src + r.1)
    wordsOf (dst + lo - src) (min (w + 8) (src + r.1 + r.2) - lo))
  hit.foldl poisonEcc (memWrite x.s n.val (dst + r.1) x.bytes false)

/-- TILE_COPY (R228): a pre-emption waits for the copies. -/
def tileCopy (n : Fin 16) (s : State) : State :=
  match s.cores[n].cur with
  | none => s
  | some r =>
    let c := s.cores[n]
    if !(feeds c || c.mode == .stopping) || !computed c r then s
    else
      match nextCopy c r with
      | none => s
      | some t =>
        let b := (tileAt c r.e t).1
        let spans := tileSpans c r.e t
        let s := spans.foldl (copySpan n (baseH c r.e b) (baseD c r.e b)) s
        let s := bump s R.TSQ_COPY_CYC n.val (ceilDiv (spans.map (fun x => x.2)).sum 1024)
        setRun s n { r with copyTile := t + 1 }

def execTileCopy (n : Fin 16) (s : State) : Host.Outcome State Fault Refusal := .next (tileCopy n s)

/-- TENSOR_DONE: the last row or copy has been delivered. -/
def tensorDone (n : Fin 16) (s : State) : State :=
  match s.cores[n].cur with
  | none => s
  | some r =>
    if s.cores[n].mode != .stopping && computed s.cores[n] r && (nextCopy s.cores[n] r).isNone then
      modCore s n (fun c => { c with cur := none })
    else s

def execTensorDone (n : Fin 16) (s : State) : Host.Outcome State Fault Refusal := .next (tensorDone n s)

/-! ## Starting an instruction (R130, R132, R226, R227) -/

/-- Grid coordinates of a position (R226, R248). -/
def gridPos (c : Core) (e : TEntry) (m : Nat) : Nat × Nat :=
  if e.op.window then
    let ow := (outSize c e).2
    (m % ow, dOY0 (xD c e) + m / ow)
  else
    let w := dW (dD c e)
    if w = 0 then (m, 0) else (m % w, m / w)

/-- Some gate block that the position reads is changed. -/
def positionChanged (s : State) (c : Core) (e : TEntry) (b m : Nat) : Bool :=
  let v := mD c e
  let (x, y) := gridPos c e m
  let sc := 2 ^ mStrideLog2 v
  let range := fun (q size : Nat) =>
    let lo := q * sc / 16 - mHalo v
    let hi := min (size - 1) (((q + 1) * sc - 1) / 16 + mHalo v)
    if size = 0 then [] else (List.range (hi + 1)).filter (fun i => lo ≤ i)
  (range y (mMapH v)).any (fun r => (range x (mMapW v)).any (fun q =>
    bitOf (peekNat s (mMapBase v + b * mMapStride v + r * mMapW v + q) 1) 7))

/-- Validity of M tile `mt` of batch iteration `b` (R226). -/
def mTileValid (s : State) (c : Core) (e : TEntry) (b mt : Nat) : Bool :=
  match e.insn.MASK.toNat with
  | 1 => bitOf (peekNat s (mMapBase (mD c e) + b * mMapStride (mD c e) + mt / 8) 1) (mt % 8)
  | 2 =>
    let m0 := mt * tileRows e
    (List.range (min (m0 + tileRows e) (rowsM c e) - m0)).any (fun i => positionChanged s c e b (m0 + i))
  | _ => true

def validList (s : State) (c : Core) (e : TEntry) : List Bool :=
  (List.range (e.BATCH * tilesM c e)).map (fun k => mTileValid s c e (k / tilesM c e) (k % tilesM c e))

/-- Column groups enabled (R132, R133): a ramp up enables one group at once and one more every 4 c-cycles, a ramp down
disables one every 4 c-cycles, the first 4 c-cycles after its start (DEDUCED where the rules do not say: log entry 189). -/
def rampLevel (cyc : Nat) (x : Ramp) : Nat :=
  if x.up then (if cyc < x.start then x.groups else min 8 (x.groups + 1 + (cyc - x.start) / 4)) else x.groups - (cyc - x.start) / 4

/-- Cores of a cluster whose ramps up have not begun before this c-cycle, and core `n`. -/
def rampsNow (s : State) (n : Fin 16) : List (Fin 16) :=
  (List.finRange 16).filter (fun m => clusterOf m = clusterOf n &&
    (m == n || (s.cores[m].ramp.up && s.cores[m].ramp.start ≥ s.clock.cyc)))

/-- A core whose arrays are not enabled ramps up from the present level (R132). Of the cores of a cluster that would begin in
this c-cycle the lowest begins now, and each other one c-cycle after the one before it (R134). -/
def rampUp (s : State) (n : Fin 16) : State :=
  let x := s.cores[n].ramp
  if x.up then s
  else
    let t := modCore (bump s R.ARRAY_RAMPS n.val 1) n (fun c => { c with ramp := { up := true, start := s.clock.cyc, groups := rampLevel s.clock.cyc x } })
    (rampsNow s n).zipIdx.foldl (fun t e => modCore t e.1 (fun c => { c with ramp := { c.ramp with start := s.clock.cyc + e.2 } })) t

/-- The run of an entry at its start: tile 0, bank G0. -/
def freshRun (e : TEntry) (valid : List Bool) : TRun :=
  { e := e, valid := valid, tile := 0, step := 0, bank := false, openGroup := none, closes := [], latchA := none,
    latchB := none, copyTile := 0 }

/-- Begins a run: the mask is read, the arrays ramp if a tile is to be computed. `count` is false when an instruction
is resumed, so that no tile is counted a second time (R231, R233). -/
def beginRun (s : State) (n : Fin 16) (e : TEntry) (setup : TRun → TRun) (count : Bool) : State :=
  let c := s.cores[n]
  let s := wr s R.TSQ_CUR_INSN n.val e.addr.toNat
  let (s, bad) := operandRead s n (spansMask c e)
  if bad then tensorFault s n .poisonOperand {} (freshRun e []) 0
  else
    let v := validList s c e
    let s := bump s R.TSQ_MASK_CYC n.val (ceilDiv (e.BATCH * mapBytesOf c e) 512)
    let s := wr s R.ARRAY_STATUS_SHAPE n.val e.insn.SHAPE.toNat
    let r := setup (freshRun e v)
    let t := nextValid c r r.tile
    let s := if t < totalTiles c e && !e.op.reducer then rampUp s n else s
    if count then goTile s n r r.tile else setRun s n { r with tile := if r.step = 0 then t else r.tile }

/-- TENSOR_START: the next queued instruction. -/
def tensorStart (n : Fin 16) (s : State) : State :=
  match s.cores[n].tq, s.cores[n].cur with
  | e :: rest, none =>
    if feeds s.cores[n] then beginRun (modCore s n (fun c => { c with tq := rest })) n e (fun r => r) true else s
  | _, _ => s

def execTensorStart (n : Fin 16) (s : State) : Host.Outcome State Fault Refusal := .next (tensorStart n s)

/-- Array `a` has a step in flight or epilogue work (R153): none before the first step of a tile, nor, once the core feeds no
more steps, after the drain. The window reducer uses no array (R247). -/
def arrayBusy (c : Core) (a : Nat) : Bool :=
  match c.cur with
  | some r => !r.e.op.reducer && ((feeds c && r.step != 0) || !r.closes.isEmpty || (if a = 0 then r.latchA else r.latchB).isSome)
  | none => false

/-- The running instruction has steps to feed. -/
def willFeed (c : Core) : Bool :=
  match c.cur with
  | some r => feeds c && !r.e.op.reducer && r.tile < totalTiles c r.e
  | none => false

/-- ARRAY_GATE_IDLE: after GATE_IDLE c-cycles without a step in flight or epilogue work the arrays ramp down (R133). -/
def arrayGateIdle (n : Fin 16) (s : State) : State :=
  let c := s.cores[n]
  if !planesRun s || arrayBusy c 0 || arrayBusy c 1 || willFeed c || !c.ramp.up then s
  else
    let s := passToCyc s (c.busyAt + max 1 (rd s R.ARRAY_CTL_GATE_IDLE n.val))
    modCore s n (fun c => { c with ramp := { up := false, start := s.clock.cyc, groups := rampLevel s.clock.cyc c.ramp } })

def execArrayGateIdle (n : Fin 16) (s : State) : Host.Outcome State Fault Refusal := .next (arrayGateIdle n s)

/-! ## The window reducer (R245 to R247) -/

/-- The exact quotient rounded to an integer, ties to even. -/
def rneDiv (x : Int) (d : Nat) : Int :=
  let q := x / (d : Int)
  let r := x % (d : Int)
  if 2 * r > d ∨ (2 * r = d ∧ q % 2 = 1) then q + 1 else q

/-- Positions of X that an output element reads, inside the image. -/
def reducerReads (c : Core) (e : TEntry) (m : Nat) : List Nat :=
  let (oy, ox) := pixelOf c e m
  let iw := dW (xD c e)
  if e.op = .trsz then
    let sy := wSY e
    let sx := wSX e
    if wSub e = 0 then [oy / sy * iw + ox / sx]
    else
      let y0 := (2 * oy + 1 - sy) / (2 * sy)
      let x0 := (2 * ox + 1 - sx) / (2 * sx)
      let y1 := min (y0 + 1) (dIH (xD c e) - 1)
      let x1 := min (x0 + 1) (iw - 1)
      [y0 * iw + x0, y0 * iw + x1, y1 * iw + x0, y1 * iw + x1]
  else (liveTaps c e).filterMap (fun t => (tapInput c e oy ox t.ty t.tx).map (fun q => q.1 * iw + q.2))

/-- One output element of the reducer: its value, and whether it was clamped. -/
def reducerElem (s : State) (c : Core) (e : TEntry) (b m n : Nat) : Nat × Bool :=
  let f := fxOf e
  let za := intOf f (dZp (xD c e))
  let xs := (reducerReads c e m).map (fun p => intOf f (xRaw s c e b p n))
  let out := fun (v : Int) => (clampFmt f v, v < intMin f || v > intMax f)
  if e.op = .trsz then
    if wSub e = 0 then (rawOf f (xs.headD 0), false)
    else
      let (oy, ox) := pixelOf c e m
      let sy := wSY e
      let sx := wSX e
      let ry : Int := (((2 * oy + 1 - sy) % (2 * sy) : Nat) : Int)
      let rx : Int := (((2 * ox + 1 - sx) % (2 * sx) : Nat) : Int)
      let d := fun i => xs.getD i 0 - za
      let acc := d 0 * (2 * sy - ry) * (2 * sx - rx) + d 1 * (2 * sy - ry) * rx + d 2 * ry * (2 * sx - rx) + d 3 * ry * rx
      out (rneDiv acc (4 * sy * sx) + za)
  else
    match wSub e, xs with
    | 0, [] => (rawOf f za, false)
    | 0, x :: rest => (rawOf f (rest.foldl max x), false)
    | 1, _ => out (rneDiv ((xs.map (· - za)).sum) (wKH e * wKW e) + za)
    | _, [] => (rawOf f za, false)
    | _, _ => out (rneDiv ((xs.map (· - za)).sum) xs.length + za)

/-- The period of a reducer tile (R247). -/
def reducerPeriod (c : Core) (e : TEntry) : Nat :=
  let taps := if e.op = .tpool then (liveTaps c e).length else if wSub e = 0 then 1 else 4
  max 4 ((if blockWidth (dD c e) = 16 then 4 else 8) * (if dLayout (xD c e) ≥ 2 then 4 else 1) * taps)

/-- REDUCER_TILE: the current tile of TPOOL or TRSZ is computed and written. -/
def reducerTile (n : Fin 16) (s : State) : State :=
  match s.cores[n].cur with
  | none => s
  | some r =>
    let c := s.cores[n]
    let e := r.e
    if !feeds c || !e.op.reducer || r.tile ≥ totalTiles c e then s
    else
      let (b, mt, nt) := tileAt c e r.tile
      let m0 := mt * 128
      let ms := (List.range (min 128 (rowsM c e - m0))).map (· + m0)
      let n0 := nt * tileCols c e
      let w := min (tileCols c e) (e.N - n0)
      let reads := ms.flatMap (fun m => (reducerReads c e m).flatMap (fun p =>
        (List.range w).map (fun q => xBytes c e b p (n0 + q))))
      let (s, bad) := operandRead s n reads
      if bad then tensorFault s n .poisonOperand {} r r.tile
      else
        let vals := ms.map (fun m => (List.range w).map (fun q => reducerElem s c e b m (n0 + q)))
        let clamped := (vals.map (fun v => (v.filter (fun x => x.2)).length)).sum
        let s := countSat s n .epiSat clamped 0 (Config.cellArg 0 0)
        let val := fun mm nn => (((vals.getD (mm - m0) []).getD (nn - n0) (0, false))).1
        let s := if e.insn.CD then
            let per := 128 / blockWidth (dD c e)
            (ms.filter (fun m => m % per == 0)).foldl (fun s m =>
              writeBlocks s n c e b m n0 w val (fun _ => rawOf (fxOf e) (intOf (fxOf e) (dZp (xD c e))))) s
          else (ms.zip vals).foldl (fun s x => writeRow s n c e b x.1 n0 (x.2.map (fun v => v.1))) s
        let s := bump s R.WIN_REDUCER_CYC n.val (reducerPeriod c e)
        goTile (bump s R.TSQ_TILES_COMPUTED n.val 1) n r (r.tile + 1)

def execReducerTile (n : Fin 16) (s : State) : Host.Outcome State Fault Refusal := .next (reducerTile n s)

end Sys2Proof.Machine
end

