-- ==== Sys2Proof/Machine/Checkpoint.lean ====
section
/-! DEFINITION. Pre-emption, the checkpoint area and resume (R145 to R154, R179, R188). -/

namespace Sys2Proof.Machine

/-! ## Requests (R145, R147, R179) -/

/-- The core runs a job that a request can stop. -/
def stoppable (c : Core) : Bool := canTrap c && c.mode != .stopping

/-- A pre-emption is allowed on the core (R147, R176). -/
def mayPreempt (s : State) (n : Fin 16) : Bool :=
  rdb s R.ARRAY_CTL_PREEMPT_EN n.val && !rdb s R.ARRAY_STATUS_CKPT_VALID n.val &&
    !(match s.cores[n].job with | some j => j.noPreempt | none => false)

/-- The request is carried out: a wait is withdrawn, no step follows. -/
def beginStop (s : State) (n : Fin 16) : State :=
  modCore (leaveQueue s n) n (fun c => { c with mode := .stopping, preemptAt := nowW s, preemptFrom := elapsedW s,
                                                preemptThrottled := throttled s })

/-- A fault of the core's arrays that no step or close has raised. -/
def coreFault (s : State) (n : Fin 16) (cause : TrapCause) : State :=
  match s.cores[n].cur with
  | some r => tensorFault s n cause {} r r.tile
  | none =>
    let s := logFault (recordFault s n cause {}) n cause 0 0
    trap s n cause { detail := arrayFaultValue s n }

/-- A stop requested by the power controller: a pre-emption where R147 allows one, a STOP_SHED fault otherwise. -/
def powerStop (s : State) (n : Fin 16) : State :=
  if !stoppable s.cores[n] then s
  else if mayPreempt s n then beginStop s n
  else coreFault s n .stopShed

/-- ARRAY_PREEMPT_REQUEST. -/
def preemptRequest (n : Fin 16) (src : StopSource) (s : State) : State :=
  match src with
  | .power => powerStop s n
  | .chanter => if stoppable s.cores[n] && mayPreempt s n && !draining s (clusterOf n) then beginStop s n else s

def execArrayPreemptRequest (n : Fin 16) (src : StopSource) (s : State) : Host.Outcome State Fault Refusal :=
  .next (preemptRequest n src s)

/-! ## The checkpoint area (R151, R152, R188) -/

def ckptBase (s : State) (n : Fin 16) : Nat := rd s R.ARRAY_CKPT_BASE_BASE n.val * 4096

/-- Accumulators are saved: the stop is inside a tile (R146). -/
def accSaved (c : Core) : Bool := match c.cur with | some r => r.step != 0 && !r.e.op.reducer | none => false

/-- TILE: 0 before the first step of the instruction (R146). -/
def savedTile (c : Core) : Nat :=
  match c.cur with
  | some r => if r.step = 0 ∧ r.tile = nextValid c r 0 ∧ r.tile < totalTiles c r.e then 0 else r.tile
  | none => 0

/-- The tensor instruction of the header: the running one, else the first queued. -/
def savedEntry (c : Core) : Option TEntry := match c.cur with | some r => some r.e | none => c.tq.head?

/-- The instruction has group sequence tags (R163, R164). -/
def tagged (e : TEntry) : Bool := e.op.streamed && integerPath e

/-- TAG: the group sequence tag expected next, TAG_BASE for an instruction that has not started; 0 for one without tags. -/
def savedTag (c : Core) : Nat :=
  match c.cur with
  | some r =>
    if tagged r.e then
      let (_, _, nt) := tileAt c r.e r.tile
      match stepWork c r.e r.step <|> stepWork c r.e (r.step + 1) <|> stepWork c r.e (r.step + 2) with
      | some w => expectedTag c r.e nt w.group
      | none => r.e.insn.TAG_BASE.toNat
    else 0
  | none => match c.tq with
    | e :: _ => if tagged e then e.insn.TAG_BASE.toNat else 0
    | [] => 0

def savedBank (c : Core) : Bool := match c.cur with | some r => r.bank | none => false

/-- The header (R152): 256 bytes. TIME and THROTTLED are those of the stop's request. -/
def ckptHeader (s : State) (n : Fin 16) : List Byte :=
  let c := s.cores[n]
  let e := savedEntry c
  let shape := match e with | some x => x.insn.SHAPE.toNat | none => 0
  let f := fun (g : TEntry → Nat) => match e with | some x => g x | none => 0
  bytesOf 2 1 ++ bytesOf 1 n.val ++ bytesOf 1 (b2n (accSaved c) + 2 * shape + 8 * b2n c.preemptThrottled) ++ bytesOf 4 (savedTile c) ++
    bytesOf 4 (match c.cur with | some r => progressOf r | none => 0) ++ bytesOf 2 (savedTag c) ++ bytesOf 1 (b2n (savedBank c)) ++
    bytesOf 1 0 ++ bytesOf 8 (f (fun x => x.addr.toNat)) ++ bytesOf 8 c.preemptAt.toNat ++
    bytesOf 4 (f (fun x => x.M)) ++ bytesOf 4 (f (fun x => x.N)) ++ bytesOf 4 (f (fun x => x.K)) ++ bytesOf 4 (f (fun x => x.BATCH)) ++
    List.replicate 208 0

/-- The queue after the instruction in the header. -/
def savedQueue (c : Core) : List TEntry := if c.cur.isSome then c.tq else c.tq.tail

/-- A queue entry: 32 bytes (R188). -/
def queueEntry (q : List TEntry) (i : Nat) : List Byte :=
  match q[i]? with
  | some e =>
    bytesOf 8 (e.addr.toNat + 2 ^ 63) ++ bytesOf 4 e.M ++ bytesOf 4 e.N ++ bytesOf 4 e.K ++ bytesOf 4 e.BATCH ++ List.replicate 8 0
  | none => List.replicate 32 0

/-- The 32 KiB of core state (R188). -/
def coreStateBytes (s : State) (n : Fin 16) : List Byte :=
  let c := s.cores[n]
  c.s.toList.flatMap (fun x => bytesOf 8 x.toNat) ++ c.a.toList.flatMap (fun x => bytesOf 8 x.toNat) ++
    c.b.toList.flatMap (fun x => bytesOf 4 x.toNat) ++ c.p.toList.flatMap (fun x => bytesOf 16 x.toNat) ++
    bytesOf 8 c.pc.toNat ++ bytesOf 8 c.cyc.toNat ++ bytesOf 4 (rd s R.CORE_JOB_TAG n.val) ++ List.replicate 428 0 ++
    c.t.toList.flatMap (fun x => bytesOf 64 x.toNat) ++ (List.range 4).flatMap (queueEntry (savedQueue c)) ++
    List.replicate 1920 0 ++ c.v.toList.flatMap (fun x => bytesOf 512 x.toNat) ++ List.replicate 12288 0

/-- The 128 × 128 cells of a block of 32-bit words. -/
def cellBytes (f : Nat → Nat → Nat) : List Byte :=
  (List.range 128).flatMap (fun i => (List.range 128).flatMap (fun j => bytesOf 4 (f i j)))

def laneBytes (l : List W32) : List Byte := (List.range 128).flatMap (fun i => bytesOf 4 (l.getD i 0).toNat)

/-- The 196 KiB of an array (R151). -/
def arrayBytes (x : ArraySt) : List Byte :=
  cellBytes (fun i j => ((x.m.getD i []).getD j 0).toNat) ++
    cellBytes (fun i j => (BitVec.ofInt 32 ((x.g0.getD i []).getD j 0)).toNat) ++
    cellBytes (fun i j => (BitVec.ofInt 32 ((x.g1.getD i []).getD j 0)).toNat) ++
    laneBytes x.rowLane0 ++ laneBytes x.rowLane1 ++ laneBytes x.colLane0 ++ laneBytes x.colLane1 ++ List.replicate 2048 0

/-- The drain of R145 is over: every tile's last close, every row and, after the last tile, every copy has been made
(R228). A group inside the tile may still await its close: its bank is saved as it stands (log entry 80). -/
def drained (c : Core) : Bool :=
  match c.cur with
  | some r => r.closes.all (fun q => !q.last) && latchesFree r && (r.tile < totalTiles c r.e || (nextCopy c r).isNone)
  | none => true

def satLists (x : ArraySt) : List (List Nat) := [x.satRows0, x.satRows1, x.satCols0, x.satCols1]

/-- What is kept of the job beside the checkpoint area. -/
def holdOf (s : State) (n : Fin 16) (j : Job) : HeldJob :=
  let c := s.cores[n]
  { job := j, plan := c.plan, textBase := c.textBase, tag := BitVec.ofNat 32 (rd s R.CORE_JOB_TAG n.val), chains := c.chains,
    satLogged := c.satLogged,
    insns := (match c.cur with | some r => [(r.e.op, r.e.insn)] | none => []) ++ c.tq.map (fun e => (e.op, e.insn)),
    started := c.cur.isSome, sat := satLists c.arrA ++ satLists c.arrB,
    closes := (match c.cur with | some r => r.closes | none => []) }

/-- c-cycles of the checkpoint's writes (R151). -/
def ckptCycles (c : Core) : Nat := if accSaved c then 213 else 17

/-- CHECKPOINT_WRITE. A write that the port refuses is a CKPT_FAULT (R149). -/
def checkpointWrite (n : Fin 16) (portRefused : Bool) (s : State) : State :=
  match s.cores[n].mode, s.cores[n].job with
  | .stopping, some j =>
    if !drained s.cores[n] || s.phase != .up then s
    else if portRefused then coreFault s n .ckptFault
    else
      let c := s.cores[n]
      let a := ckptBase s n
      let prog := match c.cur with | some r => progressOf r | none => 0
      let h := holdOf s n j
      let lat := (elapsed s - c.preemptFrom.toNat) * rd s R.MC_CLK_STATUS_CORE_MHZ 0 / 1000 + ckptCycles c
      let t := memWrite (memWrite s n.val a (ckptHeader s n) false) n.val (a + 0x1000) (coreStateBytes s n) false
      let t := if accSaved c then
          memWrite (memWrite t n.val (a + 0x9000) (arrayBytes c.arrA) false) n.val (a + 0x3A000) (arrayBytes c.arrB) false
        else t
      let t := raiseTo (bump (wrb t R.ARRAY_STATUS_CKPT_VALID n.val true) R.ARRAY_PREEMPTS n.val 1) R.ARRAY_PREEMPT_LAT_MAX n.val lat
      let t := logIt t planeData 0x32 1 0 n.val (Config.arrayArg n.val 0) prog
      modCore t n (fun c => { c with mode := .held, held := some h, job := none, chains := [], tq := [], cur := none })
  | _, _ => s

def execCheckpointWrite (n : Fin 16) (portRefused : Bool) (s : State) : Host.Outcome State Fault Refusal :=
  .next (checkpointWrite n portRefused s)

/-! ## Resume (R148) -/

/-- A vector of registers from consecutive fields. -/
def regsFrom {w k : Nat} (bs : List Byte) (at_ size : Nat) : Vector (BitVec w) k :=
  Vector.ofFn (fun i => BitVec.ofNat w (fieldOf bs (at_ + size * i.val) size))

/-- The core's registers as the checkpoint holds them. -/
def coreFromBytes (c : Core) (bs : List Byte) : Core :=
  { c with s := (regsFrom bs 0 8).set 0 0, a := regsFrom bs 0x100 8, b := regsFrom bs 0x180 4,
           p := (regsFrom bs 0x1C0 16).set 0 (BitVec.allOnes 128), t := regsFrom bs 0x400 64, v := regsFrom bs 0x1000 512,
           pc := BitVec.ofNat 48 (fieldOf bs 0x240 8), cyc := BitVec.ofNat 64 (fieldOf bs 0x248 8) }

/-- A valid queue entry with the words of its instruction. -/
def entryFrom (bs : List Byte) (i : Nat) (w : TOp × TensorInsn) : Option TEntry :=
  let o := 0x800 + 32 * i
  if bitOf (fieldOf bs o 8) 63 then
    some { op := w.1, insn := w.2, addr := BitVec.ofNat 48 (fieldOf bs o 8), M := fieldOf bs (o + 8) 4,
           N := fieldOf bs (o + 12) 4, K := fieldOf bs (o + 16) 4, BATCH := fieldOf bs (o + 20) 4 }
  else none

/-- The instruction that the header names, with its words. -/
def headerEntry (bs : List Byte) (w : TOp × TensorInsn) : TEntry :=
  { op := w.1, insn := w.2, addr := BitVec.ofNat 48 (fieldOf bs 16 6), M := fieldOf bs 32 4, N := fieldOf bs 36 4,
    K := fieldOf bs 40 4, BATCH := fieldOf bs 44 4 }

def cellsFrom (bs : List Byte) (at_ : Nat) : List (List W32) :=
  (List.range 128).map (fun i => (List.range 128).map (fun j => BitVec.ofNat 32 (fieldOf bs (at_ + 4 * (128 * i + j)) 4)))

def lanesFrom (bs : List Byte) (at_ : Nat) : List W32 := (List.range 128).map (fun i => BitVec.ofNat 32 (fieldOf bs (at_ + 4 * i) 4))

/-- An array from its 196 KiB, with the flags of R139. -/
def arrayFrom (bs : List Byte) (sat : List (List Nat)) : ArraySt :=
  let bank := fun o => (cellsFrom bs o).map (fun r => r.map BitVec.toInt)
  { m := cellsFrom bs 0, g0 := bank 0x10000, g1 := bank 0x20000, latch := [],
    rowLane0 := lanesFrom bs 0x30000, rowLane1 := lanesFrom bs 0x30200, colLane0 := lanesFrom bs 0x30400,
    colLane1 := lanesFrom bs 0x30600, satRows0 := sat.getD 0 [], satRows1 := sat.getD 1 [], satCols0 := sat.getD 2 [],
    satCols1 := sat.getD 3 [] }

/-- The group that is open at step `st`: that of the step before it, if the next step goes on with it. -/
def openAt (c : Core) (e : TEntry) (st : Nat) : Option Nat :=
  if st = 0 then none
  else
    match stepWork c e (st - 1) <|> stepWork c e (st - 2) <|> stepWork c e (st - 3), nextGroup c e (st - 1) with
    | some w, some g => if ((stepRest e w).getD w).group = g then some g else none
    | _, _ => none

/-- The run as the header gives it: tile, progress and bank; saved groups still await their close. -/
def resumedRun (c : Core) (closes : List PendingClose) (hdr : List Byte) (r : TRun) : TRun :=
  let tile := fieldOf hdr 4 4
  let prog := fieldOf hdr 8 4
  let st := if r.e.op.window then prog else prog / perStep (fxOf r.e) (fyOf r.e)
  { r with tile := tile, step := st, bank := bitOf (fieldOf hdr 14 1) 0, openGroup := openAt c r.e st, closes := closes,
           copyTile := if tile ≥ totalTiles c r.e then totalTiles c r.e else 0 }

/-- The job is on the core again, with what was kept of it; the checkpoint's contents are not read yet. -/
def rejoin (s : State) (n : Fin 16) (h : HeldJob) : State :=
  wr (modCore s n (fun c => { c with mode := .running, held := none, job := some h.job, plan := h.plan, textBase := h.textBase,
                                     chains := h.chains, satLogged := h.satLogged, tq := [], cur := none }))
    R.CORE_JOB_TAG n.val h.tag.toNat

/-- The queue and the run after the registers have been restored. -/
def restoreQueue (s : State) (n : Fin 16) (h : HeldJob) (hdr st : List Byte) : State :=
  match h.insns with
  | [] => s
  | w :: ws =>
    let e := headerEntry hdr w
    let q := ws.zipIdx.filterMap (fun x => entryFrom st x.2 x.1)
    if h.started then
      beginRun (modCore s n (fun c => { c with tq := q })) n e (resumedRun s.cores[n] h.closes hdr) false
    else modCore s n (fun c => { c with tq := e :: q })

/-- The held job may resume: its unit is the cluster's current one again, and the cluster runs. -/
def mayResume (s : State) (n : Fin 16) : Bool :=
  s.phase == .up && !s.clusters[clusterOf n].gated && s.cores[n].mode == .held &&
    match s.clusters[clusterOf n].cur with
    | some (_, .running) => s.clusters[clusterOf n].busy.getLsbD (n.val % 4)
    | _ => false

/-- CHECKPOINT_RESTORE. -/
def checkpointRestore (n : Fin 16) (s : State) : State :=
  match s.cores[n].held with
  | none => s
  | some h =>
    if !mayResume s n then s
    else
      let a := ckptBase s n
      let hd := memRead s n.val a 256
      let st := memRead hd.s n.val (a + 0x1000) 0x8000
      let acc := bitOf (fieldOf hd.bytes 3 1) 0
      let xa := if acc then memRead st.s n.val (a + 0x9000) 0x31000 else { s := st.s, bytes := [], poison := false : MemRead }
      let xb := if acc then memRead xa.s n.val (a + 0x3A000) 0x31000 else { s := xa.s, bytes := [], poison := false : MemRead }
      let s := rejoin xb.s n h
      if hd.poison || st.poison || xa.poison || xb.poison || fieldOf hd.bytes 0 2 != 1 || fieldOf hd.bytes 2 1 != n.val then
        coreFault s n .ckptFault
      else
        let s := modCore s n (fun c => { coreFromBytes c st.bytes with
          arrA := if acc then arrayFrom xa.bytes (h.sat.take 4) else ArraySt.init,
          arrB := if acc then arrayFrom xb.bytes (h.sat.drop 4) else ArraySt.init })
        let s := logIt (wrb s R.ARRAY_STATUS_CKPT_VALID n.val false) planeData 0x32 2 0 n.val (Config.arrayArg n.val 0)
          (fieldOf hd.bytes 8 4)
        restoreQueue s n h hd.bytes st.bytes

def execCheckpointRestore (n : Fin 16) (s : State) : Host.Outcome State Fault Refusal := .next (checkpointRestore n s)

/-! ## ARRAY_CTL (R153, R154) -/

/-- The checkpoint area lies wholly within the core's own core memory. -/
def ckptAreaOk (s : State) (n : Fin 16) : Bool :=
  coreBase n ≤ ckptBase s n && ckptBase s n + 428 * 1024 ≤ coreBase n + 0x800000

/-- Writes to ARRAY_CTL and ARRAY_CKPT_BASE are ignored while a checkpoint is held or being written. -/
def arrayLocked (s : State) (n : Fin 16) : Bool := rdb s R.ARRAY_STATUS_CKPT_VALID n.val || s.cores[n].mode == .stopping

/-- A write of ARRAY_CTL. -/
def arrayCtlWrite (n : Fin 16) (v : Nat) (s : State) : State :=
  if arrayLocked s n then s
  else
    let s := wr (wrb s R.ARRAY_CTL_CHK_OFF n.val (bitOf v 1)) R.ARRAY_CTL_GATE_IDLE n.val (bitsOf v 8 8)
    if bitOf v 0 && !ckptAreaOk s n then wrb s R.ARRAY_FAULT_CKPT_CFG n.val true
    else wrb s R.ARRAY_CTL_PREEMPT_EN n.val (bitOf v 0)

def execPreemptEnWrite (n : Fin 16) (ctl : BitVec 32) (s : State) : Host.Outcome State Fault Refusal :=
  .next (if planesRun s then arrayCtlWrite n ctl.toNat s else s)

end Sys2Proof.Machine
end

