-- ==== Sys2Proof/Machine/Log.lean ====
section
/-! DEFINITION. The error log: entries leave the planes' queues into the ring, and are acknowledged (R13, R391 to R397). -/

namespace Sys2Proof.Machine

/-- Difference of two counts modulo 2^32. -/
def countDiff (a b : Nat) : Nat := (a + 2 ^ 32 - b % 2 ^ 32) % 2 ^ 32

def logWr (s : State) : Nat := rd s R.LOG_WR 0
def logAckAt (s : State) : Nat := rd s R.LOG_ACK 0

/-- The ring holds 1,024 entries that are not acknowledged (R396). -/
def logFull (s : State) : Bool := countDiff (logWr s) (logAckAt s) == 1024

/-- The m-cycle in which an entry arose, and its plane: the order in which entries are stored (R13). -/
def logKey (e : LogEntry) : Nat := e.time.toNat * 2 / 5 * 4 + e.plane.val

/-- The plane whose oldest entry is next to be stored. -/
def logNext (s : State) : Option (Fin 3) :=
  (List.finRange 3).foldl (fun (b : Option (Fin 3)) p =>
    match s.logQ[p].head?, b with
    | none, _ => b
    | some _, none => some p
    | some e, some q => if (s.logQ[q].head?).any (fun f => logKey e < logKey f) then some p else b) none

/-- An entry is written: it takes the next sequence number, and the interrupt, the alert and LOG_MAX_SEV follow (R397). -/
def logWrite (s : State) (e : LogEntry) : State :=
  let e := { e with seq := BitVec.ofNat 32 (logWr s) }
  let s := bump { s with log := (e :: s.log).take 1024 } R.LOG_WR 0 1
  let s := if rdb s R.LOG_CTL_IRQ_EN 0 && e.sev.toNat ≥ rd s R.LOG_CTL_IRQ_SEV 0 then raiseVector s (rd s R.LOG_CTL_VECTOR 0) else s
  let s := if e.sev.toNat ≥ rd s R.LOG_CTL_ALERT_SEV 0 then setAlert s 5 else s
  raiseTo s R.LOG_MAX_SEV 0 e.sev.toNat

/-- An entry reaches the ring; a full ring discards it, or gives up its oldest entry for it (R396). -/
def logStore (s : State) (e : LogEntry) : State :=
  if !logFull s then logWrite s e
  else if e.sev.toNat ≤ 2 then bump s R.LOG_DISCARDED 0 1
  else logWrite (bump (wr s R.LOG_ACK 0 (logAckAt s + 1)) R.LOG_OVERWRITTEN 0 1) e

/-- ERROR_LOG_ENTRY. -/
def logEntry (s : State) : State :=
  match logNext s with
  | none => s
  | some p =>
    match s.logQ[p] with
    | [] => s
    | e :: rest => logStore { s with logQ := s.logQ.set p rest } e

def execErrorLogEntry (s : State) : Host.Outcome State Fault Refusal := .next (logEntry s)

/-- QUEUE_LOSS (R395): a queue with room again takes an entry that says how many were lost. -/
def queueLoss (p : Fin 3) (s : State) : State :=
  if s.logLost[p] = 0 ∨ s.logQ[p].length ≥ 16 then s
  else
    let n := s.logLost[p]
    logIt { s with logLost := s.logLost.set p 0 } p 0x01 8 2 0xFF n 0

def execQueueLoss (plane : Fin 3) (s : State) : Host.Outcome State Fault Refusal := .next (queueLoss plane s)

/-- A write of LOG_ACK: taken only from the present LOG_ACK to LOG_WR (R396). -/
def logAckWrite (v : Nat) (s : State) : State :=
  if countDiff v (logAckAt s) ≤ countDiff (logWr s) (logAckAt s) then wr s R.LOG_ACK 0 v else s

def execLogAck (value : BitVec 32) (s : State) : Host.Outcome State Fault Refusal := .next (logAckWrite value.toNat s)

/-! ## Reading entries (R391) -/

/-- The 32 bytes of an entry. -/
def entryBytes (e : LogEntry) : List Byte :=
  bytesOf 8 e.time.toNat ++ bytesOf 2 e.code.toNat ++ [BitVec.ofNat 8 (e.sev.toNat + 16 * e.plane.val), e.unit] ++
    bytesOf 4 e.seq.toNat ++ bytesOf 8 e.arg0.toNat ++ bytesOf 8 e.arg1.toNat

/-- The entry last written in a slot of the ring. -/
def logSlot (s : State) (i : Nat) : Option LogEntry := s.log.find? (fun e => e.seq.toNat % 1024 == i)

/-- A byte of the log window. -/
def logByte (s : State) (off : Nat) : Byte :=
  match logSlot s (off / 32 % 1024) with
  | some e => (entryBytes e).getD (off % 32) 0
  | none => Config.emptyLogByte off

/-- `n` bytes of the log window as a number. -/
def logWindow (s : State) (off n : Nat) : Nat := natOfBytes ((List.range n).map (fun i => logByte s (off + i)))

end Sys2Proof.Machine
end

