-- ==== Sys2Proof/Machine/Power.lean ====
section
/-! DEFINITION. Clocks and voltage, power limit and boost, thermal control, supply shedding, drone mode and the orderly
halt, and the discipline of the timestamp counter (R366 to R383, R422). -/

namespace Sys2Proof.Machine

def unitMc : Nat := 0x40
def unitShed : Nat := 0x43

/-! ## Service state (R32, R36, R340, R379) -/

/-- The service state changes, and the descriptor block with it (R340). -/
def setService (s : State) (v : Nat) : State :=
  let s := wr s R.GLB_SVC_STATE_STATE 0 v
  if s.ddbValid then { s with ddbGen := s.ddbGen + 2 } else s

def setStage (s : State) (n : Nat) : State := wr s R.GLB_SVC_STATE_SHED_STAGE 0 n

/-- The sensors and the controllers of the management plane run. -/
def managed (s : State) : Bool :=
  match s.phase with
  | .powerOn => false
  | .held => false
  | .tripped => false
  | _ => true

/-! ## Clock and voltage (R368, R369, R371, R372) -/

/-- The fused voltage in mV for a frequency from 400 to 1,150 MHz in steps of 25 MHz (R367, R369). -/
def fusedMv (s : State) (mhz : Nat) : Nat := s.fuses.voltages[Fin.ofNat 31 ((mhz - 400) / 25)].toNat

/-- The VDD_CORE target for a frequency. -/
def targetMv (s : State) (mhz : Nat) : Nat := max 700 (min 800 (fusedMv s mhz + 10))

def coreMhz (s : State) : Nat := rd s R.MC_CLK_STATUS_CORE_MHZ 0

def stageLimit (s : State) : Nat := if stage s = 5 then 400 else if stage s = 3 ∨ stage s = 4 then 700 else 1150

/-- The power limit in W. -/
def powerLimitW (s : State) : Nat :=
  let board := match rd s R.MC_PWR_CTL_BOARD_LIMIT 0 with
    | 0 => 120
    | 1 => 160
    | _ => 200
  if s.power.hostLimit = 0 ∨ s.power.hostLimit > board then board else s.power.hostLimit

def tjOf (s : State) : Int := signedOf 8 (rd s R.MC_THERM_TJ 0)

/-- The conditions of boost. -/
def boostHolds (s : State) : Bool :=
  serving s && s.power.boostEn && stage s == 0 && !s.power.firstUse && tjOf s ≤ 90 &&
    rd s R.MC_PWR_EST_AVG 0 + 150 ≤ powerLimitW s * 10

/-- The lowest of the clock's other limits (R368). -/
def otherLimits (s : State) : Nat :=
  min (min (if s.power.boost then 1150 else 1000) (if s.power.avsFail then 700 else 1150)) (min (stageLimit s) s.power.thermLimit)

/-- The target frequency and what limits it. -/
def clockTarget (s : State) : Nat × Nat :=
  let top := if s.power.boost then 1150 else 1000
  let t := min (otherLimits s) s.power.powerLimit
  (t, if t = top then (if s.power.boost then 4 else 0)
      else if t = stageLimit s then 1
      else if t = s.power.thermLimit then 2
      else if t = s.power.powerLimit then 3
      else Config.avsLimiter)

/-- The device has AVSBus control: from phase 4 on, which a device without firmware or a board configuration does not run
(R362, R364); a target of 0.70 GHz holds through a BIST that a function reset begins (R422). -/
def avsRuns (s : State) : Bool :=
  match s.phase with
  | .phase4 => true
  | .phase5 => true
  | .up => s.missing.toNat / 1024 == 0
  | .bist => s.power.avsFail
  | _ => false

/-- The clock slews: its target differs from its frequency, and a rise has its voltage. -/
def clockMoves (s : State) : Bool :=
  avsRuns s && s.power.targetMhz != coreMhz s && (s.power.targetMhz < coreMhz s || targetMv s s.power.targetMhz ≤ s.power.avsMv)

/-- The frequency that the clock has reached: 25 MHz for each µs since the slew began. -/
def slewedMhz (s : State) : Nat :=
  let cur := coreMhz s
  let t := s.power.targetMhz
  let d := (elapsed s - s.power.slewAt.toNat) / 1000 * 25
  if !clockMoves s then cur else if t < cur then max t (cur - d) else min t (cur + d)

/-- VDD_CORE's target: the fused voltage for the frequency, and before a rise the one for the frequency to come, too. -/
def coreMv (s : State) (t : Nat) : Nat := if coreMhz s < t then max (targetMv s (coreMhz s)) (targetMv s t) else targetMv s (coreMhz s)

/-- The clock's target is worked out anew, from where a slew has brought the frequency. Before the frequency rises, so does
the voltage: not before phase 4, until when the regulator holds the boot level (R362). -/
def retarget (s : State) : State :=
  let s := { s with power := { s.power with boost := boostHolds s } }
  let (t, code) := clockTarget s
  let s := wr s R.MC_CLK_STATUS_LIMITER 0 code
  let s := if t = s.power.targetMhz then s
    else { wr s R.MC_CLK_STATUS_CORE_MHZ 0 (slewedMhz s) with power := { s.power with targetMhz := t, slewAt := elapsedW s } }
  let s := if avsRuns s then wr s R.MC_CLK_STATUS_VDD_CORE_MV 0 (coreMv s t) else s
  if t = coreMhz s then { s with power := { s.power with throttleStage := false } } else s

/-- CLOCK_SLEW_DONE: 25 MHz per µs; a rise waits for the voltage. -/
def clockSlewDone (s : State) : State :=
  let t := s.power.targetMhz
  let cur := coreMhz s
  if !clockMoves s then s
  else
    let s := passUntil s (s.power.slewAt.toNat + ceilDiv ((t - cur) + (cur - t)) 25 * 1000)
    let s := wr (wr s R.MC_CLK_STATUS_CORE_MHZ 0 t) R.MC_CLK_STATUS_VDD_CORE_MV 0 (targetMv s t)
    { s with power := { s.power with throttleStage := false } }

def execClockSlewDone (s : State) : Host.Outcome State Fault Refusal := .next (clockSlewDone s)

/-! ## AVSBus (R422) -/

/-- An AVSBus write has been acknowledged, or three attempts in succession have not. -/
def avsResult (s : State) (acked : Bool) : State :=
  if acked then
    let s := wr s R.MC_CLK_STATUS_CORE_MHZ 0 (slewedMhz s)
    retarget { s with power := { s.power with avsMv := rd s R.MC_CLK_STATUS_VDD_CORE_MV 0, avsFail := false, slewAt := elapsedW s } }
  else
    let s := if s.power.avsFail then s else logIt s planeMgmt 0x01 10 2 unitMc 0 0
    retarget { s with power := { s.power with avsFail := true, avsAt := elapsedW s } }

/-- AVS_WRITE. -/
def execAvsWrite (acked : Bool) (s : State) : Host.Outcome State Fault Refusal :=
  .next (if avsRuns s then avsResult s acked else s)

/-- AVS_RETRY: 100 ms after the attempt that failed. -/
def execAvsRetry (acked : Bool) (s : State) : Host.Outcome State Fault Refusal :=
  .next (if avsRuns s && s.power.avsFail then avsResult (passUntil s (s.power.avsAt.toNat + 100000000)) acked else s)

/-! ## Stage requests (R373, R377, R382) -/

/-- An MR4 code above the highest refresh rate was last read from some channel. -/
def mr4Hot (s : State) : Bool := s.dramChs.any (fun c => c.hot)

/-- The requests of the inputs, in the order of MC_SHED_STATUS.SOURCES; 0 requests nothing. -/
def stageRequests (s : State) : List Nat :=
  let p := s.power
  [if p.pwrWarnN then 0 else if p.warnHold || p.firstUse then 4 else 2,
   if p.vrHotN then 0 else 3,
   if p.shedReqN then 0 else max 1 (min 5 p.shedReqStage),
   if p.droop1 then 3 else 0,
   if p.droop2 then 5 else 0,
   if p.temp5 then 5 else if p.temp3 || mr4Hot s then 3 else 0,
   min 5 p.forceStage]

def requestedStage (s : State) : Nat := (stageRequests s).foldl max 0

def requestSources (s : State) : Nat :=
  ((stageRequests s).zipIdx.map (fun e => if e.1 = 0 then 0 else 2 ^ e.2)).foldl (· + ·) 0

/-- Throttle is asserted or released by one of its sources; its assertion sets MC_ALERT_STAT.THROTTLE. -/
def throttleBy (s : State) (f : Power → Power) : State :=
  let was := throttled s
  let s := { s with power := f s.power }
  if throttled s && !was then setAlert s 1 else s

/-! ## Entering and leaving stages (R375, R376, R379) -/

/-- The log entry and the alert of a stage's entry or exit. -/
def stageEvent (s : State) (n : Nat) (exit : Bool) : State :=
  setAlert (logIt s planeMgmt 0x02 (n + 128 * b2n exit) (if exit then 0 else 2) unitShed (rd s R.MC_SHED_STATUS_SOURCES 0) 0) 0

/-- Clusters outside the drone cluster. -/
def shedClusters (s : State) : List (Fin 4) := (List.finRange 4).filter (fun c => droneCluster s != some c)

/-- The clocks of a cluster are gated or run. -/
def gateCluster (b : Bool) (s : State) (c : Fin 4) : State := modCluster s c (fun x => { x with gated := b })

/-- Every core of a cluster is stopped under R147, and the cluster leaves service. Its arrays ramp down under R133, and its
clocks are gated once its cores have stopped (`clockGated`). -/
def stopCluster (s : State) (c : Fin 4) : State :=
  gateCluster true ((List.finRange 4).foldl (fun s i => powerStop s (coreOf c i)) s) c

/-- The cores of a cluster have stopped: checkpoints and completion entries are written, and the arrays are gated. -/
def clusterQuiet (s : State) (c : Fin 4) : Bool :=
  (List.finRange 4).all (fun i =>
    let x := s.cores[coreOf c i]
    (x.mode == .idle || x.mode == .held) && rampLevel s.clock.cyc x.ramp == 0)

/-- The clocks of a cluster are gated (R376). -/
def clockGated (s : State) (c : Fin 4) : Bool := s.clusters[c].gated && clusterQuiet s c

/-- A cluster is in service again: the arrays of its cores that hold a tensor instruction ramp up (R134, R376; DEDUCED, log
entry 243). -/
def wakeCluster (s : State) (c : Fin 4) : State :=
  if !s.clusters[c].gated then s
  else
    (List.finRange 4).foldl (fun s i => if (s.cores[coreOf c i].held.any (fun h => h.started)) then rampUp s (coreOf c i) else s)
      (gateCluster false s c)

/-- Decoders outside the drone set stop (R60). -/
def stopDecoders (s : State) : State :=
  (List.finRange 12).foldl (fun s k => if inDroneSet s (vdUsable s) 2 k then s else stopDecoder s k) s

/-- What a stage does on entry. -/
def stageAction (s : State) (n : Nat) : State :=
  match n with
  | 1 => shedEncoders s
  | 3 => throttleBy s (fun p => { p with throttleStage := true })
  | 4 => shedOffers s
  | 5 => wrb (stopDecoders ((shedClusters s).foldl stopCluster s)) R.GLB_SVC_STATE_DRONE 0 true
  | _ => s

/-- The MC posts a command on the management ring (R11). -/
def postMgmt (s : State) (cmd : MgmtCmd) : State := { s with mgmt := s.mgmt ++ [cmd] }

/-- A stage is entered: the ring command of stage 4 is posted before the stage's shed signals are raised (R11). The clock's
target follows at once: boost ends with stage 0 (R372). -/
def enterStage (s : State) (n : Nat) : State :=
  let s := if n = 4 then postMgmt s .suspend else s
  retarget (stageAction (bump (stageEvent (setStage s n) n false) R.MC_SHED_ENTRIES 0 1) n)

/-- Leaving a stage undoes its action. -/
def leaveStage (s : State) (n : Nat) : State :=
  let s := if n = 4 then postMgmt s .resume else s
  let s := stageEvent (setStage s (n - 1)) n true
  let s := if n = 5 then wrb ((List.finRange 4).foldl wakeCluster s) R.GLB_SVC_STATE_DRONE 0 false else s
  retarget s

/-- Stages above the current one up to the requested one are entered in order. -/
def enterUpTo (s : State) (req : Nat) : State :=
  (List.range 5).foldl (fun s i => if stage s < i + 1 ∧ i + 1 ≤ req then enterStage s (i + 1) else s) s

/-- The hold of the next exit step begins, goes on, or ends. -/
def setExit (s : State) (t : Option W64) : State :=
  wrb { s with power := { s.power with exitSince := t } } R.MC_SHED_STATUS_EXITING 0 t.isSome

/-- The requests are evaluated (R377). -/
def shedEval (s : State) : State :=
  let req := requestedStage s
  let s := wr (wr s R.MC_SHED_STATUS_REQ 0 req) R.MC_SHED_STATUS_SOURCES 0 (requestSources s)
  if !serving s then s
  else if req > stage s then enterUpTo (setExit s none) req
  else if req < stage s then setExit s (some (s.power.exitSince.getD (elapsedW s)))
  else setExit s none

/-- EXIT_HOLD_EXPIRY: one stage down; the next hold starts with this step. -/
def exitHoldExpiry (s : State) : State :=
  match s.power.exitSince with
  | none => s
  | some t =>
    if !serving s then s
    else
      let s := passUntil s (t.toNat + max 1 s.power.exitHold * 1000000)
      shedEval (setExit (leaveStage s (stage s)) none)

def execExitHoldExpiry (s : State) : Host.Outcome State Fault Refusal := .next (exitHoldExpiry s)

/-- A change of the power state that the shedding controller sees. Under the power-on reset the pins keep their levels, and
no request is evaluated. -/
def shedInput (s : State) (f : Power → Power) : State :=
  let s := { s with power := f s.power }
  if s.phase == .powerOn then s else shedEval s

/-! ## Inputs (R377, R381) -/

def execPwrWarnNFall (s : State) : Host.Outcome State Fault Refusal :=
  .next (if s.power.pwrWarnN then shedInput s (fun p => { p with pwrWarnN := false, warnHold := false, pwrWarnAt := elapsedW s }) else s)

def execPwrWarnNRise (s : State) : Host.Outcome State Fault Refusal :=
  .next (shedInput s (fun p => { p with pwrWarnN := true, warnHold := false }))

/-- PWR_WARN_HOLD: PWR_WARN_N has been low for 20 ms without a break. -/
def pwrWarnHold (s : State) : State :=
  if s.power.pwrWarnN || s.power.warnHold then s
  else shedInput (passUntil s (s.power.pwrWarnAt.toNat + 20000000)) (fun p => { p with warnHold := true })

def execPwrWarnHold (s : State) : Host.Outcome State Fault Refusal := .next (pwrWarnHold s)

def execVrHotNChange (level : Level) (s : State) : Host.Outcome State Fault Refusal :=
  .next (shedInput s (fun p => { p with vrHotN := level }))

def execShedReqNChange (level : Level) (s : State) : Host.Outcome State Fault Refusal :=
  .next (shedInput s (fun p => { p with shedReqN := level }))

/-- The droop thresholds in force. -/
def droopLimits (s : State) : Nat × Nat :=
  let d1 := rd s R.MC_DROOP_CTL_DROOP1 0
  let d2 := rd s R.MC_DROOP_CTL_DROOP2 0
  let d2 := if d2 ≤ d1 then d1 + 1 else d2
  if s.power.firstUse then (min d1 30, min d2 55) else (d1, d2)

/-- How far VDD_CORE lies below its target. -/
def droopOf (s : State) (mv : BitVec 12) : Nat := rd s R.MC_CLK_STATUS_VDD_CORE_MV 0 - mv.toNat

/-- DROOP_DETECT: VDD_CORE has been at `mv` for 1 µs. -/
def droopDetect (mv : BitVec 12) (s : State) : State :=
  if !managed s then s
  else
    let d := droopOf s mv
    let l := droopLimits s
    shedInput s (fun p => { p with droop1 := p.droop1 || d > l.1, droop2 := p.droop2 || d > l.2 })

def execDroopDetect (mv : BitVec 12) (s : State) : Host.Outcome State Fault Refusal := .next (droopDetect mv s)

/-- DROOP_CLEAR: VDD_CORE has come back to `mv`. -/
def droopClear (mv : BitVec 12) (s : State) : State :=
  let d := droopOf s mv
  let l := droopLimits s
  shedInput s (fun p => { p with droop1 := p.droop1 && d > l.1, droop2 := p.droop2 && d > l.2 })

def execDroopClear (mv : BitVec 12) (s : State) : Host.Outcome State Fault Refusal := .next (droopClear mv s)

/-- The 100 µs evaluation takes over what was written to MC_SHED_CTL and MC_PWR_CTL (R383). -/
def evalCtl (s : State) : State :=
  retarget (shedInput s (fun p => { p with
    forceStage := rd s R.MC_SHED_CTL_FORCE_STAGE 0, shedReqStage := rd s R.MC_SHED_CTL_SHEDREQ_STAGE 0,
    exitHold := rd s R.MC_SHED_CTL_EXIT_HOLD 0, hostLimit := rd s R.MC_PWR_CTL_HOST_LIMIT 0,
    boostEn := rdb s R.MC_PWR_CTL_BOOST_EN 0 }))

/-- FORCE_STAGE: MC_SHED_CTL is written; the request follows at the next evaluation. -/
def execForceStage (ctl : BitVec 32) (s : State) : Host.Outcome State Fault Refusal :=
  .next (wr (wr (wr s R.MC_SHED_CTL_FORCE_STAGE 0 (bitsOf ctl.toNat 0 3)) R.MC_SHED_CTL_SHEDREQ_STAGE 0 (bitsOf ctl.toNat 4 3))
    R.MC_SHED_CTL_EXIT_HOLD 0 (bitsOf ctl.toNat 8 16))

/-- FIRST_USE_END: 10 ms after the start of service (R39). -/
def firstUseEnd (s : State) : State :=
  if !s.power.firstUse then s
  else
    let s := passUntil s (s.power.serviceAt.toNat + 10000000)
    retarget (shedInput (wrb s R.GLB_SVC_STATE_FIRST_USE 0 false) (fun p => { p with firstUse := false }))

def execFirstUseEnd (s : State) : Host.Outcome State Fault Refusal := .next (firstUseEnd s)

/-! ## Power estimates (R371) -/

/-- The limit on the clock after an estimate: it falls from what the clock may reach, and rises while it is the one that
constrains it (DESIGN CHOICE, log entry 225). -/
def nextPowerLimit (s : State) : Nat :=
  let avg := rd s R.MC_PWR_EST_AVG 0
  let lim := powerLimitW s * 10
  if avg > lim then max 400 (min s.power.powerLimit (otherLimits s) - 25)
  else if avg * 100 < lim * 95 ∧ s.power.powerLimit < otherLimits s then s.power.powerLimit + 25
  else s.power.powerLimit

/-- POWER_ESTIMATE_TICK: an estimate in units of 0.1 W. -/
def powerEstimateTick (est : BitVec 16) (s : State) : State :=
  if !managed s then s
  else
    let s := evalCtl (passUntil s (s.power.tickAt.toNat + 100000))
    let es := (est.toNat :: s.power.estimates).take 100
    let s := { s with power := { s.power with estimates := es, tickAt := elapsedW s } }
    let s := raiseTo (wr s R.MC_PWR_EST_AVG 0 (rneQuot (es.foldl (· + ·) 0) es.length)) R.MC_PWR_EST_PEAK 0 est.toNat
    let lim := powerLimitW s * 10
    let s := if rd s R.MC_PWR_EST_AVG 0 > lim then setAlert s 2 else s
    let s := { s with power := { s.power with powerLimit := nextPowerLimit s } }
    let s := if est.toNat * 10 > lim * 11 then throttleBy s (fun p => { p with throttlePower := true })
      else if est.toNat < lim then throttleBy s (fun p => { p with throttlePower := false })
      else s
    retarget s

def execPowerEstimateTick (est : BitVec 16) (s : State) : Host.Outcome State Fault Refusal := .next (powerEstimateTick est s)

/-! ## Temperature (R373) -/

/-- While the first-use window is open, the temperatures of R373 are 3 °C lower. -/
def tjOffset (s : State) : Int := if s.power.firstUse then 3 else 0

/-- The hottest of the 16 sensors (R373, R426). -/
def hottest (sensors : Vector (BitVec 8) 16) : BitVec 8 :=
  sensors.toList.foldl (fun m x => if m.toInt < x.toInt then x else m) sensors[0]

/-- MC_THERM.TJ and TJ_PEAK take a temperature. -/
def noteTj (s : State) (tj : BitVec 8) : State :=
  let peak := if s.power.tjSeen then max tj.toInt (signedOf 8 (rd s R.MC_THERM_TJ_PEAK 0)) else tj.toInt
  let s := wr (wr s R.MC_THERM_TJ 0 tj.toNat) R.MC_THERM_TJ_PEAK 0 (BitVec.ofInt 8 peak).toNat
  { s with power := { s.power with tjSeen := true, sampleAt := elapsedW s } }

/-- THERMAL_SAMPLE. A tripped device goes on sampling, on its management clock; nothing is left to act on (R374). -/
def thermalSample (sensors : Vector (BitVec 8) 16) (s : State) : State :=
  let tj := hottest sensors
  if s.phase == .tripped then noteTj (passUntil s (s.power.sampleAt.toNat + 100000)) tj
  else if !managed s then s
  else
    let s := noteTj (evalCtl (passUntil s (s.power.sampleAt.toNat + 100000))) tj
    let t := tj.toInt + tjOffset s
    let s := if t ≥ 100 && !s.power.throttleTherm then
        throttleBy s (fun p => { p with throttleTherm := true, thermSince := elapsedW s })
      else if t ≤ 97 && s.power.throttleTherm then throttleBy s (fun p => { p with throttleTherm := false, thermSince := elapsedW s })
      else s
    let s := wrb s R.MC_THERM_THROTTLE 0 s.power.throttleTherm
    retarget (shedInput s (fun p => { p with temp3 := t ≥ 103, temp5 := t ≥ 105 }))

def execThermalSample (sensors : Vector (BitVec 8) 16) (s : State) : Host.Outcome State Fault Refusal := .next (thermalSample sensors s)

/-- THERMAL_LIMIT_STEP: 10 ms at or above the threshold, or 10 ms after the release. -/
def thermalLimitStep (s : State) : State :=
  let p := s.power
  if !managed s || (!p.throttleTherm && p.thermLimit ≥ 1150) then s
  else
    let s := passUntil s (p.thermSince.toNat + 10000000)
    let l := if !p.throttleTherm then min 1150 (p.thermLimit + 50)
      else if tjOf s + tjOffset s ≥ 100 then max 400 (p.thermLimit - 50)
      else p.thermLimit
    retarget { s with power := { s.power with thermLimit := l, thermSince := elapsedW s } }

def execThermalLimitStep (s : State) : Host.Outcome State Fault Refusal := .next (thermalLimitStep s)

/-! ## Halting (R374, R378) -/

/-- The halt record: cause 1 VDD_CORE floor, 2 VDD_VID floor, 3 thermal trip. -/
def haltRecord (s : State) (cause : Nat) : State :=
  wr (wrb (wr (wr s R.MC_HALT_RECORD_CAUSE 0 cause) R.MC_HALT_RECORD_STAGE 0 (stage s)) R.MC_HALT_RECORD_VALID 0 true)
    R.MC_HALT_TIME 0 (now s)

/-- SVC_OK inactive, SHED_STAT 0b111, HALTED. A first-use window that is still open closes (DESIGN CHOICE, log entry
181). -/
def enterHalted (s : State) (p : Phase) : State :=
  let s := wrb (wrb (wrb s R.GLB_SVC_STATE_SVC_OK 0 false) R.GLB_SVC_STATE_FIRST_USE 0 false) R.GLB_SVC_STATE_DRONE 0 false
  setService { setStage s 7 with phase := p, power := { s.power with firstUse := false, exitSince := none } } 5

/-- Every clock but the management clock has stopped: what the control and data planes had under way goes no further, and the
power-on reset that must follow keeps nothing of it (R374). -/
def stopClocks (s : State) : State :=
  { State.reset with
    regs := s.regs, halfW := s.halfW, halfR := s.halfR, mem := s.mem, ecc := s.ecc, hostMem := s.hostMem, flash := s.flash,
    fuses := s.fuses, phase := s.phase, clock := s.clock, power := s.power,
    pci := s.pci, msix := s.msix, pba := s.pba, log := s.log, logQ := s.logQ, logLost := s.logLost, smbOut := s.smbOut, smbPec := s.smbPec,
    bistDone := s.bistDone, ddbGen := s.ddbGen, ddbValid := s.ddbValid, fwVersion := s.fwVersion, missing := s.missing,
    tap := s.tap, freeCtr := s.freeCtr, pending := s.pending }

/-- THERMAL_TRIP: every clock but the management clock stops, and the link goes down with the host clock. -/
def thermalTrip (s : State) : State :=
  if s.phase == .powerOn || s.phase == .tripped then s
  else
    let s := haltRecord (logIt s planeMgmt 0x01 9 5 unitMc 0 3) 3
    let s := wrb (wr s R.MC_CLK_STATUS_CORE_MHZ 0 0) R.HIF_LINK_STATUS_LINK_UP 0 false
    stopClocks (enterHalted s .tripped)

def execThermalTrip (s : State) : Host.Outcome State Fault Refusal := .next (thermalTrip s)

/-- A core that runs a job, one that drains for a stop among them, stops as a STOP_SHED fault: it writes no checkpoint. -/
def haltCore (s : State) (n : Fin 16) : State := if canTrap s.cores[n] then coreFault s n .stopShed else s

/-- ORDERLY_HALT. -/
def orderlyHalt (core vid : BitVec 12) (s : State) : State :=
  if !serving s || !(core.toNat < 620 || vid.toNat < 670) then s
  else
    let cause := if core.toNat < 620 then 1 else 2
    let s := (List.finRange 12).foldl stopDecoder s
    let s := { (List.finRange 4).foldl (fun s k => leavePools s (.encoder k)) s with
      shs := Vector.replicate 8 none, ves := Vector.replicate 4 none, veWait := Vector.replicate 4 none, veGot := Vector.replicate 4 [] }
    let s := (List.finRange 16).foldl haltCore s
    let s := ((cachedStreams s).map (fun e => e.1)).foldl writeBack s
    enterHalted (haltRecord (logIt s planeMgmt 0x01 5 5 unitMc 0 cause) cause) .halted

def execOrderlyHalt (vddCoreMv vddVidMv : BitVec 12) (s : State) : Host.Outcome State Fault Refusal :=
  .next (orderlyHalt vddCoreMv vddVidMv s)

/-! ## The management ring (R11, R375) -/

/-- A non-live stream is suspended, with its device-owned fields written back (R43). -/
def suspendStream (s : State) (n : Fin 1024) : State :=
  if isLive (streamOf s n) || (streamOf s n).shedSuspended then s
  else noteReady (writeBack (modStream s n (fun x => { x with shedSuspended := true })) n) n

def resumeStream (s : State) (n : Fin 1024) : State :=
  if (streamOf s n).shedSuspended then noteReady (modStream s n (fun x => { x with shedSuspended := false })) n else s

/-- The streams that the device knows of. -/
def knownStreams (s : State) : List (Fin 1024) := s.streams.map (fun e => Fin.ofNat 1024 e.1)

/-- What the registers of ring 31 show of a command: fetched, completed, and its entry consumed by the MC (R71). -/
def countMgmt (s : State) : State := bump (bump (bump s R.JR_HEAD 31 1) R.CR_TAIL 31 1) R.CR_HEAD 31 1

/-- What a command of the management ring does. -/
def mgmtAction (s : State) (cmd : MgmtCmd) : State :=
  match cmd with
  | .suspend => (knownStreams s).foldl suspendStream s
  | .resume => (knownStreams s).foldl resumeStream s
  | .withdraw r tag => withdrawJob s r tag

/-- The engine fetches a command from MC memory and carries it out. One whose bytes are poison is not run, and logged as a
descriptor fetch that failed (R71, R261; DESIGN CHOICE, log entry 226). -/
def fetchMgmt (s : State) (cmd : MgmtCmd) : State :=
  let pos := rd s R.JR_HEAD 31
  let (s, bad) := hiddenRead s .mc
  let s := countMgmt s
  if bad then logIt s planeCtrl 0x20 0x24 3 46 (31 * 8) pos else mgmtAction s cmd

/-- MGMT_RING_SUSPEND: the oldest command that the MC has posted on the management ring is carried out. It suspends
non-live streams, or resumes them; the MC posts it on entry to stage 4 and on leaving it. No shedding stage posts a
withdrawal: the MC posts one when its program does, on a ring with nothing ahead of it (DESIGN CHOICE, log entry 227). -/
def mgmtRing (cmd : MgmtCmd) (s : State) : State :=
  if !serving s then s
  else
    match s.mgmt, cmd with
    | [], .withdraw r tag => fetchMgmt s (.withdraw r tag)
    | c :: rest, cmd => if c == cmd then fetchMgmt { s with mgmt := rest } cmd else s
    | _, _ => s

def execMgmtRingSuspend (cmd : MgmtCmd) (s : State) : Host.Outcome State Fault Refusal := .next (mgmtRing cmd s)

/-! ## The timestamp counter (R370, R418) -/

/-- A time is applied: the counter takes it, or holds until it has reached the count. -/
def applyTime (s : State) (v : W64) : State :=
  let s := { s with clock := { s.clock with setPending := none } }
  if v.toNat ≥ now s then wr { s with clock := { s.clock with shadow := none } } R.GLB_TIMESTAMP_NS 0 v.toNat
  else { s with clock := { s.clock with shadow := some v } }

/-- A time that waited for an edge that will not come is applied. -/
def applyPending (s : State) : State :=
  match s.clock.setPending with
  | some v => applyTime s v
  | none => s

/-- MC_TS_SET. -/
def tsSet (v : W64) (s : State) : State :=
  if rdb s R.MC_TS_CTL_PPS_EN 0 && !rdb s R.MC_TS_STATUS_PPS_LOST 0 then { s with clock := { s.clock with setPending := some v } }
  else applyTime s v

def execMcTsSet (value : BitVec 64) (s : State) : Host.Outcome State Fault Refusal := .next (tsSet value s)

/-- The error of the counter against the nearest whole second, the even one of two (R2), in ns. -/
def phaseError (s : State) : Int := (now s : Int) - rneQuot (now s) 1000000000 * 1000000000

/-- An accepted edge is one that comes 500 ms or more after the one before. -/
def edgeAccepted (s : State) : Bool :=
  match s.clock.lastEdge with
  | some t => t.toNat + 500000000 ≤ elapsed s
  | none => true

/-- The size of the correction of an error `e`: at most 500 ppm, and enough to remove it within 2 s (R370). -/
def slewPpm (e : Int) : Nat := max 1 (max (ceilDiv e.natAbs 2000) (min 500 (Config.slewRate e)))

/-- The rate and the lock after an edge with error `e`: a correction against the error until it is removed, and after that
the last corrected rate, within 500 ppm. -/
def clockAfter (s : State) (e : Int) : Clock :=
  let good := e.natAbs < 1000000
  let adjust := good && !s.clock.firstEdge
  { s.clock with
    ppm := if adjust then clampInt (Config.ppsRate e) (-500) 500 else s.clock.ppm,
    slew := if adjust then (if e ≤ 0 then (slewPpm e : Int) else -(slewPpm e : Int)) else s.clock.slew,
    slewEnd := if adjust then elapsed s + ceilDiv (e.natAbs * 1000000) (slewPpm e) else s.clock.slewEnd,
    firstEdge := false, lastEdge := some (elapsedW s), goodEdges := if good then s.clock.goodEdges + 1 else 0 }

/-- PPS_EDGE: the edge that MC_TS_CTL.FALLING selects, of a pulse that has passed the filter of R418; which level change it
was, and the pulse's width, lie outside the command (DESIGN CHOICE, log entry 224). -/
def ppsEdge (s : State) : State :=
  if s.phase == .powerOn || s.phase == .held || !rdb s R.MC_TS_CTL_PPS_EN 0 || !edgeAccepted s then s
  else
    let e := phaseError s
    let s := { s with clock := clockAfter s e }
    let s := wr s R.MC_TS_STATUS_PHASE_ERR 0 (BitVec.ofInt 24 (clampInt e (-8388608) 8388607)).toNat
    let s := wrb (wrb s R.MC_TS_STATUS_LOCKED 0 (s.clock.goodEdges ≥ 2)) R.MC_TS_STATUS_PPS_LOST 0 false
    let s := applyPending s
    { s with clock := { s.clock with lastEdge := some (elapsedW s) } }

def execPpsEdge (s : State) : Host.Outcome State Fault Refusal := .next (ppsEdge s)

/-- PPS_LOST: 1.5 s without an edge. -/
def ppsLost (s : State) : State :=
  if s.phase == .powerOn || s.phase == .held || !rdb s R.MC_TS_CTL_PPS_EN 0 || rdb s R.MC_TS_STATUS_PPS_LOST 0 then s
  else
    let from_ := max s.clock.ppsSince.toNat (s.clock.lastEdge.getD 0).toNat
    let s := passUntil s (from_ + 1500000000)
    let s := wrb (wrb s R.MC_TS_STATUS_PPS_LOST 0 true) R.MC_TS_STATUS_LOCKED 0 false
    let s := { s with clock := { s.clock with goodEdges := 0 } }
    applyPending (setAlert (logIt s planeMgmt 0x01 7 2 unitMc 0 0) 3)

def execPpsLost (s : State) : Host.Outcome State Fault Refusal := .next (ppsLost s)

/-- A write of MC_TS_CTL. -/
def tsCtlWrite (v : Nat) (s : State) : State :=
  let was := rdb s R.MC_TS_CTL_PPS_EN 0
  let s := wrb (wrb s R.MC_TS_CTL_PPS_EN 0 (bitOf v 0)) R.MC_TS_CTL_FALLING 0 (bitOf v 1)
  if bitOf v 0 then (if was then s else { s with clock := { s.clock with ppsSince := elapsedW s } })
  else applyPending (wrb { s with clock := { s.clock with goodEdges := 0 } } R.MC_TS_STATUS_LOCKED 0 false)

end Sys2Proof.Machine
end

