-- ==== Sys2Proof/Machine/Reset.lean ====
section
/-! DEFINITION. Resets, the reset phases, logic BIST, DRAM training and zeroing, and the start of service (R33 to R39, R261,
R308, R315 to R318, R320, R330, R350, R353, R361 to R366, R384 to R388, R416, R427). -/

namespace Sys2Proof.Machine

/-! ## What a reset keeps (R363) -/

/-- The RWS fields. -/
def rwsFields : List RegField :=
  [R.DRC_TRAIN_CTL_FORCE_FULL, R.MC_HALT_RECORD_CAUSE, R.MC_HALT_RECORD_STAGE, R.MC_HALT_RECORD_VALID, R.MC_HALT_TIME, R.ST_CTL_BIST_REQ]

/-- What a function reset keeps beside them: the link, the running firmware with the board's power limit, DRAM training and
the clock settings. -/
def functionFields : List RegField :=
  [R.HIF_LINK_STATUS_SPEED, R.HIF_LINK_STATUS_WIDTH, R.HIF_LINK_STATUS_LINK_UP, R.MC_PWR_CTL_BOARD_LIMIT,
   R.MC_FW_STATUS_SLOT, R.MC_FW_STATUS_A_OK, R.MC_FW_STATUS_B_OK, R.MC_FW_STATUS_SVN,
   R.MC_CLK_STATUS_CORE_MHZ, R.MC_CLK_STATUS_VDD_CORE_MV,
   R.DRC_CFG_SPEED, R.DRC_CFG_RANKS, R.DRC_CFG_CAP, R.DRC_CFG_ECC_EN, R.DRC_CFG_PIN, R.DRC_STATUS_TRAIN_SRC,
   R.DRC_STATUS_REC_WRITE_FAIL, R.DRC_STATUS_NCH, R.DRC_WINDOW, R.DRC_PIN_BYTES, R.DRC_CH_STATUS_TRAINED,
   R.DRC_CH_STATUS_IN_USE, R.DRC_CH_STATUS_FAIL_STEP]

/-- The registers that stay: those of some fields. -/
def keepRegs (s : State) (fs : List RegField) : SMap Nat := s.regs.filter (fun e => fs.any (fun f => f.id == e.1 % 512))

/-- The state with everything reset that lies in the device, but for the registers of some fields. What lies outside stays:
host memory, flash, fuses, pins, the TAP. So do the queue of commands and the count of free values. -/
def baseReset (s : State) (fs : List RegField) : State :=
  { State.reset with
    regs := keepRegs s fs, hostMem := s.hostMem, flash := s.flash, fuses := s.fuses,
    tap := s.tap, freeCtr := s.freeCtr, pending := s.pending,
    power := { Power.init with perstN := s.power.perstN, pwrWarnN := s.power.pwrWarnN, vrHotN := s.power.vrHotN, vio := s.power.vio,
                               shedReqN := s.power.shedReqN } }

/-- MC_RST_CAUSE: 0 power-on, 1 PERST_N, 2 FLR, 3 hot reset, 4 link down, 5 D3hot exit. -/
def setCause (s : State) (bit : Nat) : State := wr s R.MC_RST_CAUSE 0 (2 ^ bit)

/-- The RESET entry, the first of a reset (R391, R393). -/
def logReset (s : State) : State := logIt s planeMgmt 0x01 6 0 unitMc 0 (rd s R.MC_RST_CAUSE 0)

/-! ## The start of service (R34, R35, R38, R39, R394) -/

def failedBlock (s : State) (k : Nat) : Bool := bitOf (rd s R.ST_FAILED 0) k

/-- Bits of R394 for what is missing; the board configuration and the firmware are known from phases 2 and 3. -/
def missingSet (s : State) : Nat :=
  let core := (List.finRange 16).any (fun n => coreUsable s n && clusterUsable s (clusterOf n))
  b2n (failedBlock s 44) + 2 * b2n (!chUsable s 0) + 4 * b2n (!chUsable s 1) + 8 * b2n (failedBlock s 45) +
    16 * b2n (!(List.finRange 12).any (vdUsable s)) + 32 * b2n (!(List.finRange 8).any (shUsable s)) + 64 * b2n (!core) +
    128 * b2n (failedBlock s 48) + 256 * b2n (failedBlock s 49) + 512 * b2n (failedBlock s 46 || failedBlock s 47) +
    (s.missing.toNat / 1024) * 1024

/-- Every unit is usable. -/
def allUsable (s : State) : Bool :=
  rd s R.ST_FAILED 0 == 0 && rd s R.DRC_STATUS_NCH 0 == 16 && s.fuses.core == BitVec.allOnes 16 && s.fuses.cluster == BitVec.allOnes 4 &&
    s.fuses.vd == BitVec.allOnes 12 && s.fuses.sh == BitVec.allOnes 8 && s.fuses.ve == BitVec.allOnes 4 &&
    s.fuses.dramCh == BitVec.allOnes 16

/-- Phase 6: SERVICE, REDUCED or NO_SERVICE. -/
def enterService (s : State) : State :=
  let m := missingSet s
  let s := { s with phase := .up, ddbValid := true, missing := BitVec.ofNat 12 m }
  if m ≠ 0 then
    logIt (setStage (wr s R.GLB_SVC_STATE_STATE 0 4) 7) planeMgmt 0x01 2 5 unitMc m 0
  else
    let s := wr s R.GLB_SVC_STATE_STATE 0 (if allUsable s then 2 else 3)
    let s := wrb (wrb s R.GLB_SVC_STATE_SVC_OK 0 true) R.GLB_SVC_STATE_FIRST_USE 0 true
    let s := { s with power := { s.power with firstUse := true, serviceAt := elapsedW s, tickAt := elapsedW s, sampleAt := elapsedW s } }
    retarget (shedEval s)

/-! ## Phase 4 and logic BIST (R384 to R388) -/

/-- DRAM training has run since the last power-on or fundamental reset. -/
def trainedOnce (s : State) : Bool :=
  (List.finRange 16).any (fun k => rdb s R.DRC_CH_STATUS_TRAINED k.val || rd s R.DRC_CH_STATUS_FAIL_STEP k.val != 0)

/-- Phase 4, for a device that has been configured and runs firmware: it takes AVSBus control, and training is not repeated. -/
def beginPhase4 (s : State) : State :=
  if s.missing.toNat / 1024 ≠ 0 then enterService s
  else if !trainedOnce s then retarget { s with phase := .phase4 }
  else if rd s R.DRC_STATUS_NCH 0 = 0 then enterService s
  else retarget { s with phase := .phase5 }

/-- The block is not fused off. -/
def blockFused (s : State) (k : Nat) : Bool :=
  if k < 16 then s.fuses.core.getLsbD k
  else if k < 20 then s.fuses.cluster.getLsbD (k - 16)
  else if k < 32 then s.fuses.vd.getLsbD (k - 20)
  else if k < 40 then s.fuses.sh.getLsbD (k - 32)
  else if k < 44 then s.fuses.ve.getLsbD (k - 40)
  else true

/-- Step of a block, the end of its test in ms from the start of the run, and its time in ms (R385). -/
def bistStep (k : Nat) : Nat := if k < 20 then 1 else if k < 32 then 2 else if k < 44 then 3 else if k < 49 then 4 else 5

def bistEnd (k : Nat) : Nat :=
  if k < 16 then 22 * (k % 4 + 1)
  else if k < 20 then 100
  else if k < 32 then 100 + 9 * ((k - 20) / 4 + 1)
  else if k < 44 then 127 + 7 * ((k - 32) / 4 + 1)
  else [158, 166, 174, 178, 188, 210].getD (k - 44) 210

def bistTime (k : Nat) : Nat :=
  if k < 16 then 22 else if k < 20 then 12 else if k < 32 then 9 else if k < 44 then 7 else [10, 8, 8, 4, 10, 22].getD (k - 44) 22

/-- Blocks still to be tested. -/
def bistLeft (s : State) : List Nat := (List.range 50).filter (fun k => blockFused s k && !s.bistDone.getLsbD k)

def bistStepNow (s : State) : Nat := ((bistLeft s).map bistStep).foldl min 5

/-- The run begins. -/
def startBist (s : State) : State :=
  let s := wr (wrb { s with phase := .bist, bistDone := 0, bistAt := elapsedW s, bistEdge := none } R.ST_STATUS_RUNNING 0 true)
    R.ST_START_TIME 0 (now s)
  wr s R.ST_STATUS_STEP 0 1

/-- BIST, if it was requested when the reset began, and then phase 4. -/
def beforePhase4 (s : State) : State := if s.bistDue then startBist s else beginPhase4 s

/-- BIST_REQ counts as it stands when a reset starts the device: at the rise of PERST_N, until when a board controller can
set it, or at a function reset (R384; DEDUCED, log entry 229). -/
def sampleBist (s : State) : State := { s with bistDue := rdb s R.ST_CTL_BIST_REQ 0 }

/-- The run ends. -/
def endBist (s : State) (aborted : Bool) : State :=
  let s := wrb (wrb (wrb s R.ST_STATUS_RUNNING 0 false) R.ST_STATUS_RAN 0 true) R.ST_STATUS_ABORTED 0 aborted
  let s := wrb s R.ST_STATUS_PASS 0 (rd s R.ST_FAILED 0 == 0)
  let s := wr s R.ST_DURATION 0 (rneQuot (elapsed s - s.bistAt.toNat) 1000000)
  beginPhase4 (wrb { s with bistDue := false } R.ST_CTL_BIST_REQ 0 false)

/-- A block's test is over; the last one ends the run, 210 ms after its start. -/
def blockDone (s : State) (k : Nat) : State :=
  let s := wr { s with bistDone := s.bistDone ||| BitVec.ofNat 64 (2 ^ k), bistEdge := some (elapsedW s) } R.ST_TESTED 0 (rd s R.ST_TESTED 0 ||| 2 ^ k)
  if (bistLeft s).isEmpty then endBist (passUntil s (s.bistAt.toNat + 210 * 1000000)) false
  else wr s R.ST_STATUS_STEP 0 (bistStepNow s)

/-- A unit that is not usable starts with its enable at 0 (R78, R104, R120, R208): the units that a failed block takes with
it (R387). -/
def failedOff (s : State) (k : Nat) : State :=
  if k < 16 then wrb s R.CORE_CTL_EN k false
  else if k < 20 then (List.range 4).foldl (fun s i => wrb s R.CORE_CTL_EN (4 * (k - 16) + i) false) s
  else if k < 32 then wrb s R.VD_CTL_EN (k - 20) false
  else if k < 40 then wrb s R.SH_CTL_EN (k - 32) false
  else if k < 44 then wrb s R.VE_CTL_EN (k - 40) false
  else s

/-- A block fails. -/
def blockFails (s : State) (k : Nat) (sig : BitVec 64) (detail : Nat) : State :=
  let s := failedOff s k
  let old := rd s R.ST_FAILED 0
  let lowest := old = 0 ∨ k < rd s R.ST_FAIL_BLOCK 0
  let s := wr s R.ST_FAILED 0 (old ||| 2 ^ k)
  let s := if lowest then wr (wr s R.ST_FAIL_BLOCK 0 k) R.ST_FAIL_SIG 0 sig.toNat else s
  logIt s planeMgmt 0x10 detail 4 0x44 k sig.toNat

/-- Block `j` comes before block `k` of the same step: in its cluster in step 1, in the groups that are tested together in
the others (R385). -/
def bistBefore (j k : Nat) : Bool :=
  bistStep j == bistStep k && bistEnd j < bistEnd k && (k ≥ 20 || (if j < 16 then j / 4 else j - 16) == (if k < 16 then k / 4 else k - 16))

/-- The block is under test: it is one of those whose turn it is in the current step. -/
def underTest (s : State) (k : Nat) : Bool :=
  s.phase == .bist && (bistLeft s).contains k && bistStep k == bistStepNow s && !(bistLeft s).any (fun j => bistBefore j k)

/-- When the test of a block ends, or when it would. -/
def bistDueAt (s : State) (k : Nat) : Nat := s.bistAt.toNat + bistEnd k * 1000000

/-- BIST_BLOCK_DONE. -/
def bistBlockDone (k : Fin 50) (sig : BitVec 64) (s : State) : State :=
  if !underTest s k.val then s
  else
    let s := passUntil s (bistDueAt s k.val)
    let s := if s.fuses.signatures.getD k.val 0 = sig then s else blockFails s k.val sig 1
    blockDone s k.val

def execBistBlockDone (k : Fin 50) (signature : BitVec 64) (s : State) : Host.Outcome State Fault Refusal :=
  .next (bistBlockDone k signature s)

/-- BIST_TIMEOUT: twice the block's time has passed. -/
def bistTimeout (k : Fin 50) (s : State) : State :=
  if !underTest s k.val then s
  else
    let s := passUntil s (bistDueAt s k.val + bistTime k.val * 1000000)
    let (s, d) := drawFree s
    blockDone (blockFails s k.val (Config.noSignature d) 2) k.val

def execBistTimeout (k : Fin 50) (s : State) : Host.Outcome State Fault Refusal := .next (bistTimeout k s)

/-- A block boundary: a block's test has just ended, and none ends at this moment that is still to be reported. -/
def atBoundary (s : State) : Bool :=
  s.bistEdge == some (elapsedW s) && (List.range 50).all (fun k => !underTest s k || bistDueAt s k != elapsed s)

/-- BIST_ABORTED: at a block boundary, on a request of stage 3 or higher or a temperature at the throttle threshold. -/
def bistAborted (s : State) : State :=
  if s.phase != .bist || !atBoundary s || !(rd s R.MC_SHED_STATUS_REQ 0 ≥ 3 || tjOf s + tjOffset s ≥ 100) then s
  else endBist (logIt s planeMgmt 0x10 3 2 0x44 0 0) true

def execBistAborted (s : State) : Host.Outcome State Fault Refusal := .next (bistAborted s)

/-! ## Resets (R350, R353, R361, R363, R416) -/

/-- The power-on reset keeps nothing. -/
def powerOn (s : State) : State :=
  setCause { baseReset s [] with phase := .powerOn, tap := Tap.reset s.fuses } 0

def execPowerOnReset (s : State) : Host.Outcome State Fault Refusal := .next (powerOn s)

def execRef25Loss (s : State) : Host.Outcome State Fault Refusal := .next (powerOn s)

/-- INIT begins with phase 1 (R364). -/
def beginInit (s : State) : State := logReset { wr (sampleBist s) R.GLB_SVC_STATE_STATE 0 1 with phase := .phase1 }

/-- The instructions of R421. -/
def tapDrives (i : TapInsn) : Bool :=
  match i with
  | .bypass => false
  | .idcode => false
  | .samplePreload => false
  | .extest => true
  | .extestPulse => true
  | .extestTrain => true
  | .clamp => true
  | .highz => true

/-- PERST_N is high: a TAP instruction that was in effect acts as BYPASS from now on (R421). With the power-on reset released,
phase 1 begins, unless such an instruction was in effect. -/
def leaveHeld (s : State) : State :=
  if !s.power.perstN then s
  else
    let t := { s with tap := { s.tap with inEffect := false } }
    if s.phase != .held then t
    else if s.tap.inEffect then { t with tap := { t.tap with phase1Waits := true } }
    else beginInit t

def execPowerOnResetRelease (s : State) : Host.Outcome State Fault Refusal :=
  .next (if s.phase == .powerOn then leaveHeld { s with phase := .held } else s)

/-- The fundamental reset. A tripped device stays tripped (R373, R374). -/
def perstAssert (s : State) : State :=
  let s := { s with power := { s.power with perstN := false },
                    tap := { s.tap with inEffect := tapDrives s.tap.insn, phase1Waits := false } }
  match s.phase with
  | .powerOn => s
  | .tripped =>
    let t := setCause (baseReset s rwsFields) 1
    setStage (wr { t with phase := .tripped } R.GLB_SVC_STATE_STATE 0 5) 7
  | _ => { setCause (baseReset s rwsFields) 1 with phase := .held }

def execPerstNAssert (s : State) : Host.Outcome State Fault Refusal := .next (if s.power.perstN then perstAssert s else s)

def execPerstNDeassert (s : State) : Host.Outcome State Fault Refusal :=
  .next (if s.power.perstN then s else leaveHeld { s with power := { s.power with perstN := true } })

/-- Configuration space after a function reset: sticky bits, and what belongs to the link or was read from flash, stay. -/
def pciAfterFunction (p : PciCfg) : PciCfg :=
  { PciCfg.init with subsysVid := p.subsysVid, subsysId := p.subsysId, ready := p.ready, mps := p.mps, aspm := p.aspm,
                     aerUncorr := p.aerUncorr, aerCorr := p.aerCorr, aerUncorrMask := p.aerUncorrMask,
                     aerUncorrSev := p.aerUncorrSev, aerCorrMask := p.aerCorrMask }

/-- Where the device goes after a function reset: to phase 4 from any later phase; a phase 1, 2 or 3 that has not ended goes
on, since what it does must come before phase 4 (DESIGN CHOICE, log entry 194). -/
def afterReset (p : Phase) (s : State) : State :=
  match p with
  | .phase1 => { s with phase := .phase1 }
  | .phase2 => { s with phase := .phase2 }
  | .phase3 => { s with phase := .phase3 }
  | _ => beforePhase4 s

/-- A device out of its power-on and fundamental resets, and not tripped. -/
def pastHeld (s : State) : Bool :=
  match s.phase with
  | .powerOn => false
  | .held => false
  | .tripped => false
  | _ => true

/-- The function reset: restarts from phase 4. -/
def functionReset (s : State) (bit : Nat) : State :=
  if !pastHeld s then s
  else
    let s := wr s R.MC_CLK_STATUS_CORE_MHZ 0 (slewedMhz s)
    let t := baseReset s (rwsFields ++ functionFields)
    let t := { t with pci := pciAfterFunction s.pci, fwVersion := s.fwVersion, missing := s.missing &&& 0xC00, recordDue := s.recordDue,
                      dramChs := s.dramChs.map (fun d => { DramCh.init with rfmAt := d.rfmAt }),
                      clock := { t.clock with ppm := s.clock.ppm, slew := s.clock.slew, slewEnd := s.clock.slewEnd - s.clock.ns },
                      bistDue := rdb s R.ST_CTL_BIST_REQ 0,
                      power := { t.power with targetMhz := s.power.targetMhz, avsMv := s.power.avsMv, avsFail := s.power.avsFail } }
    afterReset s.phase (logReset (wr (setCause t bit) R.GLB_SVC_STATE_STATE 0 1))

def execFunctionLevelReset (s : State) : Host.Outcome State Fault Refusal := .next (functionReset s 2)
def execHotReset (s : State) : Host.Outcome State Fault Refusal := .next (functionReset s 3)

/-- D3HOT_ENTRY: dispatch stops (R353). -/
def execD3hotEntry (s : State) : Host.Outcome State Fault Refusal :=
  .next (if s.pci.ready && s.phase != .tripped then { s with pci := { s.pci with d3hot := true } } else s)

/-- D3HOT_EXIT: the return to D0 resets the function. -/
def execD3hotExit (s : State) : Host.Outcome State Fault Refusal := .next (if s.pci.d3hot then functionReset s 5 else s)

/-- A rate and a width that the endpoint supports (R326). -/
def linkOk (speed : BitVec 4) (width : BitVec 6) : Bool :=
  (speed == 3 || speed == 4 || speed == 5) && (width == 4 || width == 8 || width == 16)

/-- The link can train: PERST_N is high and the host clock runs. -/
def linkTrains (s : State) : Bool := s.power.perstN && s.phase != .powerOn && s.phase != .held && s.phase != .tripped

/-- LINK_UP. -/
def linkUp (speed : BitVec 4) (width : BitVec 6) (s : State) : State :=
  if linkTrains s && linkOk speed width then
    wrb (wr (wr s R.HIF_LINK_STATUS_SPEED 0 speed.toNat) R.HIF_LINK_STATUS_WIDTH 0 width.toNat) R.HIF_LINK_STATUS_LINK_UP 0 true
  else s

def execLinkUp (speed : BitVec 4) (width : BitVec 6) (s : State) : Host.Outcome State Fault Refusal := .next (linkUp speed width s)

/-- LINK_DOWN: outstanding reads are answered as under a timeout, inbound TLPs are lost, and a function reset follows. -/
def linkDown (s : State) : State :=
  if !linkIsUp s then s
  else
    let s := wrb (wr (wr s R.HIF_LINK_STATUS_SPEED 0 0) R.HIF_LINK_STATUS_WIDTH 0 0) R.HIF_LINK_STATUS_LINK_UP 0 false
    if !s.power.perstN then s
    else functionReset (aerUnc s 5 false) 4

def execLinkDown (s : State) : Host.Outcome State Fault Refusal := .next (linkDown s)

/-! ## Phases 1 to 3 (R364 to R366, R427) -/

/-- The compute clock after PLL lock: one of the steps of R367 (log entry 108). -/
def bootFrequency : Nat := 400 + 25 * (Config.bootMhz % 31)

/-- PLL_LOCK. -/
def pllLock (s : State) : State :=
  if s.phase == .phase1 then wr { s with phase := .phase2 } R.MC_CLK_STATUS_CORE_MHZ 0 bootFrequency else s

def execPllLock (s : State) : Host.Outcome State Fault Refusal := .next (pllLock s)

/-- Bytes of the flash; an erased byte reads 0xFF. -/
def flashRead (s : State) (a n : Nat) : List Byte := storeGetMany 0xFF s.flash a n

def boardBytes (s : State) : List Byte := flashRead s 0x200000 4096

/-- The board configuration is valid. -/
def boardOk (bs : List Byte) : Bool :=
  let g := fieldOf bs 7 1
  fieldOf bs 4092 4 == (crc32 (bs.take 4092)).toNat && fieldOf bs 0 2 == 1 && bitsOf g 0 2 != 3 && bitsOf g 4 3 ≤ 4 &&
    bitsOf (fieldOf bs 8 1) 0 2 != 3 && !(bitsOf g 0 2 == 0 && bitOf g 2)

/-- BOARD_CFG_READ. -/
def boardCfgRead (s : State) : State :=
  if s.phase != .phase2 then s
  else
    let bs := boardBytes s
    let s := { s with phase := .phase3 }
    if boardOk bs then
      wr { s with pci := { s.pci with ready := true, subsysVid := BitVec.ofNat 16 (fieldOf bs 2 2),
                                      subsysId := BitVec.ofNat 16 (fieldOf bs 4 2) } }
        R.MC_PWR_CTL_BOARD_LIMIT 0 (bitsOf (fieldOf bs 8 1) 0 2)
    else
      logIt { s with pci := { s.pci with ready := true }, missing := s.missing ||| 0x400 } planeMgmt 0x01 3 5 unitMc 0 0

def execBoardCfgRead (s : State) : Host.Outcome State Fault Refusal := .next (boardCfgRead s)

/-- Bytes of the image in a slot. -/
def slotBytes (s : State) (base : Nat) : List Byte := flashRead s base (min 983040 (fieldOf (flashRead s (base + 8) 4) 0 4))

/-- The digest that an image's signature signs: of all its bytes, with those of the signature taken as 0 (R366). -/
def imageDigest (bs : List Byte) : BitVec 384 := Config.sha384 (putBytes bs 176 (List.replicate 96 0))

/-- The image in a slot is valid (R366). -/
def slotOk (s : State) (base : Nat) : Bool :=
  let h := flashRead s base 512
  fieldOf h 0 4 == 0x574D4643 && fieldOf h 6 2 == 0x0416 && fieldOf h 8 4 ≤ 983040 &&
    Config.sha384 (sliceOf h 64 97) == s.fuses.keyHash && fieldOf h 16 2 ≥ s.fuses.svnMin.toNat &&
    Config.signatureVerifies (sliceOf h 64 97) (sliceOf h 176 48) (sliceOf h 224 48) (imageDigest (slotBytes s base))

def slotBase (b : Bool) : Nat := if b then 0x100000 else 0

/-- The MC writes DRC_CFG from the board configuration (R305, R306). -/
def writeDrcCfg (s : State) : State :=
  if s.missing.getLsbD 10 then s
  else
    let bs := boardBytes s
    let g := fieldOf bs 7 1
    let pin := max 1 (bitsOf g 4 3)
    let s := wr (wr s R.DRC_CFG_SPEED 0 (bitsOf (fieldOf bs 6 1) 0 2)) R.DRC_CFG_CAP 0 (bitsOf g 0 2)
    let s := wrb (wrb s R.DRC_CFG_RANKS 0 (bitOf g 2)) R.DRC_CFG_ECC_EN 0 (bitOf g 3)
    wr (wr s R.DRC_CFG_PIN 0 pin) R.DRC_PIN_BYTES 0 (2 * 2 ^ (25 + pin))

/-- FW_VERIFY: slot A first, then slot B; the first valid one runs. -/
def fwVerify (s : State) : State :=
  if s.phase != .phase3 then s
  else
    let a := slotOk s (slotBase false)
    let b := slotOk s (slotBase true)
    let s := wrb (wrb s R.MC_FW_STATUS_A_OK 0 a) R.MC_FW_STATUS_B_OK 0 b
    if !a && !b then beforePhase4 (logIt { s with missing := s.missing ||| 0x800 } planeMgmt 0x01 4 5 unitMc 0 0)
    else
      let h := flashRead s (slotBase (!a)) 512
      let s := wr (wrb s R.MC_FW_STATUS_SLOT 0 (!a)) R.MC_FW_STATUS_SVN 0 (fieldOf h 16 2)
      let s := { s with fwVersion := BitVec.ofNat 32 (fieldOf h 12 4) }
      beforePhase4 (writeDrcCfg (if a then s else setAlert s 4))

def execFwVerify (s : State) : Host.Outcome State Fault Refusal := .next (fwVerify s)

/-! ## Phases 4 and 5 (R308, R315 to R318, R320) -/

/-- The identity that a channel's mode registers give: manufacturer, revision and density (R316). -/
def modeId (m : ModeRegs) : List Byte := [m.mfr, m.rev, m.density]

/-- The header of a training record but for its CRC. R316 lists the fields; their places are the model's (DESIGN CHOICE, log
entry 126). -/
def recordHead (r : TrainRecord) : List Byte :=
  bytesOf 2 1 ++ bytesOf 2 r.stepping.toNat ++ bytesOf 2 r.cfg.toNat ++ [r.temp, 0] ++ bytesOf 4 r.seq.toNat ++ r.modes

/-- The 8,256 bytes of a training record. -/
def recordBytes (r : TrainRecord) : List Byte :=
  recordHead r ++ bytesOf 4 (crc32 (recordHead r ++ r.values)).toNat ++ r.values

def recordLen : Nat := 8256

/-- Flash offset of copy A or B (R365). -/
def copyBase (b : Bool) : Nat := if b then 0x208000 else 0x204000

/-- The record that 8,256 bytes hold: none if the format or the CRC is wrong. -/
def recordOf (bs : List Byte) : Option TrainRecord :=
  if fieldOf bs 0 2 == 1 && fieldOf bs 60 4 == (crc32 (bs.take 60 ++ bs.drop 64)).toNat then
    some { stepping := BitVec.ofNat 16 (fieldOf bs 2 2), cfg := BitVec.ofNat 16 (fieldOf bs 4 2), temp := bs.getD 6 0,
           seq := BitVec.ofNat 32 (fieldOf bs 8 4), modes := sliceOf bs 12 48, values := bs.drop 64 }
  else none

/-- A copy of the training record in flash, if it is valid. -/
@[irreducible] def readCopy (s : State) (b : Bool) : Option TrainRecord := recordOf (flashRead s (copyBase b) recordLen)

/-- The valid record copy with the higher sequence number. -/
def bestRecord (s : State) : Option TrainRecord :=
  match readCopy s false, readCopy s true with
  | some a, some b => some (if a.seq ≥ b.seq then a else b)
  | some a, none => some a
  | none, b => b

/-- What training showed on a channel. -/
def trainOf (results : List ChannelTrain) (k : Fin 16) : ChannelTrain :=
  results.getD k.val { verifyOk := false, failStep := 0 }

/-- The mode registers of a channel's dies, as they were read. -/
def modeOf (modes : List ModeRegs) (k : Fin 16) : ModeRegs :=
  modes.getD k.val { mfr := 0, rev := 0, density := 0, rfmAt := 0 }

/-- One channel's training. -/
def trainChannel (stale : Bool) (results : List ChannelTrain) (s : State) (k : Fin 16) : State :=
  if !s.fuses.dramCh.getLsbD k.val then s
  else
    let r := trainOf results k
    if (!stale && r.verifyOk) || r.failStep = 0 then wrb s R.DRC_CH_STATUS_TRAINED k.val true
    else logIt (wr s R.DRC_CH_STATUS_FAIL_STEP k.val r.failStep.toNat) planeMgmt 0x10 4 4 0x42 k.val r.failStep.toNat

/-- n of R308: 0 if CH0 or CH1 cannot be used. -/
def channelsInUse (ok : Fin 16 → Bool) : Nat :=
  match [16, 8, 4, 2].find? (fun n => (List.finRange 16).all (fun k => k.val ≥ n || ok k)) with
  | some n => n
  | none => 0

/-- Usable bytes of a channel (R306). -/
def usableChannel (s : State) : Nat := if rdb s R.DRC_CFG_ECC_EN 0 then channelBytes s / 8 * 7 else channelBytes s

/-- n, the window and the channels in use are set; an entry names channels taken out of use. -/
def setChannels (s : State) : State :=
  let n := channelsInUse (chUsable s)
  let gone := ((List.finRange 16).filter (fun k => k.val ≥ n && s.fuses.dramCh.getLsbD k.val)).foldl (fun m k => m + 2 ^ k.val) 0
  let s := (List.finRange 16).foldl (fun s k => wrb s R.DRC_CH_STATUS_IN_USE k.val (k.val < n)) s
  let s := wr (wr s R.DRC_STATUS_NCH 0 n) R.DRC_WINDOW 0 (n * usableChannel s)
  if n < channelsInUse (fun k => s.fuses.dramCh.getLsbD k.val) then logIt s planeMgmt 0x10 5 4 0x42 n gone else s

/-- DRC_CFG as it reads (R323). -/
def drcCfg (s : State) : Nat :=
  rd s R.DRC_CFG_SPEED 0 + b2n (rdb s R.DRC_CFG_RANKS 0) * 2 ^ 2 + rd s R.DRC_CFG_CAP 0 * 2 ^ 4 +
    b2n (rdb s R.DRC_CFG_ECC_EN 0) * 2 ^ 6 + rd s R.DRC_CFG_PIN 0 * 2 ^ 8

def stepping (s : State) : BitVec 16 := BitVec.ofNat 16 (s.fuses.stepMajor.toNat * 256 + s.fuses.stepMinor.toNat)

/-- The record fits the device: stepping, DRC_CFG and the identity of every channel's dies are the same (R317). -/
def recordFits (s : State) (modes : List ModeRegs) (r : TrainRecord) : Bool :=
  r.stepping == stepping s && r.cfg.toNat == drcCfg s &&
    (List.finRange 16).all (fun k => !s.fuses.dramCh.getLsbD k.val || sliceOf r.modes (3 * k.val) 3 == modeId (modeOf modes k))

/-- The sequence number after those of the valid copies. -/
def nextSeq (s : State) : BitVec 32 :=
  match bestRecord s with
  | some r => r.seq + 1
  | none => 1

/-- The record that is written after training (R316): restored channels keep their values, the others get new ones. -/
def newRecord (s : State) (results : List ChannelTrain) (modes : List ModeRegs) (stale : Bool) (draw : Nat) :
    TrainRecord :=
  { seq := nextSeq s, stepping := stepping s, cfg := BitVec.ofNat 16 (drcCfg s),
    modes := (List.finRange 16).flatMap (fun k => modeId (modeOf modes k)), temp := BitVec.ofNat 8 (rd s R.MC_THERM_TJ 0),
    values := (List.finRange 16).flatMap (fun k =>
      match bestRecord s with
      | some r =>
        if !stale && (trainOf results k).verifyOk then sliceOf r.values (512 * k.val) 512
        else (List.range 512).map (Config.trainedByte draw k.val)
      | none => (List.range 512).map (Config.trainedByte draw k.val)) }

/-- Refresh management as the dies of each channel require it (R321). -/
def setRfm (s : State) (modes : List ModeRegs) : State :=
  (List.finRange 16).foldl (fun s k => modDram s k (fun d => { d with rfmAt := (modeOf modes k).rfmAt })) s

/-- DRAM_TRAINING. -/
def dramTraining (results : List ChannelTrain) (modes : List ModeRegs) (s : State) : State :=
  if s.phase != .phase4 then s
  else
    let stale := !(bestRecord s).any (recordFits s modes) || rdb s R.DRC_TRAIN_CTL_FORCE_FULL 0
    let some_ := (List.finRange 16).any (fun k => s.fuses.dramCh.getLsbD k.val && !(trainOf results k).verifyOk)
    let (s, draw) := drawFree s
    let record := newRecord s results modes stale draw
    let s := setRfm s modes
    let s := (List.finRange 16).foldl (trainChannel stale results) s
    let s := wr s R.DRC_STATUS_TRAIN_SRC 0 (if stale then 0 else if some_ then 2 else 1)
    let s := { s with recordDue := if stale || some_ then some record else none }
    let s := if stale then wrb s R.DRC_TRAIN_CTL_FORCE_FULL 0 false else s
    let s := setChannels s
    if rd s R.DRC_STATUS_NCH 0 = 0 then enterService s else { s with phase := .phase5 }

def execDramTraining (results : List ChannelTrain) (modes : List ModeRegs) (s : State) : Host.Outcome State Fault Refusal :=
  .next (dramTraining results modes s)

/-- DRAM_ZERO_DONE: every mapped line is zero with valid check bytes; service starts. -/
def dramZeroDone (s : State) : State :=
  if s.phase != .phase5 then s
  else enterService (wrb (zeroRange s 0 (rd s R.DRC_WINDOW 0)) R.DRC_STATUS_READY 0 true)

def execDramZeroDone (s : State) : Host.Outcome State Fault Refusal := .next (dramZeroDone s)

end Sys2Proof.Machine
end

