-- ==== Sys2Proof/Machine/Scalar.lean ====
section
/-! DEFINITION. The scalar, predicate, address and control instructions (R187, R192, R193). -/

namespace Sys2Proof.Machine

/-- sD = f sA sB. -/
def opSSS (n : Fin 16) (op : Nat) (w : Insn) (f : W64 → W64 → W64) (s : State) : State :=
  issueRegs n op w (usesDAB w) (fun c => sSet c w.D (f (sGet c w.A) (sGet c w.B))) s

/-- sD = f sA X. -/
def opSSI (n : Fin 16) (op : Nat) (w : Insn) (ok : Bool) (f : W64 → W64) (s : State) : State :=
  issueRegs n op w (usesDAX w && ok) (fun c => sSet c w.D (f (sGet c w.A))) s

/-- The high 64 bits of the signed 128-bit product. -/
def mulHigh (x y : W64) : W64 := BitVec.ofInt 64 (x.toInt * y.toInt / 2 ^ 64)

/-- NOP (R192). -/
def execNop (n : Fin 16) (w : Insn) (s : State) : Host.Outcome State Fault Refusal :=
  .next (issueRegs n 0x00 w (noFields w) (fun c => c) s)

/-- ADD (R192, R193). -/
def execAdd (n : Fin 16) (w : Insn) (s : State) : Host.Outcome State Fault Refusal :=
  .next (opSSS n 0x01 w (fun x y => x + y) s)

/-- SUB (R192, R193). -/
def execSub (n : Fin 16) (w : Insn) (s : State) : Host.Outcome State Fault Refusal :=
  .next (opSSS n 0x02 w (fun x y => x - y) s)

/-- AND (R192, R193). -/
def execAnd (n : Fin 16) (w : Insn) (s : State) : Host.Outcome State Fault Refusal :=
  .next (opSSS n 0x03 w (fun x y => x &&& y) s)

/-- OR (R192, R193). -/
def execOr (n : Fin 16) (w : Insn) (s : State) : Host.Outcome State Fault Refusal :=
  .next (opSSS n 0x04 w (fun x y => x ||| y) s)

/-- XOR (R192, R193). -/
def execXor (n : Fin 16) (w : Insn) (s : State) : Host.Outcome State Fault Refusal :=
  .next (opSSS n 0x05 w (fun x y => x ^^^ y) s)

/-- SHL: by sB[5:0] (R192, R193). -/
def execShl (n : Fin 16) (w : Insn) (s : State) : Host.Outcome State Fault Refusal :=
  .next (opSSS n 0x06 w (fun x y => x <<< (y.toNat % 64)) s)

/-- SHR: logical, by sB[5:0] (R192, R193). -/
def execShr (n : Fin 16) (w : Insn) (s : State) : Host.Outcome State Fault Refusal :=
  .next (opSSS n 0x07 w (fun x y => x >>> (y.toNat % 64)) s)

/-- SRA: arithmetic, by sB[5:0] (R192, R193). -/
def execSra (n : Fin 16) (w : Insn) (s : State) : Host.Outcome State Fault Refusal :=
  .next (opSSS n 0x08 w (fun x y => x.sshiftRight (y.toNat % 64)) s)

/-- MUL: the low 64 bits (R192, R193). -/
def execMul (n : Fin 16) (w : Insn) (s : State) : Host.Outcome State Fault Refusal :=
  .next (opSSS n 0x09 w (fun x y => x * y) s)

/-- MULH (R192, R193). -/
def execMulh (n : Fin 16) (w : Insn) (s : State) : Host.Outcome State Fault Refusal :=
  .next (opSSS n 0x0A w (fun x y => mulHigh x y) s)

/-- MIN: signed (R192, R193). -/
def execMin (n : Fin 16) (w : Insn) (s : State) : Host.Outcome State Fault Refusal :=
  .next (opSSS n 0x0B w (fun x y => if x.slt y then x else y) s)

/-- MAX: signed (R192, R193). -/
def execMax (n : Fin 16) (w : Insn) (s : State) : Host.Outcome State Fault Refusal :=
  .next (opSSS n 0x0C w (fun x y => if x.slt y then y else x) s)

/-- MINU: unsigned (R192, R193). -/
def execMinu (n : Fin 16) (w : Insn) (s : State) : Host.Outcome State Fault Refusal :=
  .next (opSSS n 0x0D w (fun x y => if x.ult y then x else y) s)

/-- MAXU: unsigned (R192, R193). -/
def execMaxu (n : Fin 16) (w : Insn) (s : State) : Host.Outcome State Fault Refusal :=
  .next (opSSS n 0x0E w (fun x y => if x.ult y then y else x) s)

/-- SEL: by bit 0 of pC (R192). -/
def execSel (n : Fin 16) (w : Insn) (s : State) : Host.Outcome State Fault Refusal :=
  .next (issueRegs n 0x0F w (w.X == 0 && regIn w.C 8)
    (fun c => sSet c w.D (if (pGet c w.C).getLsbD 0 then sGet c w.A else sGet c w.B)) s)

/-- CMP: the condition in all 128 bits of pD (R192, R193). -/
def execCmp (n : Fin 16) (w : Insn) (s : State) : Host.Outcome State Fault Refusal :=
  .next (issueRegs n 0x10 w (w.X == 0 && regIn w.D 8 && regIn w.C 6)
    (fun c => pSet c w.D (allBits (condHolds w.C.toNat (sGet c w.A) (sGet c w.B)))) s)

/-- ADDI: the signed immediate (R189, R192). -/
def execAddi (n : Fin 16) (w : Insn) (s : State) : Host.Outcome State Fault Refusal :=
  .next (opSSI n 0x11 w true (fun x => x + immS w) s)

/-- ANDI: the signed immediate (R189, R192). -/
def execAndi (n : Fin 16) (w : Insn) (s : State) : Host.Outcome State Fault Refusal :=
  .next (opSSI n 0x12 w true (fun x => x &&& immS w) s)

/-- ORI: the signed immediate (R189, R192). -/
def execOri (n : Fin 16) (w : Insn) (s : State) : Host.Outcome State Fault Refusal :=
  .next (opSSI n 0x13 w true (fun x => x ||| immS w) s)

/-- XORI: the signed immediate (R189, R192). -/
def execXori (n : Fin 16) (w : Insn) (s : State) : Host.Outcome State Fault Refusal :=
  .next (opSSI n 0x14 w true (fun x => x ^^^ immS w) s)

/-- SHLI: by X[5:0]; X[31:6] must be 0 (R192). -/
def execShli (n : Fin 16) (w : Insn) (s : State) : Host.Outcome State Fault Refusal :=
  .next (opSSI n 0x15 w (xBelow w 6) (fun x => x <<< (w.X.toNat % 64)) s)

/-- SHRI: by X[5:0]; X[31:6] must be 0 (R192). -/
def execShri (n : Fin 16) (w : Insn) (s : State) : Host.Outcome State Fault Refusal :=
  .next (opSSI n 0x16 w (xBelow w 6) (fun x => x >>> (w.X.toNat % 64)) s)

/-- SRAI: by X[5:0]; X[31:6] must be 0 (R192). -/
def execSrai (n : Fin 16) (w : Insn) (s : State) : Host.Outcome State Fault Refusal :=
  .next (opSSI n 0x17 w (xBelow w 6) (fun x => x.sshiftRight (w.X.toNat % 64)) s)

/-- MOVHI: X over the low half of sA (R192). -/
def execMovhi (n : Fin 16) (w : Insn) (s : State) : Host.Outcome State Fault Refusal :=
  .next (opSSI n 0x18 w true (fun x => w.X ++ x.setWidth 32) s)

/-- CMPI (R192, R193). -/
def execCmpi (n : Fin 16) (w : Insn) (s : State) : Host.Outcome State Fault Refusal :=
  .next (issueRegs n 0x19 w (w.B == 0 && regIn w.D 8 && regIn w.C 6)
    (fun c => pSet c w.D (allBits (condHolds w.C.toNat (sGet c w.A) (immS w)))) s)

/-- PAND (R192). -/
def execPand (n : Fin 16) (w : Insn) (s : State) : Host.Outcome State Fault Refusal :=
  .next (issueRegs n 0x1A w (usesDAB w && regIn w.D 8 && regIn w.A 8 && regIn w.B 8)
    (fun c => pSet c w.D (pGet c w.A &&& pGet c w.B)) s)

/-- POR (R192). -/
def execPor (n : Fin 16) (w : Insn) (s : State) : Host.Outcome State Fault Refusal :=
  .next (issueRegs n 0x1B w (usesDAB w && regIn w.D 8 && regIn w.A 8 && regIn w.B 8)
    (fun c => pSet c w.D (pGet c w.A ||| pGet c w.B)) s)

/-- PNOT (R192). -/
def execPnot (n : Fin 16) (w : Insn) (s : State) : Host.Outcome State Fault Refusal :=
  .next (issueRegs n 0x1C w (usesDA w && regIn w.D 8 && regIn w.A 8) (fun c => pSet c w.D (~~~(pGet c w.A))) s)

/-- ADDA: modulo 2^48 (R186, R192). -/
def execAdda (n : Fin 16) (w : Insn) (s : State) : Host.Outcome State Fault Refusal :=
  .next (issueRegs n 0x20 w (usesDAB w && regIn w.D 16 && regIn w.A 16)
    (fun c => aSet c w.D (aGet c w.A + (sGet c w.B).setWidth 48)) s)

/-- ADDAI (R192). -/
def execAddai (n : Fin 16) (w : Insn) (s : State) : Host.Outcome State Fault Refusal :=
  .next (issueRegs n 0x21 w (usesDAX w && regIn w.D 16 && regIn w.A 16)
    (fun c => aSet c w.D (aGet c w.A + w.X.signExtend 48)) s)

/-- MOVA (R192). -/
def execMova (n : Fin 16) (w : Insn) (s : State) : Host.Outcome State Fault Refusal :=
  .next (issueRegs n 0x22 w (usesDA w && regIn w.D 16) (fun c => aSet c w.D ((sGet c w.A).setWidth 48)) s)

/-- MOVS: zero-extended (R192). -/
def execMovs (n : Fin 16) (w : Insn) (s : State) : Host.Outcome State Fault Refusal :=
  .next (issueRegs n 0x23 w (usesDA w && regIn w.A 16) (fun c => sSet c w.D ((aGet c w.A).setWidth 64)) s)

/-- SETB (R192). -/
def execSetb (n : Fin 16) (w : Insn) (s : State) : Host.Outcome State Fault Refusal :=
  .next (issueRegs n 0x24 w (usesDA w && regIn w.D 16) (fun c => bSet c w.D ((sGet c w.A).setWidth 32)) s)

/-- SETBI: the immediate is unsigned (R192). -/
def execSetbi (n : Fin 16) (w : Insn) (s : State) : Host.Outcome State Fault Refusal :=
  .next (issueRegs n 0x25 w (usesDX w && regIn w.D 16) (fun c => bSet c w.D w.X) s)

/-- GETB: zero-extended (R192). -/
def execGetb (n : Fin 16) (w : Insn) (s : State) : Host.Outcome State Fault Refusal :=
  .next (issueRegs n 0x26 w (usesDA w && regIn w.A 16) (fun c => sSet c w.D ((bGet c w.A).setWidth 64)) s)

/-! ## RDSR (R187) -/

/-- Some spare of a core is engaged (R136). -/
def spareEngaged (s : State) (n : Fin 16) : Bool :=
  let a := s.fuses.repairA[n].toNat
  let b := s.fuses.repairB[n].toNat
  bitOf a 7 || bitOf a 15 || bitOf a 23 || bitOf a 31 || bitOf b 7 || bitOf b 15 || bitOf b 23 || bitOf b 31

/-- ARRAY_FILL_LAT of a core (R136, R153). -/
def fillLat (s : State) (n : Fin 16) : Nat :=
  let d := b2n (spareEngaged s n)
  (128 + d) + (32 + d) * 2 ^ 8 + (16 + d) * 2 ^ 16

/-- Spare rows and columns engaged in a repair map word (R153). -/
def spareRows (m : W32) : Nat := b2n (bitOf m.toNat 7) + b2n (bitOf m.toNat 15)
def spareCols (m : W32) : Nat := b2n (bitOf m.toNat 23) + b2n (bitOf m.toNat 31)

/-- The row check is available while fewer than 2 spare columns are engaged, the column check while fewer than 2 spare
rows are (R137). -/
def rowCheck (m : W32) : Bool := spareCols m < 2
def colCheck (m : W32) : Bool := spareRows m < 2

/-- The eight bits of ARRAY_REPAIR for one array. -/
def repairByte (m : W32) : Nat := spareRows m + spareCols m * 4 + b2n (rowCheck m) * 16 + b2n (colCheck m) * 32

/-- ARRAY_REPAIR of a core (R153). -/
def arrayRepair (s : State) (n : Fin 16) : Nat :=
  repairByte s.fuses.repairA[n] + repairByte s.fuses.repairB[n] * 2 ^ 8

/-- The special value that X selects (R187). -/
def specialValue (s : State) (n : Fin 16) (x : Nat) : Nat :=
  let c := s.cores[n]
  match x with
  | 0 => n.val
  | 1 => n.val / 4
  | 2 => rd s R.CORE_JOB_TAG n.val
  | 3 => now s
  | 4 => c.cyc.toNat
  | 5 => fillLat s n
  | 6 => arrayRepair s n
  | 7 => stage s
  | _ => c.textBase.toNat

/-- RDSR: values of X above 8 are ILLEGAL (R187). -/
def execRdsr (n : Fin 16) (w : Insn) (s : State) : Host.Outcome State Fault Refusal :=
  .next (issueRegs n 0x27 w (usesDX w && w.X.toNat ≤ 8) (fun c => sSet c w.D (BitVec.ofNat 64 (specialValue s n w.X.toNat))) s)

/-! ## Control (R178, R191, R192) -/

/-- The address is one of words 1 to 3 of a tensor instruction: the word at its 32 B boundary has OP 0xF0 to 0xFF. -/
def insideTensor (s : State) (n : Fin 16) (t : Nat) : Bool :=
  t % 32 != 0 && ownCoreMem n t && (peek s (t / 32 * 32 + 7) 1).all (fun b => b.toNat ≥ 0xF0)

/-- Branches to `t`: a target that is not 8 B aligned, or inside a tensor instruction, is ILLEGAL. A target outside
the core's own memory traps when it is fetched (R191). -/
def branchTo (n : Fin 16) (op : Nat) (w : Insn) (t : Addr) (f : Core → Core) (s : State) : State :=
  if t.toNat % 8 ≠ 0 ∨ insideTensor s n t.toNat then trapInsn s n op w .illegal 0 0
  else bump (modCore s n (fun c => { f c with pc := t })) R.CORE_INSNS n.val 1

/-- The target of a J-format instruction: PC + 8 × X. -/
def jumpTarget (c : Core) (w : Insn) : Addr := c.pc + 8 * w.X.signExtend 48

/-- BR (R192). -/
def execBr (n : Fin 16) (w : Insn) (s : State) : Host.Outcome State Fault Refusal :=
  .next (issueScalar n 0x40 w (usesX w) (fun s => branchTo n 0x40 w (jumpTarget s.cores[n] w) (fun c => c) s) s)

/-- JAL: sD = PC + 8 (R192). -/
def execJal (n : Fin 16) (w : Insn) (s : State) : Host.Outcome State Fault Refusal :=
  .next (issueScalar n 0x41 w (usesDX w)
    (fun s => branchTo n 0x41 w (jumpTarget s.cores[n] w) (fun c => sSet c w.D ((c.pc + 8).setWidth 64)) s) s)

/-- JR (R192). -/
def execJr (n : Fin 16) (w : Insn) (s : State) : Host.Outcome State Fault Refusal :=
  .next (issueScalar n 0x42 w (w.D == 0 && w.B == 0 && w.C == 0 && w.X == 0)
    (fun s => branchTo n 0x42 w ((sGet s.cores[n] w.A).setWidth 48) (fun c => c) s) s)

/-- END: a fence of all four scopes, after which the job is complete (R178); `execJobComplete` ends it. -/
def execEndJob (n : Fin 16) (w : Insn) (s : State) : Host.Outcome State Fault Refusal :=
  .next (issueScalar n 0x43 w (noFields w)
    (fun s => modCore s n (fun c => { c with mode := .ending, waitSince := nowW s })) s)

/-- BRK traps BREAK (R192). -/
def execBrk (n : Fin 16) (w : Insn) (s : State) : Host.Outcome State Fault Refusal :=
  .next (issueScalar n 0x44 w (noFields w) (fun s => trapInsn s n 0x44 w .brk 0 0) s)

end Sys2Proof.Machine
end

