-- ==== Sys2Proof/Machine/RegAccess.lean ====
section
/-! DEFINITION. Reads and writes of the register space (R3 to R7, R30 to R32 and every register map): fields whose home is
the typed state, registers whose write acts, 64-bit registers and latched reads, and the commit of the inbound windows. -/

namespace Sys2Proof.Machine

/-! ## The commit of the inbound windows (R342, R343) -/

def winOn (s : State) (w : Nat) : Bool := rdb s R.HIF_WIN_CTL_EN w
def winSize (s : State) (w : Nat) : Nat := 2 ^ rd s R.HIF_WIN_CTL_SIZE_LOG2 w
def winOffset (s : State) (w : Nat) : Nat := rd s R.HIF_WIN_OFFSET w * 4096
def winTarget (s : State) (w : Nat) : Nat := rd s R.HIF_WIN_TARGET w * 4096

/-- The size of BAR2 in bytes. -/
def bar2Bytes (s : State) : Nat := 2 ^ (30 + s.pci.bar2Size.toNat)

/-- The shadow overlaps another enabled shadow in BAR2. -/
def winOverlaps (s : State) (w : Nat) : Bool :=
  (List.range 16).any (fun v => v != w && winOn s v && overlaps (winOffset s w) (winSize s w) (winOffset s v) (winSize s v))

/-- The first check of R343 that an enabled shadow fails, 0 for none. -/
def winCode (s : State) (w : Nat) : Nat :=
  let lg := rd s R.HIF_WIN_CTL_SIZE_LOG2 w
  if !winOn s w then 0
  else if lg < 12 ∨ 36 < lg then 1
  else if winOffset s w % winSize s w ≠ 0 ∨ winTarget s w % winSize s w ≠ 0 then 2
  else if winOffset s w + winSize s w > bar2Bytes s then 3
  else if !inMemory s (winTarget s w) (winSize s w) then 4
  else if !unitUsableAt s (winTarget s w) then 6
  else if winOverlaps s w then 5
  else 0

/-- One shadow is copied to its active copy. -/
def copyWindow (s : State) (w : Nat) : State :=
  let s := wr (wr s R.HIF_WACT_OFFSET w (rd s R.HIF_WIN_OFFSET w)) R.HIF_WACT_TARGET w (rd s R.HIF_WIN_TARGET w)
  let s := wr (wr s R.HIF_WACT_CTL_EN w (rd s R.HIF_WIN_CTL_EN w)) R.HIF_WACT_CTL_RD w (rd s R.HIF_WIN_CTL_RD w)
  wr (wr s R.HIF_WACT_CTL_WR w (rd s R.HIF_WIN_CTL_WR w)) R.HIF_WACT_CTL_SIZE_LOG2 w (rd s R.HIF_WIN_CTL_SIZE_LOG2 w)

/-- HIF_WIN_COMMIT: all sixteen shadows take effect at once, or none does. -/
def winCommit (s : State) : State :=
  match (List.range 16).find? (fun w => winCode s w != 0) with
  | none => bump ((List.range 16).foldl copyWindow s) R.HIF_WIN_STATUS_GEN 0 1
  | some w =>
    let c := winCode s w
    let s := wr (wr (wrb s R.HIF_WIN_STATUS_COMMIT_ERR 0 true) R.HIF_WIN_STATUS_ERR_WIN 0 w) R.HIF_WIN_STATUS_ERR_CODE 0 c
    logIt s planeData 0x50 0x23 3 0x41 w c

/-! ## Fields whose home is the typed state -/

/-- CORE_STATUS.STATE and WAIT (R208): 1 while the loader prepares the core's job. -/
def coreLoading (s : State) (n : Fin 16) : Bool :=
  match s.clusters[clusterOf n].cur with
  | some (_, .running) => false
  | some (j, _) => (dispatchCores s (clusterOf n) j).any (fun i => coreOf (clusterOf n) i == n)
  | none => false

def coreState (s : State) (n : Fin 16) : Nat :=
  match s.cores[n].mode with
  | .idle => if coreLoading s n then 1 else 0
  | .running => 2
  | .waitSem _ _ => 3
  | .waitDma _ _ => 3
  | .waitFence _ => 3
  | .waitPost _ _ => 3
  | .ending => 3
  | .trapped _ => 5
  | .stopping => 2
  | .held => 4

def coreWait (m : CoreMode) : Nat :=
  match m with
  | .waitSem _ _ => 1
  | .waitDma _ _ => 2
  | .waitPost _ _ => 4
  | .waitFence _ => 8
  | .ending => 8
  | _ => 0

def coreSem (m : CoreMode) : Nat :=
  match m with
  | .waitSem k _ => k.val
  | _ => 0

/-- Bit positions set by a predicate over the instances of a unit. -/
def unitBits (n : Nat) (f : Fin n → Bool) : Nat := ((List.finRange n).map (fun k => if f k then 2 ^ k.val else 0)).foldl (· + ·) 0

/-- The work of an encoder, a decoder and a shaper. -/
def veJob (s : State) (i : Nat) : Option EncJob := s.ves[(Fin.ofNat 4 i)]

def vdJob (s : State) (i : Nat) : Option DecJob := s.vds[(Fin.ofNat 12 i)]

def shJob (s : State) (i : Nat) : Option ShJob := s.shs[(Fin.ofNat 8 i)]

/-- A value of the unit's current work, 0 when it has none. -/
def ofJob {α : Type} (j : Option α) (f : α → Nat) : Nat := match j with
  | some x => f x
  | none => 0

/-- BQ_STATUS.IDLE: no open, closing or dispatched batch (R105). -/
def bqClass (i : Nat) : Fin 4 × Fin 4 := (Fin.ofNat 4 (i / 4), Fin.ofNat 4 i)

def reservedSlots (s : State) (c q : Fin 4) : Nat :=
  match openArea s c q with
  | some a => (areaOf s c q a).slots.length
  | none => 0

/-- FREE_AREAS: 0, as after reset, while the class is off and idle. -/
def freeAreas (s : State) (c q : Fin 4) : Nat :=
  if !rdb s R.BQ_EN (bqIx c q) && classIdle s c q then 0
  else ((classAreas s c q).filter (fun a => (areaOf s c q a).st == .free)).length

/-- The class of the batch that runs on a cluster. -/
def runningClass (s : State) (c : Fin 4) : Nat :=
  match s.clusters[c].cur with
  | some (j, .running) => ofJob j.batch (fun b => b.1.val)
  | _ => 0

def loaderBusy (s : State) (c : Fin 4) : Bool :=
  match s.clusters[c].cur with
  | some (_, .loading) => true
  | some (_, .copying _) => true
  | _ => false

def waitsPace (s : State) (k : Fin 64) : Bool :=
  dmaIdle s k && rdb s R.DMA_CH_CFG_EN k.val && !s.dma[k].queue.isEmpty &&
    (paceMode s k == 1 || (paceMode s k == 2 && rd s R.DMA_CH_PACE_STAT_GRANTS k.val == 0))

def waitsPool (s : State) (k : Fin 64) : Bool :=
  match s.dma[k].phase with
  | .alloc _ => s.dma[k].buf.isNone
  | _ => false

/-- ST_CHK_AVAIL (R389). -/
def chkAvail (s : State) : Nat :=
  ((List.finRange 16).map (fun n =>
    (b2n (rowCheck s.fuses.repairA[n]) + 2 * b2n (colCheck s.fuses.repairA[n]) + 4 * b2n (rowCheck s.fuses.repairB[n]) +
      8 * b2n (colCheck s.fuses.repairB[n])) * 16 ^ n.val)).foldl (· + ·) 0

/-- How many of the 32 arrays have a property of their repair map. -/
def countArrays (s : State) (f : W32 → Bool) : Nat :=
  ((List.finRange 16).map (fun n => b2n (f s.fuses.repairA[n]) + b2n (f s.fuses.repairB[n]))).foldl (· + ·) 0

def mapA (s : State) (i : Nat) : Nat := s.fuses.repairA[(Fin.ofNat 16 i)].toNat
def mapB (s : State) (i : Nat) : Nat := s.fuses.repairB[(Fin.ofNat 16 i)].toNat
def coreAt (s : State) (i : Nat) : Core := s.cores[(Fin.ofNat 16 i)]

/-- MC_IN_STATUS.PINS: PERST_N, PWR_WARN_N, VR_HOT_N and SHED_REQ_N from bit 0 up. -/
def inPins (s : State) : Nat :=
  b2n s.power.perstN + 2 * b2n s.power.pwrWarnN + 4 * b2n s.power.vrHotN + 8 * b2n s.power.shedReqN

def viewGlobal : List (RegField × (State → Nat → Nat)) :=
  [(R.GLB_ID_STEP_MAJOR, fun s _ => s.fuses.stepMajor.toNat), (R.GLB_ID_STEP_MINOR, fun s _ => s.fuses.stepMinor.toNat),
   (R.GLB_UNIT_USABLE0_VD, fun s _ => unitBits 12 (vdUsable s)), (R.GLB_UNIT_USABLE0_CLUSTER, fun s _ => unitBits 4 (clusterUsable s)),
   (R.GLB_UNIT_USABLE0_CORE, fun s _ => unitBits 16 (coreUsable s)), (R.GLB_UNIT_USABLE1_DRAM_CH, fun s _ => unitBits 16 (chUsable s)),
   (R.GLB_UNIT_USABLE1_SH, fun s _ => unitBits 8 (shUsable s)), (R.GLB_UNIT_USABLE1_VE, fun s _ => unitBits 4 (veUsable s)),
   (R.MC_IN_STATUS_PINS, fun s _ => inPins s), (R.ST_CHK_AVAIL, fun s _ => chkAvail s),
   (R.ST_REPAIR_SUM_SPARED, fun s _ => countArrays s (fun m => spareRows m + spareCols m != 0)),
   (R.ST_REPAIR_SUM_NO_ROWCHK, fun s _ => countArrays s (fun m => !rowCheck m)),
   (R.ST_REPAIR_SUM_NO_COLCHK, fun s _ => countArrays s (fun m => !colCheck m))]

def viewHost : List (RegField × (State → Nat → Nat)) :=
  [(R.HIF_LINK_STATUS_TAGS10, fun s _ => b2n s.pci.tag10), (R.HIF_CPL_TIMEOUT_US, fun s _ => cplTimeoutUs s.pci.cplTimeout),
   (R.HIF_TAGS_OUTSTANDING, fun s _ => outstanding s), (R.HIF_TAGS_QUARANTINED, fun s _ => s.tags.length - outstanding s),
   (R.DMA_OUTSTANDING, fun s _ => outstanding s), (R.BPM_OP_PENDING, fun s _ => s.hostOps.length),
   (R.DMA_CH_STATUS_BUSY, fun s i => b2n (!dmaIdle s (Fin.ofNat 64 i))),
   (R.DMA_CH_STATUS_WAIT_PACE, fun s i => b2n (waitsPace s (Fin.ofNat 64 i))),
   (R.DMA_CH_STATUS_WAIT_POOL, fun s i => b2n (waitsPool s (Fin.ofNat 64 i))),
   (R.DMA_CH_STATUS_QUEUED, fun s i => s.dma[(Fin.ofNat 64 i)].queue.length),
   (R.DRC_STATUS_NCH, fun s _ => if planesRun s then rd s R.DRC_STATUS_NCH 0 else 0),
   (R.DRC_CH_SR_US, fun s i => rd s R.DRC_CH_SR_US i +
     (if rdb s R.DRC_CH_STATUS_SR i then rneQuot (elapsed s - s.dramChs[(Fin.ofNat 16 i)].srSince.toNat) 1000 else 0)),
   (R.MC_CLK_STATUS_CORE_MHZ, fun s _ => slewedMhz s)]

def viewVideo : List (RegField × (State → Nat → Nat)) :=
  [(R.VID_CTX_INV_STAT_PENDING, fun s _ => s.invalidates.length), (R.VID_CACHE_STAT_LIVE, fun s _ => liveCount s),
   (R.VID_CACHE_STAT_CACHED, fun s _ => (cachedStreams s).length),
   (R.VD_STATUS_BUSY, fun s i => b2n (vdJob s i).isSome), (R.VD_STATUS_LIVE, fun s i => ofJob (vdJob s i) (fun j => b2n j.live)),
   (R.VD_STATUS_STREAM, fun s i => ofJob (vdJob s i) (fun j => j.stream.val)),
   (R.VD_ELAPSED, fun s i => ofJob (vdJob s i) (fun j => vCycles (elapsed s - j.startAt.toNat))),
   (R.SH_STATUS_BUSY, fun s i => b2n (shJob s i).isSome), (R.SH_STATUS_LIVE, fun s i =>
      ofJob (shJob s i) (fun j => b2n (j.tune.isNone && isLive (streamOf s j.stream)))),
   (R.SH_STATUS_REPLACING, fun s i => ofJob (shJob s i) (fun j => b2n j.replacing)),
   (R.SH_STATUS_STREAM, fun s i => ofJob (shJob s i) (fun j => j.stream.val)),
   (R.VE_STATUS_BUSY, fun s i => b2n (veJob s i).isSome), (R.VE_STATUS_LIVE, fun s i =>
      ofJob (veJob s i) (fun j => b2n ((reqOf s j.req).any (reqLive s)))),
   (R.VE_STATUS_STREAM, fun s i => ofJob (veJob s i) (fun j => j.stream.val)), (R.VE_ACTIVE, fun s _ => s.encReqs.length)]

def viewCluster : List (RegField × (State → Nat → Nat)) :=
  [(R.CHT_STATUS_DRAINING, fun s i => b2n (draining s (Fin.ofNat 4 i))),
   (R.CHT_STATUS_BUSY, fun s i => b2n (s.clusters[(Fin.ofNat 4 i)].busy != 0)),
   (R.CHT_STATUS_CLASS, fun s i => runningClass s (Fin.ofNat 4 i)),
   (R.BQ_RESERVED_SLOTS, fun s i => reservedSlots s (bqClass i).1 (bqClass i).2),
   (R.BQ_FREE_AREAS, fun s i => freeAreas s (bqClass i).1 (bqClass i).2),
   (R.BQ_IDLE, fun s i => b2n (classIdle s (bqClass i).1 (bqClass i).2)),
   (R.CLU_LDR_STATUS_RESIDENT, fun s i => s.clusters[(Fin.ofNat 4 i)].residents.length),
   (R.CLU_LDR_STATUS_BUSY, fun s i => b2n (loaderBusy s (Fin.ofNat 4 i))),
   (R.CLU_SEM_COUNT, fun s i => (semCount s (Fin.ofNat 4 (i / 64)) (Fin.ofNat 64 i)).toNat),
   (R.CLU_SEM_WAITERS, fun s i =>
     (s.clusters[(Fin.ofNat 4 (i / 64))].waiters.filter (fun w => w.sem == Fin.ofNat 64 i)).length)]

def viewCore : List (RegField × (State → Nat → Nat)) :=
  [(R.CORE_STATUS_STATE, fun s i => coreState s (Fin.ofNat 16 i)), (R.CORE_STATUS_WAIT, fun s i => coreWait (coreAt s i).mode),
   (R.CORE_STATUS_TQ_DEPTH, fun s i => (coreAt s i).tq.length), (R.CORE_STATUS_SEM, fun s i => coreSem (coreAt s i).mode),
   (R.CORE_PC, fun s i => (coreAt s i).pc.toNat),
   (R.ARRAY_STATUS_A_BUSY, fun s i => b2n (arrayBusy (coreAt s i) 0)), (R.ARRAY_STATUS_B_BUSY, fun s i => b2n (arrayBusy (coreAt s i) 1)),
   (R.ARRAY_STATUS_GATED, fun s i => b2n (rampLevel s.clock.cyc (coreAt s i).ramp == 0)),
   (R.ARRAY_STATUS_RAMP_LEVEL, fun s i => rampLevel s.clock.cyc (coreAt s i).ramp),
   (R.ARRAY_STATUS_THROTTLED, fun s _ => b2n (throttled s)),
   (R.ARRAY_STATUS_PREEMPT_PENDING, fun s i => b2n ((coreAt s i).mode == .stopping)),
   (R.ARRAY_FILL_LAT_NORMAL, fun s i => bitsOf (fillLat s (Fin.ofNat 16 i)) 0 8),
   (R.ARRAY_FILL_LAT_FIFE32, fun s i => bitsOf (fillLat s (Fin.ofNat 16 i)) 8 8),
   (R.ARRAY_FILL_LAT_FIFE16, fun s i => bitsOf (fillLat s (Fin.ofNat 16 i)) 16 8)]

/-- The fields of ARRAY_REPAIR and of the repair maps: a place in the word that holds them. -/
def repairFields : List (RegField × (State → Nat → Nat)) :=
  ([R.ARRAY_REPAIR_A_SPROW, R.ARRAY_REPAIR_A_SPCOL, R.ARRAY_REPAIR_A_ROWCHK, R.ARRAY_REPAIR_A_COLCHK, R.ARRAY_REPAIR_B_SPROW,
    R.ARRAY_REPAIR_B_SPCOL, R.ARRAY_REPAIR_B_ROWCHK, R.ARRAY_REPAIR_B_COLCHK].map
      (fun f => (f, fun s i => bitsOf (arrayRepair s (Fin.ofNat 16 i)) f.lo f.width))) ++
  ([R.ARRAY_REPAIR_MAP_A_SROW0, R.ARRAY_REPAIR_MAP_A_SROW0_EN, R.ARRAY_REPAIR_MAP_A_SROW1, R.ARRAY_REPAIR_MAP_A_SROW1_EN,
    R.ARRAY_REPAIR_MAP_A_SCOL0, R.ARRAY_REPAIR_MAP_A_SCOL0_EN, R.ARRAY_REPAIR_MAP_A_SCOL1, R.ARRAY_REPAIR_MAP_A_SCOL1_EN].map
      (fun f => (f, fun s i => bitsOf (mapA s i) f.lo f.width))) ++
  ([R.ARRAY_REPAIR_MAP_B_SROW0, R.ARRAY_REPAIR_MAP_B_SROW0_EN, R.ARRAY_REPAIR_MAP_B_SROW1, R.ARRAY_REPAIR_MAP_B_SROW1_EN,
    R.ARRAY_REPAIR_MAP_B_SCOL0, R.ARRAY_REPAIR_MAP_B_SCOL0_EN, R.ARRAY_REPAIR_MAP_B_SCOL1, R.ARRAY_REPAIR_MAP_B_SCOL1_EN].map
      (fun f => (f, fun s i => bitsOf (mapB s i) f.lo f.width)))

/-- Every field that the typed state holds. -/
def viewTable : List (RegField × (State → Nat → Nat)) :=
  viewGlobal ++ viewHost ++ viewVideo ++ viewCluster ++ viewCore ++ repairFields

/-- What instance `i` of a field shows. -/
def fieldValue (s : State) (f : RegField) (i : Nat) : Nat :=
  match viewTable.find? (fun v => v.1.id == f.id) with
  | some v => v.2 s i % 2 ^ f.width
  | none => rd s f i

/-! ## Where a register lies -/

/-- The instance of a field whose register holds the four bytes at a BAR0 offset, and whether they are its high half. -/
def fieldHit (off : Nat) (f : RegField) : Option (RegField × Nat × Bool) :=
  if off < f.off then none
  else
    let d := off - f.off
    let i1 := if f.n1 ≤ 1 then 0 else d / f.st1
    let i2 := if f.n2 ≤ 1 then 0 else (d - i1 * f.st1) / f.st2
    let r := d - i1 * f.st1 - i2 * f.st2
    if i1 < f.n1 ∧ i2 < f.n2 ∧ (r = 0 ∨ (f.wide ∧ r = 4)) then some (f, i1 * f.n2 + i2, r == 4) else none

/-- The fields of the register at an offset; none where the offset is unassigned. -/
def regHits (off : Nat) : List (RegField × Nat × Bool) := regTable.filterMap (fieldHit off)

/-- The register is 64 bits wide. -/
def isWide (hs : List (RegField × Nat × Bool)) : Bool := hs.any (fun h => h.1.wide)

/-- The offset is the high half of a 64-bit register. -/
def isHigh (hs : List (RegField × Nat × Bool)) : Bool := hs.any (fun h => h.2.2)

/-- The value of a whole register: WO and reserved fields read 0. -/
def regValue (s : State) (hs : List (RegField × Nat × Bool)) : Nat :=
  (hs.map (fun h => if h.1.ty == .wo then 0 else fieldValue s h.1 h.2.1 * 2 ^ h.1.lo)).foldl (· + ·) 0

/-! ## Reads (R3, R6, R7, R32, R300) -/

/-- An RC field that has been read is cleared; the largest number of reads outstanding starts anew from those that still are. -/
def clearRead (s : State) (h : RegField × Nat × Bool) : State :=
  if h.1.ty == .rc then
    let s := wr s h.1 h.2.1 0
    if h.1.id = R.MC_THERM_TJ_PEAK.id then { s with power := { s.power with tjSeen := false } }
    else if h.1.id = R.DMA_OUTSTANDING_MAX.id then wr s h.1 h.2.1 (outstanding s)
    else s
  else s

/-- A read of BPM_POOL_ALLOC or BPM_POOL_ALLOC_LIVE allocates (R282): which pool, and whether the buffer is live. -/
def allocRead (hs : List (RegField × Nat × Bool)) : Option (Fin 8 × Bool) :=
  hs.findSome? (fun h =>
    if h.1.id = R.BPM_POOL_ALLOC.id then some (Fin.ofNat 8 h.2.1, false)
    else if h.1.id = R.BPM_POOL_ALLOC_LIVE.id then some (Fin.ofNat 8 h.2.1, true)
    else none)

/-- A counter of cycles whose timing the model leaves out (R276): its key and its core. -/
def timingRead (hs : List (RegField × Nat × Bool)) : Option (Nat × Nat) :=
  hs.findSome? (fun h =>
    if h.1.id = R.CMEM_CONFLICT_CYC.id ∨ h.1.id = R.CMEM_TENSOR_STALL.id then some (regKey h.1 h.2.1, h.2.1) else none)

/-- Such a counter is read, which clears it: it is 0 unless the core memory has moved a beat since its last read, and then
free. -/
def stallRead (s : State) (k core : Nat) : State × Nat :=
  let b := rd s R.CMEM_BEATS_RD core + rd s R.CMEM_BEATS_WR core * 2 ^ 32
  if storeGet 0 s.stallSeen k = b then (s, 0)
  else ({ s with stallSeen := storeSet 0 s.stallSeen k b, freeCtr := s.freeCtr + 1 }, Config.stallCount s.freeCtr k)

/-- The registers whose low half latches the high half at a 32-bit read (R32, R300). -/
def latches (hs : List (RegField × Nat × Bool)) : Bool :=
  hs.any (fun h => h.1.id == R.GLB_TIMESTAMP_NS.id || h.1.id == R.BPM_POOL_ALLOC.id || h.1.id == R.BPM_POOL_ALLOC_LIVE.id)

/-- A whole register is read, with the effects of reading it. -/
def readWhole (s : State) (hs : List (RegField × Nat × Bool)) : State × Nat :=
  match allocRead hs with
  | some (p, live) => let t := hostAlloc p live s; (t, t.allocOut.toNat)
  | none =>
    match timingRead hs with
    | some (k, core) => stallRead s k core
    | none => (hs.foldl clearRead s, regValue s hs)

/-- The high half of a latching register: what the last read of the low half latched, once; else the present value. -/
def readLatched (s : State) (off : Nat) (hs : List (RegField × Nat × Bool)) : State × Nat :=
  match s.halfR.find? (fun e => e.1 == off) with
  | some e => ({ s with halfR := s.halfR.filter (fun e => e.1 != off) }, e.2)
  | none => (s, regValue s hs / 2 ^ 32)

/-- The four bytes at an offset: one 32-bit read. -/
def read32 (s : State) (off : Nat) : State × Nat :=
  if 0x8000 ≤ off ∧ off < 0x10000 then (s, logWindow s (off - 0x8000) 4)
  else
    let hs := regHits off
    if hs.isEmpty then (s, 0)
    else if isHigh hs then
      if latches hs then readLatched s off hs else ((hs.filter (fun h => h.1.lo ≥ 32)).foldl clearRead s, regValue s hs / 2 ^ 32)
    else if latches hs then
      let (t, v) := readWhole s hs
      ({ t with halfR := (off + 4, v / 2 ^ 32) :: t.halfR.filter (fun e => e.1 != off + 4) }, v % 2 ^ 32)
    else if isWide hs then ((hs.filter (fun h => h.1.lo < 32)).foldl clearRead s, regValue s hs % 2 ^ 32)
    else let (t, v) := readWhole s hs; (t, v % 2 ^ 32)

/-- A read of 4 or 8 bytes of the register space: eight bytes are one 64-bit register, or two of 32 bits. -/
def regRead (s : State) (off n : Nat) : State × Nat :=
  if n = 8 then
    if isWide (regHits off) then readWhole s (regHits off)
    else
      let (t, a) := read32 s off
      let (u, b) := read32 t (off + 4)
      (u, a + b * 2 ^ 32)
  else read32 s off

/-! ## Writes (R3, R6, R7) -/

/-- The registers of job ring 31 are read-only to the host (R71, R78). -/
def ring31 (f : RegField) (i : Nat) : Bool :=
  i == 31 && [R.JR_BASE, R.JR_LOG2, R.JR_EN, R.CR_BASE, R.CR_VECTOR, R.CR_IRQ_EN, R.CR_COUNT_THR, R.CR_TIME_THR, R.CR_LOG2,
    R.CR_EN].any (fun g => g.id == f.id)

/-- One field takes its part of what is written. -/
def writeField (v : Nat) (s : State) (h : RegField × Nat × Bool) : State :=
  let x := bitsOf v h.1.lo h.1.width
  match h.1.ty with
  | .rw => if ring31 h.1 h.2.1 then s else wr s h.1 h.2.1 x
  | .rws => wr s h.1 h.2.1 x
  | .rw1c => wr s h.1 h.2.1 (rd s h.1 h.2.1 - (rd s h.1 h.2.1 &&& x))
  | .ro => s
  | .wo => s
  | .rc => s

/-- A write of JR_CFG: clearing JR_EN cancels what has not been dispatched (R71). -/
def jrCfgWrite (i v : Nat) (s : State) : State :=
  if i = 31 then s
  else
    let s := wr s R.JR_LOG2 i (bitsOf v 0 5)
    if bitOf v 16 then ltrUpdate (wrb s R.JR_EN i true)
    else if rdb s R.JR_EN i then jobRingDisable (Fin.ofNat 31 i) s
    else wrb s R.JR_EN i false

/-- A write of BPM_POOL_CFG (R279, R280, R300): the plain fields, then what EN asks for. -/
def poolCfgWrite (p : Fin 8) (v : Nat) (s : State) : State :=
  if bitOf v 0 then poolEnable p (BitVec.ofNat 32 v) s
  else if poolEn s p then poolClear p (poolCfgFields p v s)
  else wrb (poolCfgFields p v s) R.BPM_POOL_CFG_CFG_ERR p.val false

/-- What a write does at a register whose write acts. -/
def writeActs (i v : Nat) : List (RegField × (State → State)) :=
  [(R.VID_CTX_CFG_COUNT, vidCtxCfgWrite v), (R.BQ_EN, bqCfgWrite (bqClass i).1 (bqClass i).2 v),
   (R.ARRAY_CTL_PREEMPT_EN, arrayCtlWrite (Fin.ofNat 16 i) v),
   (R.ARRAY_CKPT_BASE_BASE, fun s => if arrayLocked s (Fin.ofNat 16 i) then s else wr s R.ARRAY_CKPT_BASE_BASE i (bitsOf v 12 36)),
   (R.JR_EN, jrCfgWrite i v), (R.BPM_POOL_CFG_EN, poolCfgWrite (Fin.ofNat 8 i) v),
   (R.BPM_FREE, hostOpWrite .free (BitVec.ofNat 48 v)), (R.BPM_HOLD, hostOpWrite .hold (BitVec.ofNat 48 v)),
   (R.BPM_RELEASE, hostOpWrite .release (BitVec.ofNat 48 v)), (R.DMA_CH_CFG_EN, dmaCfgWrite (Fin.ofNat 64 i) v),
   (R.DMA_CH_QUEUE, dmaQueueWrite (Fin.ofNat 64 i) (BitVec.ofNat 64 v)),
   (R.DMA_CH_PACE_GRANT, fun s => addGrant s (Fin.ofNat 64 i) (bitsOf v 0 8)),
   (R.CLU_LDR_FLUSH, fun s => if bitOf v 0 then ldrFlush (Fin.ofNat 4 i) s else s),
   (R.HIF_WIN_COMMIT, fun s => if bitOf v 0 then winCommit s else s), (R.MC_TS_SET, tsSet (BitVec.ofNat 64 v)),
   (R.MC_TS_CTL_PPS_EN, tsCtlWrite v), (R.LOG_ACK, logAckWrite v)]

/-- A whole register is written. -/
def writeWhole (s : State) (hs : List (RegField × Nat × Bool)) (v : Nat) : State :=
  match hs.findSome? (fun h => (writeActs h.2.1 v).find? (fun a => a.1.id == h.1.id)) with
  | some a => a.2 s
  | none => ltrUpdate (hs.foldl (writeField v) s)

/-- A write to an unassigned offset (R6). The entry's ARG0 is the offset in the BAR, and its ARG1 the space: 0 for BAR0, 2
for BAR4 (DESIGN CHOICE, log entry 182). -/
def unassigned (s : State) (space off : Nat) : State := logIt s planeCtrl 0x01 1 3 0xFF off space

/-- The low half that goes with a high half written at an offset. -/
def lowHalf (s : State) (off : Nat) (hs : List (RegField × Nat × Bool)) : Nat :=
  match s.halfW.find? (fun e => e.1 == off - 4) with
  | some e => e.2
  | none => regValue s hs % 2 ^ 32

/-- The low half of a 64-bit register waits for the high half (R7). A high half without one keeps the register's low half. -/
def write32 (s : State) (off v : Nat) : State :=
  if 0x8000 ≤ off ∧ off < 0x10000 then s
  else
    let hs := regHits off
    if hs.isEmpty then unassigned s 0 off
    else if !isWide hs then writeWhole s hs v
    else if isHigh hs then
      writeWhole { s with halfW := s.halfW.filter (fun e => e.1 != off - 4) } hs (lowHalf s off hs + v * 2 ^ 32)
    else { s with halfW := (off, v) :: s.halfW.filter (fun e => e.1 != off) }

/-- A write of 4 or 8 bytes of the register space. Eight bytes at an unassigned offset are two 32-bit writes, each logged (R6;
DESIGN CHOICE, log entry 231). An aligned 64-bit write while a low half waits drops that half (R7; DESIGN CHOICE, log entry
232). -/
def regWrite (s : State) (off n v : Nat) : State :=
  if n = 8 then
    if isWide (regHits off) then writeWhole { s with halfW := s.halfW.filter (fun e => e.1 != off) } (regHits off) v
    else write32 (write32 s off (v % 2 ^ 32)) (off + 4) (v / 2 ^ 32)
  else write32 s off (v % 2 ^ 32)

end Sys2Proof.Machine
end

