-- ==== Sys2Proof/Machine/DmaMove.lean ====
section
/-! DEFINITION. The moving of a descriptor's lines, and ABORT (R285, R292, R293, R296, R297). -/

namespace Sys2Proof.Machine

/-- The FILL pattern over a line (R291). -/
def fillLine (d : Desc) : List Byte := (List.range d.lineLen).map (fun i => (bytesOf 4 d.fill.toNat).getD (i % 4) 0)

/-- The staged bytes of a line. -/
def stagedLine (s : State) (k : Fin 64) (d : Desc) (l : Nat) : List Staged := (s.dma[k].staged.drop (l * d.lineLen)).take d.lineLen

def Staged.byte (x : Staged) : Byte := match x with
  | .data b => b
  | _ => 0

/-- A host read for the line ended in an error (R296, code 3). -/
def lineLost (s : State) (k : Fin 64) (d : Desc) (l : Nat) : Bool := (stagedLine s k d l).any (fun x => x == .error)

/-- The lines of a descriptor before the one that stops it, and the code that does (0 none). -/
def stopAt (s : State) (k : Fin 64) (d : Desc) : Nat × Nat :=
  match (List.range d.lines).find? (fun l => lineCode s d s.dma[k].buf l != 0 || lineLost s k d l) with
  | none => (d.lines, 0)
  | some l => (l, if lineCode s d s.dma[k].buf l ≠ 0 then lineCode s d s.dma[k].buf l else 3)

/-- A line of source data: its bytes, and whether they are poisoned. -/
structure Line where
  bytes : List Byte
  poison : Bool

/-- One source line is read. -/
def readLine (k : Fin 64) (d : Desc) (s : State) (l : Nat) : State × Line :=
  if ctlFill d then (s, ⟨fillLine d, false⟩)
  else
    match regionOf s (lineSrc d l) with
    | .host _ => (s, ⟨(stagedLine s k d l).map Staged.byte, (stagedLine s k d l).any (fun x => x == .poison)⟩)
    | .regs off => let (t, v) := regRead s off d.lineLen; (t, ⟨bytesOf d.lineLen v, false⟩)
    | _ => let r := memRead s reqDma (lineSrc d l) d.lineLen; (r.s, ⟨r.bytes, r.poison⟩)

/-- The first `n` source lines are read in order. -/
def readSource (k : Fin 64) (d : Desc) (n : Nat) (s : State) : State × List Line :=
  (List.range n).foldl (fun r l => let (t, x) := readLine k d r.1 l; (t, r.2 ++ [x])) (s, [])

/-- A byte address lies in the first `n` source lines. -/
def inSource (d : Desc) (n a : Nat) : Bool :=
  !ctlFill d && (List.range n).any (fun l => lineSrc d l ≤ a && a < lineSrc d l + d.lineLen)

/-- A destination byte of an overlap is free (R292). -/
def lineBytes (d : Desc) (n draw b : Nat) (bs : List Byte) : List Byte :=
  bs.zipIdx.map (fun e => if inSource d n (b + e.2) then Config.overlapByte draw (b + e.2) else e.1)

/-- One line is written: the state, and whether the line counts as written. None is, once a line to a register of the channel's
own has aborted it. -/
def writeLine (k : Fin 64) (d : Desc) (n draw : Nat) (s : State) (l : Nat) (x : Line) : State × Bool :=
  if s.dma[k].phase != .move d then (s, false) else
  let b := lineDst d s.dma[k].buf l
  let s := if x.poison then logDma s k 2 d.at_.toNat else s
  match regionOf s b with
  | .regs off =>
    if x.poison then (s, false)
    else (bump (regWrite s off d.lineLen (natOfBytes x.bytes)) R.DMA_CH_BYTES k.val d.lineLen, true)
  | .host h =>
    let s := modDma s k (fun c => { c with lastHost := some h })
    (bump (sendWrite s h x.bytes x.poison) R.DMA_CH_BYTES k.val d.lineLen, true)
  | _ => (bump (memWrite s reqDma b (lineBytes d n draw b x.bytes) x.poison) R.DMA_CH_BYTES k.val d.lineLen, true)

/-- Some destination byte lies in an overlap. -/
def hasOverlap (s : State) (k : Fin 64) (d : Desc) (n : Nat) : Bool :=
  !ctlFill d && (List.range n).any (fun l => (List.range n).any (fun m =>
    overlaps (lineDst d s.dma[k].buf l) d.lineLen (lineSrc d m) d.lineLen))

/-- The transactions of `n` lines show in DMA_OUTSTANDING_MAX: at least one of them, and at most 256 at a time (R254, R301). -/
def noteMoves (s : State) (d : Desc) (n : Nat) : State :=
  if n * d.lineLen = 0 then s
  else
    let most := min 256 (n * ceilDiv d.lineLen 64)
    raiseTo s R.DMA_OUTSTANDING_MAX 0 (min 4096 (outstanding s + 1 + Config.outstandingPeak s.freeCtr % most))

/-- The first `n` lines are moved: the state, the lines written and whether some line was poisoned. -/
def moveLines (s : State) (k : Fin 64) (d : Desc) (n : Nat) : State × Nat × Bool :=
  let draw := s.freeCtr
  let s := noteMoves s d n
  let s := if hasOverlap s k d n then { s with freeCtr := draw + 1 } else s
  let (s, ls) := readSource k d n s
  let r := ls.zipIdx.foldl (fun (r : State × Nat) e =>
    let (t, ok) := writeLine k d n draw r.1 e.2 e.1
    (t, r.2 + b2n ok)) (s, 0)
  (r.1, r.2, ls.any (fun x => x.poison))

/-- A line of an allocation into a hold pool covers byte 3 of the buffer (R285). -/
def coversHold (s : State) (k : Fin 64) (d : Desc) : Bool :=
  match s.dma[k].buf with
  | none => false
  | some b => poolHolds s (ctlPool d) && (List.range d.lines).any (fun l =>
      lineDst d (some b) l ≤ b.toNat + 3 && b.toNat + 3 < lineDst d (some b) l + d.lineLen)

/-- On a channel that may not, a line of an allocation addresses host memory (R296, code 4). -/
def hostDst (s : State) (k : Fin 64) (d : Desc) : Bool :=
  k.val ≥ 32 && (List.range d.lines).any (fun l => inHost s (lineDst d s.dma[k].buf l))

/-- The code with which an allocated buffer cannot be written at all, 0 for none. -/
def allocCode (s : State) (k : Fin 64) (d : Desc) : Nat :=
  if hostDst s k d then 4 else if coversHold s k d then 6 else 0

/-- The buffer that contains SRC (R291), or SRC itself where no pool holds it. -/
def srcBuffer (s : State) (d : Desc) : Nat :=
  match poolOf s d.src.toNat with
  | none => d.src.toNat
  | some p => poolBase s p + (d.src.toNat - poolBase s p) / poolSize s p * poolSize s p

/-- A free of the pointer would pass the checks of R283. -/
def freeOk (s : State) (a : Nat) : Bool :=
  match poolOf s a with
  | none => false
  | some p => bpmCheck s .free p a == 0

/-- FREE_SRC: the state after it and its code, 6 where a check fails. -/
def freeSrc (s : State) (k : Fin 64) (d : Desc) : State × Nat :=
  if ctlFreeSrc d && !ctlFill d then
    let a := srcBuffer s d
    let t := bpmOp s .free a
    if freeOk s a then (t, 0) else (logDma t k 6 d.at_.toNat, 6)
  else (s, 0)

/-- The descriptor's lines have been moved; what stopped it, or its first failure, is recorded. -/
def moved (s : State) (k : Fin 64) (d : Desc) (lines stop : Nat) (poison : Bool) : State :=
  let s := if stop ≠ 0 then logDma s k stop d.at_.toNat else s
  let code := if stop ≠ 0 then stop else if poison then 2 else 0
  let (s, code) := if code = 0 then freeSrc s k d else (s, code)
  closeDesc (if code ≠ 0 then recordBad s k d.at_.toNat code else s) k d code lines

/-- Errors in the channel's host staging spoil the bytes they lie in (R261). -/
def readStaging (s : State) (k : Fin 64) : State :=
  (List.range s.dma[k].staged.length).foldl (fun s i =>
    let (s, bad) := hiddenRead s (.host k i)
    if bad then modDma s k (fun c => { c with staged := c.staged.set i Staged.poison }) else s) s

/-- DMA_DESCRIPTOR_DONE. -/
def descriptorDone (k : Fin 64) (s : State) : State :=
  match s.dma[k].phase with
  | .move d =>
    if reading s k then s
    else if !moves d then closeDesc s k d 0 0
    else if allocCode s k d ≠ 0 then
      let s' := match s.dma[k].buf with
        | some b => bpmOp s .free b.toNat
        | none => s
      failDesc s' k d (allocCode s k d)
    else
      let s := if s.hidden.isEmpty then s else readStaging s k
      let (n, stop) := stopAt s k d
      let (s, lines, poison) := moveLines s k d n
      if s.dma[k].phase == .move d then moved s k d lines stop poison else writeStatus s k d 8 lines false
  | _ => s

def execDmaDescriptorDone (k : Fin 64) (s : State) : Host.Outcome State Fault Refusal :=
  .next (if planesRun s then descriptorDone k s else s)

/-- The lines of a descriptor in progress that can have been issued: those before one that stops it or is not yet read. -/
def issuable (s : State) (k : Fin 64) (d : Desc) : Nat :=
  if allocCode s k d ≠ 0 then 0
  else
    match (List.range (stopAt s k d).1).find? (fun l => (stagedLine s k d l).any (fun x => x == .waiting)) with
    | some l => l
    | none => (stopAt s k d).1

/-- DMA_ABORT: the lines issued before the line boundary are performed and stay. -/
def dmaAbort (k : Fin 64) (issued : Nat) (s : State) : State :=
  match s.dma[k].phase with
  | .move d =>
    let (s, lines, _) := moveLines s k d (min issued (if moves d then issuable s k d else 0))
    abortChannel s k lines
  | _ => abortChannel s k 0

def execDmaAbort (k : Fin 64) (linesIssued : Nat) (s : State) : Host.Outcome State Fault Refusal :=
  .next (if planesRun s then dmaAbort k linesIssued s else s)

end Sys2Proof.Machine
end

