-- ==== Sys2Proof/Machine/Dram.lean ====
section
/-! DEFINITION. DRAM in service: scrubbing, refresh, MR4, page policy, self-refresh, retraining and the training record
(R313, R314, R316, R317, R319, R321, R322). -/

namespace Sys2Proof.Machine

/-- The channel is trained and carries traffic. -/
def chActive (s : State) (k : Fin 16) : Bool :=
  planesRun s && rdb s R.DRC_CH_STATUS_IN_USE k.val && rdb s R.DRC_STATUS_READY 0

def inSelfRefresh (s : State) (k : Fin 16) : Bool := rdb s R.DRC_CH_STATUS_SR k.val

/-- Device address of an offset of a channel: the inverse of R306. -/
def dramAddr (p n ch off : Nat) : Nat :=
  if off < p then
    if ch < 2 then (off / 256 * 2 + ch) * 256 + off % 256
    else 2 * p + (off / 256 * (n - 2) + (ch - 2)) * 256 + off % 256
  else n * p + ((off - p) / 256 * n + ch) * 256 + off % 256

/-- The data rate in MT/s (R303, R323). -/
def dataRate (s : State) : Nat :=
  match rd s R.DRC_CFG_SPEED 0 with
  | 0 => 8533
  | 1 => 7500
  | 2 => 6400
  | _ => 4267

/-- Nanoseconds of d-cycles, an eighth of the data rate (R367), in whole nanoseconds upwards; a field of 0 acts as 1 (R323). -/
def dNs (s : State) (f : RegField) : Nat := ceilDiv (max 1 (rd s f 0) * 8000) (dataRate s)

/-- The check byte of the word at a device address. -/
def checkByteAt (s : State) (a : Nat) : Byte :=
  let w := BitVec.ofNat 64 (natOfBytes (storeGetMany 0 s.mem a 8))
  if eccAt s (eccBase s a) == .poison then Config.poisonByte w
  else if eccAt s a == .ok then Config.checkByte w
  else Config.flippedByte a

/-- The check area of a 2 KiB page of a channel with inline ECC, bytes 1,792 to 2,047 (R309): 8 check bytes for each of the 28
lines, and 0 in the rest. No requester can address it; what it holds follows from the data and its check state. -/
def checkArea (s : State) (ch page : Nat) : List Byte :=
  (List.range (28 * 8)).map (fun i => checkByteAt s (dramAddr (pinBytes s) (rd s R.DRC_STATUS_NCH 0) ch (page * 1792 + i * 8))) ++
    List.replicate 32 0

/-- DRAM_SCRUB: one 256 B granule, in channel-offset order, SCRUB_INTERVAL after the one before. -/
def dramScrub (k : Fin 16) (s : State) : State :=
  if !chActive s k || inSelfRefresh s k || !rdb s R.DRC_ECC_CTL_SCRUB_EN 0 then s
  else
    let s := passUntil s (s.dramChs[k].scrubbed.toNat + dNs s R.DRC_ECC_CTL_SCRUB_INTERVAL)
    let g := s.dramChs[k].scrubAt
    let a := dramAddr (pinBytes s) (rd s R.DRC_STATUS_NCH 0) k.val (g * 256)
    let s := if rdb s R.DRC_CFG_ECC_EN 0 then (badWords s a 256).foldl (checkWord reqScrub) s else s
    modDram s k (fun d => { d with scrubAt := (g + 1) % (usableChannel s / 256), scrubbed := elapsedW s })

def execDramScrub (ch : Fin 16) (s : State) : Host.Outcome State Fault Refusal := .next (dramScrub ch s)

/-- A refresh closes the rows of the banks it needs: all, or the one that a per-bank refresh takes (R314). -/
def closeForRefresh (k : Fin 16) (s : State) : State :=
  if !rdb s R.DRC_REF_CTL_PER_BANK 0 then modDram s k (fun d => { d with openRows := [] })
  else
    let (s, d) := drawFree s
    let b := Config.refreshBank d
    modDram s k (fun d => { d with openRows := d.openRows.filter (fun r => r.1 * 16 + r.2.1 ≠ b) })

/-- `n` refreshes are issued. -/
def issueRefreshes (s : State) (k : Fin 16) (n : Nat) : State := (List.range n).foldl (fun s _ => closeForRefresh k s) s

/-- DRAM_REFRESH: an interval falls due. While requests wait, up to 8 may be owed. -/
def dramRefresh (k : Fin 16) (waiting : Bool) (s : State) : State :=
  if !planesRun s || !rdb s R.DRC_CH_STATUS_IN_USE k.val || inSelfRefresh s k then s
  else
    let owed := s.dramChs[k].owed + 1
    if waiting && owed ≤ 8 then
      raiseTo (modDram s k (fun d => { d with owed := owed })) R.DRC_CH_REF_POSTPONED_MAX k.val owed
    else issueRefreshes (modDram s k (fun d => { d with owed := if waiting then 8 else 0 })) k (if waiting then 1 else owed)

def execDramRefresh (ch : Fin 16) (waiting : Bool) (s : State) : Host.Outcome State Fault Refusal := .next (dramRefresh ch waiting s)

/-- The entry for a code above the highest refresh rate (R321). -/
def logMr4 (s : State) : State :=
  let c := Config.mr4Entry 0
  logIt s planeData (c / 256) (c % 256) (Config.mr4Entry 1 % 6) 0x42 (Config.mr4Entry 2) (Config.mr4Entry 3)

/-- MR4_POLL: MR4_POLL_MS after the one before. -/
def mr4Poll (k : Fin 16) (rate : BitVec 3) (above : Bool) (s : State) : State :=
  if !planesRun s || !rdb s R.DRC_CH_STATUS_IN_USE k.val then s
  else
    let s := passUntil s (s.dramChs[k].mr4At.toNat + max 1 (rd s R.DRC_REF_CTL_MR4_POLL_MS 0) * 1000000)
    let s := wr (modDram s k (fun d => { d with hot := above, mr4At := elapsedW s })) R.DRC_CH_STATUS_MR4_RATE k.val rate.toNat
    shedEval (if above then logMr4 s else s)

def execMr4Poll (ch : Fin 16) (rate : BitVec 3) (aboveHighest : Bool) (s : State) : Host.Outcome State Fault Refusal :=
  .next (mr4Poll ch rate aboveHighest s)

/-- PAGE_IDLE_CLOSE: PAGE_IDLE after the last access to the open row of a bank. -/
def pageIdleClose (ch : Fin 16) (rank : Fin 2) (bank : Fin 16) (s : State) : State :=
  if !planesRun s || !s.dramChs[ch].openRows.any (fun r => r.1 == rank.val && r.2.1 == bank.val) then s
  else
    let s := passUntil s (storeGet 0 s.dramChs[ch].rowAt (rank.val * 16 + bank.val) + dNs s R.DRC_PAGE_CTL_PAGE_IDLE)
    modDram s ch (fun d => { d with openRows := d.openRows.filter (fun r => r.1 ≠ rank.val ∨ r.2.1 ≠ bank.val) })

def execPageIdleClose (ch : Fin 16) (rank : Fin 2) (bank : Fin 16) (s : State) : Host.Outcome State Fault Refusal :=
  .next (pageIdleClose ch rank bank s)

/-- SELF_REFRESH_ENTRY: SR_IDLE µs after the last request. Postponed refreshes are issued and rows closed first. -/
def selfRefreshEntry (k : Fin 16) (s : State) : State :=
  if !chActive s k || inSelfRefresh s k || !rdb s R.DRC_SR_CTL_SR_EN 0 then s
  else
    let s := passUntil s (s.dramChs[k].lastReq.toNat + max 1 (rd s R.DRC_SR_CTL_SR_IDLE 0) * 1000)
    let s := issueRefreshes s k s.dramChs[k].owed
    let s := modDram s k (fun d => { d with owed := 0, openRows := [], srSince := elapsedW s })
    bump (wrb s R.DRC_CH_STATUS_SR k.val true) R.DRC_CH_SR_ENTRIES k.val 1

def execSelfRefreshEntry (ch : Fin 16) (s : State) : Host.Outcome State Fault Refusal := .next (selfRefreshEntry ch s)

/-- SELF_REFRESH_EXIT. -/
def execSelfRefreshExit (ch : Fin 16) (s : State) : Host.Outcome State Fault Refusal :=
  .next (if planesRun s then wakeDram s ch else s)

/-- WCK_RETRAIN_CHECK: RETRAIN_MS after the last one, delays are adjusted when the drift exceeds half a delay step. -/
def wckRetrainCheck (k : Fin 16) (drifted : Bool) (s : State) : State :=
  if !chActive s k || inSelfRefresh s k then s
  else oscCheck (passUntil s (s.dramChs[k].oscAt.toNat + retrainNs s)) k drifted

def execWckRetrainCheck (ch : Fin 16) (drifted : Bool) (s : State) : Host.Outcome State Fault Refusal :=
  .next (wckRetrainCheck ch drifted s)

/-- The older copy of the training record is B: one that is not valid, or has the lower sequence number. -/
def olderIsB (s : State) : Bool :=
  match readCopy s false, readCopy s true with
  | some a, some b => b.seq < a.seq
  | some _, none => true
  | none, _ => false

/-- The three 4 KiB sectors of a copy after a write (R316, R419): erased, and then the record programmed, or after a write
that failed bytes that nothing fixes (log entry 228). -/
def copySectors (r : TrainRecord) (ok : Bool) (draw : Nat) : List Byte :=
  (List.range 12288).map (fun i => if ok then (recordBytes r).getD i 0xFF else Config.brokenCopy draw i)

/-- TRAINING_RECORD_WRITE: after phase 4, over the older copy. -/
def trainingRecordWrite (ok : Bool) (s : State) : State :=
  match s.recordDue with
  | none => s
  | some r =>
    let (s, draw) := drawFree s
    let s := { s with recordDue := none, flash := storeSetMany 0xFF s.flash (copyBase (olderIsB s)) (copySectors r ok draw) }
    let s := wrb s R.DRC_STATUS_REC_WRITE_FAIL 0 (!ok)
    if ok then s else logIt s planeMgmt 0x10 6 2 unitMc 0 0

def execTrainingRecordWrite (ok : Bool) (s : State) : Host.Outcome State Fault Refusal := .next (trainingRecordWrite ok s)

end Sys2Proof.Machine
end

