-- ==== Sys2Proof/Machine/HostIf.lean ====
section
/-! DEFINITION. The host interface: BAR0 and BAR2 accesses, the expansion ROM window, configuration space, MSI-X messages, link
power states and link errors (R12, R326 to R359, R390). -/

namespace Sys2Proof.Machine

/-! ## What the host can reach (R330, R331, R333, R353) -/

/-- A memory request that no BAR claims: nothing without a link; else a read is answered Unsupported Request, as the PCI
Express base specification has it. -/
def unclaimedRead (s : State) : State := if linkIsUp s then complete (linkUsed s) .unsupported false [] else s

/-- The Global and MC block, served in the always-on domain (R12, R31). -/
def alwaysOn (off : Nat) : Bool := off < 0x100000

/-- The BIST block (R385) that a BAR0 offset belongs to; none for the host interface and the always-on domain. -/
def blockOf (off : Nat) : Option Nat :=
  if off < 0x200000 then none
  else if off < 0x300000 then some 44
  else if off < 0x400000 then some 45
  else if off < 0x410000 then (if 0x402000 ≤ off ∧ off < 0x402400 then some 47 else some 46)
  else if off < 0x41C000 then some (20 + (off - 0x410000) / 0x1000)
  else if off < 0x500000 then some 46
  else if off < 0x508000 then some (32 + (off - 0x500000) / 0x1000)
  else if off < 0x520000 then some 46
  else if off < 0x524000 then some (40 + (off - 0x520000) / 0x1000)
  else if off < 0x800000 then some 46
  else if off < 0xC00000 then some 49
  else if off < 0x1000000 then some (16 + (off - 0xC00000) / 0x100000)
  else if off < 0x1800000 then some ((off - 0x1000000) / 0x80000)
  else none

/-- The block's clock is stopped in drone mode (R376): a cluster's own block, or one of its cores. -/
def blockGated (s : State) (k : Nat) : Bool :=
  if k < 16 then clockGated s (Fin.ofNat 4 (k / 4))
  else if k < 20 then clockGated s (Fin.ofNat 4 (k - 16))
  else false

/-- The block at an offset answers within 1 µs: it is neither in reset, nor under test, nor without a clock. In
NO_SERVICE reads are answered, and writes only by the Global and MC block (R35); without MC firmware only the always-on
hardware answers (R366). -/
def answers (s : State) (off : Nat) (write : Bool) : Bool :=
  if alwaysOn off then true
  else
    match s.phase with
    | .powerOn => false
    | .held => false
    | .tripped => false
    | .phase1 => off < 0x200000
    | .phase2 => off < 0x200000
    | .phase3 => off < 0x200000
    | .bist => (blockOf off).all (fun k => !underTest s k)
    | .phase4 => true
    | .phase5 => true
    | .up =>
      if rd s R.GLB_SVC_STATE_STATE 0 == 4 then !write && !s.missing.getLsbD 11
      else (blockOf off).all (fun k => !blockGated s k)
    | .halted => (blockOf off).all (fun k => !blockGated s k)

/-- LATE_REG is logged; a read is counted and completes with 0, a write is discarded (R333). -/
def late (s : State) (off : Nat) (isWrite : Bool) (n : Nat) : State :=
  let s := if isWrite then s else complete (bump s R.HIF_LATE_REG 0 1) .success false (bytesOf n 0)
  logIt s planeCtrl 0x50 0x20 3 0x41 off 0

/-! ## BAR0 (R332 to R334) -/

/-- One naturally aligned DW, or two DWs at an 8 B aligned address. -/
def bar0Sized (off dws : Nat) : Bool := (dws == 1 && off % 4 == 0) || (dws == 2 && off % 8 == 0)

/-- A longer or misaligned TLP: counted in HIF_CA and logged. -/
def bar0Size (s : State) (off : Nat) : State := hifError (bump (aerUnc s 15 true) R.HIF_CA 0 1) planeCtrl 4 0 off

/-- A write of command 0x21 in the m-cycle of a BAR0 write to the same register comes second (R424): commands with no time
between them lie in one m-cycle (DESIGN CHOICE, log entry 235). -/
def afterSmb (off dws : Nat) (s : State) : State :=
  match s.smbWrote with
  | some (o, v, t) =>
    let wide := isWide (regHits o)
    if t == elapsedW s && off < o + (if wide then 8 else 4) && o < off + 4 * dws then
      (if wide then writeWhole s (regHits o) v else write32 s o v)
    else s
  | none => s

/-- A write to BAR0. -/
def bar0Write (off : Nat) (value : BitVec 64) (dws : Nat) (beFull : Bool) (s : State) : State :=
  if !claimed s then s
  else
    let s := linkUsed s
    if !bar0Sized off dws then bar0Size s off
    else if !beFull then logIt s planeCtrl 0x50 0x21 3 0x41 off 0
    else if !answers s off true then late s off true (4 * dws)
    else afterSmb off dws (regWrite s off (4 * dws) value.toNat)

/-- A read of BAR0. -/
def bar0Read (off dws : Nat) (s : State) : State :=
  if !claimed s then unclaimedRead s
  else
    let s := linkUsed s
    if !bar0Sized off dws then complete (bar0Size s off) .abort false []
    else if !answers s off false then late s off false (4 * dws)
    else complete (regRead s off (4 * dws)).1 .success false (bytesOf (4 * dws) (regRead s off (4 * dws)).2)

/-! ## BAR4 (R335, R336, R351) -/

/-- The MSI-X table entry of a vector; one that was never written is masked, as the base specification has it. -/
def msixEntry (s : State) (v : Nat) : MsixEntry := storeGet { addr := 0, data := 0, masked := true } s.msix v

/-- DW `i` of a table entry: the message's address and data, and vector control with its mask bit (the layout is that of the
PCI base specification: PRESUMED, log entry 12). -/
def msixWord (e : MsixEntry) (i : Nat) : Nat :=
  match i with
  | 0 => e.addr.toNat % 2 ^ 32
  | 1 => e.addr.toNat / 2 ^ 32
  | 2 => e.data.toNat
  | _ => b2n e.masked

/-- A table entry with DW `i` written. -/
def msixPut (e : MsixEntry) (i v : Nat) : MsixEntry :=
  match i with
  | 0 => { e with addr := BitVec.ofNat 64 (e.addr.toNat / 2 ^ 32 * 2 ^ 32 + v / 4 * 4) }
  | 1 => { e with addr := BitVec.ofNat 64 (v * 2 ^ 32 + e.addr.toNat % 2 ^ 32) }
  | 2 => { e with data := BitVec.ofNat 32 v }
  | _ => { e with masked := bitOf v 0 }

def inTable (off : Nat) : Bool := 0x80000 ≤ off && off < 0x88000
def inPba (off : Nat) : Bool := 0x90000 ≤ off && off < 0x90100

/-- The doorbell at a BAR4 offset. -/
def bellAt (off : Nat) : Option (DbWrite → State → State) :=
  if off % 8 ≠ 0 then none
  else if off < 0xF8 then some (jobRingBell (Fin.ofNat 31 (off / 8)))
  else if 0x100 ≤ off ∧ off < 0x1F8 then some (completionRingBell (Fin.ofNat 31 ((off - 0x100) / 8)))
  else if 0x200 ≤ off ∧ off < 0x280 then some (mqHeadBell (Fin.ofNat 16 ((off - 0x200) / 8)))
  else if off = 0x400 then some invalidateBell
  else if 0x2000 ≤ off ∧ off < 0x4000 then some (chunkBell (Fin.ofNat 1024 ((off - 0x2000) / 8)))
  else none

/-- The DW at a BAR4 offset: doorbells and reserved offsets read 0. -/
def bar4Word (s : State) (off : Nat) : Nat :=
  if inTable off then msixWord (msixEntry s ((off - 0x80000) / 16)) ((off - 0x80000) / 4 % 4)
  else if inPba off then bitsOf s.pba.toNat ((off - 0x90000) / 4 * 32) 32
  else 0

/-- A DW is written outside the doorbells: to the MSI-X table, to the pending bits, which are read-only, or to a reserved
offset (R6). -/
def bar4Put (s : State) (off v : Nat) : State :=
  if inTable off then
    let n := (off - 0x80000) / 16
    { s with msix := storeSet { addr := 0, data := 0, masked := true } s.msix n
                       (msixPut (msixEntry s n) ((off - 0x80000) / 4 % 4) v) }
  else if inPba off then s
  else unassigned s 2 off

/-- A write to BAR4. One that touches a doorbell but does not begin at it, or is misaligned at one, is DB_SIZE (R336); any
other goes DW by DW, and with partial byte enables or no DW alignment it is discarded, at reserved offsets with one entry
(R6; DESIGN CHOICE, log entry 159). -/
def bar4Write (off : Nat) (value : BitVec 64) (dws : Nat) (beFull : Bool) (s : State) : State :=
  if !claimed s then s
  else
    match bellAt off with
    | some bell => bell { value := value.setWidth 32, beFull := beFull, dws := dws } s
    | none =>
      let s := linkUsed s
      if (List.range (4 * dws)).any (fun i => (bellAt (off + i)).isSome || (bellAt ((off + i) / 4 * 4)).isSome) then dropDoorbell s 5 off
      else if off % 4 ≠ 0 ∨ !beFull ∨ dws > 2 then
        (if (List.range (4 * dws)).any (fun i => inTable (off + i) || inPba (off + i)) then s else unassigned s 2 off)
      else (List.range dws).foldl (fun s i => bar4Put s (off + 4 * i) (bitsOf value.toNat (32 * i) 32)) s

/-- A read of BAR4. -/
def bar4Read (off dws : Nat) (s : State) : State :=
  if !claimed s then unclaimedRead s
  else complete (linkUsed s) .success false ((List.range dws).flatMap (fun i => bytesOf 4 (bar4Word s (off / 4 * 4 + 4 * i))))

/-- BAR0_WRITE. -/
def execBar0Write (reg : RegAddr) (value : BitVec 64) (dws : Nat) (beFull : Bool) (s : State) :
    Host.Outcome State Fault Refusal :=
  .next (match reg.bar with
    | .bar0 => bar0Write reg.off.toNat value dws beFull s
    | .bar4 => bar4Write (reg.off.toNat % 2 ^ 20) value dws beFull s)

/-- BAR0_READ. -/
def execBar0Read (reg : RegAddr) (dws : Nat) (s : State) : Host.Outcome State Fault Refusal :=
  .next (match reg.bar with
    | .bar0 => bar0Read reg.off.toNat dws s
    | .bar4 => bar4Read (reg.off.toNat % 2 ^ 20) dws s)

/-- LATE_REG: a block does not answer. Registers of the always-on domain always do. -/
def lateReg (off : Nat) (isWrite : Bool) (s : State) : State :=
  if !claimed s || alwaysOn off then s else late (linkUsed s) off isWrite 4

def execLateReg (off : BitVec 25) (isWrite : Bool) (s : State) : Host.Outcome State Fault Refusal :=
  .next (lateReg off.toNat isWrite s)

/-! ## BAR2 (R341, R344, R345) -/

def actOn (s : State) (w : Nat) : Bool := rdb s R.HIF_WACT_CTL_EN w
def actOffset (s : State) (w : Nat) : Nat := rd s R.HIF_WACT_OFFSET w * 4096
def actEnd (s : State) (w : Nat) : Nat := actOffset s w + 2 ^ rd s R.HIF_WACT_CTL_SIZE_LOG2 w

/-- A request lies in BAR2, which the endpoint claims (R331, R341). -/
def claimed2 (s : State) (o n : Nat) : Bool := claimed s && o + n ≤ bar2Bytes s

/-- The window whose span holds the byte range; in NO_SERVICE no window decodes (R35). -/
def windowFor (s : State) (o n : Nat) : Option Nat :=
  if !planesRun s then none
  else (List.range 16).find? (fun w => actOn s w && actOffset s w ≤ o && o + n ≤ actEnd s w)

/-- Some byte of the range lies in some window. -/
def touchesWindow (s : State) (o n : Nat) : Bool :=
  (List.range 16).any (fun w => actOn s w && overlaps o n (actOffset s w) (actEnd s w - actOffset s w))

/-- What an inbound TLP meets: a device address, or a code of R344. -/
inductive Inbound where
  | to (addr : Nat)
  | refused (code : Nat)
  deriving DecidableEq, Repr

/-- An inbound TLP is decoded; a TLP matched by a window counts in its HITS. -/
def decodeTlp (s : State) (o n : Nat) (write : Bool) : State × Inbound :=
  match windowFor s o n with
  | none => (s, .refused (if touchesWindow s o n then 3 else 1))
  | some w =>
    let a := rd s R.HIF_WACT_TARGET w * 4096 + (o - actOffset s w)
    let s := bump s R.HIF_WACT_HITS w 1
    if !rdb s (if write then R.HIF_WACT_CTL_WR else R.HIF_WACT_CTL_RD) w then (s, .refused 2)
    else if !unitUsableAt s a then (s, .refused 7)
    else (s, .to a)

/-- A TLP that cannot be served is counted and logged (R344, R356). -/
def refuseTlp (s : State) (code o : Nat) : State :=
  if code = 7 then hifError (bump (aerUnc s 15 true) R.HIF_CA 0 1) planeData code 1 o
  else hifError (bump (aerUnc s 20 true) R.HIF_UR 0 1) planeData code 1 o

/-- BAR2_WRITE. -/
def bar2Write (o : Nat) (bytes : List Byte) (poisoned : Bool) (s : State) : State :=
  if !claimed2 s o bytes.length then s
  else
    match decodeTlp (linkUsed s) o bytes.length true with
    | (s, .refused c) => refuseTlp s c o
    | (s, .to a) =>
      let s := if poisoned then hifError (bump (aerUnc s 12 true) R.HIF_POISON_IN 0 1) planeData 11 1 o else s
      memWrite s reqHif a bytes poisoned

def execBar2Write (off : BitVec 36) (bytes : List Byte) (poisoned : Bool) (s : State) : Host.Outcome State Fault Refusal :=
  .next (bar2Write off.toNat bytes poisoned s)

/-- The lengths of the completions of a read: each but the last ends on a 64 B boundary and is as long as
Max_Payload_Size allows (R345; that they are the longest allowed is DEDUCED, log entry 193). -/
def splitCpl (mps : Nat) : Nat → Nat → Nat → List Nat
  | 0, _, _ => []
  | fuel + 1, a, n =>
    if n = 0 then []
    else
      let k := min n ((a + mps) / 64 * 64 - a)
      k :: splitCpl mps fuel (a + k) (n - k)

/-- The pieces of a read are read and completed in address order, each with EP for its own bytes. -/
def bar2Pieces (s : State) (a : Nat) (l : List Nat) : State :=
  (l.foldl (fun (r : State × Nat) n =>
    let m := memRead r.1 reqHif r.2 n
    ({ m.s with cpl := m.s.cpl ++ [{ status := .success, ep := m.poison, bytes := m.bytes }] }, r.2 + n)) ({ s with cpl := [] }, a)).1

/-- BAR2_READ. -/
def bar2Read (o n : Nat) (s : State) : State :=
  if !claimed2 s o n then unclaimedRead s
  else
    match decodeTlp (linkUsed s) o n false with
    | (s, .refused c) => complete (refuseTlp s c o) (if c = 7 then .abort else .unsupported) false []
    | (s, .to a) => bar2Pieces s a (splitCpl (maxPayload s) n a n)

def execBar2Read (off : BitVec 36) (len : Nat) (s : State) : Host.Outcome State Fault Refusal := .next (bar2Read off.toNat len s)

/-- HIF_WIN_COMMIT: a write of 1. -/
def execHifWinCommit (s : State) : Host.Outcome State Fault Refusal := .next (if planesRun s then winCommit s else s)

/-! ## The device descriptor block and the expansion ROM (R338 to R340, R390) -/

/-- GLB_UNIT_USABLE0 and GLB_UNIT_USABLE1. -/
def usable0 (s : State) : Nat := unitBits 12 (vdUsable s) * 2 ^ 20 + unitBits 4 (clusterUsable s) * 2 ^ 16 + unitBits 16 (coreUsable s)
def usable1 (s : State) : Nat := unitBits 16 (chUsable s) * 2 ^ 12 + unitBits 8 (shUsable s) * 2 ^ 4 + unitBits 4 (veUsable s)

/-- The value of the register at a BAR0 offset, without the effects of a read. -/
def peekReg (s : State) (off : Nat) : Nat := regValue s (regHits off)

/-- Fields of the block: offset, bytes and value. -/
def ddbFields (s : State) : List (Nat × Nat × Nat) :=
  [(0, 4, 0x31424444), (4, 2, 1), (6, 2, 0x0416), (8, 1, s.fuses.stepMajor.toNat), (9, 1, s.fuses.stepMinor.toNat),
   (10, 1, rd s R.GLB_SVC_STATE_STATE 0), (11, 1, 1 + 2 * b2n (rdb s R.DRC_CFG_ECC_EN 0)), (12, 4, s.ddbGen.toNat),
   (16, 4, usable0 s), (20, 4, usable1 s), (24, 8, s.fuses.serial.toNat), (32, 8, rd s R.DRC_WINDOW 0),
   (40, 4, peekReg s 0x800000), (44, 4, s.fwVersion.toNat), (48, 2, 1024), (50, 2, 2048), (52, 2, 0x7F),
   (192, 1, b2n (rdb s R.ST_STATUS_RAN 0) + 2 * b2n (rdb s R.ST_STATUS_PASS 0) + 4 * b2n (rdb s R.ST_STATUS_ABORTED 0)),
   (196, 4, rd s R.ST_DURATION 0), (200, 8, rd s R.ST_START_TIME 0), (208, 8, rd s R.ST_TESTED 0), (216, 8, rd s R.ST_FAILED 0),
   (224, 8, chkAvail s), (232, 4, peekReg s 0x4038)] ++
  (List.finRange 16).flatMap (fun n =>
    [(64 + 8 * n.val, 3, fillLat s n), (68 + 8 * n.val, 2, arrayRepair s n), (70 + 8 * n.val, 1, b2n (coreUsable s n)),
     (256 + 8 * n.val, 4, mapA s n.val), (260 + 8 * n.val, 4, mapB s n.val)])

/-- The fields of the block with one value for ever: MAGIC, FORMAT, PART, STREAMS, VECTORS and BAR2_SIZES. -/
def ddbConstant (k : Nat) : Bool := k < 8 || (48 ≤ k && k < 54)

/-- A byte of the block: while it is not written, VALID reads 0 and the fields that vary are free. -/
def ddbByte (s : State) (k : Nat) : Byte :=
  match (ddbFields s).find? (fun f => f.1 ≤ k && k < f.1 + f.2.1) with
  | none => 0
  | some f =>
    if s.ddbValid || ddbConstant k then BitVec.ofNat 8 (f.2.2 / 256 ^ (k - f.1))
    else if k = 11 then Config.ddbUnwritten k &&& 0x02
    else Config.ddbUnwritten k

/-- A byte of the ROM window: the descriptor block, zeros, and the image of the slot that runs. -/
def romByte (s : State) (off : Nat) : Byte :=
  if off < 0x1000 then ddbByte s off
  else if off < 0x10000 then 0
  else (flashRead s (slotBase (rdb s R.MC_FW_STATUS_SLOT 0) + (off - 0x10000)) 1).getD 0 0

/-- The ROM window decodes (R338). -/
def romOpen (s : State) : Bool := claimed s && s.pci.rom.getLsbD 0

def romRead (off len : Nat) (s : State) : State :=
  if romOpen s then complete (linkUsed s) .success false ((List.range len).map (fun i => romByte s (off + i))) else unclaimedRead s

def execRomRead (off : BitVec 20) (len : Nat) (s : State) : Host.Outcome State Fault Refusal := .next (romRead off.toNat len s)

/-- ROM_WRITE: discarded and logged. -/
def romWrite (off : Nat) (s : State) : State := if romOpen s then logIt (linkUsed s) planeCtrl 0x50 0x22 3 0x41 off 3 else s

def execRomWrite (off : BitVec 20) (s : State) : Host.Outcome State Fault Refusal := .next (romWrite off.toNat s)

/-! ## Configuration space (R328 to R330, R348, R353)

The offsets of the capabilities are R329's. The layout inside a register, and the header of a capability, are those of the
PCI Express base specification (PRESUMED, log entry 12); a bit that neither the manual nor the state gives is free. -/

/-- Headers of the extended capabilities: offset, identifier and next (R329). -/
def extCaps : List (Nat × Nat × Nat) :=
  [(0x100, 0x01, 0x148), (0x148, 0x03, 0x158), (0x158, 0x19, 0x188), (0x188, 0x15, 0x198), (0x198, 0x18, 0x1A0),
   (0x1A0, 0x1E, 0x1B0), (0x1B0, 0x25, 0x1C0), (0x1C0, 0x26, 0x1F0), (0x1F0, 0x27, 0x240), (0x240, 0x2A, 0)]

/-- The known bits of a configuration register: mask and value. -/
def cfgKnown (s : State) (off : Nat) : Nat × Nat :=
  let p := s.pci
  let all := 2 ^ 32 - 1
  match off with
  | 0x00 => (all, 0x04161F6B)
  | 0x04 => (6, 2 * b2n p.memSpace + 4 * b2n p.busMaster)
  | 0x08 => (all, 0x12000000 + min s.fuses.stepMajor.toNat 15 * 16 + min s.fuses.stepMinor.toNat 15)
  | 0x0C => (0xFF0000, 0)
  | 0x10 => (all, 4 + p.bar0.toNat % 2 ^ 32)
  | 0x14 => (all, p.bar0.toNat / 2 ^ 32)
  | 0x18 => (all, 12 + p.bar2.toNat % 2 ^ 32)
  | 0x1C => (all, p.bar2.toNat / 2 ^ 32)
  | 0x20 => (all, 4 + p.bar4.toNat % 2 ^ 32)
  | 0x24 => (all, p.bar4.toNat / 2 ^ 32)
  | 0x2C => (all, p.subsysVid.toNat + p.subsysId.toNat * 2 ^ 16)
  | 0x30 => (all, p.rom.toNat)
  | 0x34 => (0xFF, 0x40)
  | 0x3C => (0xFF00, 0)
  | 0x40 => (0xFE00FFFF, 0x5001)
  | 0x44 => (0x810B, 3 * b2n p.d3hot)
  | 0x50 => (0xC7FFFFFF, 0x6011 + 2047 * 2 ^ 16 + b2n p.msixMask * 2 ^ 30 + b2n p.msixEnable * 2 ^ 31)
  | 0x54 => (all, 0x80004)
  | 0x58 => (all, 0x90004)
  | 0x60 => (0xF0FFFF, 0x0010)
  | 0x64 => (0x10000E27, 0x10000C22)
  | 0x68 => (0xF1E0, p.mps.toNat * 2 ^ 5 + b2n p.extTag * 2 ^ 8 + p.mrrs.toNat * 2 ^ 12)
  | 0x6C => (0x38FFF, 0x10905)
  | 0x70 => (0x3FF000B, p.aspm.toNat + rd s R.HIF_LINK_STATUS_SPEED 0 * 2 ^ 16 + rd s R.HIF_LINK_STATUS_WIDTH 0 * 2 ^ 20)
  | 0x84 => (0x33BDF, 0x30803)
  | 0x88 => (0x140F, p.cplTimeout.toNat + b2n p.ltrEnable * 2 ^ 10 + b2n p.tag10 * 2 ^ 12)
  | 0x8C => (0xF8, 0x38)
  | 0x104 => (all, p.aerUncorr.toNat)
  | 0x108 => (all, p.aerUncorrMask.toNat)
  | 0x10C => (all, p.aerUncorrSev.toNat)
  | 0x110 => (all, p.aerCorr.toNat)
  | 0x114 => (all, p.aerCorrMask.toNat)
  | 0x14C => (all, s.fuses.serial.toNat % 2 ^ 32)
  | 0x150 => (all, s.fuses.serial.toNat / 2 ^ 32)
  | 0x18C => (all, 0x1FC000)
  | 0x190 => (0x3FE7, 2 + 2 ^ 5 + (p.bar2Size.toNat + 10) * 2 ^ 8)
  | 0x1A4 => (0xFBFF1C, 0xB00A1C)
  | 0x1A8 => (0xF, p.l1ss.toNat)
  | 0x1B4 => (1, 1)
  | _ =>
    match extCaps.find? (fun c => c.1 == off) with
    | some c => (0xFFF0FFFF, c.2.1 + c.2.2 * 2 ^ 20)
    | none => (0, 0)

/-- What a configuration read returns. -/
def cfgRead (s : State) (off : Nat) : BitVec 32 :=
  let (m, v) := cfgKnown s off
  (Config.configWord off &&& ~~~BitVec.ofNat 32 m) ||| (BitVec.ofNat 32 v &&& BitVec.ofNat 32 m)

/-- The address bits of a 64-bit BAR of a size, after a write of its low or high half. -/
def barLow (old : W64) (size : Nat) (v : W32) : W64 :=
  BitVec.ofNat 64 (old.toNat / 2 ^ 32 * 2 ^ 32 + v.toNat / (min size (2 ^ 32)) * (min size (2 ^ 32)))

def barHigh (old : W64) (size : Nat) (v : W32) : W64 :=
  BitVec.ofNat 64 (old.toNat % 2 ^ 32 + v.toNat * 2 ^ 32 / size * size / 2 ^ 32 * 2 ^ 32)

def modPci (s : State) (f : PciCfg → PciCfg) : State := { s with pci := f s.pci }

/-- A write of the power state: D3hot is entered, or left through a function reset (R353). -/
def writePower (s : State) (v : Nat) : State :=
  if bitsOf v 0 2 = 3 then modPci s (fun p => { p with d3hot := true })
  else if bitsOf v 0 2 = 0 ∧ s.pci.d3hot then functionReset s 5
  else s

/-- Device Control: Initiate Function Level Reset resets the function (R363). -/
def writeDevCtl (s : State) (v : W32) : State :=
  let s := modPci s (fun p => { p with mps := v.extractLsb' 5 3, extTag := v.getLsbD 8, mrrs := v.extractLsb' 12 3 })
  if v.getLsbD 15 then functionReset s 2 else s

/-- A configuration write. -/
def cfgWrite (s : State) (off : Nat) (v : W32) : State :=
  match off with
  | 0x04 => modPci s (fun p => { p with memSpace := v.getLsbD 1, busMaster := v.getLsbD 2 })
  | 0x10 => modPci s (fun p => { p with bar0 := barLow p.bar0 (2 ^ 25) v })
  | 0x14 => modPci s (fun p => { p with bar0 := barHigh p.bar0 (2 ^ 25) v })
  | 0x18 => modPci s (fun p => { p with bar2 := barLow p.bar2 (bar2Bytes s) v })
  | 0x1C => modPci s (fun p => { p with bar2 := barHigh p.bar2 (bar2Bytes s) v })
  | 0x20 => modPci s (fun p => { p with bar4 := barLow p.bar4 (2 ^ 20) v })
  | 0x24 => modPci s (fun p => { p with bar4 := barHigh p.bar4 (2 ^ 20) v })
  | 0x30 => modPci s (fun p => { p with rom := v &&& 0xFFF00001 })
  | 0x44 => writePower s v.toNat
  | 0x50 => modPci s (fun p => { p with msixMask := v.getLsbD 30, msixEnable := v.getLsbD 31 })
  | 0x68 => writeDevCtl s v
  | 0x70 => modPci s (fun p => { p with aspm := v.extractLsb' 0 2 })
  | 0x88 => modPci s (fun p => { p with cplTimeout := v.extractLsb' 0 4, ltrEnable := v.getLsbD 10, tag10 := v.getLsbD 12 })
  | 0x104 => modPci s (fun p => { p with aerUncorr := p.aerUncorr &&& ~~~v })
  | 0x108 => modPci s (fun p => { p with aerUncorrMask := v })
  | 0x10C => modPci s (fun p => { p with aerUncorrSev := v })
  | 0x110 => modPci s (fun p => { p with aerCorr := p.aerCorr &&& ~~~v })
  | 0x114 => modPci s (fun p => { p with aerCorrMask := v })
  | 0x190 =>
    let k := bitsOf v.toNat 8 6
    if 10 ≤ k ∧ k ≤ 16 then modPci s (fun p => { p with bar2Size := BitVec.ofNat 6 (k - 10) }) else s
  | 0x1A8 => modPci s (fun p => { p with l1ss := v.extractLsb' 0 4 })
  | _ => s

/-- CONFIG_REQUEST: retried until phase 2 has ended (R330). -/
def configRequest (off : Nat) (w : Option (BitVec 32)) (s : State) : State :=
  if !linkIsUp s then s
  else if !s.pci.ready then complete (linkUsed s) .retry false []
  else
    let s := linkUsed s
    match w with
    | none => complete s .success false (bytesOf 4 (cfgRead s (off / 4 * 4)).toNat)
    | some v => complete (cfgWrite s (off / 4 * 4) v) .success false []

def execConfigRequest (off : BitVec 12) (write : Option (BitVec 32)) (s : State) : Host.Outcome State Fault Refusal :=
  .next (configRequest off.toNat write s)

/-! ## MSI-X (R351, R352) -/

def deliverable (s : State) (v : Nat) : Bool :=
  s.pba.getLsbD v && s.pci.msixEnable && !s.pci.msixMask && !(msixEntry s v).masked

/-- MSIX_MESSAGE: one message for everything that arose while it was pending. -/
def msixMessage (v : Fin 2048) (s : State) : State :=
  if linkIsUp s && deliverable s v.val then
    let e := msixEntry s v.val
    sendWrite { s with pba := s.pba &&& ~~~BitVec.ofNat 2048 (2 ^ v.val) } e.addr.toNat (bytesOf 4 e.data.toNat) false
  else s

def execMsixMessage (v : Fin 2048) (s : State) : Host.Outcome State Fault Refusal := .next (msixMessage v s)

/-! ## Link power states and link errors (R354, R356) -/

/-- L1.2 and L1.1 follow the control of the L1 PM Substates capability. -/
def l1State (s : State) : Nat := if s.pci.l1ss.getLsbD 2 then 3 else if s.pci.l1ss.getLsbD 3 then 2 else 1

/-- Nothing waits to be sent, and no outbound read is outstanding. -/
def linkQuiet (s : State) : Bool :=
  outstanding s == 0 && !(List.range 2048).any (deliverable s)

/-- L1_ENTRY: L1_IDLE µs after the last TLP; 0 acts as 1 (R357). -/
def l1Entry (s : State) : State :=
  if linkIsUp s && s.pci.aspm.getLsbD 1 && rd s R.HIF_LINK_STATUS_PM 0 == 0 && linkQuiet s then
    let s := passUntil s (s.linkAt.toNat + max 1 (rd s R.HIF_PM_CTL_L1_IDLE 0) * 1000)
    bump (wr s R.HIF_LINK_STATUS_PM 0 (l1State s)) R.HIF_L1_ENTRIES 0 1
  else s

def execL1Entry (s : State) : Host.Outcome State Fault Refusal := .next (l1Entry s)

/-- L1_EXIT. -/
def execL1Exit (s : State) : Host.Outcome State Fault Refusal := .next (linkUsed s)

/-- The AER bit of a link error, and whether it is correctable (the places are the base specification's). -/
def aerBit (e : LinkError) : Nat × Bool :=
  match e with
  | .receiver => (0, true)
  | .badTlp => (6, true)
  | .badDllp => (7, true)
  | .replayRollover => (8, true)
  | .replayTimeout => (12, true)
  | .dlProtocol => (4, false)
  | .fcProtocol => (13, false)
  | .receiverOverflow => (17, false)
  | .malformedTlp => (18, false)

/-- The entry of an uncorrectable link error is not among R393's: free. -/
def linkEntry (s : State) (bit : Nat) : State :=
  logPush s planeData
    { time := nowW s, code := BitVec.ofNat 16 (Config.linkEntry bit 0), sev := BitVec.ofNat 3 (Config.linkEntry bit 1 % 6),
      plane := planeData, unit := 0x41, seq := 0, arg0 := BitVec.ofNat 64 (Config.linkEntry bit 2),
      arg1 := BitVec.ofNat 64 (Config.linkEntry bit 3) }

/-- RECEIVER_ERROR. -/
def receiverError (e : LinkError) (s : State) : State :=
  if !linkIsUp s then s
  else
    match aerBit e with
    | (b, true) => logIt (bump (aerCor s b) R.HIF_CORR_ERR 0 1) planeData 0x50 (0x30 + b) 1 0x41 0 3
    | (b, false) => linkEntry (aerUnc s b false) b

def execReceiverError (e : LinkError) (s : State) : Host.Outcome State Fault Refusal := .next (receiverError e s)

end Sys2Proof.Machine
end

