-- ==== Sys2Proof/Machine/Pins.lean ====
section
/-! DEFINITION. The balls, how the output balls are driven, and the boundary-scan cells (R379, R380, R402 to R406, R413, R414,
R420, R421). -/

namespace Sys2Proof.Machine

/-! ## The ball grid (R402 to R406) -/

/-- A ball by its row index and its column, numbered row by row. -/
def ball (row col : Nat) : Nat := row * 51 + (col - 1)

/-- Signals of row H: those that boundary scan covers, and those that it does not (R406, R420). -/
def rowHScanned : List Nat := [6, 7, 12, 14, 15, 17, 18, 19, 20, 21, 22, 30, 31, 32, 33, 34, 35, 37, 38, 39, 41, 42, 43]

def rowHOther : List Nat := [3, 4, 10, 24, 25, 26, 27, 28, 45, 46, 48]

/-- The places of a channel's block that carry a signal other than ZQ (R405). -/
def lpSignal (dr dc : Nat) : Bool :=
  match dr with
  | 0 => dc != 4 && dc != 7
  | 1 => dc != 7
  | 2 => dc ≥ 7
  | 3 => dc != 7
  | _ => dc != 4

/-- Boundary scan covers the ball: every signal ball but the references, the sense lines, ZQ, TEST_EN and the TAP (R420). -/
def scannedBall (b : Nat) : Bool :=
  let row := b / 51
  let col := b % 51 + 1
  if row == 1 || row == 3 then col ≥ 3 && col ≤ 49 && col % 3 != 2
  else if row == 7 then rowHScanned.contains col
  else if 8 ≤ row && row ≤ 47 then (col ≤ 10 && lpSignal ((row - 8) % 5) (col - 1)) || (col ≥ 42 && lpSignal ((row - 8) % 5) (51 - col))
  else false

/-- The cell of a scanned ball: the scanned balls in the order of the grid (DESIGN CHOICE, log entry 234: the order stands in
the BSDL description). -/
def cellOf (b : Nat) : Nat := (List.range b).countP scannedBall

/-- The output and bidirectional balls. -/
inductive OutPin where
  | alertN | thermTripN
  | shedStat (i : Fin 3)
  | svcOk
  | spiClk | spiCsN
  | spiIo (i : Fin 4)
  | avsClk | avsMdata
  | tdo
  | peClkreqN | smbDat
  | peTx (lane : Fin 16) (neg : Bool)
  /-- A signal of an LPDDR5X channel, by its place in the channel's block (R405). -/
  | lp (n : Fin 16) (dr : Fin 5) (dc : Fin 10)
  deriving DecidableEq, Repr

def OutPin.ball (p : OutPin) : Nat :=
  match p with
  | .alertN => Machine.ball 7 30
  | .thermTripN => Machine.ball 7 31
  | .shedStat i => Machine.ball 7 (32 + i.val)
  | .svcOk => Machine.ball 7 35
  | .spiClk => Machine.ball 7 17
  | .spiCsN => Machine.ball 7 18
  | .spiIo i => Machine.ball 7 (19 + i.val)
  | .avsClk => Machine.ball 7 41
  | .avsMdata => Machine.ball 7 42
  | .tdo => Machine.ball 7 27
  | .peClkreqN => Machine.ball 7 7
  | .smbDat => Machine.ball 7 15
  | .peTx k neg => Machine.ball 1 (3 + 3 * k.val + b2n neg)
  | .lp n dr dc => Machine.ball (8 + 5 * (n.val % 8) + dr.val) (if n.val < 8 then 1 + dc.val else 51 - dc.val)

/-! ## How they are driven -/

/-- How a ball is driven: not at all, low, high, by the interface it belongs to, or by its boundary-scan cell, which holds a
level. -/
inductive Drive where
  | floats | low | high | byPort
  | byCell (level : Bool)
  deriving DecidableEq, Repr

/-- A power-on or fundamental reset is in force. A function reset ends in the step that begins it. -/
def inReset (s : State) : Bool := s.phase == .powerOn || s.phase == .held || (s.phase == .tripped && !s.power.perstN)

def openDrain (lowNow : Bool) : Drive := if lowNow then .low else .floats

/-- A ball as R380 and R414 have it. TDO is driven only while the TAP shifts, which is inside a command: between commands it
floats. The PCI Express, LPDDR5X and SMBus balls are driven by their own interfaces. -/
def portDrive (s : State) (p : OutPin) : Drive :=
  match p with
  | .alertN => openDrain (!inReset s && alertLow s)
  | .thermTripN => openDrain (s.phase == .tripped)
  | .shedStat i => openDrain (!inReset s && !bitOf (stage s) i.val)
  | .svcOk => if inReset s then .floats else if rdb s R.GLB_SVC_STATE_SVC_OK 0 then .high else .low
  | .tdo => .floats
  | .peClkreqN => .byPort
  | .smbDat => .byPort
  | .peTx _ _ => .byPort
  | .lp _ _ _ => .byPort
  | _ => if inReset s || !s.power.vio then .floats else .byPort

/-- A scanned ball follows its boundary-scan cell while an instruction of R421 is in effect, and floats under HIGHZ, as IEEE
1149.1 has it. TDO and the supply and sense balls are not scanned. -/
def pinDrive (s : State) (p : OutPin) : Drive :=
  if s.tap.inEffect && scannedBall p.ball then
    (if s.tap.insn == .highz then .floats else .byCell (s.tap.cells.getD (cellOf p.ball) false))
  else portDrive s p

/-! ## What the cells capture (R420) -/

/-- The level at an output ball that the device drives, or at an input ball that the state holds: by cell. -/
def levelOf (d : Drive) : Option Bool :=
  match d with
  | .low => some false
  | .high => some true
  | .byCell v => some v
  | .floats => none
  | .byPort => none

def knownLevels (s : State) : List (Nat × Option Bool) :=
  [(ball 7 6, some s.power.perstN), (ball 7 37, some s.power.pwrWarnN), (ball 7 38, some s.power.vrHotN),
   (ball 7 39, some s.power.shedReqN)] ++
    ([.alertN, .thermTripN, .shedStat 0, .shedStat 1, .shedStat 2, .svcOk].map (fun p : OutPin => (p.ball, levelOf (pinDrive s p))))

/-- What the cells capture: the levels that the state gives, and elsewhere those of the board. -/
def capture (s : State) (board : List Bool) : List Bool :=
  (knownLevels s).foldl (fun l e => match e.2 with
    | some v => l.set (cellOf e.1) v
    | none => l) board

/-- The cells of boundary scan. -/
def scanCells : Nat := 695

end Sys2Proof.Machine
end

