-- ==== Sys2Proof/Machine/Jtag.lean ====
section
/-! DEFINITION. The TAP (R420, R421). -/

namespace Sys2Proof.Machine

/-- The TAP stops holding phase 1 back. -/
def tapLetsGo (s : State) : State :=
  if s.tap.phase1Waits then beginInit { s with tap := { s.tap with phase1Waits := false } } else s

/-- An instruction is loaded. The five of R421 take effect while PERST_N is low and are BYPASS otherwise; any other ends
the wait of phase 1. The power-on reset holds the TAP in reset. -/
def tapLoad (i : TapInsn) (out : BitVec 32) (s : State) : State :=
  if s.phase == .powerOn then s
  else
    let s := { s with tap := { s.tap with insn := i, inEffect := tapDrives i && !s.power.perstN, shiftOut := out } }
    if tapDrives i then s else tapLetsGo s

def execBypass (s : State) : Host.Outcome State Fault Refusal := .next (tapLoad .bypass 0 s)

def execIdcode (s : State) : Host.Outcome State Fault Refusal := .next (tapLoad .idcode (idcodeOf s.fuses) s)

/-- SAMPLE/PRELOAD: the cells capture the balls, and then take what is shifted in. -/
def execSamplePreload (sampled preload : List Bool) (s : State) : Host.Outcome State Fault Refusal :=
  .next (if s.phase == .powerOn then s
    else tapLoad .samplePreload s.tap.shiftOut { s with tap := { s.tap with sampled := capture s sampled, cells := preload } })

/-- EXTEST and its two AC forms: in effect, the balls follow the cells as preloaded, and the cells capture the balls. What is
shifted in after that lies outside the command (DESIGN CHOICE, log entry 234). -/
def extestLoad (i : TapInsn) (s : State) : State :=
  let t := tapLoad i 0 s
  if !t.tap.inEffect then t
  else
    let (u, draw) := drawFree t
    { u with tap := { u.tap with sampled := capture t ((List.range scanCells).map (Config.ballLevel draw)) } }

def execExtest (s : State) : Host.Outcome State Fault Refusal := .next (extestLoad .extest s)
def execExtestPulse (s : State) : Host.Outcome State Fault Refusal := .next (extestLoad .extestPulse s)
def execExtestTrain (s : State) : Host.Outcome State Fault Refusal := .next (extestLoad .extestTrain s)
def execClamp (s : State) : Host.Outcome State Fault Refusal := .next (tapLoad .clamp 0 s)
def execHighz (s : State) : Host.Outcome State Fault Refusal := .next (tapLoad .highz 0 s)

/-- TAP_RESET: Test-Logic-Reset selects IDCODE, whose register is what then shifts out. -/
def execTapReset (s : State) : Host.Outcome State Fault Refusal :=
  .next (tapLetsGo { s with tap := { s.tap with insn := .idcode, inEffect := false, shiftOut := idcodeOf s.fuses } })

end Sys2Proof.Machine
end

