-- ==== Sys2Proof/Machine/LoadStore.lean ====
section
/-! DEFINITION. Loads and stores of the scalar unit (R192, R194). -/

namespace Sys2Proof.Machine

/-- A load of `len` bytes (R194): outside the core's own memories it traps ADDR_RANGE, misaligned it traps MISALIGNED,
poisoned it traps POISON_LOAD and writes no register. `put` places the little-endian value read. -/
def loadOp (n : Fin 16) (op : Nat) (w : Insn) (len : Nat) (ok : Bool) (put : Core → Nat → Core) (s : State) : State :=
  issueScalar n op w (usesDAX w && regIn w.A 16 && ok) (fun s =>
    let a := (effAddr s.cores[n] w).toNat
    if !ownMem s n a len then trapInsn s n op w .addrRange a 0
    else if a % len ≠ 0 then trapInsn s n op w .misaligned a 0
    else
      let r := memRead s reqDma a len
      if r.poison then trapInsn r.s n op w .poisonLoad a 0
      else retire (modCore r.s n (fun c => put c (natOfBytes r.bytes))) n 8) s

/-- A store of the low `len` bytes of a value (R194). -/
def storeOp (n : Fin 16) (op : Nat) (w : Insn) (len : Nat) (ok : Bool) (val : Core → Nat) (s : State) : State :=
  issueScalar n op w (usesDAX w && regIn w.A 16 && ok) (fun s =>
    let a := (effAddr s.cores[n] w).toNat
    if !ownMem s n a len then trapInsn s n op w .addrRange a 0
    else if a % len ≠ 0 then trapInsn s n op w .misaligned a 0
    else retire (memWrite s reqDma a (bytesOf len (val s.cores[n])) false) n 8) s

/-- sD = the `len` bytes read, sign-extended or zero-extended. -/
def loadS (n : Fin 16) (op : Nat) (w : Insn) (len : Nat) (signed : Bool) (s : State) : State :=
  loadOp n op w len true (fun c v =>
    sSet c w.D (if signed then (BitVec.ofNat (8 * len) v).signExtend 64 else BitVec.ofNat 64 v)) s

/-- Stores the low bytes of sD. -/
def storeS (n : Fin 16) (op : Nat) (w : Insn) (len : Nat) (s : State) : State :=
  storeOp n op w len true (fun c => (sGet c w.D).toNat) s

/-- LD.B (R192, R194). -/
def execLdB (n : Fin 16) (w : Insn) (s : State) : Host.Outcome State Fault Refusal :=
  .next (loadS n 0x30 w 1 true s)

/-- LD.BU (R192, R194). -/
def execLdBu (n : Fin 16) (w : Insn) (s : State) : Host.Outcome State Fault Refusal :=
  .next (loadS n 0x31 w 1 false s)

/-- LD.H (R192, R194). -/
def execLdH (n : Fin 16) (w : Insn) (s : State) : Host.Outcome State Fault Refusal :=
  .next (loadS n 0x32 w 2 true s)

/-- LD.HU (R192, R194). -/
def execLdHu (n : Fin 16) (w : Insn) (s : State) : Host.Outcome State Fault Refusal :=
  .next (loadS n 0x33 w 2 false s)

/-- LD.W (R192, R194). -/
def execLdW (n : Fin 16) (w : Insn) (s : State) : Host.Outcome State Fault Refusal :=
  .next (loadS n 0x34 w 4 true s)

/-- LD.WU (R192, R194). -/
def execLdWu (n : Fin 16) (w : Insn) (s : State) : Host.Outcome State Fault Refusal :=
  .next (loadS n 0x35 w 4 false s)

/-- LD.D (R192, R194). -/
def execLdD (n : Fin 16) (w : Insn) (s : State) : Host.Outcome State Fault Refusal :=
  .next (loadS n 0x36 w 8 false s)

/-- ST.B (R192, R194). -/
def execStB (n : Fin 16) (w : Insn) (s : State) : Host.Outcome State Fault Refusal :=
  .next (storeS n 0x38 w 1 s)

/-- ST.H (R192, R194). -/
def execStH (n : Fin 16) (w : Insn) (s : State) : Host.Outcome State Fault Refusal :=
  .next (storeS n 0x39 w 2 s)

/-- ST.W (R192, R194). -/
def execStW (n : Fin 16) (w : Insn) (s : State) : Host.Outcome State Fault Refusal :=
  .next (storeS n 0x3A w 4 s)

/-- ST.D (R192, R194). -/
def execStD (n : Fin 16) (w : Insn) (s : State) : Host.Outcome State Fault Refusal :=
  .next (storeS n 0x3B w 8 s)

/-- LDB: 4 bytes into bD (R192, R194). -/
def execLdb (n : Fin 16) (w : Insn) (s : State) : Host.Outcome State Fault Refusal :=
  .next (loadOp n 0x3C w 4 (regIn w.D 16) (fun c v => bSet c w.D (BitVec.ofNat 32 v)) s)

/-- TLD: 64 bytes into tD; it stalls while a tensor instruction names tD (R192, R194, R217). -/
def execTld (n : Fin 16) (w : Insn) (s : State) : Host.Outcome State Fault Refusal :=
  .next (if canIssue s n && ownCoreMem n s.cores[n].pc.toNat && guardTrue s.cores[n] w.PG w.PN && usesDAX w && regIn w.A 16 &&
      regIn w.D 16 && tInUse s.cores[n] w.D.toNat then s
    else loadOp n 0x3D w 64 (regIn w.D 16) (fun c v => tSet c w.D (BitVec.ofNat 512 v)) s)

/-- TST (R192, R194). -/
def execTst (n : Fin 16) (w : Insn) (s : State) : Host.Outcome State Fault Refusal :=
  .next (storeOp n 0x3E w 64 (regIn w.D 16) (fun c => (tGet c w.D).toNat) s)

end Sys2Proof.Machine
end

