-- ==== Sys2Proof/Machine/Scrub.lean ====
section
/-! DEFINITION. Scrubbers and write-back of corrected words in core memories and bags (R251, R255, R258, R260). -/

namespace Sys2Proof.Machine

def bankRows (b : MemBank) : Nat :=
  match b with
  | .core _ _ => 1024
  | .bag _ _ => 4096

/-- Device address of a row's line in a bank. -/
def bankLine (b : MemBank) (row : Nat) : Nat :=
  match b with
  | .core n k => coreBase n + (row * 64 + k.val) * 128
  | .bag c k => bagBase c + (row * 48 + k.val) * 128

/-- The memory a bank belongs to has its bank `k` at key `scrubBase + k`. -/
def scrubBase (b : MemBank) : Nat :=
  match b with
  | .core n _ => n.val * 64
  | .bag c _ => 1024 + c.val * 64

def bankIx (b : MemBank) : Nat :=
  match b with
  | .core _ k => k.val
  | .bag _ k => k.val

def banksOf (b : MemBank) : Nat :=
  match b with
  | .core _ _ => 64
  | .bag _ _ => 48

/-- The address lies in the bank. -/
def inBank (s : State) (b : MemBank) (a : Nat) : Bool :=
  match b, regionOf s a with
  | .core n k, .core m off => n == m && off / 128 % 64 == k.val
  | .bag c k, .bag d off => c == d && off / 128 % 48 == k.val
  | _, _ => false

/-- The scrubber of the bank is enabled, and its memory is in use. -/
def scrubs (s : State) (b : MemBank) : Bool :=
  match b with
  | .core n _ => coreUsable s n && rdb s R.CMEM_ECC_CTL_SCRUB_EN n.val
  | .bag c _ => clusterUsable s c && rdb s R.BAG_ECC_CTL_SCRUB_EN c.val

/-- Lines that bank `k` of the same memory has scrubbed since the reset. -/
def scrubbed (s : State) (b : MemBank) (k : Nat) : Nat := storeGet 0 s.scrubAt (scrubBase b + k)

/-- SCRUB_PASSES: passes that every bank of the memory has completed. -/
def setPasses (s : State) (b : MemBank) : State :=
  let n := (List.range (banksOf b)).foldl (fun m k => min m (scrubbed s b k / bankRows b)) (scrubbed s b 0 / bankRows b)
  match b with
  | .core c _ => wr s R.CMEM_SCRUB_PASSES c.val n
  | .bag c _ => wr s R.BAG_SCRUB_PASSES c.val n

/-- MEM_SCRUB: one line, in row order. -/
def memScrub (b : MemBank) (s : State) : State :=
  if s.phase != .up || !planesRun s || !scrubs s b then s
  else
    let n := scrubbed s b (bankIx b)
    let a := bankLine b (n % bankRows b)
    let s := (badWords s a 128).foldl (checkWord reqScrub) s
    setPasses { s with scrubAt := storeSet 0 s.scrubAt (scrubBase b + bankIx b) (n + 1) } b

def execMemScrub (b : MemBank) (s : State) : Host.Outcome State Fault Refusal := .next (memScrub b s)

/-- ECC_CE_WRITEBACK: the bank's oldest corrected word is written back. -/
def ceWriteback (b : MemBank) (s : State) : State :=
  match s.writeback.find? (inBank s b) with
  | some a =>
    let s := { s with writeback := s.writeback.erase a }
    if eccAt s a = .single then setEcc s a .ok else s
  | none => s

def execEccCeWriteback (b : MemBank) (s : State) : Host.Outcome State Fault Refusal := .next (ceWriteback b s)

end Sys2Proof.Machine
end

