-- ==== Sys2Proof/Machine/Smbus.lean ====
section
/-! DEFINITION. The SMBus-compatible port (R398, R423, R424). -/

namespace Sys2Proof.Machine

/-- The port runs from the release of the power-on reset (R384, R398). -/
def portRuns (s : State) : Bool := s.phase != .powerOn

/-- CRC-8 with the polynomial x^8 + x^2 + x + 1 over one more byte. -/
def pecByte (c b : Byte) : Byte :=
  (List.range 8).foldl (fun c _ => if c.getLsbD 7 then (c <<< 1) ^^^ 0x07 else c <<< 1) (c ^^^ b)

/-- The PEC of a transaction: over its bytes, addresses included, as the SMBus specification has it (PRESUMED, log entry
236). -/
def pecOf (bs : List Byte) : Byte := bs.foldl pecByte 0

/-- The port's address 0x4C, with the direction bit of a write and of a read. -/
def smbAddrW : Byte := 0x98
def smbAddrR : Byte := 0x99

/-- The port hands bytes to the master, and the PEC of the transaction after them: the command, what the master sent with it,
and what the port sends, with the byte count of a block in front (R398). -/
def smbAnswer (s : State) (cmd : Byte) (sent : List Byte) (block : Bool) (bs : List Byte) : State :=
  let count := if block then [BitVec.ofNat 8 bs.length] else []
  { s with smbNack := false, smbOut := bs, smbPec := pecOf ([smbAddrW, cmd] ++ sent ++ [smbAddrR] ++ count ++ bs) }

/-- The command bytes of R398. The port NACKs any other at the command byte; no command of the table carries one. -/
def smbListed (cmd : Byte) : Bool := [0x00, 0x01, 0x02, 0x10, 0x11, 0x20, 0x21].contains cmd

/-- The port acknowledges or refuses the last byte of a transaction. -/
def smbAck (s : State) (ok : Bool) : State := { s with smbNack := !ok }

/-- Command 0x00: GLB_SVC_STATE[15:0]. -/
def execSmbReadState (s : State) : Host.Outcome State Fault Refusal :=
  .next (if portRuns s then smbAnswer s 0x00 [] false (bytesOf 2 (regValue s (regHits 4))) else s)

/-- Command 0x01: MC_THERM.TJ. -/
def execSmbReadTj (s : State) : Host.Outcome State Fault Refusal :=
  .next (if portRuns s then smbAnswer s 0x01 [] false (bytesOf 1 (rd s R.MC_THERM_TJ 0)) else s)

/-- Command 0x02, Read Byte: MC_ALERT_STAT. -/
def execSmbReadAlert (s : State) : Host.Outcome State Fault Refusal :=
  .next (if portRuns s then smbAnswer s 0x02 [] false (bytesOf 1 (rd s R.MC_ALERT_STAT 0)) else s)

/-- Command 0x02, Write Byte: clears the bits that are set. A wrong PEC discards the transaction. -/
def smbClearAlert (v : BitVec 8) (pecOk : Bool) (s : State) : State :=
  if !portRuns s then s
  else if pecOk then wr (smbAck s true) R.MC_ALERT_STAT 0 (rd s R.MC_ALERT_STAT 0 - (rd s R.MC_ALERT_STAT 0 &&& v.toNat))
  else smbAck s false

def execSmbClearAlert (value : BitVec 8) (pecOk : Bool) (s : State) : Host.Outcome State Fault Refusal :=
  .next (smbClearAlert value pecOk s)

/-- The entry at a sequence number is still in the ring: its slot has not been written again. -/
def logHolds (s : State) (q : Nat) : Bool := countDiff (logWr s) q ≤ 1024

/-- Command 0x10: the entry at the cursor, which then advances. -/
def smbLogRead (s : State) : State :=
  if !portRuns s then s
  else
    let q := rd s R.LOG_SMB_CURSOR 0
    let q := if logHolds s q then q else logAckAt s
    if q = logWr s then smbAnswer (wr s R.LOG_SMB_CURSOR 0 q) 0x10 [] true (List.replicate 32 0xFF)
    else smbAnswer (wr s R.LOG_SMB_CURSOR 0 (q + 1)) 0x10 [] true ((List.range 32).map (fun i => logByte s (q % 1024 * 32 + i)))

def execSmbLogRead (s : State) : Host.Outcome State Fault Refusal := .next (smbLogRead s)

/-- Command 0x11: the latest sequence number up to LOG_WR that agrees with the value in its low 16 bits. -/
def smbSetCursor (v : BitVec 16) (pecOk : Bool) (s : State) : State :=
  if !portRuns s then s
  else if pecOk then
    wr (smbAck s true) R.LOG_SMB_CURSOR 0 (countDiff (logWr s) ((logWr s + 2 ^ 16 - v.toNat) % 2 ^ 16))
  else smbAck s false

def execSmbSetCursor (value : BitVec 16) (pecOk : Bool) (s : State) : Host.Outcome State Fault Refusal :=
  .next (smbSetCursor value pecOk s)

/-- Command 0x20: a register of the Global and MC block; an offset that names none returns a free value. -/
def smbRegRead (off : BitVec 32) (pecOk : Bool) (s : State) : State :=
  if !portRuns s then s
  else if !pecOk then smbAck s false
  else if off.toNat % 4 = 0 ∧ off.toNat < 0x100000 then
    smbAnswer (smbAck (regRead s off.toNat 4).1 true) 0x20 (4 :: bytesOf 4 off.toNat) true (bytesOf 4 (regRead s off.toNat 4).2)
  else smbAnswer { smbAck s true with freeCtr := s.freeCtr + 1 } 0x20 (4 :: bytesOf 4 off.toNat) true
    (bytesOf 4 (Config.smbNoRegister s.freeCtr off.toNat).toNat)

def execSmbRegRead (off : BitVec 32) (pecOk : Bool) (s : State) : Host.Outcome State Fault Refusal :=
  .next (smbRegRead off pecOk s)

/-- The whole register that a 32-bit write at an offset writes, and its value: none for a low half, which waits (R7). -/
def smbTarget (s : State) (off v : Nat) : Option (Nat × Nat × W64) :=
  let hs := regHits off
  if hs.isEmpty then none
  else if !isWide hs then some (off, v, elapsedW s)
  else if isHigh hs then some (off - 4, lowHalf s off hs + v * 2 ^ 32, elapsedW s)
  else none

/-- Command 0x21: accepted for offsets 0x0_1000 to 0x0_7FFF; a misaligned one names no register there. -/
def smbRegWrite (off value : BitVec 32) (pecOk : Bool) (s : State) : State :=
  if !portRuns s then s
  else if pecOk && 0x1000 ≤ off.toNat && off.toNat < 0x8000 then
    if off.toNat % 4 = 0 then
      { regWrite (smbAck s true) off.toNat 4 value.toNat with smbWrote := smbTarget s off.toNat value.toNat }
    else smbAck s true
  else smbAck s false

def execSmbRegWrite (off value : BitVec 32) (pecOk : Bool) (s : State) : Host.Outcome State Fault Refusal :=
  .next (smbRegWrite off value pecOk s)

/-- SMB_CLK low for t_TIMEOUT: the transaction under way is abandoned, and SMB_DAT released (R423). The commands of R398 stand
for transactions that have completed: one that is abandoned reaches the port as this command alone and so has no effect
(DESIGN CHOICE, log entry 237). -/
def execSmbTimeout (s : State) : Host.Outcome State Fault Refusal := .next { s with smbOut := [] }

end Sys2Proof.Machine
end

