-- ==== Sys2Proof/Machine/VectorUnit.lean ====
section
/-! DEFINITION. The vector instructions (R195, R196). -/

namespace Sys2Proof.Machine

/-! ## Lanes -/

/-- What one lane gives: its bits, whether a NaN or an infinity took part (R157), whether the result was flushed (R156). -/
structure LaneRes where
  bits : W32
  nonfin : Bool
  flush : Bool
  deriving DecidableEq, Repr

def laneInt (x : W32) : LaneRes := ⟨x, false, false⟩

/-- An exact value rounded to a format; `tainted` says that an operand was NaN or infinite. -/
def laneFp (f : FpFmt) (v : Fv) (tainted : Bool) : LaneRes :=
  let r := fpRound f v
  ⟨BitVec.ofNat 32 r.bits, tainted || !v.isFinite || r.tooBig, r.flush⟩

def fvOf (x : W32) : Fv := fpDecode fp32 x.toNat

/-- An FP32 operation of two lanes. -/
def fpLane2 (f : Fv → Fv → Fv) (x y : W32) : LaneRes :=
  laneFp fp32 (f (fvOf x) (fvOf y)) (!(fvOf x).isFinite || !(fvOf y).isFinite)

/-- Minimum and maximum: a NaN operand gives NaN (R157), and −0 lies below +0 (IEEE 754, DEDUCED, log entry 20). -/
def fvMin (x y : Fv) : Fv := if x.isNan || y.isNan then .nan else if fpBelow y x then y else x
def fvMax (x y : Fv) : Fv := if x.isNan || y.isNan then .nan else if fpBelow x y then y else x

/-- X[0] of a typed instruction: FP32. X[1]: unsigned. -/
def isFp (w : Insn) : Bool := w.X.getLsbD 0
def isUnsigned (w : Insn) : Bool := w.X.getLsbD 1

/-- Counts what the guarded lanes of an instruction showed. -/
def countLanes (s : State) (n : Fin 16) (rs : List LaneRes) : State :=
  let s := countFlush s n (rs.filter (fun r => r.flush)).length
  countSat s n .nonfinite (rs.filter (fun r => r.nonfin)).length 0 0

/-- A vector instruction's issue: its guard works lane by lane, so it is never skipped as a whole (R190). -/
def issueVector (n : Fin 16) (op : Nat) (w : Insn) (ok : Bool) (body : State → State) (s : State) : State :=
  issue n op w ok true body s

def guardedLanes (c : Core) (w : Insn) : List Nat := (List.range 128).filter (guarded c w)

/-- vD lane i = f i in every guarded lane; the others keep their values. -/
def laneOp (n : Fin 16) (op : Nat) (w : Insn) (ok : Bool) (f : Core → Nat → LaneRes) (s : State) : State :=
  issueVector n op w ok (fun s =>
    let c := s.cores[n]
    let s := countLanes s n ((guardedLanes c w).map (f c))
    retire (modCore s n (fun d => vSet d w.D (ofLanes (fun i => if guarded c w i then (f c i).bits else laneOf (vGet c w.D) i)))) n 8) s

/-- The low byte of X selects the type and X[31:8] = 0 (R195); bits of it that the instruction does not use are 0 (R191,
DEDUCED, log entry 190). `used` has the bits it uses: 1 FP32, 2 unsigned, 4 descending. -/
def typed (w : Insn) (used : BitVec 32) : Bool := w.X &&& ~~~used == 0

/-- vD = vA op vB, in INT32 or FP32. -/
def op2 (n : Fin 16) (op : Nat) (w : Insn) (used : BitVec 32) (fi : W32 → W32 → W32) (ff : Fv → Fv → Fv) (s : State) : State :=
  laneOp n op w (w.C == 0 && typed w used) (fun c i =>
    let x := laneOf (vGet c w.A) i
    let y := laneOf (vGet c w.B) i
    if isFp w then fpLane2 ff x y else laneInt (fi x y)) s

/-- vD = vA op vB on the bits. -/
def opBits (n : Fin 16) (op : Nat) (w : Insn) (used : BitVec 32) (f : W32 → W32 → W32) (s : State) : State :=
  laneOp n op w (w.C == 0 && typed w used) (fun c i => laneInt (f (laneOf (vGet c w.A) i) (laneOf (vGet c w.B) i))) s

/-- VADD (R195, R196). -/
def execVadd (n : Fin 16) (w : Insn) (s : State) : Host.Outcome State Fault Refusal :=
  .next (op2 n 0x50 w 1 (fun x y => x + y) fpAdd s)

/-- VSUB (R195, R196). -/
def execVsub (n : Fin 16) (w : Insn) (s : State) : Host.Outcome State Fault Refusal :=
  .next (op2 n 0x51 w 1 (fun x y => x - y) (fun x y => fpAdd x (fpNeg y)) s)

/-- VMUL (R195, R196). -/
def execVmul (n : Fin 16) (w : Insn) (s : State) : Host.Outcome State Fault Refusal :=
  .next (op2 n 0x52 w 1 (fun x y => x * y) fpMul s)

/-- VMAD: FP32 rounds once (R195). -/
def execVmad (n : Fin 16) (w : Insn) (s : State) : Host.Outcome State Fault Refusal :=
  .next (laneOp n 0x53 w (typed w 1) (fun c i =>
    let x := laneOf (vGet c w.A) i
    let y := laneOf (vGet c w.B) i
    let z := laneOf (vGet c w.C) i
    if isFp w then
      laneFp fp32 (fpAdd (fpMul (fvOf x) (fvOf y)) (fvOf z)) (!(fvOf x).isFinite || !(fvOf y).isFinite || !(fvOf z).isFinite)
    else laneInt (x * y + z)) s)

/-- VMIN (R195). -/
def execVmin (n : Fin 16) (w : Insn) (s : State) : Host.Outcome State Fault Refusal :=
  .next (op2 n 0x54 w 3 (fun x y => if condHolds (if isUnsigned w then 4 else 2) x y then x else y) fvMin s)

/-- VMAX (R195). -/
def execVmax (n : Fin 16) (w : Insn) (s : State) : Host.Outcome State Fault Refusal :=
  .next (op2 n 0x55 w 3 (fun x y => if condHolds (if isUnsigned w then 4 else 2) x y then y else x) fvMax s)

/-- VAND (R195). -/
def execVand (n : Fin 16) (w : Insn) (s : State) : Host.Outcome State Fault Refusal :=
  .next (opBits n 0x56 w 0 (fun x y => x &&& y) s)

/-- VOR (R195). -/
def execVor (n : Fin 16) (w : Insn) (s : State) : Host.Outcome State Fault Refusal :=
  .next (opBits n 0x57 w 0 (fun x y => x ||| y) s)

/-- VXOR (R195). -/
def execVxor (n : Fin 16) (w : Insn) (s : State) : Host.Outcome State Fault Refusal :=
  .next (opBits n 0x58 w 0 (fun x y => x ^^^ y) s)

/-- VSHL: by vB[4:0] (R195). -/
def execVshl (n : Fin 16) (w : Insn) (s : State) : Host.Outcome State Fault Refusal :=
  .next (opBits n 0x59 w 0 (fun x y => x <<< (y.toNat % 32)) s)

/-- VSHR: logical if X[1] = 1, else arithmetic (R195). -/
def execVshr (n : Fin 16) (w : Insn) (s : State) : Host.Outcome State Fault Refusal :=
  .next (opBits n 0x5A w 2 (fun x y => if isUnsigned w then x >>> (y.toNat % 32) else x.sshiftRight (y.toNat % 32)) s)

/-- One lane of VCMP. With X[1] = 1 the order of INT32 lanes is unsigned; NaN satisfies only NE; FP32 under LTU and
GEU is a free value (log entry 21). -/
def laneCmp (w : Insn) (x y : W32) : Bool :=
  let code := w.C.toNat
  if isFp w then
    match code with
    | 0 => fpEq (fvOf x) (fvOf y)
    | 1 => !fpEq (fvOf x) (fvOf y)
    | 2 => fpLt (fvOf x) (fvOf y)
    | 3 => fpLt (fvOf y) (fvOf x) || fpEq (fvOf x) (fvOf y)
    | _ => Config.fpUnsignedCompare code x y
  else condHolds (if isUnsigned w && (code == 2 || code == 3) then code + 2 else code) x y

/-- VCMP: unguarded bits of pD become 0 (R195). -/
def execVcmp (n : Fin 16) (w : Insn) (s : State) : Host.Outcome State Fault Refusal :=
  .next (issueVector n 0x5B w (typed w 3 && regIn w.D 8 && regIn w.C 6) (fun s =>
    retire (modCore s n (fun c => pSet c w.D (ofBits (fun i =>
      guarded c w i && laneCmp w (laneOf (vGet c w.A) i) (laneOf (vGet c w.B) i))))) n 8) s)

/-- VSEL (R195). -/
def execVsel (n : Fin 16) (w : Insn) (s : State) : Host.Outcome State Fault Refusal :=
  .next (laneOp n 0x5C w (w.X == 0 && regIn w.B 8) (fun c i =>
    laneInt (if (pGet c w.B).getLsbD i then laneOf (vGet c w.A) i else laneOf (vGet c w.C) i)) s)

/-- VBCAST (R195). -/
def execVbcast (n : Fin 16) (w : Insn) (s : State) : Host.Outcome State Fault Refusal :=
  .next (laneOp n 0x5D w (usesDA w) (fun c _ => laneInt ((sGet c w.A).setWidth 32)) s)

/-- VEXT: sign-extended and unguarded (R195). -/
def execVext (n : Fin 16) (w : Insn) (s : State) : Host.Outcome State Fault Refusal :=
  .next (issueVector n 0x5E w (usesDAB w) (fun s =>
    retire (modCore s n (fun c => sSet c w.D ((laneOf (vGet c w.A) ((sGet c w.B).toNat % 128)).signExtend 64))) n 8) s)

/-- VINS: unguarded (R195). -/
def execVins (n : Fin 16) (w : Insn) (s : State) : Host.Outcome State Fault Refusal :=
  .next (issueVector n 0x5F w (usesDAB w) (fun s =>
    retire (modCore s n (fun c => vSet c w.D (ofLanes (fun i =>
      if i = (sGet c w.B).toNat % 128 then (sGet c w.A).setWidth 32 else laneOf (vGet c w.D) i)))) n 8) s)

/-- FP32 to INT32: round half to even, saturating; NaN gives 0 (R196). -/
def fpToInt32 (x : W32) : LaneRes :=
  match fvOf x with
  | .nan => ⟨0, true, false⟩
  | .inf s => ⟨if s then 0x80000000 else 0x7FFFFFFF, true, false⟩
  | .fin s m e => ⟨BitVec.ofInt 32 (clampInt (fvToInt s m e) (-2147483648) 2147483647), false, false⟩

/-- The lanes of a conversion (R196). -/
def cvtLane (code : Nat) (va : BitVec 4096) (i : Nat) : LaneRes :=
  let x := laneOf va i
  let clamp8 := fun j => (clampInt (laneOf va j).toInt (-128) 127) % 256
  match code with
  | 0 => laneFp fp32 (fvOfInt x.toInt) false
  | 1 => fpToInt32 x
  | 2 => laneFp bf16 (fvOf x) (!(fvOf x).isFinite)
  | 3 => laneFp fp32 (fpDecode bf16 (x.toNat % 65536)) (!(fpDecode bf16 (x.toNat % 65536)).isFinite)
  | 4 => laneFp fp16 (fvOf x) (!(fvOf x).isFinite)
  | 5 => laneFp fp32 (fpDecode fp16 (x.toNat % 65536)) (!(fpDecode fp16 (x.toNat % 65536)).isFinite)
  | 6 =>
    if i < 32 then
      laneInt (BitVec.ofInt 32 (clamp8 (4 * i) + clamp8 (4 * i + 1) * 2 ^ 8 + clamp8 (4 * i + 2) * 2 ^ 16 + clamp8 (4 * i + 3) * 2 ^ 24))
    else laneInt 0
  | _ => laneInt ((va.extractLsb' (8 * i) 8).signExtend 32)

/-- VCVT: codes 6 and 7 are unguarded (R195, R196). -/
def execVcvt (n : Fin 16) (w : Insn) (s : State) : Host.Outcome State Fault Refusal :=
  .next (if w.X.toNat ≥ 6 ∧ w.X.toNat < 8 then
      issueVector n 0x60 w (usesDAX w) (fun s =>
        retire (modCore s n (fun c => vSet c w.D (ofLanes (fun i => (cvtLane w.X.toNat (vGet c w.A) i).bits)))) n 8) s
    else laneOp n 0x60 w (usesDAX w && xBelow w 3) (fun c i => cvtLane w.X.toNat (vGet c w.A) i) s)

/-! ## Reductions (R196) -/

/-- One level of the fixed tree: pairs 2j and 2j + 1. -/
def pairUp {α : Type} (f : α → α → α) : List α → List α
  | a :: b :: t => f a b :: pairUp f t
  | l => l

/-- The fixed tree over 128 values: seven levels. -/
def tree7 {α : Type} (f : α → α → α) (l : List α) : List α :=
  pairUp f (pairUp f (pairUp f (pairUp f (pairUp f (pairUp f (pairUp f l))))))

/-- A partial sum: its bits, whether a NaN or infinity took part, how many results were flushed. -/
structure RedSum where
  bits : W32
  nonfin : Bool
  flushes : Nat
  deriving DecidableEq, Repr

def redAdd (a b : RedSum) : RedSum :=
  let r := fpLane2 fpAdd a.bits b.bits
  ⟨r.bits, a.nonfin || b.nonfin || r.nonfin, a.flushes + b.flushes + b2n r.flush⟩

/-- The sum under the fixed tree; unguarded lanes are +0. -/
def redSum (w : Insn) (c : Core) : RedSum :=
  let lane := fun i => if guarded c w i then laneOf (vGet c w.A) i else 0
  let zero : RedSum := ⟨0, false, 0⟩
  if isFp w then
    ((tree7 redAdd ((List.range 128).map (fun i => ⟨lane i, !(fvOf (lane i)).isFinite, 0⟩))).head?).getD zero
  else ⟨(List.range 128).foldl (fun acc i => acc + lane i) 0, false, 0⟩

/-- The better of two lanes for a minimum or a maximum. -/
def better (w : Insn) (isMax : Bool) (x y : W32) : W32 :=
  if isFp w then (fpLane2 (if isMax then fvMax else fvMin) x y).bits
  else
    let less := condHolds (if isUnsigned w then 4 else 2) x y
    if less != isMax then x else y

/-- A free value as a result: in FP32 it is written and counted as R156 and R157 say. -/
def redFree (w : Insn) (v : W32) : RedSum :=
  if isFp w then let r := laneFp fp32 (fvOf v) false; ⟨r.bits, r.nonfin, b2n r.flush⟩ else ⟨v, false, 0⟩

/-- The minimum or maximum of the guarded lanes that are not NaN; a free value where there is none (log entry 22). -/
def redBest (w : Insn) (isMax : Bool) (c : Core) : RedSum :=
  let ls := ((guardedLanes c w).map (laneOf (vGet c w.A))).filter (fun x => !(isFp w && (fvOf x).isNan))
  match ls with
  | [] => redFree w (Config.vredEmpty w.X.toNat)
  | x :: xs =>
    let r := xs.foldl (better w isMax) (if isFp w then (laneFp fp32 (fvOf x) false).bits else x)
    ⟨r, isFp w && ls.any (fun y => !(fvOf y).isFinite), 0⟩

/-- sD of VRED: bits [31:0] are the result, bits [63:32] a free value (log entry 23); X[3:2] = 3 is not defined and
gives a free value (log entry 24). -/
def redValue (w : Insn) (c : Core) : W64 × RedSum :=
  match w.X.toNat / 4 % 4 with
  | 0 => let r := redSum w c; (Config.vredUpper r.bits ++ r.bits, r)
  | 1 => let r := redBest w false c; (Config.vredUpper r.bits ++ r.bits, r)
  | 2 => let r := redBest w true c; (Config.vredUpper r.bits ++ r.bits, r)
  | _ =>
    let v := Config.vredReserved (vGet c w.A)
    let r := redFree w (v.setWidth 32)
    (v.extractLsb' 32 32 ++ r.bits, r)

/-- VRED (R195, R196). -/
def execVred (n : Fin 16) (w : Insn) (s : State) : Host.Outcome State Fault Refusal :=
  .next (issueVector n 0x61 w (w.B == 0 && w.C == 0 && typed w 15) (fun s =>
    let r := redValue w s.cores[n]
    let s := countSat (countFlush s n r.2.flushes) n .nonfinite (b2n r.2.nonfin) 0 0
    retire (modCore s n (fun c => sSet c w.D r.1)) n 8) s)

/-- VIOTA (R195). -/
def execViota (n : Fin 16) (w : Insn) (s : State) : Host.Outcome State Fault Refusal :=
  .next (laneOp n 0x62 w (w.A == 0 && w.B == 0 && w.C == 0 && w.X == 0) (fun _ i => laneInt (BitVec.ofNat 32 i)) s)

/-- VPERM (R195). -/
def execVperm (n : Fin 16) (w : Insn) (s : State) : Host.Outcome State Fault Refusal :=
  .next (laneOp n 0x63 w (usesDAB w) (fun c i => laneInt (laneOf (vGet c w.A) ((laneOf (vGet c w.B) i).toNat % 128))) s)

/-! ## Vector loads and stores (R194, R195) -/

/-- The checks of a 512 B access: none is made when no lane is guarded. -/
def vAccess (n : Fin 16) (op : Nat) (w : Insn) (body : State → Nat → State) (s : State) : State :=
  let a := (effAddr s.cores[n] w).toNat
  if (guardedLanes s.cores[n] w).isEmpty then retire s n 8
  else if !ownMem s n a 512 then trapInsn s n op w .addrRange a 0
  else if a % 64 ≠ 0 then trapInsn s n op w .misaligned a 0
  else body s a

/-- VLD (R194, R195). -/
def execVld (n : Fin 16) (w : Insn) (s : State) : Host.Outcome State Fault Refusal :=
  .next (issueVector n 0x68 w (usesDAX w && regIn w.A 16) (vAccess n 0x68 w (fun s a =>
    let c := s.cores[n]
    let r := memRead s reqDma a 512
    if (guardedLanes c w).any (fun i => poisonedAt r.s (a + 4 * i) 4) then trapInsn r.s n 0x68 w .poisonLoad a 0
    else retire (modCore r.s n (fun d => vSet d w.D (ofLanes (fun i =>
      if guarded c w i then BitVec.ofNat 32 (fieldOf r.bytes (4 * i) 4) else laneOf (vGet c w.D) i)))) n 8)) s)

/-- VST: bytes of unguarded lanes are not written (R194, R195). -/
def execVst (n : Fin 16) (w : Insn) (s : State) : Host.Outcome State Fault Refusal :=
  .next (issueVector n 0x69 w (usesDAX w && regIn w.A 16) (vAccess n 0x69 w (fun s a =>
    let c := s.cores[n]
    retire (memWriteMasked s reqDma a ((List.range 512).map (fun i =>
      if guarded c w (i / 4) then some (BitVec.ofNat 8 ((laneOf (vGet c w.D) (i / 4)).toNat / 256 ^ (i % 4))) else none))) n 8)) s)

/-- The address of lane `i` of an indexed access: aA + X + 4 × vB[i], modulo 2^48 (R195). -/
def laneAddr (c : Core) (w : Insn) (i : Nat) : Nat := (effAddr c w + 4 * (laneOf (vGet c w.B) i).setWidth 48).toNat

/-- The first guarded lane whose address fails a check traps before any lane is performed. -/
def xAccess (n : Fin 16) (op : Nat) (w : Insn) (body : State → State) (s : State) : State :=
  let c := s.cores[n]
  match (guardedLanes c w).find? (fun i => !ownMem s n (laneAddr c w i) 4 || laneAddr c w i % 4 != 0) with
  | some i =>
    if !ownMem s n (laneAddr c w i) 4 then trapInsn s n op w .addrRange (laneAddr c w i) 0
    else trapInsn s n op w .misaligned (laneAddr c w i) 0
  | none => body s

/-- VLDX (R194, R195). -/
def execVldx (n : Fin 16) (w : Insn) (s : State) : Host.Outcome State Fault Refusal :=
  .next (issueVector n 0x6A w (w.C == 0 && regIn w.A 16) (xAccess n 0x6A w (fun s =>
    let c := s.cores[n]
    let t := (guardedLanes c w).foldl (fun s i => (memRead s reqDma (laneAddr c w i) 4).s) s
    match (guardedLanes c w).find? (fun i => poisonedAt t (laneAddr c w i) 4) with
    | some i => trapInsn t n 0x6A w .poisonLoad (laneAddr c w i) 0
    | none => retire (modCore t n (fun d => vSet d w.D (ofLanes (fun i =>
        if guarded c w i then BitVec.ofNat 32 (natOfBytes (peek s (laneAddr c w i) 4)) else laneOf (vGet c w.D) i)))) n 8)) s)

/-- VSTX: lanes store in order, so the highest lane wins (R194, R195). -/
def execVstx (n : Fin 16) (w : Insn) (s : State) : Host.Outcome State Fault Refusal :=
  .next (issueVector n 0x6B w (w.C == 0 && regIn w.A 16) (xAccess n 0x6B w (fun s =>
    let c := s.cores[n]
    retire ((guardedLanes c w).foldl (fun s i =>
      memWrite s reqDma (laneAddr c w i) (bytesOf 4 (laneOf (vGet c w.D) i).toNat) false) s) n 8)) s)

end Sys2Proof.Machine
end

