-- ==== Sys2Proof/Machine/Tracking.lean ====
section
/-! DEFINITION. The tracking instructions (R197). -/

namespace Sys2Proof.Machine

/-- A key as it is compared: an integer that rises with the type's order. FP32 keys follow the total order of their
bits, a subnormal read as zero (R156, R197). -/
def sortKey (w : Insn) (x : W32) : Int :=
  if isFp w then
    (match fpDecode fp32 x.toNat with
    | .fin s 0 _ => fpTotalKey (fpSign fp32 s)
    | _ => fpTotalKey x.toNat)
  else if isUnsigned w then x.toNat
  else x.toInt

/-- X[2] = 1: descending. -/
def ordered (w : Insn) (x y : W32) : Bool :=
  if w.X.getLsbD 2 then sortKey w y ≤ sortKey w x else sortKey w x ≤ sortKey w y

/-- Inserts before the first element that it may precede, so that equal keys keep their order. -/
def insertKey (w : Insn) (x : W32 × Nat) : List (W32 × Nat) → List (W32 × Nat)
  | [] => [x]
  | y :: ys => if ordered w x.1 y.1 then x :: y :: ys else y :: insertKey w x ys

/-- Keys with their lanes in order; equal keys keep lane order. -/
def sortKeys (w : Insn) (ks : List (W32 × Nat)) : List (W32 × Nat) := ks.foldr (insertKey w) []

/-- A key as it is written: FP32 keys under R156 and R157. -/
def writtenKey (w : Insn) (x : W32) : LaneRes := if isFp w then laneFp fp32 (fvOf x) false else laneInt x

def keyed (c : Core) (w : Insn) (l : List Nat) : List (W32 × Nat) := l.map (fun i => (laneOf (vGet c w.A) i, i))

/-- Writes keys to vD and indices to vD+1. -/
def writePairs (n : Fin 16) (w : Insn) (ps : List (LaneRes × W32)) (s : State) : State :=
  let s := countLanes s n (ps.map (fun p => p.1))
  modCore s n (fun c =>
    vSet (vSet c w.D (ofLanes (fun i => ((ps[i]?).map (fun p => p.1.bits)).getD 0)))
      (w.D + 1) (ofLanes (fun i => ((ps[i]?).map (fun p => p.2)).getD 0)))

/-- VSORT: guarded keys in order, then the unguarded keys in lane order (R197). -/
def execVsort (n : Fin 16) (w : Insn) (s : State) : Host.Outcome State Fault Refusal :=
  .next (issueVector n 0x70 w (w.B == 0 && w.C == 0 && typed w 7 && regIn w.D 31) (fun s =>
    let c := s.cores[n]
    let ks := sortKeys w (keyed c w (guardedLanes c w)) ++ keyed c w ((List.range 128).filter (fun i => !guarded c w i))
    retire (writePairs n w (ks.map (fun k => (writtenKey w k.1, BitVec.ofNat 32 k.2))) s) n 8) s)

/-- The key in lanes of VTOPK that receive none: the last in the chosen direction, in FP32 a NaN of the total order's end
(log entry 33). -/
def topkPad (w : Insn) : W32 :=
  let desc := w.X.getLsbD 2
  if isFp w then (if desc then 0xFFFFFFFF else 0x7FFFFFFF)
  else if isUnsigned w then (if desc then 0 else 0xFFFFFFFF)
  else (if desc then 0x80000000 else 0x7FFFFFFF)

/-- VTOPK: the first k guarded keys; the other lanes get index 0xFFFF_FFFF (R197). -/
def execVtopk (n : Fin 16) (w : Insn) (s : State) : Host.Outcome State Fault Refusal :=
  .next (issueVector n 0x71 w (w.C == 0 && typed w 7 && regIn w.D 31) (fun s =>
    let c := s.cores[n]
    let k := Nat.min (sGet c w.B).toNat 128
    let ks := ((sortKeys w (keyed c w (guardedLanes c w))).take k).map (fun p => (writtenKey w p.1, BitVec.ofNat 32 p.2))
    let pad := List.replicate (128 - ks.length) (writtenKey w (topkPad w), (0xFFFFFFFF : W32))
    retire (writePairs n w (ks ++ pad) s) n 8) s)

/-- x is smaller than y: −0 equals +0 (R197). -/
def minsLess (w : Insn) (x y : W32) : Bool :=
  if isFp w then fpLt (fvOf x) (fvOf y) else condHolds (if isUnsigned w then 4 else 2) x y

/-- The smallest of the guarded lanes that are not NaN, the lowest lane winning a tie. -/
def minsOf (c : Core) (w : Insn) : Option (W32 × Nat) :=
  match (keyed c w (guardedLanes c w)).filter (fun k => !(isFp w && (fvOf k.1).isNan)) with
  | [] => none
  | k :: ks => some (ks.foldl (fun b x => if minsLess w x.1 b.1 then x else b) k)

/-- An infinity takes part in the search (R157: NaN lanes are skipped and take no part). -/
def minsInf (c : Core) (w : Insn) : Bool :=
  isFp w && (guardedLanes c w).any (fun i => match fvOf (laneOf (vGet c w.A) i) with | .inf _ => true | _ => false)

/-- Index and value that VMINS writes (R197). -/
def minsResult (c : Core) (w : Insn) : Nat × LaneRes :=
  match minsOf c w with
  | some k => (k.2, { writtenKey w k.1 with nonfin := minsInf c w })
  | none =>
    (0xFFFFFFFF, if isFp w then ⟨0x7F800000, true, false⟩ else if isUnsigned w then laneInt 0xFFFFFFFF else laneInt 0x7FFFFFFF)

/-- VMINS (R197). -/
def execVmins (n : Fin 16) (w : Insn) (s : State) : Host.Outcome State Fault Refusal :=
  .next (issueVector n 0x72 w (w.B == 0 && w.C == 0 && typed w 3) (fun s =>
    let r := minsResult s.cores[n] w
    let s := countLanes s n [r.2]
    retire (modCore s n (fun c => sSet c w.D (BitVec.ofNat 64 (r.1 * 2 ^ 32 + r.2.bits.toNat)))) n 8) s)

/-- A box of unsigned 16-bit coordinates. -/
structure Box where
  x0 : Nat
  y0 : Nat
  x1 : Nat
  y1 : Nat
  deriving DecidableEq, Repr

def boxArea (b : Box) : Nat := (b.x1 - b.x0) * (b.y1 - b.y0)

def boxInter (t d : Box) : Nat := (min t.x1 d.x1 - max t.x0 d.x0) * (min t.y1 d.y1 - max t.y0 d.y0)

def absDiff (x y : Nat) : Nat := (x - y) + (y - x)

/-- The cost of a track box against a detection box: one minus the intersection over union, or the distance between
doubled centres (R197). -/
def boxCost (l1 : Bool) (t d : Box) : Nat :=
  if l1 then min (2 ^ 31 - 1) (absDiff (t.x0 + t.x1) (d.x0 + d.x1) + absDiff (t.y0 + t.y1) (d.y0 + d.y1))
  else
    let i := boxInter t d
    let u := boxArea t + boxArea d - i
    if u = 0 then 65536 else 65536 - i * 65536 / u

/-- The track box of lane `i`: registers vA to vA+3. -/
def trackBox (c : Core) (w : Insn) (i : Nat) : Box :=
  let lane := fun (k : BitVec 5) => (laneOf (vGet c (w.A + k)) i).toNat % 65536
  ⟨lane 0, lane 1, lane 2, lane 3⟩

/-- The detection box in sB. -/
def detBox (x : W64) : Box :=
  ⟨x.toNat % 65536, bitsOf x.toNat 16 16, bitsOf x.toNat 32 16, bitsOf x.toNat 48 16⟩

/-- VCOST (R197). -/
def execVcost (n : Fin 16) (w : Insn) (s : State) : Host.Outcome State Fault Refusal :=
  .next (laneOp n 0x73 w (w.C == 0 && typed w 1 && regIn w.A 29) (fun c i =>
    laneInt (BitVec.ofNat 32 (boxCost (w.X.getLsbD 0) (trackBox c w i) (detBox (sGet c w.B))))) s)

end Sys2Proof.Machine
end

