-- ==== Sys2Proof/Machine/Dispatch.lean ====
section
/-! DEFINITION. The meaning of every command: one arm per constructor. -/

namespace Sys2Proof.Machine

def exec (i : Instr) (s : State) : Host.Outcome State Fault Refusal :=
  match i with
  | .nop n w => Sys2Proof.Machine.execNop n w s
  | .add n w => Sys2Proof.Machine.execAdd n w s
  | .sub n w => Sys2Proof.Machine.execSub n w s
  | .and n w => Sys2Proof.Machine.execAnd n w s
  | .or n w => Sys2Proof.Machine.execOr n w s
  | .xor n w => Sys2Proof.Machine.execXor n w s
  | .shl n w => Sys2Proof.Machine.execShl n w s
  | .shr n w => Sys2Proof.Machine.execShr n w s
  | .sra n w => Sys2Proof.Machine.execSra n w s
  | .mul n w => Sys2Proof.Machine.execMul n w s
  | .mulh n w => Sys2Proof.Machine.execMulh n w s
  | .min n w => Sys2Proof.Machine.execMin n w s
  | .max n w => Sys2Proof.Machine.execMax n w s
  | .minu n w => Sys2Proof.Machine.execMinu n w s
  | .maxu n w => Sys2Proof.Machine.execMaxu n w s
  | .sel n w => Sys2Proof.Machine.execSel n w s
  | .cmp n w => Sys2Proof.Machine.execCmp n w s
  | .addi n w => Sys2Proof.Machine.execAddi n w s
  | .andi n w => Sys2Proof.Machine.execAndi n w s
  | .ori n w => Sys2Proof.Machine.execOri n w s
  | .xori n w => Sys2Proof.Machine.execXori n w s
  | .shli n w => Sys2Proof.Machine.execShli n w s
  | .shri n w => Sys2Proof.Machine.execShri n w s
  | .srai n w => Sys2Proof.Machine.execSrai n w s
  | .movhi n w => Sys2Proof.Machine.execMovhi n w s
  | .cmpi n w => Sys2Proof.Machine.execCmpi n w s
  | .pand n w => Sys2Proof.Machine.execPand n w s
  | .por n w => Sys2Proof.Machine.execPor n w s
  | .pnot n w => Sys2Proof.Machine.execPnot n w s
  | .adda n w => Sys2Proof.Machine.execAdda n w s
  | .addai n w => Sys2Proof.Machine.execAddai n w s
  | .mova n w => Sys2Proof.Machine.execMova n w s
  | .movs n w => Sys2Proof.Machine.execMovs n w s
  | .setb n w => Sys2Proof.Machine.execSetb n w s
  | .setbi n w => Sys2Proof.Machine.execSetbi n w s
  | .getb n w => Sys2Proof.Machine.execGetb n w s
  | .rdsr n w => Sys2Proof.Machine.execRdsr n w s
  | .ldB n w => Sys2Proof.Machine.execLdB n w s
  | .ldBu n w => Sys2Proof.Machine.execLdBu n w s
  | .ldH n w => Sys2Proof.Machine.execLdH n w s
  | .ldHu n w => Sys2Proof.Machine.execLdHu n w s
  | .ldW n w => Sys2Proof.Machine.execLdW n w s
  | .ldWu n w => Sys2Proof.Machine.execLdWu n w s
  | .ldD n w => Sys2Proof.Machine.execLdD n w s
  | .stB n w => Sys2Proof.Machine.execStB n w s
  | .stH n w => Sys2Proof.Machine.execStH n w s
  | .stW n w => Sys2Proof.Machine.execStW n w s
  | .stD n w => Sys2Proof.Machine.execStD n w s
  | .ldb n w => Sys2Proof.Machine.execLdb n w s
  | .tld n w => Sys2Proof.Machine.execTld n w s
  | .tst n w => Sys2Proof.Machine.execTst n w s
  | .br n w => Sys2Proof.Machine.execBr n w s
  | .jal n w => Sys2Proof.Machine.execJal n w s
  | .jr n w => Sys2Proof.Machine.execJr n w s
  | .endJob n w => Sys2Proof.Machine.execEndJob n w s
  | .brk n w => Sys2Proof.Machine.execBrk n w s
  | .vadd n w => Sys2Proof.Machine.execVadd n w s
  | .vsub n w => Sys2Proof.Machine.execVsub n w s
  | .vmul n w => Sys2Proof.Machine.execVmul n w s
  | .vmad n w => Sys2Proof.Machine.execVmad n w s
  | .vmin n w => Sys2Proof.Machine.execVmin n w s
  | .vmax n w => Sys2Proof.Machine.execVmax n w s
  | .vand n w => Sys2Proof.Machine.execVand n w s
  | .vor n w => Sys2Proof.Machine.execVor n w s
  | .vxor n w => Sys2Proof.Machine.execVxor n w s
  | .vshl n w => Sys2Proof.Machine.execVshl n w s
  | .vshr n w => Sys2Proof.Machine.execVshr n w s
  | .vcmp n w => Sys2Proof.Machine.execVcmp n w s
  | .vsel n w => Sys2Proof.Machine.execVsel n w s
  | .vbcast n w => Sys2Proof.Machine.execVbcast n w s
  | .vext n w => Sys2Proof.Machine.execVext n w s
  | .vins n w => Sys2Proof.Machine.execVins n w s
  | .vcvt n w => Sys2Proof.Machine.execVcvt n w s
  | .vred n w => Sys2Proof.Machine.execVred n w s
  | .viota n w => Sys2Proof.Machine.execViota n w s
  | .vperm n w => Sys2Proof.Machine.execVperm n w s
  | .vld n w => Sys2Proof.Machine.execVld n w s
  | .vst n w => Sys2Proof.Machine.execVst n w s
  | .vldx n w => Sys2Proof.Machine.execVldx n w s
  | .vstx n w => Sys2Proof.Machine.execVstx n w s
  | .vsort n w => Sys2Proof.Machine.execVsort n w s
  | .vtopk n w => Sys2Proof.Machine.execVtopk n w s
  | .vmins n w => Sys2Proof.Machine.execVmins n w s
  | .vcost n w => Sys2Proof.Machine.execVcost n w s
  | .dmaq n w => Sys2Proof.Machine.execDmaq n w s
  | .dmaw n w => Sys2Proof.Machine.execDmaw n w s
  | .fence n w => Sys2Proof.Machine.execFence n w s
  | .semsig n w => Sys2Proof.Machine.execSemsig n w s
  | .semwait n w => Sys2Proof.Machine.execSemwait n w s
  | .semtry n w => Sys2Proof.Machine.execSemtry n w s
  | .post n w => Sys2Proof.Machine.execPost n w s
  | .tmm n w => Sys2Proof.Machine.execTmm n w s
  | .tbd n w => Sys2Proof.Machine.execTbd n w s
  | .twg n w => Sys2Proof.Machine.execTwg n w s
  | .tqk n w => Sys2Proof.Machine.execTqk n w s
  | .tpv n w => Sys2Proof.Machine.execTpv n w s
  | .tconv n w => Sys2Proof.Machine.execTconv n w s
  | .tdw n w => Sys2Proof.Machine.execTdw n w s
  | .tpool n w => Sys2Proof.Machine.execTpool n w s
  | .trsz n w => Sys2Proof.Machine.execTrsz n w s
  | .semwaitGrant c k => Sys2Proof.Machine.execSemwaitGrant c k s
  | .semTimeout n => Sys2Proof.Machine.execSemTimeout n s
  | .dmawSatisfied n => Sys2Proof.Machine.execDmawSatisfied n s
  | .dmaWaitTimeout n => Sys2Proof.Machine.execDmaWaitTimeout n s
  | .fenceDone n => Sys2Proof.Machine.execFenceDone n s
  | .postRetire n => Sys2Proof.Machine.execPostRetire n s
  | .trap n cause insn addr detail => Sys2Proof.Machine.execTrap n cause insn addr detail s
  | .trapDrainDone n => Sys2Proof.Machine.execTrapDrainDone n s
  | .tensorStart n => Sys2Proof.Machine.execTensorStart n s
  | .reductionStep n => Sys2Proof.Machine.execReductionStep n s
  | .groupClose n => Sys2Proof.Machine.execGroupClose n s
  | .epilogueRow n arr => Sys2Proof.Machine.execEpilogueRow n arr s
  | .tileCopy n => Sys2Proof.Machine.execTileCopy n s
  | .tensorDone n => Sys2Proof.Machine.execTensorDone n s
  | .reducerTile n => Sys2Proof.Machine.execReducerTile n s
  | .arrayGateIdle n => Sys2Proof.Machine.execArrayGateIdle n s
  | .arrayPreemptRequest n src => Sys2Proof.Machine.execArrayPreemptRequest n src s
  | .checkpointWrite n portRefused => Sys2Proof.Machine.execCheckpointWrite n portRefused s
  | .checkpointRestore n => Sys2Proof.Machine.execCheckpointRestore n s
  | .jobRingDoorbell r d => Sys2Proof.Machine.execJobRingDoorbell r d s
  | .completionRingDoorbell r d => Sys2Proof.Machine.execCompletionRingDoorbell r d s
  | .mqHeadDoorbell m d => Sys2Proof.Machine.execMqHeadDoorbell m d s
  | .jobDescriptorFetch r got => Sys2Proof.Machine.execJobDescriptorFetch r got s
  | .jobDispatch c => Sys2Proof.Machine.execJobDispatch c s
  | .imageCheck c => Sys2Proof.Machine.execImageCheck c s
  | .imageCopyDone c => Sys2Proof.Machine.execImageCopyDone c s
  | .cluLdrFlush c => Sys2Proof.Machine.execCluLdrFlush c s
  | .jobComplete n => Sys2Proof.Machine.execJobComplete n s
  | .completionEntryWrite r => Sys2Proof.Machine.execCompletionEntryWrite r s
  | .jobRingDisable r => Sys2Proof.Machine.execJobRingDisable r s
  | .metadataRecordWrite m => Sys2Proof.Machine.execMetadataRecordWrite m s
  | .crTimeThrExpiry r => Sys2Proof.Machine.execCrTimeThrExpiry r s
  | .mqTimeThrExpiry m => Sys2Proof.Machine.execMqTimeThrExpiry m s
  | .chunkDoorbell n d => Sys2Proof.Machine.execChunkDoorbell n d s
  | .contextInvalidate d => Sys2Proof.Machine.execContextInvalidate d s
  | .invalidateApply => Sys2Proof.Machine.execInvalidateApply  s
  | .vidCtxEnable cfg => Sys2Proof.Machine.execVidCtxEnable cfg s
  | .contextFetch n => Sys2Proof.Machine.execContextFetch n s
  | .decoderDispatch k => Sys2Proof.Machine.execDecoderDispatch k s
  | .frameOk k r => Sys2Proof.Machine.execFrameOk k r s
  | .decodeError k why stop cycles => Sys2Proof.Machine.execDecodeError k why stop cycles s
  | .budgetExpiry k stop => Sys2Proof.Machine.execBudgetExpiry k stop s
  | .concealDone k refs selfRef => Sys2Proof.Machine.execConcealDone k refs selfRef s
  | .vdDisable k => Sys2Proof.Machine.execVdDisable k s
  | .shaperTakeFrame k => Sys2Proof.Machine.execShaperTakeFrame k s
  | .shaperSampleDone k => Sys2Proof.Machine.execShaperSampleDone k s
  | .shDisable k => Sys2Proof.Machine.execShDisable k s
  | .batchTimeout c q => Sys2Proof.Machine.execBatchTimeout c q s
  | .batchFillDone c q => Sys2Proof.Machine.execBatchFillDone c q s
  | .batchBoundary c => Sys2Proof.Machine.execBatchBoundary c s
  | .bqEnable c q cfg => Sys2Proof.Machine.execBqEnable c q cfg s
  | .bqDisable c q => Sys2Proof.Machine.execBqDisable c q s
  | .veReqProd prod => Sys2Proof.Machine.execVeReqProd prod s
  | .encodeRequestAccept => Sys2Proof.Machine.execEncodeRequestAccept  s
  | .encodeFrameStart k => Sys2Proof.Machine.execEncodeFrameStart k s
  | .encodeFrameDone k sizes => Sys2Proof.Machine.execEncodeFrameDone k sizes s
  | .encodeWaitTimeout slot => Sys2Proof.Machine.execEncodeWaitTimeout slot s
  | .noBuffer k => Sys2Proof.Machine.execNoBuffer k s
  | .veDisable k => Sys2Proof.Machine.execVeDisable k s
  | .bpmAlloc p live => Sys2Proof.Machine.execBpmAlloc p live s
  | .readyListRefill p => Sys2Proof.Machine.execReadyListRefill p s
  | .bpmFree src => Sys2Proof.Machine.execBpmFree src s
  | .bpmHold src => Sys2Proof.Machine.execBpmHold src s
  | .bpmRelease src => Sys2Proof.Machine.execBpmRelease src s
  | .bpmHostOpWrite op ptr => Sys2Proof.Machine.execBpmHostOpWrite op ptr s
  | .bpmPoolAlloc p => Sys2Proof.Machine.execBpmPoolAlloc p s
  | .bpmPoolAllocLive p => Sys2Proof.Machine.execBpmPoolAllocLive p s
  | .bpmPoolEnable p cfg => Sys2Proof.Machine.execBpmPoolEnable p cfg s
  | .bitmapInitDone p => Sys2Proof.Machine.execBitmapInitDone p s
  | .bpmPoolDisable p => Sys2Proof.Machine.execBpmPoolDisable p s
  | .dmaChQueue k addr => Sys2Proof.Machine.execDmaChQueue k addr s
  | .dmaChainStart k => Sys2Proof.Machine.execDmaChainStart k s
  | .dmaDescriptorFetch k got => Sys2Proof.Machine.execDmaDescriptorFetch k got s
  | .dmaAllocDst k => Sys2Proof.Machine.execDmaAllocDst k s
  | .dmaAllocTimeout k => Sys2Proof.Machine.execDmaAllocTimeout k s
  | .dmaWaitPrevDone k => Sys2Proof.Machine.execDmaWaitPrevDone k s
  | .dmaDescriptorDone k => Sys2Proof.Machine.execDmaDescriptorDone k s
  | .dmaArriveFlush k => Sys2Proof.Machine.execDmaArriveFlush k s
  | .dmaChainComplete k => Sys2Proof.Machine.execDmaChainComplete k s
  | .dmaAbort k linesIssued => Sys2Proof.Machine.execDmaAbort k linesIssued s
  | .dmaChPause k => Sys2Proof.Machine.execDmaChPause k s
  | .dmaChResume k => Sys2Proof.Machine.execDmaChResume k s
  | .paceEvent k => Sys2Proof.Machine.execPaceEvent k s
  | .paceGrant k grants => Sys2Proof.Machine.execPaceGrant k grants s
  | .paceConfig k cfg => Sys2Proof.Machine.execPaceConfig k cfg s
  | .arbDecision r cycle present => Sys2Proof.Machine.execArbDecision r cycle present s
  | .arbBreathEnd r idx => Sys2Proof.Machine.execArbBreathEnd r idx s
  | .memScrub b => Sys2Proof.Machine.execMemScrub b s
  | .eccCeWriteback b => Sys2Proof.Machine.execEccCeWriteback b s
  | .dramScrub ch => Sys2Proof.Machine.execDramScrub ch s
  | .dramRefresh ch waiting => Sys2Proof.Machine.execDramRefresh ch waiting s
  | .mr4Poll ch rate aboveHighest => Sys2Proof.Machine.execMr4Poll ch rate aboveHighest s
  | .pageIdleClose ch rank bank => Sys2Proof.Machine.execPageIdleClose ch rank bank s
  | .selfRefreshEntry ch => Sys2Proof.Machine.execSelfRefreshEntry ch s
  | .selfRefreshExit ch => Sys2Proof.Machine.execSelfRefreshExit ch s
  | .wckRetrainCheck ch drifted => Sys2Proof.Machine.execWckRetrainCheck ch drifted s
  | .dramTraining results modes => Sys2Proof.Machine.execDramTraining results modes s
  | .trainingRecordWrite ok => Sys2Proof.Machine.execTrainingRecordWrite ok s
  | .dramZeroDone => Sys2Proof.Machine.execDramZeroDone  s
  | .bar0Write reg value dws beFull => Sys2Proof.Machine.execBar0Write reg value dws beFull s
  | .bar0Read reg dws => Sys2Proof.Machine.execBar0Read reg dws s
  | .lateReg off isWrite => Sys2Proof.Machine.execLateReg off isWrite s
  | .bar2Write off bytes poisoned => Sys2Proof.Machine.execBar2Write off bytes poisoned s
  | .bar2Read off len => Sys2Proof.Machine.execBar2Read off len s
  | .hifWinCommit => Sys2Proof.Machine.execHifWinCommit  s
  | .romRead off len => Sys2Proof.Machine.execRomRead off len s
  | .configRequest off write => Sys2Proof.Machine.execConfigRequest off write s
  | .outboundCompletion tag st bytes ep => Sys2Proof.Machine.execOutboundCompletion tag st bytes ep s
  | .cplTimeout tag => Sys2Proof.Machine.execCplTimeout tag s
  | .tagQuarantineEnd tag => Sys2Proof.Machine.execTagQuarantineEnd tag s
  | .msixMessage v => Sys2Proof.Machine.execMsixMessage v s
  | .l1Entry => Sys2Proof.Machine.execL1Entry  s
  | .l1Exit => Sys2Proof.Machine.execL1Exit  s
  | .linkUp speed width => Sys2Proof.Machine.execLinkUp speed width s
  | .linkDown => Sys2Proof.Machine.execLinkDown  s
  | .functionLevelReset => Sys2Proof.Machine.execFunctionLevelReset  s
  | .hotReset => Sys2Proof.Machine.execHotReset  s
  | .d3hotEntry => Sys2Proof.Machine.execD3hotEntry  s
  | .d3hotExit => Sys2Proof.Machine.execD3hotExit  s
  | .powerOnReset => Sys2Proof.Machine.execPowerOnReset  s
  | .powerOnResetRelease => Sys2Proof.Machine.execPowerOnResetRelease  s
  | .ref25Loss => Sys2Proof.Machine.execRef25Loss  s
  | .perstNAssert => Sys2Proof.Machine.execPerstNAssert  s
  | .perstNDeassert => Sys2Proof.Machine.execPerstNDeassert  s
  | .pllLock => Sys2Proof.Machine.execPllLock  s
  | .boardCfgRead => Sys2Proof.Machine.execBoardCfgRead  s
  | .fwVerify => Sys2Proof.Machine.execFwVerify  s
  | .firstUseEnd => Sys2Proof.Machine.execFirstUseEnd  s
  | .bistBlockDone k signature => Sys2Proof.Machine.execBistBlockDone k signature s
  | .bistTimeout k => Sys2Proof.Machine.execBistTimeout k s
  | .bistAborted => Sys2Proof.Machine.execBistAborted  s
  | .thermalSample sensors => Sys2Proof.Machine.execThermalSample sensors s
  | .thermalLimitStep => Sys2Proof.Machine.execThermalLimitStep  s
  | .thermalTrip => Sys2Proof.Machine.execThermalTrip  s
  | .powerEstimateTick est => Sys2Proof.Machine.execPowerEstimateTick est s
  | .clockSlewDone => Sys2Proof.Machine.execClockSlewDone  s
  | .avsWrite acked => Sys2Proof.Machine.execAvsWrite acked s
  | .avsRetry acked => Sys2Proof.Machine.execAvsRetry acked s
  | .ppsEdge => Sys2Proof.Machine.execPpsEdge  s
  | .ppsLost => Sys2Proof.Machine.execPpsLost  s
  | .mcTsSet value => Sys2Proof.Machine.execMcTsSet value s
  | .pwrWarnNFall => Sys2Proof.Machine.execPwrWarnNFall  s
  | .pwrWarnNRise => Sys2Proof.Machine.execPwrWarnNRise  s
  | .pwrWarnHold => Sys2Proof.Machine.execPwrWarnHold  s
  | .vrHotNChange level => Sys2Proof.Machine.execVrHotNChange level s
  | .shedReqNChange level => Sys2Proof.Machine.execShedReqNChange level s
  | .droopDetect mv => Sys2Proof.Machine.execDroopDetect mv s
  | .forceStage ctl => Sys2Proof.Machine.execForceStage ctl s
  | .mgmtRingSuspend cmd => Sys2Proof.Machine.execMgmtRingSuspend cmd s
  | .exitHoldExpiry => Sys2Proof.Machine.execExitHoldExpiry  s
  | .orderlyHalt vddCoreMv vddVidMv => Sys2Proof.Machine.execOrderlyHalt vddCoreMv vddVidMv s
  | .errorLogEntry => Sys2Proof.Machine.execErrorLogEntry  s
  | .queueLoss plane => Sys2Proof.Machine.execQueueLoss plane s
  | .logAck value => Sys2Proof.Machine.execLogAck value s
  | .smbReadState => Sys2Proof.Machine.execSmbReadState  s
  | .smbReadTj => Sys2Proof.Machine.execSmbReadTj  s
  | .smbReadAlert => Sys2Proof.Machine.execSmbReadAlert  s
  | .smbClearAlert value pecOk => Sys2Proof.Machine.execSmbClearAlert value pecOk s
  | .smbLogRead => Sys2Proof.Machine.execSmbLogRead  s
  | .smbSetCursor value pecOk => Sys2Proof.Machine.execSmbSetCursor value pecOk s
  | .smbRegRead off pecOk => Sys2Proof.Machine.execSmbRegRead off pecOk s
  | .smbRegWrite off value pecOk => Sys2Proof.Machine.execSmbRegWrite off value pecOk s
  | .smbTimeout => Sys2Proof.Machine.execSmbTimeout  s
  | .bypass => Sys2Proof.Machine.execBypass  s
  | .idcode => Sys2Proof.Machine.execIdcode  s
  | .samplePreload sampled preload => Sys2Proof.Machine.execSamplePreload sampled preload s
  | .extest => Sys2Proof.Machine.execExtest  s
  | .extestPulse => Sys2Proof.Machine.execExtestPulse  s
  | .extestTrain => Sys2Proof.Machine.execExtestTrain  s
  | .clamp => Sys2Proof.Machine.execClamp  s
  | .highz => Sys2Proof.Machine.execHighz  s
  | .tapReset => Sys2Proof.Machine.execTapReset  s
  | .coreDisable n => Sys2Proof.Machine.execCoreDisable n s
  | .preemptEnWrite n ctl => Sys2Proof.Machine.execPreemptEnWrite n ctl s
  | .droopClear mv => Sys2Proof.Machine.execDroopClear mv s
  | .romWrite off => Sys2Proof.Machine.execRomWrite off s
  | .receiverError e => Sys2Proof.Machine.execReceiverError e s
  | .thrGapExpiry p => Sys2Proof.Machine.execThrGapExpiry p s
  | .siteTuningSampleStart k c q => Sys2Proof.Machine.execSiteTuningSampleStart k c q s

end Sys2Proof.Machine
end

