-- ==== Sys2Proof/WellFormed.lean ====
section
/-! DEFINITION. Which commands are well formed: what the text of a rule presupposes of a command's operands before it says
what the command does. A meaning is given for an ill-formed command too, as the rules read; well-formedness only names the
commands that the outside can send. -/

namespace Sys2Proof

/-- A TLP carries at least one DW. -/
def dbWf (d : DbWrite) : Bool := decide (1 ≤ d.dws)

/-- Data that came back for a read of `n` bytes is `n` bytes (R72, R291). -/
def hostReadWf (n : Nat) (r : HostRead) : Bool :=
  match r with
  | .data bs => bs.length == n
  | .poisoned => true
  | .errorStatus => true
  | .timeout => true

/-- A decoded frame has pixels, one record per 16 x 16 map block, and names no frame twice (R55, R69). -/
def decodeWf (r : DecodeResult) : Bool :=
  decide (1 ≤ r.width.toNat) && decide (1 ≤ r.height.toNat) &&
    r.blocks.length == (r.width.toNat + 15) / 16 * ((r.height.toNat + 15) / 16) && decide r.refs.Nodup

/-- The requests at one decision come from different requesters, and each has a beat to move (R266, R268). -/
def arbWf (present : List ArbReq) : Bool :=
  decide (present.map (fun q => q.idx)).Nodup && present.all (fun q => decide (1 ≤ q.beats))

/-- Training reports one result and the mode registers for each of the 16 channels, with a failing step from 1 to 8 or none (R315, R318). -/
def trainingWf (results : List ChannelTrain) (modes : List ModeRegs) : Bool :=
  results.length == 16 && modes.length == 16 && results.all (fun r => decide (r.failStep.toNat ≤ 8))

/-- A completion that carries an error status carries no data (R347). -/
def completionWf (st : CplStatus) (bytes : List Byte) (ep : Bool) : Bool :=
  st == .success || (bytes.isEmpty && !ep)

/-- A link speed as the link reports it, and a supported width (R326). -/
def linkWf (speed width : Nat) : Bool :=
  decide (1 ≤ speed ∧ speed ≤ 5) && [4, 8, 16].contains width

/-- The command is well formed. -/
def Instr.wf (c : Instr) : Bool :=
  match c with
  | .jobRingDoorbell _ d => dbWf d
  | .completionRingDoorbell _ d => dbWf d
  | .mqHeadDoorbell _ d => dbWf d
  | .jobDescriptorFetch _ got => hostReadWf 64 got
  | .chunkDoorbell _ d => dbWf d
  | .contextInvalidate d => dbWf d
  | .frameOk _ r => decodeWf r
  | .dmaDescriptorFetch _ got => hostReadWf 64 got
  | .arbDecision _ _ present => arbWf present
  | .dramTraining results modes => trainingWf results modes
  | .bar0Write _ _ dws _ => decide (1 ≤ dws)
  | .bar0Read _ dws => decide (1 ≤ dws)
  | .bar2Write _ bytes _ => !bytes.isEmpty
  | .bar2Read _ len => decide (1 ≤ len)
  | .romRead _ len => decide (1 ≤ len)
  | .configRequest off _ => off.toNat % 4 == 0
  | .outboundCompletion _ st bytes ep => completionWf st bytes ep
  | .linkUp speed width => linkWf speed.toNat width.toNat
  | .samplePreload sampled preload => sampled.length == 695 && preload.length == 695
  | .nop .. | .add .. | .sub .. | .and .. | .or .. | .xor .. | .shl .. | .shr .. | .sra .. | .mul .. | .mulh ..
  | .min .. | .max .. | .minu .. | .maxu .. | .sel .. | .cmp .. | .addi .. | .andi .. | .ori .. | .xori .. | .shli ..
  | .shri .. | .srai .. | .movhi .. | .cmpi .. | .pand .. | .por .. | .pnot .. | .adda .. | .addai .. | .mova ..
  | .movs .. | .setb .. | .setbi .. | .getb .. | .rdsr .. | .ldB .. | .ldBu .. | .ldH .. | .ldHu .. | .ldW ..
  | .ldWu .. | .ldD .. | .stB .. | .stH .. | .stW .. | .stD .. | .ldb .. | .tld .. | .tst .. | .br .. | .jal ..
  | .jr .. | .endJob .. | .brk .. | .vadd .. | .vsub .. | .vmul .. | .vmad .. | .vmin .. | .vmax .. | .vand ..
  | .vor .. | .vxor .. | .vshl .. | .vshr .. | .vcmp .. | .vsel .. | .vbcast .. | .vext .. | .vins .. | .vcvt ..
  | .vred .. | .viota .. | .vperm .. | .vld .. | .vst .. | .vldx .. | .vstx .. | .vsort .. | .vtopk .. | .vmins ..
  | .vcost .. | .dmaq .. | .dmaw .. | .fence .. | .semsig .. | .semwait .. | .semtry .. | .post .. | .tmm ..
  | .tbd .. | .twg .. | .tqk .. | .tpv .. | .tconv .. | .tdw .. | .tpool .. | .trsz .. | .semwaitGrant ..
  | .semTimeout .. | .dmawSatisfied .. | .dmaWaitTimeout .. | .fenceDone .. | .postRetire .. | .trap ..
  | .trapDrainDone .. | .tensorStart .. | .reductionStep .. | .groupClose .. | .epilogueRow .. | .tileCopy ..
  | .tensorDone .. | .reducerTile .. | .arrayGateIdle .. | .arrayPreemptRequest .. | .checkpointWrite ..
  | .checkpointRestore .. | .jobDispatch .. | .imageCheck .. | .imageCopyDone .. | .cluLdrFlush .. | .jobComplete ..
  | .completionEntryWrite .. | .jobRingDisable .. | .metadataRecordWrite .. | .crTimeThrExpiry ..
  | .mqTimeThrExpiry .. | .invalidateApply .. | .vidCtxEnable .. | .contextFetch .. | .decoderDispatch ..
  | .decodeError .. | .budgetExpiry .. | .concealDone .. | .vdDisable .. | .shaperTakeFrame .. | .shaperSampleDone ..
  | .shDisable .. | .batchTimeout .. | .batchFillDone .. | .batchBoundary .. | .bqEnable .. | .bqDisable ..
  | .veReqProd .. | .encodeRequestAccept .. | .encodeFrameStart .. | .encodeFrameDone .. | .encodeWaitTimeout ..
  | .noBuffer .. | .veDisable .. | .bpmAlloc .. | .readyListRefill .. | .bpmFree .. | .bpmHold .. | .bpmRelease ..
  | .bpmHostOpWrite .. | .bpmPoolAlloc .. | .bpmPoolAllocLive .. | .bpmPoolEnable .. | .bitmapInitDone ..
  | .bpmPoolDisable .. | .dmaChQueue .. | .dmaChainStart .. | .dmaAllocDst .. | .dmaAllocTimeout ..
  | .dmaWaitPrevDone .. | .dmaDescriptorDone .. | .dmaArriveFlush .. | .dmaChainComplete .. | .dmaAbort ..
  | .dmaChPause .. | .dmaChResume .. | .paceEvent .. | .paceGrant .. | .paceConfig .. | .arbBreathEnd ..
  | .memScrub .. | .eccCeWriteback .. | .dramScrub .. | .dramRefresh .. | .mr4Poll .. | .pageIdleClose ..
  | .selfRefreshEntry .. | .selfRefreshExit .. | .wckRetrainCheck .. | .trainingRecordWrite .. | .dramZeroDone ..
  | .lateReg .. | .hifWinCommit .. | .cplTimeout .. | .tagQuarantineEnd .. | .msixMessage .. | .l1Entry ..
  | .l1Exit .. | .linkDown .. | .functionLevelReset .. | .hotReset .. | .d3hotEntry .. | .d3hotExit ..
  | .powerOnReset .. | .powerOnResetRelease .. | .ref25Loss .. | .perstNAssert .. | .perstNDeassert .. | .pllLock ..
  | .boardCfgRead .. | .fwVerify .. | .firstUseEnd .. | .bistBlockDone .. | .bistTimeout .. | .bistAborted ..
  | .thermalSample .. | .thermalLimitStep .. | .thermalTrip .. | .powerEstimateTick .. | .clockSlewDone ..
  | .avsWrite .. | .avsRetry .. | .ppsEdge .. | .ppsLost .. | .mcTsSet .. | .pwrWarnNFall .. | .pwrWarnNRise ..
  | .pwrWarnHold .. | .vrHotNChange .. | .shedReqNChange .. | .droopDetect .. | .forceStage .. | .mgmtRingSuspend ..
  | .exitHoldExpiry .. | .orderlyHalt .. | .errorLogEntry .. | .queueLoss .. | .logAck .. | .smbReadState ..
  | .smbReadTj .. | .smbReadAlert .. | .smbClearAlert .. | .smbLogRead .. | .smbSetCursor .. | .smbRegRead ..
  | .smbRegWrite .. | .smbTimeout .. | .bypass .. | .idcode .. | .extest .. | .extestPulse .. | .extestTrain ..
  | .clamp .. | .highz .. | .tapReset .. | .coreDisable .. | .preemptEnWrite .. | .droopClear .. | .romWrite ..
  | .receiverError .. | .thrGapExpiry .. | .siteTuningSampleStart .. => true

end Sys2Proof
end

