-- ==== Sys2Proof/Safety.lean ====
section
/-! DEFINITION. What counts as a sound state, and the words in which the statements say what a command leaves unchanged. -/

namespace Sys2Proof.Machine

/-- The invariant that every step keeps: each memory is in its one canonical form (keys rising, nothing listed that an
unlisted key reads as), the error log holds at most 1024 entries (R396) and the queue of each plane into it at most 16
(R395). -/
structure Inv (s : State) : Prop where
  mem : storeWf (0 : Byte) s.mem
  hostMem : storeWf (0 : Byte) s.hostMem
  flash : storeWf (0xFF : Byte) s.flash
  ecc : storeWf EccState.ok s.ecc
  log : s.log.length ≤ 1024
  logQ : ∀ p : Fin 3, s.logQ[p].length ≤ 16

/-- The link power state, which any TLP or message of the link leaves at L0 (R354). -/
def linkKey : Nat := regKey R.HIF_LINK_STATUS_PM 0

/-- The command answers a next state, and `P` holds of it. -/
def Does (i : Instr) (s : State) (P : State → Prop) : Prop := ∃ t, exec i s = .next t ∧ P t

/-- Every register field reads as before, except those with the given keys. -/
def RegsKept (s t : State) (but : List Nat) : Prop :=
  ∀ f i, regKey f i ∉ but → rd t f i = rd s f i

/-- Core `n` issues instructions of its program, and the next one lies in its own core memory (R191, R207). -/
structure Ready (s : State) (n : Fin 16) : Prop where
  up : s.phase = .up
  running : s.cores[n].mode = .running
  fetch : ownCoreMem n s.cores[n].pc.toNat = true

/-- Core `n` is ready, and the guard of a scalar instruction holds (R190). -/
structure Issues (s : State) (n : Fin 16) (w : Insn) : Prop extends Ready s n where
  guard : guardTrue s.cores[n] w.PG w.PN = true

/-- The number of instructions core `n` has completed goes up by one (R208). -/
def CountsInsn (s t : State) (n : Fin 16) : Prop :=
  rd t R.CORE_INSNS n.val = (rd s R.CORE_INSNS n.val + 1) % 2 ^ 64

/-- `t` is `s` after core `n` has completed an 8-byte instruction that leaves its registers as in `c`: the PC is past the
instruction, the instruction is counted, and nothing else has changed but the registers with the keys `also`: no other
core, no other register, no byte of memory, no other part of the state. -/
def Completes (n : Fin 16) (s t : State) (c : Core) (also : List Nat) : Prop :=
  t = { s with cores := s.cores.set n { c with pc := s.cores[n].pc + 8 }, regs := t.regs } ∧
    RegsKept s t (regKey R.CORE_INSNS n.val :: also) ∧ CountsInsn s t n

/-- The command answers a next state in which core `n` has completed an instruction that changes its registers alone. -/
def CoreDoes (i : Instr) (n : Fin 16) (s : State) (c : Core) : Prop :=
  ∃ t, exec i s = .next t ∧ Completes n s t c []

/-- The keys of the counters of beats that a core's accesses reach: its own memory's and its cluster's bag's (R276). -/
def readBeatKeys (n : Fin 16) : List Nat :=
  [regKey R.CMEM_BEATS_RD n.val, regKey R.BAG_BEATS_RD (clusterOf n).val]
def writeBeatKeys (n : Fin 16) : List Nat :=
  [regKey R.CMEM_BEATS_WR n.val, regKey R.BAG_BEATS_WR (clusterOf n).val]

/-- An aligned access of `len` bytes at `a` that core `n` may make (R20, R194), to words in which no error lies. -/
structure Accessible (s : State) (n : Fin 16) (a len : Nat) : Prop where
  own : ownMem s n a len = true
  aligned : a % len = 0
  clean : badWords s a len = []

/-- Memory reads as `bs` in the bytes from `a` on and as before everywhere else. -/
def Stored (s t : State) (a : Nat) (bs : List Byte) : Prop :=
  (∀ i, i < bs.length → peek t (a + i) 1 = [bs.getD i 0]) ∧
    ∀ x, x < a ∨ a + bs.length ≤ x → peek t x 1 = peek s x 1

/-- `t` is `s` after core `n` has completed an 8-byte instruction that stores the bytes `bs` at `a` and changes nothing
else but what it counts. -/
def Stores (n : Fin 16) (s t : State) (a : Nat) (bs : List Byte) : Prop :=
  t = { s with cores := s.cores.set n { s.cores[n] with pc := s.cores[n].pc + 8 }, regs := t.regs, mem := t.mem } ∧
    RegsKept s t (regKey R.CORE_INSNS n.val :: writeBeatKeys n) ∧ CountsInsn s t n ∧ Stored s t a bs

/-- `t` is `s` after core `n` has moved on to the PC `pc` with the registers of `c`, the instruction counted and nothing
else changed. -/
def Jumps (n : Fin 16) (s t : State) (c : Core) (pc : Addr) : Prop :=
  t = { s with cores := s.cores.set n { c with pc := pc }, regs := t.regs } ∧
    RegsKept s t [regKey R.CORE_INSNS n.val] ∧ CountsInsn s t n

/-- `t` is `s` after core `n` has completed a vector instruction that leaves its other registers as in `c`: lane i of
vector register j is `v j i`. Where `fp` is false nothing is counted but the instruction. Where it is true, what the lanes
showed (R156, R157) may be counted in NUM_FLUSH and NUM_NONFINITE and logged once in the job (R174). -/
def VectorComplete (n : Fin 16) (s t : State) (c : Core) (fp : Bool) (v : BitVec 5 → Nat → W32) : Prop :=
  t = { s with
      cores := s.cores.set n { c with pc := s.cores[n].pc + 8, v := t.cores[n].v, satLogged := t.cores[n].satLogged },
      regs := t.regs, freeCtr := t.freeCtr, logQ := t.logQ, logLost := t.logLost } ∧
    (∀ j i, i < 128 → laneOf (vGet t.cores[n] j) i = v j i) ∧
    CountsInsn s t n ∧
    (if fp then
      RegsKept s t [regKey R.CORE_INSNS n.val, regKey R.NUM_FLUSH n.val, regKey R.NUM_NONFINITE n.val,
        regKey R.LOG_QDROP_DATA 0] ∧ t.logQ[planeMgmt] = s.logQ[planeMgmt] ∧ t.logQ[planeCtrl] = s.logQ[planeCtrl]
    else
      RegsKept s t [regKey R.CORE_INSNS n.val] ∧ t.logQ = s.logQ ∧ t.logLost = s.logLost ∧ t.freeCtr = s.freeCtr ∧
        t.cores[n].satLogged = s.cores[n].satLogged)

/-- A vector instruction that changes no register but vD: lane i of vD is `f i`, every other vector register is as it was. -/
def LanesComplete (n : Fin 16) (s t : State) (fp : Bool) (d : BitVec 5) (f : Nat → W32) : Prop :=
  VectorComplete n s t s.cores[n] fp (fun j i => if j = d then f i else laneOf (vGet s.cores[n] j) i)

/-- The command answers a next state in which the guarded lanes of vD hold `f`, the others what they held (R190). -/
def LanesDo (i : Instr) (n : Fin 16) (w : Insn) (s : State) (fp : Bool) (f : Nat → W32) : Prop :=
  ∃ t, exec i s = .next t ∧
    LanesComplete n s t fp w.D (fun j => if guarded s.cores[n] w j then f j else laneOf (vGet s.cores[n] w.D) j)

/-- No byte of the ranges lies in a word with an error. -/
def cleanSpans (s : State) (rs : List Span) : Prop := ∀ x ∈ s.ecc, ∀ r ∈ rs, spanMeets r (x.1, 8) = false

/-- Bytes of the core's own memories, none of them in a word with an error; DRAM lies below them (R28). -/
structure OnChip (s : State) (n : Fin 16) (a len : Nat) : Prop where
  dramBelow : rd s R.DRC_WINDOW 0 ≤ 0x200000000000
  some_ : 0 < len
  own : ownMem s n a len = true
  clean : badWords s a len = []

/-- Nothing but registers of the register maps has changed, and of those only the ones with the given keys. -/
def OnlyRegs (s t : State) (keys : List Nat) : Prop := t = { s with regs := t.regs } ∧ RegsKept s t keys

/-- As `OnlyRegs`, and the event may have been logged: an entry has joined a queue, or its loss is counted (R395). -/
def RegsAndLog (s t : State) (keys : List Nat) : Prop :=
  t = { s with regs := t.regs, freeCtr := t.freeCtr, logQ := t.logQ, logLost := t.logLost } ∧
    RegsKept s t (keys ++ [regKey R.LOG_QDROP_MGMT 0, regKey R.LOG_QDROP_CTRL 0, regKey R.LOG_QDROP_DATA 0])

/-- The FP32 result of an exact operation, rounded once (R156). -/
def fp32Of (v : Fv) : W32 := BitVec.ofNat 32 (fpRound fp32 v).bits

end Sys2Proof.Machine
end

