-- ==== Sys2Proof/Certificates/Slice0/Obligations.lean ====
section
/-! DEFINITION. The statements for the provers: what each command does and leaves unchanged, where it completes, and what
every step keeps. Where a clause says that a command whose condition does not hold leaves the state as it is, that is the
model's choice (log entry 2). -/

section

open Sys2Proof Sys2Proof.Machine

/-! ## The scalar unit -/

/-- R186, R191 to R193: the instructions on two s-registers. Each completes, writes sD alone, and leaves everything
else as it was; a write to s0 is discarded by `sSet` (`AddressBoundAndSpecialRegisters`).
R189, R191 to R193: the instructions with an immediate. A shift amount above 63 is not a form of the instruction
(`ChecksBeforeAnInstruction`). The fields of an instruction come with its command (log entry 5). -/
def Obligations.ScalarResults : Prop :=
  (∀ (n : Fin 16) (w : Insn) (s : State), Issues s n w → usesDAB w = true →
     let c := s.cores[n]
     let x := sGet c w.A
     let y := sGet c w.B
     let k := y.toNat % 64
     CoreDoes (.add n w) n s (sSet c w.D (x + y)) ∧
     CoreDoes (.sub n w) n s (sSet c w.D (x - y)) ∧
     CoreDoes (.and n w) n s (sSet c w.D (x &&& y)) ∧
     CoreDoes (.or n w) n s (sSet c w.D (x ||| y)) ∧
     CoreDoes (.xor n w) n s (sSet c w.D (x ^^^ y)) ∧
     CoreDoes (.shl n w) n s (sSet c w.D (x <<< k)) ∧
     CoreDoes (.shr n w) n s (sSet c w.D (x >>> k)) ∧
     CoreDoes (.sra n w) n s (sSet c w.D (x.sshiftRight k)) ∧
     CoreDoes (.mul n w) n s (sSet c w.D (x * y)) ∧
     CoreDoes (.mulh n w) n s (sSet c w.D ((x.signExtend 128 * y.signExtend 128).extractLsb' 64 64)) ∧
     CoreDoes (.min n w) n s (sSet c w.D (if x.toInt < y.toInt then x else y)) ∧
     CoreDoes (.max n w) n s (sSet c w.D (if x.toInt < y.toInt then y else x)) ∧
     CoreDoes (.minu n w) n s (sSet c w.D (if x.toNat < y.toNat then x else y)) ∧
     CoreDoes (.maxu n w) n s (sSet c w.D (if x.toNat < y.toNat then y else x))) ∧
  (∀ (n : Fin 16) (w : Insn) (s : State), Issues s n w → usesDAX w = true →
     let c := s.cores[n]
     let x := sGet c w.A
     CoreDoes (.addi n w) n s (sSet c w.D (x + immS w)) ∧
     CoreDoes (.andi n w) n s (sSet c w.D (x &&& immS w)) ∧
     CoreDoes (.ori n w) n s (sSet c w.D (x ||| immS w)) ∧
     CoreDoes (.xori n w) n s (sSet c w.D (x ^^^ immS w)) ∧
     CoreDoes (.movhi n w) n s (sSet c w.D (BitVec.ofNat 64 (w.X.toNat * 2 ^ 32 + x.toNat % 2 ^ 32))) ∧
     (w.X.toNat < 64 →
       CoreDoes (.shli n w) n s (sSet c w.D (x <<< w.X.toNat)) ∧
       CoreDoes (.shri n w) n s (sSet c w.D (x >>> w.X.toNat)) ∧
       CoreDoes (.srai n w) n s (sSet c w.D (x.sshiftRight w.X.toNat))))

/-- R193: the six condition codes, on the signed or the unsigned values.
R186, R191 to R193: NOP, the selection and the comparisons, and the instructions on predicate registers. A comparison
gives all 128 bits of pD one value. The fields come with the command (log entry 5). -/
def Obligations.ConditionsAndPredicates : Prop :=
  (∀ (x y : W64),
     condHolds 0 x y = decide (x = y) ∧
     condHolds 1 x y = decide (x ≠ y) ∧
     condHolds 2 x y = decide (x.toInt < y.toInt) ∧
     condHolds 3 x y = decide (y.toInt ≤ x.toInt) ∧
     condHolds 4 x y = decide (x.toNat < y.toNat) ∧
     condHolds 5 x y = decide (y.toNat ≤ x.toNat)) ∧
  (∀ (n : Fin 16) (w : Insn) (s : State), Issues s n w →
     let c := s.cores[n]
     let x := sGet c w.A
     (noFields w = true → CoreDoes (.nop n w) n s c) ∧
     (w.X = 0 → w.C.toNat < 8 →
       CoreDoes (.sel n w) n s (sSet c w.D (if (pGet c w.C).getLsbD 0 then x else sGet c w.B))) ∧
     (w.X = 0 → w.D.toNat < 8 → w.C.toNat < 6 →
       CoreDoes (.cmp n w) n s (pSet c w.D (allBits (condHolds w.C.toNat x (sGet c w.B))))) ∧
     (w.B = 0 → w.D.toNat < 8 → w.C.toNat < 6 →
       CoreDoes (.cmpi n w) n s (pSet c w.D (allBits (condHolds w.C.toNat x (immS w))))) ∧
     (usesDAB w = true → w.D.toNat < 8 → w.A.toNat < 8 → w.B.toNat < 8 →
       CoreDoes (.pand n w) n s (pSet c w.D (pGet c w.A &&& pGet c w.B)) ∧
       CoreDoes (.por n w) n s (pSet c w.D (pGet c w.A ||| pGet c w.B))) ∧
     (usesDA w = true → w.D.toNat < 8 → w.A.toNat < 8 → CoreDoes (.pnot n w) n s (pSet c w.D (~~~(pGet c w.A)))))

/-- R186, R192: the instructions on address and bound registers. Addresses are 48 bits.
R187: the special values that RDSR reads.
R186: what a register of each file reads as after a write. s0 reads as before a write to it, and so does p0: both
writes are discarded. The fields come with the command (log entry 5). -/
def Obligations.AddressBoundAndSpecialRegisters : Prop :=
  (∀ (n : Fin 16) (w : Insn) (s : State), Issues s n w →
     let c := s.cores[n]
     let x := sGet c w.A
     (usesDAB w = true → w.D.toNat < 16 → w.A.toNat < 16 →
       CoreDoes (.adda n w) n s (aSet c w.D (BitVec.ofNat 48 ((aGet c w.A).toNat + (sGet c w.B).toNat)))) ∧
     (usesDAX w = true → w.D.toNat < 16 → w.A.toNat < 16 →
       CoreDoes (.addai n w) n s (aSet c w.D (BitVec.ofInt 48 ((aGet c w.A).toNat + w.X.toInt)))) ∧
     (usesDA w = true → w.D.toNat < 16 →
       CoreDoes (.mova n w) n s (aSet c w.D (BitVec.ofNat 48 x.toNat)) ∧
       CoreDoes (.setb n w) n s (bSet c w.D (BitVec.ofNat 32 x.toNat))) ∧
     (usesDA w = true → w.A.toNat < 16 →
       CoreDoes (.movs n w) n s (sSet c w.D (BitVec.ofNat 64 (aGet c w.A).toNat)) ∧
       CoreDoes (.getb n w) n s (sSet c w.D (BitVec.ofNat 64 (bGet c w.A).toNat))) ∧
     (usesDX w = true → w.D.toNat < 16 → CoreDoes (.setbi n w) n s (bSet c w.D w.X))) ∧
  (∀ (n : Fin 16) (w : Insn) (s : State), Issues s n w → usesDX w = true →
     let c := s.cores[n]
     let gives := fun (v : Nat) => CoreDoes (.rdsr n w) n s (sSet c w.D (BitVec.ofNat 64 v))
     (w.X = 0 → gives n.val) ∧
     (w.X = 1 → gives (n.val / 4)) ∧
     (w.X = 2 → gives (rd s R.CORE_JOB_TAG n.val)) ∧
     (w.X = 3 → gives (rd s R.GLB_TIMESTAMP_NS 0)) ∧
     (w.X = 4 → gives c.cyc.toNat) ∧
     (w.X = 5 → gives (fillLat s n)) ∧
     (w.X = 6 → gives (arrayRepair s n)) ∧
     (w.X = 7 → gives (rd s R.GLB_SVC_STATE_SHED_STAGE 0)) ∧
     (w.X = 8 → gives c.textBase.toNat)) ∧
  (∀ (c : Core) (i j : BitVec 5) (x : W64) (a : Addr) (b : W32) (p : BitVec 128) (t : BitVec 512) (v : BitVec 4096),
     sGet (sSet c i x) j = (if j = i ∧ i ≠ 0 then x else sGet c j) ∧
     vGet (vSet c i v) j = (if j = i then v else vGet c j) ∧
     (i.toNat < 16 → j.toNat < 16 →
       aGet (aSet c i a) j = (if j = i then a else aGet c j) ∧
       bGet (bSet c i b) j = (if j = i then b else bGet c j) ∧
       tGet (tSet c i t) j = (if j = i then t else tGet c j)) ∧
     (i.toNat < 8 → j.toNat < 8 → pGet (pSet c i p) j = (if j = i ∧ i ≠ 0 then p else pGet c j)))

/-- The scalar instructions, each with its opcode and whether its fields are those of one of its forms (R189, R191,
R192,
R198, R199). -/
def Sys2Proof.scalarForms (n : Fin 16) (w : Insn) : List (Instr × Nat × Bool) :=
  [(.nop n w, 0x00, noFields w), (.add n w, 0x01, usesDAB w), (.sub n w, 0x02, usesDAB w), (.and n w, 0x03, usesDAB w),
   (.or n w, 0x04, usesDAB w), (.xor n w, 0x05, usesDAB w), (.shl n w, 0x06, usesDAB w), (.shr n w, 0x07, usesDAB w),
   (.sra n w, 0x08, usesDAB w), (.mul n w, 0x09, usesDAB w), (.mulh n w, 0x0A, usesDAB w), (.min n w, 0x0B, usesDAB w),
   (.max n w, 0x0C, usesDAB w), (.minu n w, 0x0D, usesDAB w), (.maxu n w, 0x0E, usesDAB w),
   (.sel n w, 0x0F, w.X == 0 && regIn w.C 8), (.cmp n w, 0x10, w.X == 0 && regIn w.D 8 && regIn w.C 6),
   (.addi n w, 0x11, usesDAX w), (.andi n w, 0x12, usesDAX w), (.ori n w, 0x13, usesDAX w), (.xori n w, 0x14, usesDAX w),
   (.shli n w, 0x15, usesDAX w && xBelow w 6), (.shri n w, 0x16, usesDAX w && xBelow w 6),
   (.srai n w, 0x17, usesDAX w && xBelow w 6), (.movhi n w, 0x18, usesDAX w),
   (.cmpi n w, 0x19, w.B == 0 && regIn w.D 8 && regIn w.C 6),
   (.pand n w, 0x1A, usesDAB w && regIn w.D 8 && regIn w.A 8 && regIn w.B 8),
   (.por n w, 0x1B, usesDAB w && regIn w.D 8 && regIn w.A 8 && regIn w.B 8),
   (.pnot n w, 0x1C, usesDA w && regIn w.D 8 && regIn w.A 8),
   (.adda n w, 0x20, usesDAB w && regIn w.D 16 && regIn w.A 16),
   (.addai n w, 0x21, usesDAX w && regIn w.D 16 && regIn w.A 16), (.mova n w, 0x22, usesDA w && regIn w.D 16),
   (.movs n w, 0x23, usesDA w && regIn w.A 16), (.setb n w, 0x24, usesDA w && regIn w.D 16),
   (.setbi n w, 0x25, usesDX w && regIn w.D 16), (.getb n w, 0x26, usesDA w && regIn w.A 16),
   (.rdsr n w, 0x27, usesDX w && decide (w.X.toNat ≤ 8))]

/-- The loads and stores of the scalar unit, each with its opcode and the bytes it moves (R192, R194). -/
def Sys2Proof.accessForms (n : Fin 16) (w : Insn) : List (Instr × Nat × Nat) :=
  [(.ldB n w, 0x30, 1), (.ldBu n w, 0x31, 1), (.ldH n w, 0x32, 2), (.ldHu n w, 0x33, 2), (.ldW n w, 0x34, 4),
   (.ldWu n w, 0x35, 4), (.ldD n w, 0x36, 8), (.stB n w, 0x38, 1), (.stH n w, 0x39, 2), (.stW n w, 0x3A, 4),
   (.stD n w, 0x3B, 8)]

/-- The vector and tracking instructions, each with its opcode and whether its fields are those of one of its forms
(R191,
R195, R197); of a typed instruction the bits of X that it does not use are 0 (the model's reading, log entry 190). -/
def Sys2Proof.vectorForms (n : Fin 16) (w : Insn) : List (Instr × Nat × Bool) :=
  let x := w.X.toNat
  [(.vadd n w, 0x50, w.C == 0 && decide (x ≤ 1)), (.vsub n w, 0x51, w.C == 0 && decide (x ≤ 1)),
   (.vmul n w, 0x52, w.C == 0 && decide (x ≤ 1)), (.vmad n w, 0x53, decide (x ≤ 1)),
   (.vmin n w, 0x54, w.C == 0 && decide (x ≤ 3)), (.vmax n w, 0x55, w.C == 0 && decide (x ≤ 3)),
   (.vand n w, 0x56, usesDAB w), (.vor n w, 0x57, usesDAB w), (.vxor n w, 0x58, usesDAB w), (.vshl n w, 0x59, usesDAB w),
   (.vshr n w, 0x5A, w.C == 0 && (x == 0 || x == 2)), (.vcmp n w, 0x5B, decide (x ≤ 3) && regIn w.D 8 && regIn w.C 6),
   (.vsel n w, 0x5C, w.X == 0 && regIn w.B 8), (.vbcast n w, 0x5D, usesDA w), (.vext n w, 0x5E, usesDAB w),
   (.vins n w, 0x5F, usesDAB w), (.vcvt n w, 0x60, usesDAX w && decide (x ≤ 7)),
   (.vred n w, 0x61, w.B == 0 && w.C == 0 && decide (x ≤ 15)), (.viota n w, 0x62, w.A == 0 && usesDAB w && w.B == 0),
   (.vperm n w, 0x63, usesDAB w), (.vsort n w, 0x70, w.B == 0 && w.C == 0 && decide (x ≤ 7) && regIn w.D 31),
   (.vtopk n w, 0x71, w.C == 0 && decide (x ≤ 7) && regIn w.D 31), (.vmins n w, 0x72, w.B == 0 && w.C == 0 && decide (x ≤ 3)),
   (.vcost n w, 0x73, w.C == 0 && decide (x ≤ 1) && regIn w.A 29)]

/-- The remaining memory instructions, the control, DMA, semaphore, fence and post instructions, and the vector loads and
stores, each with its opcode and whether its fields are those of one of its forms (R191, R192, R194, R195, R198). -/
def Sys2Proof.otherForms (n : Fin 16) (w : Insn) : List (Instr × Nat × Bool) :=
  let desc := usesDAX w && regIn w.A 16 && regIn w.D 16
  [(.ldb n w, 0x3C, desc), (.tld n w, 0x3D, desc), (.tst n w, 0x3E, desc), (.br n w, 0x40, usesX w), (.jal n w, 0x41, usesDX w),
   (.jr n w, 0x42, w.D == 0 && w.B == 0 && w.C == 0 && w.X == 0), (.endJob n w, 0x43, noFields w), (.brk n w, 0x44, noFields w),
   (.dmaq n w, 0x80, w.B == 0 && w.C == 0 && xBelow w 6 && regIn w.A 16), (.dmaw n w, 0x81, usesAX w && xBelow w 6),
   (.fence n w, 0x82, usesX w && xBelow w 4), (.semsig n w, 0x83, usesAX w && semX w),
   (.semwait n w, 0x84, usesAX w && semX w), (.semtry n w, 0x85, w.B == 0 && w.C == 0 && semX w && regIn w.D 8),
   (.post n w, 0x86, usesAX w && bitsOf w.X.toNat 5 3 == 0 && xBelow w 12 && regIn w.A 16)]

def Sys2Proof.vectorAccessForms (n : Fin 16) (w : Insn) : List (Instr × Nat × Bool) :=
  [(.vld n w, 0x68, usesDAX w && regIn w.A 16), (.vst n w, 0x69, usesDAX w && regIn w.A 16),
   (.vldx n w, 0x6A, w.C == 0 && regIn w.A 16), (.vstx n w, 0x6B, w.C == 0 && regIn w.A 16)]

/-- R191: an instruction fetched outside the core's own core memory traps FETCH_RANGE with the PC in ADDR, whatever its
guard and its fields.
R190: a scalar, address, memory or control instruction whose guard is false completes with no effect and no trap,
whatever its fields.
R191: an instruction with a field it does not use other than 0, a register number outside its file or a value outside
its range is ILLEGAL.
R194: an access that the core may not make traps ADDR_RANGE, a misaligned one MISALIGNED; each with the address in
ADDR. Of an access that is both, the model reports ADDR_RANGE (log entry 27); a low bit of X that an instruction does not
use must be 0 too (entry 190); ADDR and INSN of a trap without them are entry 37's. A load that meets poison traps POISON_LOAD
(`LoadAndStoreResults`); field checks of the tensor instructions stand in `TensorIssue`. -/
def Obligations.ChecksBeforeAnInstruction : Prop :=
  (∀ (n : Fin 16) (w : Insn) (s : State), s.phase = .up → s.cores[n].mode = .running →
     ownCoreMem n s.cores[n].pc.toNat = false →
     ∀ i ∈ (scalarForms n w ++ otherForms n w ++ vectorForms n w ++ vectorAccessForms n w).map (·.1) ++ (accessForms n w).map (·.1),
       exec i s = .next (trap s n .fetchRange { addr := s.cores[n].pc.toNat })) ∧
  (∀ (n : Fin 16) (w : Insn) (s : State), Ready s n → guardTrue s.cores[n] w.PG w.PN = false →
     ∀ i ∈ (scalarForms n w ++ otherForms n w).map (·.1) ++ (accessForms n w).map (·.1), CoreDoes i n s s.cores[n]) ∧
  (∀ (n : Fin 16) (w : Insn) (s : State), Issues s n w →
     (∀ p ∈ scalarForms n w ++ otherForms n w, p.2.2 = false → exec p.1 s = .next (trapInsn s n p.2.1 w .illegal 0 0)) ∧
     (∀ p ∈ accessForms n w, (usesDAX w && regIn w.A 16) = false →
       exec p.1 s = .next (trapInsn s n p.2.1 w .illegal 0 0))) ∧
  (∀ (n : Fin 16) (w : Insn) (s : State), Ready s n →
     ∀ p ∈ vectorForms n w ++ vectorAccessForms n w, p.2.2 = false → exec p.1 s = .next (trapInsn s n p.2.1 w .illegal 0 0)) ∧
  (∀ (n : Fin 16) (w : Insn) (s : State), Issues s n w → usesDAX w = true → w.A.toNat < 16 →
     let a := (effAddr s.cores[n] w).toNat
     ∀ p ∈ accessForms n w,
       (ownMem s n a p.2.2 = false → exec p.1 s = .next (trapInsn s n p.2.1 w .addrRange a 0)) ∧
       (ownMem s n a p.2.2 = true → a % p.2.2 ≠ 0 → exec p.1 s = .next (trapInsn s n p.2.1 w .misaligned a 0)))

/-- R192, R194: what each load puts into its register. The bytes come from aA + X, least significant byte first. A load of
a word that holds poison, or an uncorrectable error, traps POISON_LOAD and writes no register; one that meets a
single-bit error gets the corrected bytes, the error met as `OnChipErrors` says. TLD waits while a tensor instruction
names its register.
R192, R194: what each store writes at aA + X, and that it writes nothing else. That an access is made when its instruction
issues is log entry 28; one that leaves the core's own memory in part is entry 19. -/
def Obligations.LoadAndStoreResults : Prop :=
  (∀ (n : Fin 16) (w : Insn) (s : State), Issues s n w → usesDAX w = true → w.A.toNat < 16 →
     let c := s.cores[n]
     let a := (effAddr c w).toNat
     let v := fun (len : Nat) => natOfBytes (peek s a len)
     let loads := fun (i : Instr) (len : Nat) (c' : Core) =>
       Accessible s n a len → ∃ t, exec i s = .next t ∧ Completes n s t c' (readBeatKeys n)
     loads (.ldB n w) 1 (sSet c w.D (BitVec.ofInt 64 (signedOf 8 (v 1)))) ∧
     loads (.ldBu n w) 1 (sSet c w.D (BitVec.ofNat 64 (v 1))) ∧
     loads (.ldH n w) 2 (sSet c w.D (BitVec.ofInt 64 (signedOf 16 (v 2)))) ∧
     loads (.ldHu n w) 2 (sSet c w.D (BitVec.ofNat 64 (v 2))) ∧
     loads (.ldW n w) 4 (sSet c w.D (BitVec.ofInt 64 (signedOf 32 (v 4)))) ∧
     loads (.ldWu n w) 4 (sSet c w.D (BitVec.ofNat 64 (v 4))) ∧
     loads (.ldD n w) 8 (sSet c w.D (BitVec.ofNat 64 (v 8))) ∧
     (w.D.toNat < 16 → loads (.ldb n w) 4 (bSet c w.D (BitVec.ofNat 32 (v 4)))) ∧
     (w.D.toNat < 16 → tInUse c w.D.toNat = false → loads (.tld n w) 64 (tSet c w.D (BitVec.ofNat 512 (v 64)))) ∧
     (w.D.toNat < 16 → tInUse c w.D.toNat = true → exec (.tld n w) s = .next s) ∧
     (∀ p ∈ [(Instr.ldB n w, 0x30, 1, fun v => sSet c w.D (BitVec.ofInt 64 (signedOf 8 v))),
             (.ldBu n w, 0x31, 1, fun v => sSet c w.D (BitVec.ofNat 64 v)),
             (.ldH n w, 0x32, 2, fun v => sSet c w.D (BitVec.ofInt 64 (signedOf 16 v))),
             (.ldHu n w, 0x33, 2, fun v => sSet c w.D (BitVec.ofNat 64 v)),
             (.ldW n w, 0x34, 4, fun v => sSet c w.D (BitVec.ofInt 64 (signedOf 32 v))),
             (.ldWu n w, 0x35, 4, fun v => sSet c w.D (BitVec.ofNat 64 v)),
             (.ldD n w, 0x36, 8, fun v => sSet c w.D (BitVec.ofNat 64 v))],
       let r := memRead s reqDma a p.2.2.1
       ownMem s n a p.2.2.1 = true → a % p.2.2.1 = 0 →
         (r.poison = true → exec p.1 s = .next (trapInsn r.s n p.2.1 w .poisonLoad a 0)) ∧
         (r.poison = false → Does p.1 s (fun t => t.mem = s.mem ∧ t.ecc = r.s.ecc ∧ t.logQ = r.s.logQ ∧
           t.cores[n] = { p.2.2.2 (natOfBytes (peek s a p.2.2.1)) with pc := c.pc + 8 } ∧
           ∀ m : Fin 16, m ≠ n → t.cores[m] = s.cores[m])))) ∧
  (∀ (n : Fin 16) (w : Insn) (s : State), Issues s n w → usesDAX w = true → w.A.toNat < 16 →
     let c := s.cores[n]
     let a := (effAddr c w).toNat
     let stores := fun (i : Instr) (len v : Nat) =>
       Accessible s n a len → ∃ t, exec i s = .next t ∧ Stores n s t a (bytesOf len v)
     stores (.stB n w) 1 (sGet c w.D).toNat ∧
     stores (.stH n w) 2 (sGet c w.D).toNat ∧
     stores (.stW n w) 4 (sGet c w.D).toNat ∧
     stores (.stD n w) 8 (sGet c w.D).toNat ∧
     (w.D.toNat < 16 → stores (.tst n w) 64 (tGet c w.D).toNat))

/-- R178, R191, R192: the control instructions. A target that is not 8-byte aligned, or that lies inside a tensor
instruction, is ILLEGAL: the trap comes at the branch, with its own PC (the model's deduction, log entry 26), and the
words around the target tell whether it lies inside one (log entry 35). END waits with its PC where it stands (log entry
36), and JOB_COMPLETE ends the job. -/
def Obligations.ControlResults : Prop :=
  ∀ (n : Fin 16) (w : Insn) (s : State), Issues s n w →
    let c := s.cores[n]
    let good := fun (pc : Addr) => pc.toNat % 8 = 0 ∧ insideTensor s n pc.toNat = false
    let rel := BitVec.ofInt 48 (c.pc.toNat + 8 * w.X.toInt)
    let abs := BitVec.ofNat 48 (sGet c w.A).toNat
    (usesX w = true →
      (good rel → ∃ t, exec (.br n w) s = .next t ∧ Jumps n s t c rel) ∧
      (¬ good rel → exec (.br n w) s = .next (trapInsn s n 0x40 w .illegal 0 0))) ∧
    (usesDX w = true →
      (good rel → ∃ t, exec (.jal n w) s = .next t ∧
        Jumps n s t (sSet c w.D (BitVec.ofNat 64 ((c.pc.toNat + 8) % 2 ^ 48))) rel) ∧
      (¬ good rel → exec (.jal n w) s = .next (trapInsn s n 0x41 w .illegal 0 0))) ∧
    (w.D = 0 ∧ w.B = 0 ∧ w.C = 0 ∧ w.X = 0 →
      (good abs → ∃ t, exec (.jr n w) s = .next t ∧ Jumps n s t c abs) ∧
      (¬ good abs → exec (.jr n w) s = .next (trapInsn s n 0x42 w .illegal 0 0))) ∧
    (noFields w = true →
      exec (.endJob n w) s =
        .next { s with cores := s.cores.set n { c with mode := .ending, waitSince := nowW s } } ∧
      exec (.brk n w) s = .next (trapInsn s n 0x44 w .brk 0 0))

/-! ## The vector unit -/

/-- R190, R195: the lane operations on INT32 lanes (X[0] = 0) and on bits. Each completes and writes the guarded lanes
of vD alone.
R195, R196: VRED on INT32 lanes. Bits [31:0] of sD are the wrapping sum of the guarded lanes, or the least or the
greatest of them; bits [63:32] are a free value (log entry 23). Where the type bit of X is read is log entry 30. -/
def Obligations.IntegerLanesAndReductions : Prop :=
  (∀ (n : Fin 16) (w : Insn) (s : State), Ready s n →
     let c := s.cores[n]
     let x := fun (i : Nat) => laneOf (vGet c w.A) i
     let y := fun (i : Nat) => laneOf (vGet c w.B) i
     let z := fun (i : Nat) => laneOf (vGet c w.C) i
     let k := fun (i : Nat) => (y i).toNat % 32
     let less := fun (i : Nat) => if w.X.getLsbD 1 then (x i).toNat < (y i).toNat else (x i).toInt < (y i).toInt
     (w.C = 0 → w.X = 0 →
       LanesDo (.vand n w) n w s false (fun i => x i &&& y i) ∧
       LanesDo (.vor n w) n w s false (fun i => x i ||| y i) ∧
       LanesDo (.vxor n w) n w s false (fun i => x i ^^^ y i) ∧
       LanesDo (.vshl n w) n w s false (fun i => x i <<< k i) ∧
       LanesDo (.vadd n w) n w s false (fun i => x i + y i) ∧
       LanesDo (.vsub n w) n w s false (fun i => x i - y i) ∧
       LanesDo (.vmul n w) n w s false (fun i => x i * y i)) ∧
     (w.C = 0 → w.X = 0 ∨ w.X = 2 →
       LanesDo (.vshr n w) n w s false (fun i => if w.X.getLsbD 1 then x i >>> k i else (x i).sshiftRight (k i)) ∧
       LanesDo (.vmin n w) n w s false (fun i => if less i then x i else y i) ∧
       LanesDo (.vmax n w) n w s false (fun i => if less i then y i else x i)) ∧
     (w.X = 0 → LanesDo (.vmad n w) n w s false (fun i => x i * y i + z i))) ∧
  (∀ (n : Fin 16) (w : Insn) (s : State), Ready s n → w.B = 0 → w.C = 0 → w.X.toNat < 16 → w.X.getLsbD 0 = false →
     let c := s.cores[n]
     let x := fun (i : Nat) => laneOf (vGet c w.A) i
     let upTo := fun (a b : W32) => if w.X.getLsbD 1 then a.toNat ≤ b.toNat else a.toInt ≤ b.toInt
     let gives := fun (r : W32) => ∃ hi : W32, CoreDoes (.vred n w) n s (sSet c w.D (hi ++ r))
     (w.X.toNat / 4 % 4 = 0 → gives ((List.range 128).map (fun i => if guarded c w i then x i else 0)).sum) ∧
     (guardedLanes c w ≠ [] → w.X.toNat / 4 % 4 = 1 →
       ∃ r, gives r ∧ r ∈ (guardedLanes c w).map x ∧ ∀ i ∈ guardedLanes c w, upTo r (x i)) ∧
     (guardedLanes c w ≠ [] → w.X.toNat / 4 % 4 = 2 →
       ∃ r, gives r ∧ r ∈ (guardedLanes c w).map x ∧ ∀ i ∈ guardedLanes c w, upTo (x i) r))

/-- R155 to R157, R195: the lane operations on FP32 lanes (X[0] = 1): the exact result of the operation on the values
of the lanes, rounded once. VMIN and VMAX take -0 as below +0 (the model's deduction, log entry 20).
R195, R196: the eight conversions; codes 6 and 7 move bytes between lanes and take no guard, so that they complete
whatever PG and PN hold (the model's reading, log entry 25).
R2, R155, R156: what rounding gives. A nonzero value m * 2^e rounds to the nearest multiple of the unit of its binade,
an exact half to the even one; a result beyond the largest finite value becomes infinity, and one below the smallest
normal value becomes a zero with its sign; a NaN becomes the canonical NaN. The conversion to an integer rounds in the
same way. -/
def Obligations.FloatLanesAndConversions : Prop :=
  (∀ (n : Fin 16) (w : Insn) (s : State), Ready s n → w.X = 1 ∨ w.X = 3 →
     let c := s.cores[n]
     let x := fun (i : Nat) => fpDecode fp32 (laneOf (vGet c w.A) i).toNat
     let y := fun (i : Nat) => fpDecode fp32 (laneOf (vGet c w.B) i).toNat
     let z := fun (i : Nat) => fpDecode fp32 (laneOf (vGet c w.C) i).toNat
     (w.C = 0 → w.X = 1 →
       LanesDo (.vadd n w) n w s true (fun i => fp32Of (fpAdd (x i) (y i))) ∧
       LanesDo (.vsub n w) n w s true (fun i => fp32Of (fpAdd (x i) (fpNeg (y i)))) ∧
       LanesDo (.vmul n w) n w s true (fun i => fp32Of (fpMul (x i) (y i)))) ∧
     (w.C = 0 →
       LanesDo (.vmin n w) n w s true (fun i => fp32Of (fvMin (x i) (y i))) ∧
       LanesDo (.vmax n w) n w s true (fun i => fp32Of (fvMax (x i) (y i)))) ∧
     (w.X = 1 → LanesDo (.vmad n w) n w s true (fun i => fp32Of (fpAdd (fpMul (x i) (y i)) (z i))))) ∧
  (∀ (n : Fin 16) (w : Insn) (s : State), Ready s n → usesDAX w = true →
     let c := s.cores[n]
     let x := fun (i : Nat) => laneOf (vGet c w.A) i
     let sat8 := fun (i : Nat) => clampInt (x i).toInt (-128) 127 % 256
     (w.X = 0 → LanesDo (.vcvt n w) n w s true (fun i => fp32Of (fvOfInt (x i).toInt))) ∧
     (w.X = 1 → LanesDo (.vcvt n w) n w s true (fun i =>
       match fvOf (x i) with
       | .nan => 0
       | .inf neg => if neg then 0x80000000 else 0x7FFFFFFF
       | .fin neg m e => BitVec.ofInt 32 (clampInt (fvToInt neg m e) (-2147483648) 2147483647))) ∧
     (w.X = 2 → LanesDo (.vcvt n w) n w s true (fun i => BitVec.ofNat 32 (fpRound bf16 (fvOf (x i))).bits)) ∧
     (w.X = 3 → LanesDo (.vcvt n w) n w s true (fun i => fp32Of (fpDecode bf16 ((x i).toNat % 65536)))) ∧
     (w.X = 4 → LanesDo (.vcvt n w) n w s true (fun i => BitVec.ofNat 32 (fpRound fp16 (fvOf (x i))).bits)) ∧
     (w.X = 5 → LanesDo (.vcvt n w) n w s true (fun i => fp32Of (fpDecode fp16 ((x i).toNat % 65536)))) ∧
     (w.X = 6 → ∃ t, exec (.vcvt n w) s = .next t ∧ LanesComplete n s t false w.D (fun i =>
       if i < 32 then
         BitVec.ofInt 32 (sat8 (4 * i) + sat8 (4 * i + 1) * 2 ^ 8 + sat8 (4 * i + 2) * 2 ^ 16 + sat8 (4 * i + 3) * 2 ^ 24)
       else 0)) ∧
     (w.X = 7 → ∃ t, exec (.vcvt n w) s = .next t ∧ LanesComplete n s t false w.D (fun i =>
       BitVec.ofInt 32 (BitVec.extractLsb' (8 * i) 8 (vGet c w.A)).toInt))) ∧
  (∀ (neg : Bool) (m : Nat) (e : Int), m ≠ 0 →
     let k := e.natAbs + 200
     let at_ := fun (v : Fv) => match v with
       | .fin s m e => fvUnits s m e (-(k : Int))
       | _ => 0
     let x := fvUnits neg m e (-(k : Int))
     let r := (fpRound fp32 (.fin neg m e)).bits
     let off := fun (b : Nat) => (x - at_ (fpDecode fp32 b)).natAbs
     (2 ^ (k - 126) ≤ x.natAbs → x.natAbs < 2 ^ (k + 128) - 2 ^ (k + 103) →
       r < 2 ^ 32 ∧ (fpDecode fp32 r).isFinite = true ∧
       ∀ b, b < 2 ^ 32 → (fpDecode fp32 b).isFinite = true →
         off r < off b ∨ at_ (fpDecode fp32 b) = at_ (fpDecode fp32 r) ∨ (off r = off b ∧ r % 2 = 0)) ∧
     (2 ^ (k + 128) - 2 ^ (k + 103) ≤ x.natAbs → r = (if neg then 0xFF800000 else 0x7F800000)) ∧
     (2 ^ (k - 126) - 2 ^ (k - 151) ≤ x.natAbs → x.natAbs < 2 ^ (k - 126) → r = (if neg then 0x80800000 else 0x800000)) ∧
     (x.natAbs < 2 ^ (k - 126) - 2 ^ (k - 151) → r = (if neg then 0x80000000 else 0))) ∧
  ((fpRound fp32 .nan).bits = 0x7FC00000 ∧
   (∀ neg : Bool, (fpRound fp32 (.inf neg)).bits = (if neg then 0xFF800000 else 0x7F800000)) ∧
   (∀ (neg : Bool) (m : Nat) (e : Int),
     let k := e.natAbs
     let i := fvToInt neg m e
     let off := (fvUnits neg m e (-(k : Int)) - i * 2 ^ k).natAbs
     2 * off ≤ 2 ^ k ∧ (2 * off = 2 ^ k → i % 2 = 0)) ∧
   (∀ x y : Fv,
     (x.isNan = true ∨ y.isNan = true → fvMin x y = .nan ∧ fvMax x y = .nan) ∧
     (x.isNan = false → y.isNan = false →
       (fvMin x y = x ∨ fvMin x y = y) ∧ fpLt x (fvMin x y) = false ∧ fpLt y (fvMin x y) = false ∧
       (fvMax x y = x ∨ fvMax x y = y) ∧ fpLt (fvMax x y) x = false ∧ fpLt (fvMax x y) y = false)))

/-- R195: selection, broadcast, index, permutation, and the two instructions that move one lane; VEXT and VINS complete
whatever PG and PN hold (the model's reading, log entry 25).
R193, R195: VCMP on INT32 lanes writes the guarded bits of pD; the unguarded bits become 0. On FP32 lanes the
codes 0 to 3 compare the values, and a NaN satisfies only NE; codes 4 and 5 are left free (log entry 21). -/
def Obligations.LaneMovesAndComparisons : Prop :=
  (∀ (n : Fin 16) (w : Insn) (s : State), Ready s n →
     let c := s.cores[n]
     let x := fun (i : Nat) => laneOf (vGet c w.A) i
     let y := fun (i : Nat) => laneOf (vGet c w.B) i
     (w.X = 0 → w.B.toNat < 8 →
       LanesDo (.vsel n w) n w s false (fun i => if (pGet c w.B).getLsbD i then x i else laneOf (vGet c w.C) i)) ∧
     (usesDA w = true → LanesDo (.vbcast n w) n w s false (fun _ => BitVec.ofNat 32 (sGet c w.A).toNat)) ∧
     (w.A = 0 → w.B = 0 → w.C = 0 → w.X = 0 → LanesDo (.viota n w) n w s false (fun i => BitVec.ofNat 32 i)) ∧
     (usesDAB w = true →
       LanesDo (.vperm n w) n w s false (fun i => x ((y i).toNat % 128)) ∧
       CoreDoes (.vext n w) n s (sSet c w.D (BitVec.ofInt 64 (x ((sGet c w.B).toNat % 128)).toInt)) ∧
       ∃ t, exec (.vins n w) s = .next t ∧
         LanesComplete n s t false w.D (fun i =>
           if i = (sGet c w.B).toNat % 128 then BitVec.ofNat 32 (sGet c w.A).toNat else laneOf (vGet c w.D) i))) ∧
  (∀ (n : Fin 16) (w : Insn) (s : State), Ready s n → w.X.toNat < 4 → w.D.toNat < 8 → w.C.toNat < 6 →
     let c := s.cores[n]
     let x := fun (i : Nat) => laneOf (vGet c w.A) i
     let y := fun (i : Nat) => laneOf (vGet c w.B) i
     ∃ p : BitVec 128, CoreDoes (.vcmp n w) n s (pSet c w.D p) ∧
       ∀ i, i < 128 →
         (guarded c w i = false → p.getLsbD i = false) ∧
         (guarded c w i = true → w.X.getLsbD 0 = false → w.X.getLsbD 1 = false →
           p.getLsbD i = condHolds w.C.toNat (x i) (y i)) ∧
         (guarded c w i = true → w.X.getLsbD 0 = false → w.X.getLsbD 1 = true → w.C.toNat ∉ [2, 3] →
           p.getLsbD i = condHolds w.C.toNat (x i) (y i)) ∧
         (guarded c w i = true → w.X.getLsbD 0 = false → w.X.getLsbD 1 = true → w.C.toNat ∈ [2, 3] →
           p.getLsbD i = condHolds (w.C.toNat + 2) (x i) (y i)) ∧
         (guarded c w i = true → w.X.getLsbD 0 = true → w.C.toNat < 4 →
           ((fvOf (x i)).isNan = true ∨ (fvOf (y i)).isNan = true) → p.getLsbD i = decide (w.C.toNat = 1)) ∧
         (guarded c w i = true → w.X.getLsbD 0 = true → (fvOf (x i)).isNan = false → (fvOf (y i)).isNan = false →
           let lt := fpLt (fvOf (x i)) (fvOf (y i))
           let gt := fpLt (fvOf (y i)) (fvOf (x i))
           (w.C.toNat = 0 → p.getLsbD i = (!lt && !gt)) ∧ (w.C.toNat = 1 → p.getLsbD i = (lt || gt)) ∧
           (w.C.toNat = 2 → p.getLsbD i = lt) ∧ (w.C.toNat = 3 → p.getLsbD i = !lt)))

/-- R194, R195: the vector loads and stores move the words of the guarded lanes; the bytes of the others are neither
loaded nor stored. What is checked of lanes that the guard leaves out, and that a trap of one lane stops all of them, is
log entry 31. -/
def Obligations.VectorMemoryResults : Prop :=
  ∀ (n : Fin 16) (w : Insn) (s : State), Ready s n → w.A.toNat < 16 →
    let c := s.cores[n]
    let a := (effAddr c w).toNat
    let lane := fun (i : Nat) => BitVec.ofNat 32 (natOfBytes (peek s (laneAddr c w i) 4))
    let moved := fun (t : State) (v : BitVec 4096) (mem : SMap Byte) =>
      t = { s with cores := s.cores.set n { vSet c w.D v with pc := c.pc + 8 }, regs := t.regs, mem := mem }
    (usesDAX w = true → guardedLanes c w ≠ [] → ownMem s n a 512 = true → a % 64 = 0 → badWords s a 512 = [] →
      storeWf EccState.ok s.ecc →
      (∃ t v, exec (.vld n w) s = .next t ∧ moved t v s.mem ∧
        RegsKept s t (regKey R.CORE_INSNS n.val :: readBeatKeys n) ∧ CountsInsn s t n ∧
        ∀ i, i < 128 → laneOf v i =
          if guarded c w i then BitVec.ofNat 32 (natOfBytes (peek s (a + 4 * i) 4)) else laneOf (vGet c w.D) i) ∧
      (∃ t, exec (.vst n w) s = .next t ∧ moved t (vGet c w.D) t.mem ∧
        RegsKept s t (regKey R.CORE_INSNS n.val :: writeBeatKeys n) ∧ CountsInsn s t n ∧
        (∀ i j, i < 128 → j < 4 → peek t (a + 4 * i + j) 1 =
          if guarded c w i then [BitVec.ofNat 8 ((laneOf (vGet c w.D) i).toNat / 256 ^ j)] else peek s (a + 4 * i + j) 1) ∧
        ∀ x, x < a ∨ a + 512 ≤ x → peek t x 1 = peek s x 1)) ∧
    (w.C = 0 → (∀ i, i < 128 → guarded c w i = true → Accessible s n (laneAddr c w i) 4) →
      (∃ t v, exec (.vldx n w) s = .next t ∧ moved t v s.mem ∧
        RegsKept s t (regKey R.CORE_INSNS n.val :: readBeatKeys n) ∧ CountsInsn s t n ∧
        ∀ i, i < 128 → laneOf v i = if guarded c w i then lane i else laneOf (vGet c w.D) i) ∧
      (∃ t, exec (.vstx n w) s = .next t ∧ moved t (vGet c w.D) t.mem ∧
        RegsKept s t (regKey R.CORE_INSNS n.val :: writeBeatKeys n) ∧ CountsInsn s t n ∧
        (∀ i, i < 128 → guarded c w i = true →
          (∀ k, k < 128 → guarded c w k = true → i < k → laneAddr c w k ≠ laneAddr c w i) →
          peek t (laneAddr c w i) 4 = bytesOf 4 (laneOf (vGet c w.D) i).toNat) ∧
        ∀ x, (∀ i, i < 128 → guarded c w i = true → x < laneAddr c w i ∨ laneAddr c w i + 4 ≤ x) →
          peek t x 1 = peek s x 1))

/-! ## DMA and synchronisation instructions, waits and traps -/

/-- R198: DMAQ and DMAW. A channel that the plan does not name traps DMA_CHANNEL; a full queue stalls DMAQ; otherwise
DMAQ queues the chain at aA, and sD receives the channel's QCOUNT. DMAW begins to wait for the count in sA. The low 6
bits of aA are dropped (the model's choice, log entry 50), and DMAW begins to wait even where the count is reached (log
entry 54). -/
def Obligations.DmaInstructionResults : Prop :=
  ∀ (n : Fin 16) (w : Insn) (s : State), Issues s n w → w.X.toNat < 64 → w.B = 0 → w.C = 0 →
    let c := s.cores[n]
    let k := insnChannel w
    let count := (rd s R.DMA_CH_QCOUNT k.val + 1) % 2 ^ 32
    let chain := BitVec.ofNat 48 ((aGet c w.A).toNat / 64 * 64)
    (w.A.toNat < 16 →
      (c.plan.dmaMask.getLsbD k.val = false → exec (.dmaq n w) s = .next (trapInsn s n 0x80 w .dmaChannel 0 k.val)) ∧
      (c.plan.dmaMask.getLsbD k.val = true → 16 ≤ s.dma[k].queue.length → exec (.dmaq n w) s = .next s) ∧
      (c.plan.dmaMask.getLsbD k.val = true → s.dma[k].queue.length < 16 →
        Does (.dmaq n w) s (fun t =>
          t = { s with
            cores := s.cores.set n { sSet c w.D (BitVec.ofNat 64 count) with
              pc := c.pc + 8, chains := c.chains ++ [(k, BitVec.ofNat 32 count)] }
            dma := s.dma.set k { s.dma[k] with queue := s.dma[k].queue ++ [chain] }
            regs := t.regs } ∧
          RegsKept s t [regKey R.CORE_INSNS n.val, regKey R.DMA_CH_QCOUNT k.val] ∧ CountsInsn s t n ∧
          rd t R.DMA_CH_QCOUNT k.val = count))) ∧
    (w.D = 0 →
      (c.plan.dmaMask.getLsbD k.val = false → exec (.dmaw n w) s = .next (trapInsn s n 0x81 w .dmaChannel 0 k.val)) ∧
      (c.plan.dmaMask.getLsbD k.val = true → exec (.dmaw n w) s = .next { s with
        cores := s.cores.set n { c with mode := .waitDma k (BitVec.ofNat 32 (sGet c w.A).toNat), waitSince := nowW s,
                                        waitFrom := elapsedW s, insn := BitVec.ofNat 64 (encodeInsn 0x81 w) } }))

/-- R198, R201, R202: the semaphore instructions. The amount is X[23:8], or sA[15:0] when that is 0. SEMSIG adds, and
traps SEM_OVERFLOW above 65,535; SEMTRY takes the amount if nothing waits and the count suffices; SEMWAIT joins the
tail of the queue. A semaphore that the plan does not cover traps SEM_RANGE.
R199, R200, R295: FENCE begins to wait for the scopes in X[3:0], all four when they are 0, and for scope DMA flush
reads of 4 B go out on the channels of its completed chains that have host writes unproved, and on no other; POST
begins to wait with its records in the writer of the queue. SEMWAIT, FENCE and POST begin to wait even where they need
not (the model's deduction, log entry 54); the checks of POST are those of log entry 51, and its stalls are counted as
log entry 55 says. -/
def Obligations.SemaphoresFencesAndPosts : Prop :=
  (∀ (n : Fin 16) (w : Insn) (s : State), Issues s n w → semX w = true → w.B = 0 → w.C = 0 →
     let c := s.cores[n]
     let q := clusterOf n
     let k := insnSem w
     let imm := w.X.toNat / 256 % 65536
     let amount := if imm = 0 then (sGet c w.A).toNat % 65536 else imm
     let have_ := (s.clusters[q].sems[k]).toNat
     let withSem := fun (v : Nat) =>
       ({ s with clusters := s.clusters.set q { s.clusters[q] with sems := s.clusters[q].sems.set k (BitVec.ofNat 16 v) } } : State)
     (c.plan.sems ≤ k.val →
       (w.D = 0 → exec (.semsig n w) s = .next (trapInsn s n 0x83 w .semRange 0 k.val) ∧
         exec (.semwait n w) s = .next (trapInsn s n 0x84 w .semRange 0 k.val)) ∧
       (w.D.toNat < 8 → exec (.semtry n w) s = .next (trapInsn s n 0x85 w .semRange 0 k.val))) ∧
     (k.val < c.plan.sems →
       (w.D = 0 →
         (65535 < have_ + amount → exec (.semsig n w) s = .next (trapInsn s n 0x83 w .semOverflow 0 k.val)) ∧
         (have_ + amount ≤ 65535 → Does (.semsig n w) s (Completes n (withSem (have_ + amount)) · c [])) ∧
         exec (.semwait n w) s = .next { s with
           cores := s.cores.set n { c with mode := .waitSem k (BitVec.ofNat 16 amount), waitSince := nowW s,
                                           waitFrom := elapsedW s, insn := BitVec.ofNat 64 (encodeInsn 0x84 w) }
           clusters := s.clusters.set q { s.clusters[q] with
             waiters := s.clusters[q].waiters ++ [{ sem := k, core := n, n := BitVec.ofNat 16 amount }] } }) ∧
       (w.D.toNat < 8 →
         let free := s.clusters[q].waiters.all (fun x => x.sem != k)
         (free = true ∧ amount ≤ have_ →
           Does (.semtry n w) s (Completes n (withSem (have_ - amount)) · (pSet c w.D (BitVec.allOnes 128)) [])) ∧
         (free = false ∨ have_ < amount → Does (.semtry n w) s (Completes n s · (pSet c w.D 0) []))))) ∧
  (∀ (n : Fin 16) (w : Insn) (s : State), Issues s n w →
     let c := s.cores[n]
     let waits := fun (op : Nat) (m : CoreMode) =>
       { c with mode := m, waitSince := nowW s, waitFrom := elapsedW s, insn := BitVec.ofNat 64 (encodeInsn op w) }
     (usesX w = true → w.X.toNat < 16 →
       let flushes := fun (k : Fin 64) => (w.X = 0 ∨ w.X.toNat / 4 % 2 = 1) ∧
         ∃ e ∈ c.chains, e.1 = k ∧ 0 ≤ (BitVec.ofNat 32 (rd s R.DMA_CH_COUNT k.val) - e.2).toInt
       Does (.fence n w) s (fun t =>
         t = { s with
           cores := s.cores.set n (waits 0x82 (.waitFence (if w.X = 0 then 15 else BitVec.ofNat 4 w.X.toNat)))
           dma := t.dma, tags := t.tags, regs := t.regs, linkAt := t.linkAt } ∧
         RegsKept s t [regKey R.DMA_OUTSTANDING_MAX 0, linkKey] ∧
         (∀ k : Fin 64, t.dma[k] = { s.dma[k] with lastHost := t.dma[k].lastHost, flushDue := t.dma[k].flushDue } ∧
           (¬ flushes k → t.dma[k] = s.dma[k])) ∧
         ∃ l : List Tag, t.tags = s.tags ++ l ∧ ∀ x ∈ l, x.len = 4 ∧ x.flush.isSome = true ∧ flushes x.ch)) ∧
     (let m := insnMq w
      let count := w.X.toNat % 32
      let a := (aGet c w.A).toNat
      usesAX w = true → w.X.toNat / 32 % 8 = 0 → w.X.toNat < 2 ^ 12 → w.A.toNat < 16 →
      (count = 0 ∨ 16 < count ∨ c.plan.mqMask.getLsbD m.val = false ∨ rd s R.MQ_CFG_EN m.val = 0 →
        exec (.post n w) s = .next (trapInsn s n 0x86 w .badPost 0 0)) ∧
      (1 ≤ count → count ≤ 16 → c.plan.mqMask.getLsbD m.val = true → rd s R.MQ_CFG_EN m.val ≠ 0 →
        ownMem s n a (64 * count) = true → badWords s a (64 * count) = [] →
        (∀ i, i < count → ∃ b, peek s (a + 64 * i) 1 = [b] ∧ (b = 0x10 ∨ b = 0x12 ∨ b = 0x13 ∨ 0x80 ≤ b.toNat)) →
        Does (.post n w) s (fun t =>
          t = { s with
            cores := s.cores.set n (waits 0x86 (.waitPost m count))
            mqs := s.mqs.set m { s.mqs[m] with waiting := s.mqs[m].waiting ++
              [{ core := some n, bytes := [], count := count, seq := s.order }] }
            order := s.order + 1, regs := t.regs, freeCtr := t.freeCtr, ltr := t.ltr, linkAt := t.linkAt } ∧
          RegsKept s t (regKey R.MQ_STALL_STALLS m.val :: linkKey :: readBeatKeys n)))))

/-- R179, R198 to R202: how waits end. A wait whose condition does not hold goes on unchanged; one whose condition
holds completes its instruction.
R76, R77, R179, R199: a POST completes when the queue has room for the records ahead of it and its own; they take its
place in the writer in order.
A POST waits until its queue has room for all its records and those ahead of it (the model's deduction, log entry
129), and its records are read then (log entry 52); a flush read proves the writes a fence waits for (log entry 203).
R203: a wait that reaches CLU_SEM_TIMEOUT traps, unless it can be satisfied in the cycle in which it expires. -/
def Obligations.HowWaitsEnd : Prop :=
  (∀ (n : Fin 16) (s : State),
     let c := s.cores[n]
     (∀ k target, c.mode = .waitDma k target →
       (0 ≤ (BitVec.ofNat 32 (rd s R.DMA_CH_COUNT k.val) - target).toInt →
         CoreDoes (.dmawSatisfied n) n s { c with mode := .running }) ∧
       ((BitVec.ofNat 32 (rd s R.DMA_CH_COUNT k.val) - target).toInt < 0 → exec (.dmawSatisfied n) s = .next s)) ∧
     (∀ m, c.mode = .waitFence m →
       let met :=
         (m.getLsbD 1 = true → c.tq = [] ∧ c.cur = none) ∧
         (m.getLsbD 2 = true → ∀ e ∈ c.chains,
           0 ≤ (BitVec.ofNat 32 (rd s R.DMA_CH_COUNT e.1.val) - e.2).toInt → unflushed s e.1 = false) ∧
         (m.getLsbD 3 = true → c.posts = 0)
       (met → CoreDoes (.fenceDone n) n s { c with mode := .running }) ∧
       (¬ met → exec (.fenceDone n) s = .next s)) ∧
     (∀ q k, (∀ x ∈ s.clusters[q].waiters, x.sem ≠ k) → exec (.semwaitGrant q k) s = .next s) ∧
     (∀ q k before x after, s.clusters[q].waiters = before ++ x :: after → (∀ y ∈ before, y.sem ≠ k) → x.sem = k →
       x.core = n → clusterOf n = q →
       (s.clusters[q].sems[k].toNat < x.n.toNat → exec (.semwaitGrant q k) s = .next s) ∧
       (x.n.toNat ≤ s.clusters[q].sems[k].toNat →
         Does (.semwaitGrant q k) s (fun t =>
           t = { s with
             cores := s.cores.set n { c with mode := .running, pc := c.pc + 8 }
             clusters := s.clusters.set q { s.clusters[q] with
               sems := s.clusters[q].sems.set k (s.clusters[q].sems[k] - x.n)
               waiters := s.clusters[q].waiters.filter (fun y => y.core ≠ n) }
             mqs := t.mqs, regs := t.regs } ∧
           (∀ (m : Fin 16) (e : Record), e ∈ s.mqs[m].waiting → e.core ≠ some n ∨ e.bytes ≠ [] → e ∈ t.mqs[m].waiting) ∧
           RegsKept s t [regKey R.CORE_INSNS n.val, regKey R.CORE_SEM_WAIT_MAX n.val] ∧ CountsInsn s t n ∧
           rd t R.CORE_SEM_WAIT_MAX n.val =
             max (rd s R.CORE_SEM_WAIT_MAX n.val) (min ((elapsed s - c.waitFrom.toNat) / 1000) (2 ^ 32 - 1)) % 2 ^ 32)))) ∧
  (∀ (n : Fin 16) (m : Fin 16) (count ahead : Nat) (s : State), s.cores[n].mode = .waitPost m count →
     let c := s.cores[n]
     let a := (aGet c (c.insn.extractLsb' 46 5)).toNat
     let recs := (List.range count).map (fun i => ({ core := some n, bytes := peek s (a + 64 * i) 64, count := 1, seq := 0 } : Record))
     recordsAhead n s.mqs[m].waiting = some ahead →
       (mqSize s m < mqUsed s m + ahead + count → exec (.postRetire n) s = .next s) ∧
       (mqUsed s m + ahead + count ≤ mqSize s m → ownMem s n a (64 * count) = true → badWords s a (64 * count) = [] →
         Does (.postRetire n) s (fun t =>
           t = { s with
             cores := s.cores.set n { c with mode := .running, posts := c.posts + count, pc := c.pc + 8 }
             mqs := s.mqs.set m { s.mqs[m] with waiting := fillPost n recs s.mqs[m].waiting }
             regs := t.regs } ∧
           RegsKept s t (regKey R.CORE_INSNS n.val :: readBeatKeys n) ∧ CountsInsn s t n))) ∧
  (∀ (n : Fin 16) (s : State),
     let c := s.cores[n]
     let u := passTo s (c.waitSince.toNat + max 1 (rd s R.CLU_SEM_TIMEOUT (n.val / 4)) * 1000)
     let info := fun (d : Nat) => ({ insn := c.insn.toNat, detail := d } : TrapInfo)
     (∀ k target, c.mode = .waitDma k target →
       (reached u k target = true → exec (.dmaWaitTimeout n) s = exec (.dmawSatisfied n) u) ∧
       (reached u k target = false → exec (.dmaWaitTimeout n) s = .next (trap u n .dmaWaitTimeout (info k.val)))) ∧
     (∀ k amount, c.mode = .waitSem k amount →
       (∀ x, firstWaiter u (clusterOf n) k = some x → x.core = n → x.n = amount → amount ≤ semCount u (clusterOf n) k →
         exec (.semTimeout n) s = exec (.semwaitGrant (clusterOf n) k) u) ∧
       ((∀ x, firstWaiter u (clusterOf n) k = some x → x.core ≠ n ∨ semCount u (clusterOf n) k < amount) →
         Does (.semTimeout n) s (fun t => ∃ u', t = trap u' n .semTimeout (info k.val) ∧
           u' = { u with regs := u'.regs } ∧ RegsKept u u' [regKey R.CORE_SEM_WAIT_MAX n.val]))))

/-- R205, R206: taking a trap. The core stops with its tensor queue discarded, its registers kept; the trap registers
show the cause, the PC and the address; the other cores, the clusters' semaphores and host memory are untouched; a
trap record is written where TRAP_ADDR names the core's own memory or DRAM. TRAP as a command takes one trap per job;
a word with an unassigned OP traps ILLEGAL (R191). The tensor instruction under way is discarded with the queue (the
model's choice, log entry 29); ADDR and INSN of a trap that has none are log entry 37. -/
def Obligations.TrapEntry : Prop :=
  ∀ (n : Fin 16) (cause : TrapCause) (i : TrapInfo) (s : State),
    let c := s.cores[n]
    let t := trap s n cause i
    let ta := match c.job with
      | some j => j.trapAddr.toNat
      | none => 0
    t.cores = s.cores.set n { c with mode := .trapped (BitVec.ofNat 8 (causeCode cause)), tq := [], cur := none } ∧
    rd t R.CORE_TRAP_CAUSE n.val = causeCode cause ∧
    rd t R.CORE_TRAP_PC n.val = c.pc.toNat ∧
    rd t R.CORE_TRAP_ADDR n.val = i.addr % 2 ^ 48 ∧
    rd t R.CORE_TRAP_VALID n.val = 1 ∧
    (rd s R.CORE_TRAPS n.val + 1 < 2 ^ 32 → rd t R.CORE_TRAPS n.val = rd s R.CORE_TRAPS n.val + 1) ∧
    (∀ k : Fin 4, t.clusters[k].sems = s.clusters[k].sems ∧ t.clusters[k].jobs = s.clusters[k].jobs) ∧
    (∀ x ∈ t.clusters[clusterOf n].waiters, x.core ≠ n) ∧
    t.hostMem = s.hostMem ∧ t.dma = s.dma ∧ t.streams = s.streams ∧ t.pools = s.pools ∧ t.pending = s.pending ∧
    (trapAddrOk s n ta = true → peek t ta 64 = trapRecord s n cause i ∧
      ∀ x, x < ta ∨ ta + 64 ≤ x → peek t x 1 = peek s x 1) ∧
    (trapAddrOk s n ta = false → t.mem = s.mem) ∧
    ∀ insn addr detail,
      (canTrap c = true → exec (.trap n cause insn addr detail) s =
        .next (trap s n (if canIssue s n && !opAssigned (insn.toNat / 2 ^ 56) then .illegal else cause) { insn := insn.toNat, addr := addr.toNat, detail := detail.toNat })) ∧
      (canTrap c = false → exec (.trap n cause insn addr detail) s = .next s)

/-! ## Rings and queues of the host -/

/-- R74, R336: the doorbells. A TLP that BAR4 claims, of one or two DWs with every byte enabled, is taken while the
device serves; any other that it claims is counted and recorded as DB_SIZE or DB_REJECTED. A count that is not newer
has no effect; one that would pass what has been written or fetched is logged as RING_COUNT and has no other; with EN
= 0 the count is recorded.
R71, R176, R178, R346: a job descriptor is read from its place in the ring under a tag, and is not while none is free.
It counts at JR_HEAD and gives its job to the cluster it names; one that could not be read ends with a completion
entry of status 0x22, beside what the read itself reports. Disabling the ring ends its undispatched jobs with
CANCELLED and leaves dispatched ones alone. The read of a descriptor begins and ends in one command (the model's
choice, log entry 201), a job on a cluster that is not usable ends with NO_CORE as it is fetched, and the job that is
being loaded is cancelled with the others (log entry 49). -/
def Obligations.DoorbellsAndJobRings : Prop :=
  (∀ (d : DbWrite) (s : State),
     let u := linkUsed s
     let v := d.value.toNat
     let taken := d.beFull = true ∧ (d.dws = 1 ∨ d.dws = 2)
     let fresh := fun (last : Nat) => 1 ≤ subW v last ∧ subW v last < 2 ^ 31
     let rejected := fun (i : Instr) (code : Nat) => Does i s (fun t =>
       t = { u with regs := t.regs, logQ := t.logQ, logLost := t.logLost } ∧
       rd t R.HIF_DB_DROPS 0 = min (rd s R.HIF_DB_DROPS 0 + 1) (2 ^ 32 - 1) ∧
       rd t R.HIF_ERR_LAST_CODE 0 = code ∧ rd t R.HIF_ERR_LAST_VALID 0 = 1)
     let consumer := fun (i : Instr) (head : RegField) (en tail ix unit off : Nat) =>
       let last := rd s head ix
       let moved := fun (t : State) =>
         t = { u with regs := t.regs, ltr := t.ltr } ∧ RegsKept u t [regKey head ix] ∧ rd t head ix = v
       (en = 0 → Does i s moved) ∧
       (en ≠ 0 → fresh last → subW v last ≤ subW tail last → Does i s moved) ∧
       (en ≠ 0 → ¬ fresh last → exec i s = .next u) ∧
       (en ≠ 0 → fresh last → subW tail last < subW v last → exec i s = .next (logIt u planeCtrl 0x20 0x23 3 unit off v))
     (∀ r m, ∀ i ∈ [Instr.jobRingDoorbell r d, .completionRingDoorbell r d, .mqHeadDoorbell m d],
       (claimed s = false → exec i s = .next s) ∧
       (claimed s = true → ¬ taken → rejected i 5) ∧ (claimed s = true → taken → serving s = false → rejected i 6)) ∧
     (claimed s = true → taken → serving s = true →
       (∀ r : Fin 31,
         let last := s.rings[r].prod.toNat
         let moved := { u with rings := s.rings.set r { s.rings[r] with prod := d.value } }
         let room := 2 ^ rd s R.JR_LOG2 r.val
         (rd s R.JR_EN r.val = 0 → exec (.jobRingDoorbell r d) s = .next moved) ∧
         (rd s R.JR_EN r.val ≠ 0 → fresh last → subW v (rd s R.JR_HEAD r.val) ≤ room →
           Does (.jobRingDoorbell r d) s (fun t => t = { moved with ltr := t.ltr, regs := t.regs } ∧ RegsKept u t [])) ∧
         (rd s R.JR_EN r.val ≠ 0 → ¬ fresh last → exec (.jobRingDoorbell r d) s = .next u) ∧
         (rd s R.JR_EN r.val ≠ 0 → fresh last → room < subW v (rd s R.JR_HEAD r.val) →
           exec (.jobRingDoorbell r d) s = .next (logIt u planeCtrl 0x20 0x23 3 46 (r.val * 8) v)) ∧
         consumer (.completionRingDoorbell r d) R.CR_HEAD (rd s R.CR_EN r.val) (rd s R.CR_TAIL r.val) r.val 46
           (0x100 + r.val * 8)) ∧
       (∀ m : Fin 16,
         consumer (.mqHeadDoorbell m d) R.MQ_HEAD (rd s R.MQ_CFG_EN m.val) (rd s R.MQ_TAIL m.val) m.val 47 (0x200 + m.val * 8)))) ∧
  (∀ (r : Fin 31) (s : State),
     let head := rd s R.JR_HEAD r.val
     let place := rd s R.JR_BASE r.val * 2 ^ 12 + head % 2 ^ rd s R.JR_LOG2 r.val * 64
     (canFetchJob s r = true →
       (∀ got, freeTag s 0 = none → exec (.jobDescriptorFetch r got) s = .next s) ∧
       (∀ bs u, hostFetch s 0 place 64 (.data bs) = some u → let j := parseJob bs (some r) none 0
         (clusterUsable u j.cluster = false → Does (.jobDescriptorFetch r (.data bs)) s (fun t =>
           t = { u with
             rings := u.rings.set r { u.rings[r] with waiting := u.rings[r].waiting ++
               [{ tag := j.tag, status := 0x20, core := 0xFF, time := nowW u }] }
             regs := t.regs, ltr := t.ltr, linkAt := t.linkAt } ∧
           RegsKept u t [regKey R.JR_HEAD r.val, linkKey] ∧ rd t R.JR_HEAD r.val = (head + 1) % 2 ^ 32)) ∧
         (clusterUsable u j.cluster = true → Does (.jobDescriptorFetch r (.data bs)) s (fun t =>
           t = { u with
             clusters := u.clusters.set j.cluster { u.clusters[j.cluster] with jobs := u.clusters[j.cluster].jobs ++ [(u.order, j)] }
             order := u.order + 1, regs := t.regs, ltr := t.ltr, linkAt := t.linkAt } ∧
           RegsKept u t [regKey R.JR_HEAD r.val, linkKey] ∧ rd t R.JR_HEAD r.val = (head + 1) % 2 ^ 32))) ∧
       (∀ got ∈ [HostRead.poisoned, .errorStatus, .timeout], ∀ u, hostFetch s 0 place 64 got = some u →
         Does (.jobDescriptorFetch r got) s (fun t =>
           t = { u with
             rings := u.rings.set r { u.rings[r] with waiting := u.rings[r].waiting ++
               [{ tag := BitVec.ofNat 32 head, status := 0x22, core := 0xFF, time := nowW u }] }
             regs := t.regs, ltr := t.ltr, linkAt := t.linkAt, logQ := t.logQ, logLost := t.logLost } ∧
           RegsKept u t [regKey R.JR_HEAD r.val, regKey R.LOG_QDROP_CTRL 0, linkKey] ∧
           rd t R.JR_HEAD r.val = (head + 1) % 2 ^ 32))) ∧
     (canFetchJob s r = false → ∀ got, exec (.jobDescriptorFetch r got) s = .next s) ∧
     Does (.jobRingDisable r) s (fun t =>
       t = { s with clusters := t.clusters, rings := t.rings, regs := t.regs, ltr := t.ltr, linkAt := t.linkAt } ∧
       RegsKept s t [regKey R.JR_EN r.val, linkKey] ∧ rd t R.JR_EN r.val = 0 ∧
       (∀ c : Fin 4, t.clusters[c].jobs = s.clusters[c].jobs.filter (fun e => e.2.ring != some r || e.2.batch.isSome) ∧
         t.clusters[c].sems = s.clusters[c].sems ∧
         t.clusters[c].residents = s.clusters[c].residents.filter (fun x => !(x.flushed && !imageUsed t.clusters[c] x))) ∧
       (∀ k : Fin 31, k ≠ r → t.rings[k] = s.rings[k]) ∧
       ∃ l : List CplEntry, t.rings[r].waiting = s.rings[r].waiting ++ l ∧ ∀ e ∈ l, e.status = 0x21 ∧ e.core = 0xFF))

/-- R73, R76, R78: writing a completion entry and a metadata record. The entry goes to the slot at the tail, with
PHASE 1 on the first pass over the ring and toggling on each wrap; the tail advances; with the interrupt enabled the
vector is pended when the unsignalled entries reach the threshold. A full ring keeps the entry waiting. Entries
written while the interrupt is off count as unsignalled (the model's deduction, log entry 48); a record for a queue
with EN = 0 stays in the writer (log entry 172), and a record that another queue could take earlier goes first (R77).
R78: TIME_THR µs after the first unsignalled entry the vector is pended and nothing is left unsignalled. -/
def Obligations.EntriesAndInterrupts : Prop :=
  (∀ (s : State),
     (∀ (r : Fin 31) (e : CplEntry) (rest : List CplEntry), s.rings[r].waiting = e :: rest →
       let tail := rd s R.CR_TAIL r.val
       let size := 2 ^ rd s R.CR_LOG2 r.val
       let count := s.rings[r].unsignalled + 1
       let full := size ≤ subW tail (rd s R.CR_HEAD r.val)
       let phase : Byte := if tail / size % 2 = 0 then 0x80 else 0
       let signal := rd s R.CR_IRQ_EN r.val ≠ 0 ∧ max 1 (rd s R.CR_COUNT_THR r.val) ≤ count
       (full ∨ rd s R.CR_EN r.val = 0 → exec (.completionEntryWrite r) s = .next s) ∧
       (¬ full → rd s R.CR_EN r.val ≠ 0 → Does (.completionEntryWrite r) s (fun t =>
         t = { s with
           hostMem := storeSetMany 0 s.hostMem (rd s R.CR_BASE r.val * 2 ^ 12 + tail % size * 16)
             (bytesOf 4 e.tag.toNat ++ bytesOf 2 e.status.toNat ++ [phase, e.core] ++ bytesOf 8 e.time.toNat)
           rings := s.rings.set r { s.rings[r] with waiting := rest, unsignalled := if signal then 0 else count,
                                                    firstAt := if count = 1 then elapsedW s else s.rings[r].firstAt }
           pba := if signal then (raiseVector s (rd s R.CR_VECTOR r.val)).pba else s.pba
           posted := splitWrite (maxPayload s) false 16 (rd s R.CR_BASE r.val * 2 ^ 12 + tail % size * 16)
             (bytesOf 4 e.tag.toNat ++ bytesOf 2 e.status.toNat ++ [phase, e.core] ++ bytesOf 8 e.time.toNat)
           regs := t.regs, ltr := t.ltr, linkAt := elapsedW s } ∧
         RegsKept s t [regKey R.CR_TAIL r.val, linkKey] ∧ rd t R.CR_TAIL r.val = (tail + 1) % 2 ^ 32))) ∧
     (∀ (m : Fin 16) (e : Record) (rest : List Record), s.mqs[m].waiting = e :: rest → e.bytes ≠ [] →
       let tail := rd s R.MQ_TAIL m.val
       let size := 2 ^ rd s R.MQ_CFG_LOG2 m.val
       let count := s.mqs[m].unsignalled + 1
       let full := size ≤ subW tail (rd s R.MQ_HEAD m.val)
       let signal := rd s R.MQ_IRQ_IRQ_EN m.val ≠ 0 ∧ max 1 (rd s R.MQ_IRQ_COUNT_THR m.val) ≤ count
       let turn := ∀ (q : Fin 16) (x : Record) (xs : List Record), s.mqs[q].waiting = x :: xs → x.bytes ≠ [] →
         rd s R.MQ_CFG_EN q.val ≠ 0 → subW (rd s R.MQ_TAIL q.val) (rd s R.MQ_HEAD q.val) < 2 ^ rd s R.MQ_CFG_LOG2 q.val → e.seq ≤ x.seq
       (full ∨ rd s R.MQ_CFG_EN m.val = 0 ∨ ¬ turn → exec (.metadataRecordWrite m) s = .next s) ∧
       (¬ full → rd s R.MQ_CFG_EN m.val ≠ 0 → turn → Does (.metadataRecordWrite m) s (fun t =>
         t = { s with
           hostMem := storeSetMany 0 s.hostMem (rd s R.MQ_BASE m.val * 2 ^ 12 + tail % size * 64)
             (withPhase e.bytes (tail / size % 2 == 0))
           mqs := s.mqs.set m { s.mqs[m] with waiting := rest, unsignalled := if signal then 0 else count,
                                              firstAt := if count = 1 then elapsedW s else s.mqs[m].firstAt }
           cores := match e.core with
             | some n => s.cores.set n { s.cores[n] with posts := s.cores[n].posts - 1 }
             | none => s.cores
           pba := if signal then (raiseVector s (rd s R.MQ_IRQ_VECTOR m.val)).pba else s.pba
           posted := splitWrite (maxPayload s) false (withPhase e.bytes (tail / size % 2 == 0)).length
             (rd s R.MQ_BASE m.val * 2 ^ 12 + tail % size * 64) (withPhase e.bytes (tail / size % 2 == 0))
           regs := t.regs, ltr := t.ltr, linkAt := elapsedW s } ∧
         RegsKept s t [regKey R.MQ_TAIL m.val, linkKey] ∧ rd t R.MQ_TAIL m.val = (tail + 1) % 2 ^ 32)))) ∧
  (∀ (s : State),
     (∀ r : Fin 31, rd s R.CR_TIME_THR r.val ≠ 0 → s.rings[r].unsignalled ≠ 0 → rd s R.CR_IRQ_EN r.val ≠ 0 →
       let u := passUntil s (s.rings[r].firstAt.toNat + rd s R.CR_TIME_THR r.val * 1000)
       exec (.crTimeThrExpiry r) s = .next { u with
         rings := u.rings.set r { u.rings[r] with unsignalled := 0 }
         pba := (raiseVector u (rd u R.CR_VECTOR r.val)).pba }) ∧
     (∀ m : Fin 16, rd s R.MQ_IRQ_TIME_THR m.val ≠ 0 → s.mqs[m].unsignalled ≠ 0 → rd s R.MQ_IRQ_IRQ_EN m.val ≠ 0 →
       let u := passUntil s (s.mqs[m].firstAt.toNat + rd s R.MQ_IRQ_TIME_THR m.val * 1000)
       exec (.mqTimeThrExpiry m) s = .next { u with
         mqs := u.mqs.set m { u.mqs[m] with unsignalled := 0 }
         pba := (raiseVector u (rd u R.MQ_IRQ_VECTOR m.val)).pba }))

/-! ## The buffer pools -/

/-- R282, R284, R286, R287: where no older allocation could be granted, an allocation takes the oldest entry of the
ready list; a buffer of a pool with HOLD_EN starts with one hold, in its byte 3. An allocation that cannot be granted
waits if a unit makes it, and answers 0 and is counted if the host makes it. That older allocations are served first
is R286's order; whether the gap of THR_GAP counts a grant before the level was entered is log entry 198.
R287: the level of a pool. It goes up to the highest level whose threshold FREE does not exceed; otherwise it goes
down past every level whose threshold FREE exceeds by more than HYST. -/
def Obligations.PoolAllocationsAndLevels : Prop :=
  (∀ (p : Fin 8) (live : Bool) (i : Nat) (rest : List Nat) (s : State),
     let a := bufAddr s p i
     let host := fun (shows : State → Prop) =>
       (s.phase ≠ .tripped → (live = true → Does (.bpmPoolAllocLive p) s shows) ∧ (live = false → Does (.bpmPoolAlloc p) s shows)) ∧
       (s.phase = .tripped → exec (.bpmPoolAllocLive p) s = .next s ∧ exec (.bpmPoolAlloc p) s = .next s)
     let may := rd s R.BPM_POOL_CFG_EN p.val ≠ 0 ∧ rd s R.BPM_POOL_CFG_INIT_DONE p.val ≠ 0 ∧
       0 < rd s R.BPM_POOL_STATUS_FREE p.val ∧ s.pools[p].ready ≠ [] ∧
       (live = true ∨ (rd s R.BPM_POOL_STATUS_LEVEL p.val ≠ 3 ∧
         ¬ (rd s R.BPM_POOL_STATUS_LEVEL p.val = 2 ∧ inGap s p = true)))
     let noted := fun (x : Pool) (t : State) =>
       t.pools = s.pools.set p { x with okLive := t.pools[p].okLive, okOther := t.pools[p].okOther }
     (inGap s p = true ↔ ∃ g, s.pools[p].lastOther = some g ∧ s.clock.cyc < g + max 1 (rd s R.BPM_POOL_BP_THR_GAP p.val)) ∧
     ((∀ x ∈ s.pools[p].waiting, canAlloc s p x.live = false) →
      (may → s.pools[p].ready = i :: rest →
       let granted := fun (t : State) =>
         t = { s with pools := t.pools, allocOut := t.allocOut, cpl := t.cpl, pba := t.pba, regs := t.regs, freeCtr := t.freeCtr
                      mem := t.mem, ecc := t.ecc, dramChs := t.dramChs, writeback := t.writeback
                      logQ := t.logQ, logLost := t.logLost } ∧
         noted { s.pools[p] with ready := rest, lastOther := if live then s.pools[p].lastOther else some s.clock.cyc } t ∧
         t.allocOut = BitVec.ofNat 48 a ∧
         rd t R.BPM_POOL_STATUS_READY p.val = rest.length % 2 ^ 6 ∧
         rd t R.BPM_POOL_STATUS_FREE p.val = (rd s R.BPM_POOL_STATUS_FREE p.val - 1) % 2 ^ 19 ∧
         rd t R.BPM_POOL_ALLOCS p.val = (rd s R.BPM_POOL_ALLOCS p.val + 1) % 2 ^ 32 ∧
         (rd s R.BPM_POOL_CFG_HOLD_EN p.val = 0 → t.mem = s.mem ∧ t.ecc = s.ecc) ∧
         (rd s R.BPM_POOL_CFG_HOLD_EN p.val ≠ 0 → Stored s t (a + 3) [1])
       (planesRun s = true → Does (.bpmAlloc p live) s (fun t => granted t ∧ t.cpl = s.cpl)) ∧
       host (fun t => granted t ∧
         t.cpl = [{ status := .success, ep := false, bytes := bytesOf 8 (BitVec.ofNat 48 a).toNat }])) ∧
      (¬ may →
       (planesRun s = true → Does (.bpmAlloc p live) s (fun t => t = { s with allocOut := 0, pools := t.pools } ∧
         noted { s.pools[p] with waiting := s.pools[p].waiting ++ [{ live := live, user := .unit }] } t)) ∧
       host (fun t =>
         t = { s with allocOut := 0, regs := t.regs, pools := t.pools,
                      cpl := [{ status := .success, ep := false, bytes := bytesOf 8 0 }] } ∧
         noted s.pools[p] t ∧
         RegsKept s t [regKey R.BPM_POOL_ALLOC_FAILS p.val] ∧
         rd t R.BPM_POOL_ALLOC_FAILS p.val = min (rd s R.BPM_POOL_ALLOC_FAILS p.val + 1) (2 ^ 32 - 1))))) ∧
  (∀ (p : Fin 8) (s : State), rd s R.BPM_POOL_STATUS_LEVEL p.val ≤ 3 →
     let free := rd s R.BPM_POOL_STATUS_FREE p.val
     let now_ := rd s R.BPM_POOL_STATUS_LEVEL p.val
     let thr := levelThreshold s p
     let hyst := rd s R.BPM_POOL_BP_HYST p.val
     let next := nextLevel s p
     ((∃ k, now_ < k ∧ k ≤ 3 ∧ free ≤ thr k) →
       now_ < next ∧ next ≤ 3 ∧ free ≤ thr next ∧ ∀ k, next < k → k ≤ 3 → thr k < free) ∧
     ((∀ k, now_ < k → k ≤ 3 → thr k < free) →
       next ≤ now_ ∧ (∀ k, next < k → k ≤ now_ → thr k + hyst < free) ∧ (next = 0 ∨ free ≤ thr next + hyst)))

/-- R283, R284: free, hold and release of a pointer that passes the checks, from a unit. Without HOLD_EN a free sets
the buffer's bit in the bitmap; with it a hold adds one to byte 3 of the buffer and a release takes one away, the last
of them freeing the buffer.
R283, R286: an operation on a pointer that fails a check is cancelled: recorded, counted and logged, and no buffer
changes. Host operations wait in a queue of 256; beyond it they are dropped and counted. -/
def Obligations.BuffersAndBadPointers : Prop :=
  (∀ (a : Addr) (p : Fin 8) (s : State), planesRun s = true → poolOf s a.toNat = some p → s.pools[p].waiting = [] →
     let i := (a.toNat - poolBase s p) / poolSize s p
     let holds := fun (k : Nat) => peek s (bufAddr s p i + 3) 1 = [BitVec.ofNat 8 k]
     let returned := fun (t : State) =>
       bitmapFree t p i = true ∧
       rd t R.BPM_POOL_STATUS_FREE p.val = (rd s R.BPM_POOL_STATUS_FREE p.val + 1) % 2 ^ 19 ∧
       rd t R.BPM_POOL_FREES p.val = (rd s R.BPM_POOL_FREES p.val + 1) % 2 ^ 32 ∧ t.pools[p].ready = s.pools[p].ready
     let only := fun (t : State) =>
       t = { s with pools := t.pools, pba := t.pba, regs := t.regs, freeCtr := t.freeCtr, mem := t.mem, ecc := t.ecc
                    dramChs := t.dramChs, writeback := t.writeback, logQ := t.logQ, logLost := t.logLost }
     (bpmCheck s .free p a.toNat = 0 → poolHolds s p = false → Does (.bpmFree (.unit a)) s (fun t => only t ∧ returned t)) ∧
     (bpmCheck s .hold p a.toNat = 0 → ∀ k, holds k → k < 255 → Does (.bpmHold (.unit a)) s (fun t =>
       only t ∧ Stored s t (bufAddr s p i + 3) [BitVec.ofNat 8 (k + 1)])) ∧
     (bpmCheck s .release p a.toNat = 0 → ∀ k, 2 ≤ k → k < 256 → holds k → Does (.bpmRelease (.unit a)) s (fun t =>
       only t ∧ Stored s t (bufAddr s p i + 3) [BitVec.ofNat 8 (k - 1)])) ∧
     (bpmCheck s .release p a.toNat = 0 → holds 1 → Does (.bpmRelease (.unit a)) s (fun t => only t ∧ returned t))) ∧
  (∀ (a : Addr) (s : State), planesRun s = true →
     let cancelled := fun (op : BpmOp) (i : Instr) =>
       (∀ code, (poolOf s a.toNat = none ∧ code = 1 ∨
           ∃ p, poolOf s a.toNat = some p ∧ bpmCheck s op p a.toNat = code ∧ code ≠ 0) →
         Does i s (fun t =>
           t = { s with regs := t.regs, logQ := t.logQ, logLost := t.logLost } ∧
           rd t R.BPM_ERR_LAST_PTR 0 = a.toNat ∧ rd t R.BPM_ERR_LAST_CODE 0 = code ∧ rd t R.BPM_ERR_LAST_VALID 0 = 1))
     cancelled .free (.bpmFree (.unit a)) ∧ cancelled .hold (.bpmHold (.unit a)) ∧ cancelled .release (.bpmRelease (.unit a)) ∧
     ∀ op,
       (s.hostOps.length < 256 → exec (.bpmHostOpWrite op a) s = .next { s with hostOps := s.hostOps ++ [(op, a)] }) ∧
       (256 ≤ s.hostOps.length → Does (.bpmHostOpWrite op a) s (fun t =>
         t = { s with regs := t.regs, logQ := t.logQ, logLost := t.logLost } ∧
         rd t R.BPM_OP_DROPS 0 = min (rd s R.BPM_OP_DROPS 0 + 1) (2 ^ 32 - 1))))

/-- R279 to R282, R287, R302: enabling a pool whose configuration is refused sets CFG_ERR; otherwise its statistics
are cleared, and unless it was enabled already its bitmap is to be written, and is all free once it has been. A pool
with an allocated buffer is not disabled. What EN = 1 does to a pool that is enabled already is log entry 171. The ready list is refilled with the lowest free buffers of the lowest bitmap
line that has some. After THR_GAP c-cycles the gap is over, and an allocation that waited has its buffer. -/
def Obligations.PoolLifeCycle : Prop :=
  ∀ (p : Fin 8) (cfg : BitVec 32) (s : State),
    let sized := wr s R.BPM_POOL_CFG_SIZE_LOG2 p.val (bitsOf cfg.toNat 8 5)
    let set_ := if poolEn s p then sized else wrb sized R.BPM_POOL_CFG_HOLD_EN p.val (bitOf cfg.toNat 1)
    let stats := [R.BPM_POOL_MAX_USED, R.BPM_POOL_ALLOCS, R.BPM_POOL_FREES, R.BPM_POOL_ALLOC_WAIT_CYC, R.BPM_POOL_ALLOC_FAILS,
      R.BPM_POOL_ERRORS, R.BPM_POOL_THROTTLE_CYC, R.BPM_POOL_STOP_CYC]
    let runs := planesRun s = true
    let noted := fun (t : State) => t.pools = s.pools.set p { s.pools[p] with okLive := t.pools[p].okLive, okOther := t.pools[p].okOther }
    (runs → poolConfigOk set_ p = false →
      exec (.bpmPoolEnable p cfg) s = .next (wrb set_ R.BPM_POOL_CFG_CFG_ERR p.val true)) ∧
    (runs → poolEn s p = true → poolConfigOk set_ p = true → Does (.bpmPoolEnable p cfg) s (fun t =>
      t = { s with regs := t.regs } ∧ RegsKept sized t (regKey R.BPM_POOL_CFG_CFG_ERR p.val :: stats.map (fun f => regKey f p.val)) ∧
      rd t R.BPM_POOL_CFG_CFG_ERR p.val = 0 ∧ ∀ f ∈ stats, rd t f p.val = 0)) ∧
    (runs → poolEn s p = false → poolConfigOk set_ p = true → Does (.bpmPoolEnable p cfg) s (fun t =>
      t = { s with regs := t.regs, pools := s.pools.set p { ready := [], summary := 0, initialising := true, lastOther := none,
                                                            okLive := none, okOther := none, waiting := s.pools[p].waiting } } ∧
      rd t R.BPM_POOL_CFG_EN p.val = 1 ∧ rd t R.BPM_POOL_CFG_CFG_ERR p.val = 0 ∧ rd t R.BPM_POOL_CFG_INIT_DONE p.val = 0 ∧
      rd t R.BPM_POOL_STATUS_FREE p.val = rd s R.BPM_POOL_COUNT p.val % 2 ^ 19 ∧ ∀ f ∈ stats, rd t f p.val = 0)) ∧
    (runs → s.pools[p].initialising = true → s.pools[p].ready = [] → Does (.bitmapInitDone p) s (fun t =>
      rd t R.BPM_POOL_CFG_INIT_DONE p.val = 1 ∧ t.pools[p].initialising = false ∧ t.pools[p].ready = [] ∧
      (∀ i, i < rd s R.BPM_POOL_COUNT p.val → bitmapFree t p i = true) ∧
      (∀ i, rd s R.BPM_POOL_COUNT p.val ≤ i → i < mapBytes s p * 8 → bitmapFree t p i = false) ∧
      ∀ x, x < poolMap s p ∨ poolMap s p + mapBytes s p ≤ x → peek t x 1 = peek s x 1)) ∧
    (runs → poolEn s p = false → exec (.bpmPoolDisable p) s = .next (wrb s R.BPM_POOL_CFG_CFG_ERR p.val false)) ∧
    (runs → poolEn s p = true → rd s R.BPM_POOL_STATUS_FREE p.val ≠ rd s R.BPM_POOL_COUNT p.val →
      exec (.bpmPoolDisable p) s = .next (wrb s R.BPM_POOL_CFG_CFG_ERR p.val true)) ∧
    (runs → poolEn s p = true → rd s R.BPM_POOL_STATUS_FREE p.val = rd s R.BPM_POOL_COUNT p.val →
      Does (.bpmPoolDisable p) s (fun t => t = { s with regs := t.regs, pools := t.pools } ∧ noted t ∧
        RegsKept s t [regKey R.BPM_POOL_CFG_EN p.val, regKey R.BPM_POOL_CFG_CFG_ERR p.val, regKey R.BPM_POOL_CFG_INIT_DONE p.val] ∧
        rd t R.BPM_POOL_CFG_EN p.val = 0 ∧ rd t R.BPM_POOL_CFG_CFG_ERR p.val = 0)) ∧
    (∀ line, runs → poolEn s p = true → rd s R.BPM_POOL_CFG_INIT_DONE p.val ≠ 0 → s.pools[p].ready.length ≤ 16 → s.pools[p].waiting = [] →
      line < 4096 → s.pools[p].summary.getLsbD line = true → (∀ k, k < line → s.pools[p].summary.getLsbD k = false) →
      let taken := (lineFree s p line).take (32 - s.pools[p].ready.length)
      Does (.readyListRefill p) s (fun t =>
        t.pools[p].ready = s.pools[p].ready ++ taken ∧ (∀ i ∈ taken, bitmapFree t p i = false) ∧
        rd t R.BPM_POOL_STATUS_READY p.val = (s.pools[p].ready ++ taken).length ∧
        (∀ x, x < poolMap s p + line * 64 ∨ poolMap s p + line * 64 + 64 ≤ x → peek t x 1 = peek s x 1) ∧
        t.hostMem = s.hostMem ∧ t.cores = s.cores ∧ t.dma = s.dma)) ∧
    (runs → rd s R.MC_CLK_STATUS_CORE_MHZ 0 = 0 → exec (.thrGapExpiry p) s = .next s) ∧
    (runs → rd s R.MC_CLK_STATUS_CORE_MHZ 0 ≠ 0 →
      let u := if inGap s p then passTime s (gapNs s p) else s
      inGap u p = false ∧
      (s.pools[p].waiting = [] → Does (.thrGapExpiry p) s (fun t => t = { u with pools := t.pools } ∧
        t.pools = u.pools.set p { u.pools[p] with okLive := t.pools[p].okLive, okOther := t.pools[p].okOther })) ∧
      ∀ i rest, s.pools[p].ready = i :: rest → ∀ w ws, s.pools[p].waiting = w :: ws → ws = [] → canAlloc u p w.live = true →
        Does (.thrGapExpiry p) s (fun t =>
          t.pools[p].waiting = [] ∧ t.pools[p].ready = rest ∧ t.allocOut = BitVec.ofNat 48 (bufAddr s p i) ∧
          t.cores = u.cores ∧ t.hostMem = s.hostMem ∧
          (∀ k, w.user = .encoder k → t.veGot[k] = s.veGot[k] ++ [BitVec.ofNat 48 (bufAddr s p i)]) ∧
          ∀ k, w.user = .channel k → t.dma[k].buf = some (BitVec.ofNat 48 (bufAddr s p i))))

/-! ## The DMA subsystem -/

/-- R288, R289, R294, R297 to R299: queueing, starting and completing chains, pausing and resuming a channel, and
pacing. A full queue of 16 drops a chain and counts it; an enabled channel starts its oldest chain at once, on an
event, or against a grant, as its PACE says; a chain that is done counts, grants a start to the channels paced by it
and pends its vector; a pacing configuration that R299 forbids is refused. What host software must not write is taken as
any other write (log entry 38). -/
def Obligations.DmaChains : Prop :=
  ∀ (k : Fin 64) (s : State),
    let q := s.dma[k].queue
    let en := rd s R.DMA_CH_CFG_EN k.val
    let grants := rd s R.DMA_CH_PACE_STAT_GRANTS k.val
    let starts := fun (a : Addr) (rest : List Addr) (but : List Nat) (t : State) =>
      t = { s with dma := s.dma.set k { s.dma[k] with queue := rest, phase := .fetch a }, regs := t.regs, ltr := t.ltr, linkAt := t.linkAt } ∧
        RegsKept s t (linkKey :: but)
    planesRun s = true →
    (∀ x : BitVec 64, q.length < 16 → Does (.dmaChQueue k x) s (fun t =>
      t = { s with dma := s.dma.set k { s.dma[k] with queue := q ++ [BitVec.ofNat 48 (x.toNat / 64 * 64)] }, regs := t.regs } ∧
      RegsKept s t [regKey R.DMA_CH_QCOUNT k.val] ∧
      rd t R.DMA_CH_QCOUNT k.val = (rd s R.DMA_CH_QCOUNT k.val + 1) % 2 ^ 32)) ∧
    (∀ x : BitVec 64, 16 ≤ q.length → Does (.dmaChQueue k x) s (fun t =>
      t = { s with regs := t.regs, logQ := t.logQ, logLost := t.logLost } ∧
      RegsKept s t [regKey R.DMA_CH_DROPS k.val, regKey R.LOG_QDROP_DATA 0] ∧
      rd t R.DMA_CH_DROPS k.val = min (rd s R.DMA_CH_DROPS k.val + 1) (2 ^ 32 - 1))) ∧
    (∀ a rest, q = a :: rest → s.dma[k].phase = .idle → en ≠ 0 →
      (paceMode s k = 0 → Does (.dmaChainStart k) s (starts a rest [])) ∧
      (paceMode s k = 1 → exec (.dmaChainStart k) s = .next s) ∧
      (paceMode s k = 2 → grants = 0 → exec (.dmaChainStart k) s = .next s) ∧
      (paceMode s k = 2 → 0 < grants → grants < 256 → Does (.dmaChainStart k) s (fun t =>
        starts a rest [regKey R.DMA_CH_PACE_STAT_GRANTS k.val] t ∧ rd t R.DMA_CH_PACE_STAT_GRANTS k.val = grants - 1))) ∧
    (s.dma[k].phase ≠ .idle ∨ en = 0 ∨ q = [] → exec (.dmaChainStart k) s = .next s) ∧
    (paceMode s k = 1 →
      let u := passTo s (nextPace s k)
      (s.dma[k].phase ≠ .idle → exec (.paceEvent k) s = .next (bump u R.DMA_CH_PACE_STAT_MISSED k.val 1)) ∧
      (∀ a rest, q = a :: rest → s.dma[k].phase = .idle → en ≠ 0 → Does (.paceEvent k) s (fun t =>
        t = { u with dma := u.dma.set k { u.dma[k] with queue := rest, phase := .fetch a }, ltr := t.ltr, linkAt := t.linkAt, regs := t.regs } ∧
        RegsKept u t [linkKey]))) ∧
    (∀ irq, s.dma[k].phase = .done irq → en ≠ 0 → Does (.dmaChainComplete k) s (fun t =>
      t = { s with dma := s.dma.set k { s.dma[k] with phase := .idle, lastHost := t.dma[k].lastHost, flushDue := t.dma[k].flushDue }
                   tags := t.tags, pba := t.pba, regs := t.regs, ltr := t.ltr, linkAt := t.linkAt } ∧
      (fenceWaits s k = false → t.dma[k].lastHost = s.dma[k].lastHost ∧ t.dma[k].flushDue = s.dma[k].flushDue ∧ t.tags = s.tags) ∧
      rd t R.DMA_CH_COUNT k.val = (rd s R.DMA_CH_COUNT k.val + 1) % 2 ^ 32 ∧
      (∀ j : Fin 64, paceMode s j = 2 → rd s R.DMA_CH_CFG_PACE_SRC j.val = k.val →
        rd t R.DMA_CH_PACE_STAT_GRANTS j.val = min (rd s R.DMA_CH_PACE_STAT_GRANTS j.val + 1) 255) ∧
      t.pba = (if irq = true ∧ rd s R.DMA_CH_IRQ_IRQ_EN k.val ≠ 0 then
        (raiseVector s (rd s R.DMA_CH_IRQ_VECTOR k.val)).pba else s.pba))) ∧
    Does (.dmaChPause k) s (fun t => t = { s with regs := t.regs } ∧
      RegsKept s t [regKey R.DMA_CH_CFG_EN k.val] ∧ rd t R.DMA_CH_CFG_EN k.val = 0) ∧
    Does (.dmaChResume k) s (fun t => t = { s with regs := t.regs } ∧
      RegsKept s t [regKey R.DMA_CH_CFG_EN k.val] ∧ rd t R.DMA_CH_CFG_EN k.val = 1) ∧
    (∀ g : BitVec 8, Does (.paceGrant k g) s (fun t => t = { s with regs := t.regs } ∧
      RegsKept s t [regKey R.DMA_CH_PACE_STAT_GRANTS k.val, regKey R.DMA_CH_PACE_STAT_MISSED k.val] ∧
      rd t R.DMA_CH_PACE_STAT_GRANTS k.val = min (grants + g.toNat) 255)) ∧
    (∀ cfg : BitVec 32, bitOf cfg.toNat 16 = false →
      let pace := bitsOf cfg.toNat 4 2
      let src := bitsOf cfg.toNat 8 6
      let refused := pace ≠ 0 ∧ (k.val < 2 ∨ (pace = 2 ∧ src = k.val))
      Does (.paceConfig k cfg) s (fun t =>
        t = { s with regs := t.regs, logQ := t.logQ, logLost := t.logLost } ∧
        rd t R.DMA_CH_CFG_EN k.val = b2n (bitOf cfg.toNat 0) ∧ rd t R.DMA_CH_CFG_CLASS k.val = bitsOf cfg.toNat 1 3 ∧
        rd t R.DMA_CH_CFG_PACE_SRC k.val = src ∧ rd t R.DMA_CH_CFG_PACE k.val = (if refused then 0 else pace) ∧
        (¬ refused → t.logQ = s.logQ)))

/-- The bytes at an offset of descriptor `d` in `t`, in memory or in host memory, wherever it lies in `s`. -/
def Sys2Proof.DescHolds (s t : State) (d : Desc) (off : Nat) (bs : List Byte) : Prop :=
  (∀ h, regionOf s (d.at_.toNat + off) = .host h → storeGetMany 0 t.hostMem h bs.length = bs) ∧
  (inMemory s (d.at_.toNat + off) bs.length = true → peek t (d.at_.toNat + off) bs.length = bs)

/-- Descriptor `d` of channel `k` has closed with a code and a count of lines: its STATUS (and NEXT and ALLOC_PTR), its
failure on record, and where the channel goes (R293 to R296, R302). -/
def Sys2Proof.DescClosed (k : Fin 64) (d : Desc) (code lines : Nat) (s t : State) : Prop :=
  let goes := if code = 7 ∨ d.next = 0 then ChPhase.done (ctlIrq d) else .fetch d.next
  DescHolds s t d 56 (bytesOf 4 (1 + 2 * b2n (decide (code ≠ 0)) + 16 * code + 65536 * lines)) ∧
  (d.next = 0 → DescHolds s t d 0 (bytesOf 8 0)) ∧
  (∀ b, s.dma[k].buf = some b → DescHolds s t d 48 (bytesOf 8 b.toNat)) ∧
  t.dma[k].phase = (if ctlArrive d then .arrive (if code = 7 then { d with next := 0 } else d) lines else goes) ∧
  (ctlArrive d = false → t.dma[k].buf = none ∧ t.dma[k].staged = []) ∧ t.dma[k].queue = s.dma[k].queue ∧
  (code = 0 → rd t R.DMA_CH_BAD k.val = rd s R.DMA_CH_BAD k.val) ∧
  (code ≠ 0 → rd t R.DMA_CH_BAD k.val = min (rd s R.DMA_CH_BAD k.val + 1) (2 ^ 32 - 1) ∧ rd t R.DMA_CH_BAD_ADDR_ADDR k.val = d.at_.toNat ∧ rd t R.DMA_CH_BAD_ADDR_CODE k.val = code ∧
    rd t R.DMA_CH_BAD_ADDR_VALID k.val = 1)

/-- R290, R291, R295, R296: a descriptor that was read, from host memory under a tag (none is while no tag is free) or
from DRAM, a bag or a core memory. It goes on to wait for earlier writes, to its allocation or to its lines; one with a
reserved field set fails as a whole with code 7, one whose lines name host memory on channels 32 to 63 with code 4; one
that could not be read ends the chain with code 1, 2 or 3.
R282, R286, R291, R294 to R296, R300: how the waits of a descriptor end. Its buffer is the one that the pool granted to it
at once, or grants in its turn; a wait for it that is too long is withdrawn and fails the descriptor with code 6, unless
the pool can grant it by then; a descriptor that waits for the channel's writes goes on once its flush read has proved
them, and so does an ARRIVE descriptor.
Code 4 for a descriptor to be fetched through the host window on channels 32 to 63 and code 1 for one in the register
space are log entry 40, code 4 before any line entry 39; that a FILL descriptor ignores WAIT_PREV is entry 41, that a
flush read proves the writes for WAIT_PREV too entry 203, that a read of a descriptor begins and ends in one command
entry 201, that an allocation the pool can grant is granted in the command that asks for it entry 42. -/
def Obligations.DmaDescriptors : Prop :=
  (∀ (k : Fin 64) (a : Addr) (s : State), s.dma[k].phase = .fetch a → rd s R.DMA_CH_CFG_EN k.val ≠ 0 → planesRun s = true →
     let ended := fun (u : State) (code : Nat) (t : State) =>
       t = { u with dma := u.dma.set k { u.dma[k] with phase := .done false }, regs := t.regs, logQ := t.logQ, logLost := t.logLost } ∧
       rd t R.DMA_CH_BAD k.val = min (rd s R.DMA_CH_BAD k.val + 1) (2 ^ 32 - 1) ∧
       rd t R.DMA_CH_BAD_ADDR_ADDR k.val = a.toNat ∧ rd t R.DMA_CH_BAD_ADDR_CODE k.val = code ∧
       rd t R.DMA_CH_BAD_ADDR_VALID k.val = 1
     let goesOn := fun (got : HostRead) (bs : List Byte) (u : State) =>
       let d := parseDesc a bs
       let fresh := { u.dma[k] with buf := none, staged := [], unsent := [] }
       let p := ctlPool d
       let refused := 32 ≤ k.val ∧ moves d = true ∧ ∃ l, l < d.lines ∧
         ((ctlFill d = false ∧ inHost u (lineSrc d l) = true) ∨ (ctlAlloc d = false ∧ inHost u (lineDst d none l) = true))
       let waits := ctlWaitPrev d = true ∧ moves d = true ∧ ctlFill d = false
       let allocs := ctlAlloc d = true ∧ moves d = true
       let reads := fun (t : State) => RegsKept u t [regKey R.DMA_OUTSTANDING_MAX 0, linkKey]
       let fails := fun (code : Nat) => Does (.dmaDescriptorFetch k got) s (fun t =>
         DescClosed k d code 0 { u with dma := u.dma.set k fresh } t ∧ t.cores = u.cores ∧ (∀ j, j ≠ k → t.dma[j] = u.dma[j]) ∧
         ∀ x, x < a.toNat ∨ a.toNat + 64 ≤ x → peek t x 1 = peek u x 1)
       (descFormatOk bs = false → fails 7) ∧
       (descFormatOk bs = true → refused → fails 4) ∧
       (descFormatOk bs = true → ¬ refused →
         (waits → Does (.dmaDescriptorFetch k got) s (fun t =>
           t = { u with
             dma := u.dma.set k { fresh with phase := .waitPrev d, lastHost := t.dma[k].lastHost, flushDue := t.dma[k].flushDue }
             tags := t.tags, regs := t.regs, linkAt := t.linkAt } ∧ reads t ∧
           (u.dma[k].lastHost = none → t.tags = u.tags) ∧
           (u.dma[k].lastHost.isSome = true → flushTag t k ≠ none ∨ t.dma[k].flushDue = true))) ∧
         (¬ waits → allocs →
           ((∀ x ∈ u.pools[p].waiting, canAlloc u p x.live = false) → canAlloc u p (ctlLive d) = false →
             Does (.dmaDescriptorFetch k got) s (fun t => t = { u with
               dma := u.dma.set k { fresh with phase := .alloc d, allocSince := elapsedW u }
               pools := u.pools.set p { u.pools[p] with
                 waiting := u.pools[p].waiting ++ [{ live := ctlLive d, user := .channel k }]
                 okLive := t.pools[p].okLive, okOther := t.pools[p].okOther } })) ∧
           (∀ i rest, u.pools[p].ready = i :: rest → u.pools[p].waiting = [] → canAlloc u p (ctlLive d) = true →
             Does (.dmaDescriptorFetch k got) s (fun t => t.dma[k].phase = .alloc d ∧
               t.dma[k].buf = some (BitVec.ofNat 48 (bufAddr u p i)) ∧ t.pools[p].ready = rest ∧ t.pools[p].waiting = [] ∧
               t.cores = u.cores ∧ t.hostMem = u.hostMem ∧ ∀ j, j ≠ k → t.dma[j] = u.dma[j]))) ∧
         (¬ waits → ¬ allocs → Does (.dmaDescriptorFetch k got) s (fun t =>
           t = { u with dma := t.dma, tags := t.tags, regs := t.regs, linkAt := t.linkAt } ∧
           reads t ∧ t.dma[k].phase = .move d ∧ t.dma[k].buf = none ∧ ∀ j, j ≠ k → t.dma[j] = u.dma[j])))
     (∀ h, regionOf s a.toNat = .host h →
       (32 ≤ k.val → ∀ got, Does (.dmaDescriptorFetch k got) s (ended s 4)) ∧
       (k.val < 32 →
         (∀ got, freeTag s k = none → exec (.dmaDescriptorFetch k got) s = .next s) ∧
         (∀ u, hostFetch s k h 64 .poisoned = some u → Does (.dmaDescriptorFetch k .poisoned) s (ended u 2)) ∧
         (∀ got ∈ [HostRead.errorStatus, .timeout], ∀ u, hostFetch s k h 64 got = some u → Does (.dmaDescriptorFetch k got) s (ended u 3)) ∧
         ∀ bs u, hostFetch s k h 64 (.data bs) = some u → goesOn (.data bs) bs u)) ∧
     ((∀ h, regionOf s a.toNat ≠ .host h) → ∀ got,
       let r := memRead s reqDma a.toNat 64
       (inMemory s a.toNat 64 = false → Does (.dmaDescriptorFetch k got) s (ended s 1)) ∧
       (inMemory s a.toNat 64 = true →
         (r.poison = true → Does (.dmaDescriptorFetch k got) s (ended r.s 2)) ∧
         (r.poison = false → goesOn got (peek s a.toNat 64) r.s) ∧
         (badWords s a.toNat 64 = [] → r.poison = false) ∧
         (eccCovers s a.toNat = true → storeWf EccState.ok s.ecc → (∃ e ∈ badWords s a.toNat 64, e.2 = .poison) → r.poison = true)))) ∧
  (∀ (k : Fin 64) (d : Desc) (s : State), planesRun s = true →
     let closes := if d.next = 0 then ChPhase.done (ctlIrq d) else .fetch d.next
     let p := ctlPool d
     let none_ := ∀ x ∈ s.pools[p].waiting, canAlloc s p x.live = false
     let mine : PoolWait := { live := ctlLive d, user := .channel k }
     let provable := s.dma[k].lastHost = none ∨ (flushTag s k = none ∧ freeTag s k ≠ none)
     let proved := match flushTag s k with
       | some x => x.flush
       | none => if s.dma[k].lastHost.isSome then some (BitVec.ofNat 32 (rd s R.DMA_CH_COUNT k.val)) else none
     (s.dma[k].phase = .alloc d →
       (∀ b, s.dma[k].buf = some b → none_ → Does (.dmaAllocDst k) s (fun t =>
         t.dma[k].phase = .move d ∧ t.dma[k].buf = some b ∧ t.pools[p].ready = s.pools[p].ready ∧ t.cores = s.cores ∧
         t.hostMem = s.hostMem)) ∧
       (s.dma[k].buf = none → none_ → Does (.dmaAllocDst k) s (fun t => t = { s with pools := t.pools } ∧
         t.pools = s.pools.set p { s.pools[p] with okLive := t.pools[p].okLive, okOther := t.pools[p].okOther })) ∧
       (∀ i rest, s.pools[p].ready = i :: rest → s.dma[k].buf = none → s.pools[p].waiting = [mine] → canAlloc s p (ctlLive d) = true →
         Does (.dmaAllocDst k) s (fun t =>
           t.dma[k].phase = .move d ∧ t.dma[k].buf = some (BitVec.ofNat 48 (bufAddr s p i)) ∧ t.pools[p].ready = rest ∧
           t.pools[p].waiting = [] ∧ t.cores = s.cores ∧ t.hostMem = s.hostMem)) ∧
       (s.dma[k].buf ≠ none → exec (.dmaAllocTimeout k) s = .next s) ∧
       (s.dma[k].buf = none →
         let u := passUntil s (s.dma[k].allocSince.toNat + max 1 (rd s R.DMA_ALLOC_WAIT 0) * 1000)
         ((∀ x ∈ s.pools[p].waiting, canAlloc u p x.live = false) → Does (.dmaAllocTimeout k) s (fun t =>
           DescClosed k d 6 0 s t ∧ t.cores = u.cores ∧
           rd t R.BPM_POOL_ALLOC_FAILS p.val = min (rd s R.BPM_POOL_ALLOC_FAILS p.val + 1) (2 ^ 32 - 1) ∧
           ∀ q : Fin 8, t.pools[q].waiting = s.pools[q].waiting.filter (fun x => x.user != .channel k) ∧
             t.pools[q].ready = s.pools[q].ready)) ∧
         (∀ i rest, s.pools[p].ready = i :: rest → s.pools[p].waiting = [mine] → canAlloc u p (ctlLive d) = true →
           Does (.dmaAllocTimeout k) s (fun t => t.dma[k].phase = .alloc d ∧ t.pools[p].waiting = [] ∧ t.pools[p].ready = rest ∧
             t.dma[k].buf = some (BitVec.ofNat 48 (bufAddr s p i)) ∧ t.cores = u.cores ∧ t.hostMem = s.hostMem)))) ∧
     (s.dma[k].phase = .waitPrev d →
       (provable → Does (.dmaWaitPrevDone k) s (fun t =>
         unflushed t k = false ∧ t.mem = s.mem ∧ t.hostMem = s.hostMem ∧
         t.dma[k].phase = (if ctlAlloc d && moves d then .alloc d else .move d))) ∧
       (¬ provable → Does (.dmaWaitPrevDone k) s (fun t => t.dma[k].phase = .waitPrev d ∧ t.mem = s.mem ∧ t.hostMem = s.hostMem))) ∧
     (∀ lines, s.dma[k].phase = .arrive d lines →
       (provable → (∀ j : Fin 64, s.dma[j].unsent = [] ∧ s.dma[j].flushDue = false) → Does (.dmaArriveFlush k) s (fun t =>
         t = { s with dma := t.dma, cores := t.cores, pba := t.pba, tags := t.tags, regs := t.regs, linkAt := t.linkAt } ∧
         RegsKept s t [regKey R.DMA_OUTSTANDING_MAX 0, linkKey] ∧
         unflushed t k = false ∧ t.dma[k].buf = none ∧ t.dma[k].phase = closes ∧ t.dma[k].queue = s.dma[k].queue ∧
         (∀ j, j ≠ k → t.dma[j] = s.dma[j]) ∧
         ∀ n : Fin 16, t.cores[n] = { s.cores[n] with chains := match proved with
           | some v => s.cores[n].chains.filter (fun e => !(e.1 == k && decide (0 ≤ (v - e.2).toInt)))
           | none => s.cores[n].chains })) ∧
       (¬ provable → Does (.dmaArriveFlush k) s (fun t => t.dma[k].phase = .arrive d lines ∧ t.mem = s.mem ∧ t.hostMem = s.hostMem))))

/-- The bytes of source line `l`: the FILL pattern, what has come from host memory, or what memory holds. -/
def Sys2Proof.lineData (s : State) (k : Fin 64) (d : Desc) (l : Nat) : List Byte :=
  if ctlFill d then (List.range d.lineLen).map (fun i => (bytesOf 4 d.fill.toNat).getD (i % 4) 0)
  else if inHost s (lineSrc d l) then (stagedLine s k d l).map Staged.byte
  else peek s (lineSrc d l) d.lineLen

/-- Source line `l` comes without an error: no poison from the host, no word with an error in memory. -/
def Sys2Proof.LineClean (s : State) (k : Fin 64) (d : Desc) (l : Nat) : Prop :=
  ctlFill d = true ∨ (if inHost s (lineSrc d l) then (stagedLine s k d l).length = d.lineLen ∧ Staged.poison ∉ stagedLine s k d l
    else badWords s (lineSrc d l) d.lineLen = [])

/-- Source line `l` comes poisoned. -/
def Sys2Proof.LinePoisoned (s : State) (k : Fin 64) (d : Desc) (l : Nat) : Prop :=
  ctlFill d = false ∧ (if inHost s (lineSrc d l) then Staged.poison ∈ stagedLine s k d l
    else eccCovers s (lineSrc d l) = true ∧ storeWf EccState.ok s.ecc ∧ ∃ e ∈ badWords s (lineSrc d l) d.lineLen, e.2 = .poison ∨ e.2 = .double)

/-- No line of `d` lies in the register space. -/
def Sys2Proof.NoRegLine (s : State) (k : Fin 64) (d : Desc) : Prop :=
  ∀ l, l < d.lines → (ctlFill d = true ∨ inRegs s (lineSrc d l) = false) ∧ inRegs s (lineDst d s.dma[k].buf l) = false

/-- The first `n` lines of `d` have been copied, and nothing else has changed but the descriptor, where destinations overlap
neither sources, nor the descriptor, nor one another (R291, R292). -/
def Sys2Proof.LinesCopied (k : Fin 64) (d : Desc) (n : Nat) (s t : State) : Prop :=
  let dst := lineDst d s.dma[k].buf
  let apart := fun (a m b j : Nat) => a + m ≤ b ∨ b + j ≤ a
  (∀ l, l < n → apart (dst l) d.lineLen d.at_.toNat 64 ∧ LineClean s k d l ∧
    (∀ m, m < n → (ctlFill d = true ∨ apart (dst l) d.lineLen (lineSrc d m) d.lineLen) ∧ (l ≠ m → apart (dst l) d.lineLen (dst m) d.lineLen))) →
  (∀ l, l < n →
    (∀ h, regionOf s (dst l) = .host h → storeGetMany 0 t.hostMem h d.lineLen = lineData s k d l) ∧
    (inMemory s (dst l) d.lineLen = true → peek t (dst l) d.lineLen = lineData s k d l)) ∧
  (∀ x, apart x 1 d.at_.toNat 64 → (∀ l, l < n → apart x 1 (dst l) d.lineLen) →
    peek t x 1 = peek s x 1 ∧ ∀ h, x = 0x400000000000 + h → storeGet 0 t.hostMem h = storeGet 0 s.hostMem h)

/-- R285, R291 to R296: a descriptor closes. It waits while host reads for its lines are outstanding. With nothing to move it
closes at once; a buffer of its allocation that it may not fill goes back to its pool, and it fails with code 4 or 6.
Otherwise the lines before the first that is not mapped (code 1), is no proper register access (5) or was lost on its way
from the host (3) are copied, from memory, host memory or the FILL pattern to memory or host memory; one that comes
poisoned makes code 2, and is written as poison; FREE_SRC frees the buffer of the source, or fails with code 6. STATUS,
ALLOC_PTR and NEXT are written, the vector is pended or the flush read of ARRIVE sent, and the chain goes on or is done. A
line from or to a register is a read or write of it, and a poisoned one is not performed (log entry 43).
R297: ABORT. The queue is emptied, the chains are counted as complete, the lines already issued stay, and the descriptor in
progress receives STATUS with code 8 and its count of lines; nothing else in memory changes.
How many lines an abort finds issued is its operand (log entry 7); one log entry for each poisoned line is entry 46, what the
host keeps of a poisoned write entry 44, that an abort grants and always logs entry 45, DMA_OUTSTANDING_MAX entry 202. -/
def Obligations.DmaLinesAndAborts : Prop :=
  (∀ (k : Fin 64) (d : Desc) (s : State), s.dma[k].phase = .move d → planesRun s = true →
     let buf := s.dma[k].buf
     let dst := lineDst d buf
     let host := 32 ≤ k.val ∧ ∃ l, l < d.lines ∧ inHost s (dst l) = true
     let hold := ∃ b, buf = some b ∧ poolHolds s (ctlPool d) = true ∧ ∃ l, l < d.lines ∧ dst l ≤ b.toNat + 3 ∧ b.toNat + 3 < dst l + d.lineLen
     let alone := ∀ (p : Fin 8), ∀ x ∈ s.pools[p].waiting, x.user ≠ .channel k
     let moved_ := fun (n : Nat) (s t : State) => rd t R.DMA_CH_BYTES k.val = (rd s R.DMA_CH_BYTES k.val + n) % 2 ^ 64
     let bytes := fun (n : Nat) (t : State) => moved_ n s t
     let stop := fun (l : Nat) => if (ctlFill d = false ∧ mapped s (lineSrc d l) d.lineLen = false) ∨ mapped s (dst l) d.lineLen = false then 1
       else if (ctlFill d = false ∧ regLineOk s (lineSrc d l) d.lineLen = false) ∨ regLineOk s (dst l) d.lineLen = false then 5
       else if .error ∈ stagedLine s k d l then 3 else 0
     let frees := ctlFreeSrc d = true ∧ ctlFill d = false
     let pends := ctlIrq d = true ∧ ctlArrive d = false ∧ d.next ≠ 0
     let plain := fun (s t : State) =>
       t = { s with mem := t.mem, ecc := t.ecc, writeback := t.writeback, hostMem := t.hostMem, dma := t.dma, dramChs := t.dramChs
                    regs := t.regs, tags := t.tags, posted := t.posted, linkAt := t.linkAt, freeCtr := t.freeCtr, pba := t.pba
                    logQ := t.logQ, logLost := t.logLost } ∧
       (∀ j, j ≠ k → t.dma[j] = s.dma[j]) ∧
       t.pba = (if pends ∧ rd s R.DMA_CH_IRQ_IRQ_EN k.val ≠ 0 then (raiseVector s (rd s R.DMA_CH_IRQ_VECTOR k.val)).pba else s.pba)
     (reading s k = true → exec (.dmaDescriptorDone k) s = .next s) ∧
     (reading s k = false → moves d = false → Does (.dmaDescriptorDone k) s (fun t =>
       DescClosed k d 0 0 s t ∧ bytes 0 t ∧ plain s t ∧ LinesCopied k d 0 s t)) ∧
     (reading s k = false → moves d = true → host ∨ hold → alone → Does (.dmaDescriptorDone k) s (fun t =>
       DescClosed k d (if host then 4 else 6) 0 s t ∧ bytes 0 t ∧
       ∀ b p, buf = some b → poolOf s b.toNat = some p → bpmCheck s .free p b.toNat = 0 →
         (poolHolds s p = true → holdCount s p ((b.toNat - poolBase s p) / poolSize s p) ≤ 1) →
         rd t R.BPM_POOL_FREES p.val = (rd s R.BPM_POOL_FREES p.val + 1) % 2 ^ 32)) ∧
     (reading s k = false → moves d = true → ¬ host → ¬ hold → NoRegLine s k d → s.hidden = [] → (frees → alone) →
       ∀ n, n ≤ d.lines → (∀ l, l < n → stop l = 0) → (n < d.lines → stop n ≠ 0) →
         let clean := n = d.lines ∧ ∀ l, l < n → LineClean s k d l
         Does (.dmaDescriptorDone k) s (fun t => bytes (n * d.lineLen) t ∧
           (n < d.lines → DescClosed k d (stop n) n s t) ∧
           (n = d.lines → (∃ l, l < n ∧ LinePoisoned s k d l) → DescClosed k d 2 n s t) ∧
           (clean → ¬ frees → DescClosed k d 0 n s t) ∧
           (clean → frees → (poolOf s d.src.toNat = none → DescClosed k d 6 n s t) ∧ (DescClosed k d 0 n s t ∨ DescClosed k d 6 n s t)) ∧
           (¬ frees ∨ n < d.lines → plain s t ∧ LinesCopied k d n s t))) ∧
     (reading s k = false → s.hidden = [] → d.lines = 1 → 0 < d.lineLen → ¬ host → ¬ hold → ctlFreeSrc d = false → stop 0 = 0 →
       let u := noteMoves s d 1
       let apart := dst 0 + d.lineLen ≤ lineSrc d 0 ∨ lineSrc d 0 + d.lineLen ≤ dst 0
       let done := fun (v : State) (more : State → Prop) => v.dma[k].phase = .move d → Does (.dmaDescriptorDone k) s (fun t =>
         DescClosed k d 0 1 v t ∧ moved_ d.lineLen v t ∧ plain v t ∧ more t)
       let writes := fun (u : State) (off : Nat) (bs : List Byte) => regWrite u off d.lineLen (natOfBytes bs)
       (∀ off, regionOf s (dst 0) = .regs off →
         (LinePoisoned s k d 0 → inRegs s (lineSrc d 0) = false →
           Does (.dmaDescriptorDone k) s (fun t => DescClosed k d 2 0 s t ∧ bytes 0 t ∧ plain s t)) ∧
         (ctlFill d = true ∨ (inHost s (lineSrc d 0) = true ∧ LineClean s k d 0) →
           done (writes u off (lineData s k d 0)) (fun _ => True)) ∧
         (ctlFill d = false → inMemory s (lineSrc d 0) d.lineLen = true → LineClean s k d 0 →
           done (writes (memRead u reqDma (lineSrc d 0) d.lineLen).s off (lineData s k d 0)) (fun _ => True)) ∧
         ∀ from_, ctlFill d = false → regionOf s (lineSrc d 0) = .regs from_ → apart →
           let r := regRead u from_ d.lineLen
           r.1.dma[k].phase = .move d → done (writes r.1 off (bytesOf d.lineLen r.2)) (fun _ => True)) ∧
       (∀ off, ctlFill d = false → regionOf s (lineSrc d 0) = .regs off → dst 0 + d.lineLen ≤ d.at_.toNat ∨ d.at_.toNat + 64 ≤ dst 0 →
         let r := regRead u off d.lineLen
         (inMemory s (dst 0) d.lineLen = true → done r.1 (fun t => peek t (dst 0) d.lineLen = bytesOf d.lineLen r.2)) ∧
         (∀ h, regionOf s (dst 0) = .host h → done r.1 (fun t => storeGetMany 0 t.hostMem h d.lineLen = bytesOf d.lineLen r.2))) ∧
       (LinePoisoned s k d 0 → inMemory s (dst 0) d.lineLen = true → eccCovers s (dst 0) = true →
         d.at_.toNat % 64 = 0 → dst 0 + d.lineLen ≤ d.at_.toNat ∨ d.at_.toNat + 64 ≤ dst 0 →
         Does (.dmaDescriptorDone k) s (fun t => DescClosed k d 2 1 s t ∧ poisonedAt t (dst 0) d.lineLen = true)))) ∧
  (∀ (k : Fin 64) (s : State), planesRun s = true →
     ((∀ d, s.dma[k].phase ≠ .move d) → exec (.dmaDescriptorDone k) s = .next s) ∧
     ∀ issued,
       let chains := b2n (s.dma[k].phase != .idle) + s.dma[k].queue.length
       let aborted := fun (t : State) =>
         t.dma[k].phase = .idle ∧ t.dma[k].queue = [] ∧ t.dma[k].buf = none ∧
         rd t R.DMA_CH_COUNT k.val = (rd s R.DMA_CH_COUNT k.val + chains) % 2 ^ 32 ∧
         rd t R.DMA_CH_ABORTED k.val = min (rd s R.DMA_CH_ABORTED k.val + chains) (2 ^ 32 - 1) ∧
         t.cores = s.cores ∧ (∀ j, j ≠ k → t.dma[j] = s.dma[j]) ∧
         ∀ q : Fin 8, t.pools[q].waiting = s.pools[q].waiting.filter (fun x => x.user != .channel k) ∧
           t.pools[q].ready = s.pools[q].ready
       let left := fun (d : Desc) (n : Nat) (t : State) =>
         DescHolds s t d 56 (bytesOf 4 (1 + 2 + 16 * 8 + 65536 * n)) ∧
         (∀ b, s.dma[k].buf = some b → DescHolds s t d 48 (bytesOf 8 b.toNat)) ∧ LinesCopied k d n s t
       rd s R.DMA_CH_COUNT k.val < 2 ^ 32 →
         ((∀ d, s.dma[k].phase ≠ .move d) → Does (.dmaAbort k issued) s (fun t => aborted t ∧
           (inProgress s k = none → t.mem = s.mem ∧ t.hostMem = s.hostMem) ∧
           ∀ d n, inProgress s k = some (d, n) → DescHolds s t d 56 (bytesOf 4 (1 + 2 + 16 * 8 + 65536 * n)) ∧
             (∀ b, s.dma[k].buf = some b → DescHolds s t d 48 (bytesOf 8 b.toNat)) ∧
             ∀ x, x < d.at_.toNat ∨ d.at_.toNat + 64 ≤ x →
               peek t x 1 = peek s x 1 ∧ ∀ h, x = 0x400000000000 + h → storeGet 0 t.hostMem h = storeGet 0 s.hostMem h)) ∧
         (∀ d, s.dma[k].phase = .move d → NoRegLine s k d →
           let n := if moves d then min issued (issuable s k d) else 0
           Does (.dmaAbort k issued) s (fun t => aborted t ∧ left d n t ∧
             rd t R.DMA_CH_BYTES k.val = (rd s R.DMA_CH_BYTES k.val + n * d.lineLen) % 2 ^ 64)) ∧
         ∀ d, s.dma[k].phase = .move d → ∀ l, l < issuable s k d → lineCode s d s.dma[k].buf l = 0 ∧ l < d.lines ∧
           .waiting ∉ stagedLine s k d l ∧ .error ∉ stagedLine s k d l)

/-! ## The tracking instructions -/

/-- R197: VSORT and VTOPK put the guarded keys in order, equal keys in lane order; VMINS finds the least of them;
VCOST fills a row of costs. An FP32 key is written as R156 and R157 say. The key that fills VTOPK's lanes without one (the
least of the type in the chosen direction, which for integers is read as the last in the order) is log entry 33, the
order of NaN and subnormal keys entry 32. -/
def Obligations.TrackingResults : Prop :=
  ∀ (n : Fin 16) (w : Insn) (s : State), Ready s n → w.C = 0 → w.X.toNat < 8 →
    let c := s.cores[n]
    let x := fun (i : Nat) => laneOf (vGet c w.A) i
    let fp := isFp w
    let written := fun (i : Nat) => if fp then fp32Of (fvOf (x i)) else x i
    let before := fun (i j : Nat) =>
      let a := sortKey w (x i)
      let b := sortKey w (x j)
      if a = b then i < j else if w.X.getLsbD 2 then b < a else a < b
    let sorted := fun (ls : List Nat) => ls.Perm (guardedLanes c w) ∧ ls.Pairwise before
    let gives := fun (i : Instr) (keys indices : Nat → W32) => ∃ t, exec i s = .next t ∧
      VectorComplete n s t c fp (fun j l =>
        if j = w.D then keys l else if j = w.D + 1 then indices l else laneOf (vGet c j) l)
    let finds := fun (index : Nat) (bits : W32) => ∃ t, exec (.vmins n w) s = .next t ∧
      VectorComplete n s t (sSet c w.D (BitVec.ofNat 64 (index * 2 ^ 32 + bits.toNat))) fp (fun j l => laneOf (vGet c j) l)
    let less := fun (i j : Nat) =>
      if fp then fpLt (fvOf (x i)) (fvOf (x j)) = true
      else if w.X.getLsbD 1 then (x i).toNat < (x j).toNat else (x i).toInt < (x j).toInt
    let present := fun (i : Nat) => i < 128 ∧ guarded c w i = true ∧ (fp = true → (fvOf (x i)).isNan = false)
    (w.B = 0 → w.D.toNat < 31 → ∃ ls, sorted ls ∧
      let all := ls ++ (List.range 128).filter (fun i => !guarded c w i)
      gives (.vsort n w) (fun l => written (all.getD l 0)) (fun l => BitVec.ofNat 32 (all.getD l 0))) ∧
    (w.D.toNat < 31 → ∃ ls, sorted ls ∧
      let k := min (min (sGet c w.B).toNat 128) ls.length
      gives (.vtopk n w) (fun l => if l < k then written (ls.getD l 0)
        else if fp then fp32Of .nan
        else if w.X.getLsbD 1 then (if w.X.getLsbD 2 then 0 else 0xFFFFFFFF)
        else if w.X.getLsbD 2 then 0x80000000 else 0x7FFFFFFF)
        (fun l => if l < k then BitVec.ofNat 32 (ls.getD l 0) else 0xFFFFFFFF)) ∧
    (w.B = 0 → w.X.toNat < 4 →
      (∀ i, present i → (∀ j, present j → ¬ less j i) → (∀ j, present j → j < i → less i j) → finds i (written i)) ∧
      ((∀ i, ¬ present i) → finds 0xFFFFFFFF
        (if fp then 0x7F800000 else if w.X.getLsbD 1 then 0xFFFFFFFF else 0x7FFFFFFF))) ∧
    (w.A.toNat < 29 → w.X.toNat < 2 →
      let at_ := fun (k : BitVec 5) (i : Nat) => (laneOf (vGet c (w.A + k)) i).toNat % 65536
      let det := fun (k : Nat) => (sGet c w.B).toNat / 2 ^ (16 * k) % 65536
      let d := fun (a b : Nat) => (a - b) + (b - a)
      let inter := fun (i : Nat) => (min (at_ 2 i) (det 2) - max (at_ 0 i) (det 0)) * (min (at_ 3 i) (det 3) - max (at_ 1 i) (det 1))
      let union := fun (i : Nat) => (at_ 2 i - at_ 0 i) * (at_ 3 i - at_ 1 i) + (det 2 - det 0) * (det 3 - det 1) - inter i
      LanesDo (.vcost n w) n w s false (fun i => BitVec.ofNat 32 (
        if w.X.getLsbD 0 then
          min (2 ^ 31 - 1) (d (at_ 0 i + at_ 2 i) (det 0 + det 2) + d (at_ 1 i + at_ 3 i) (det 1 + det 3))
        else if union i = 0 then 65536 else 65536 - inter i * 65536 / union i)))

/-! ## The issue of tensor instructions -/

/-- The tensor instructions with their operations. -/
def Sys2Proof.tensorForms (n : Fin 16) (w : TensorInsn) : List (Instr × TOp) :=
  [(.tmm n w, .tmm), (.tbd n w, .tbd), (.twg n w, .twg), (.tqk n w, .tqk), (.tpv n w, .tpv), (.tconv n w, .tconv),
   (.tdw n w, .tdw), (.tpool n w, .tpool), (.trsz n w, .trsz)]

/-- A tensor instruction at the PC of a ready core, aligned, guarded and with room in the queue. -/
def Sys2Proof.TensorAtIssue (s : State) (n : Fin 16) (w : TensorInsn) : Prop :=
  Ready s n ∧ ownCoreMem n (s.cores[n].pc.toNat + 31) = true ∧ s.cores[n].pc.toNat % 32 = 0 ∧
    guardTrue s.cores[n] w.PG w.PN = true ∧ s.cores[n].tq.length < 4

/-- The four bound sources of a tensor instruction with their positions (R215). -/
def Sys2Proof.boundSources (w : TensorInsn) : List (BitVec 6 × Nat) := [(w.MSRC, 0), (w.NSRC, 1), (w.KSRC, 2), (w.BSRC, 3)]

/-- Address of a bound in memory (R215). -/
def Sys2Proof.boundAt (c : Core) (x : BitVec 6 × Nat) : Nat := (c.a[(Fin.ofNat 16 x.1.toNat : Fin 16)] + BitVec.ofNat 48 (4 * x.2)).toNat

/-- A bound: a b-register, a word in the core's memory that has no error, or the plan's maximum (R215). -/
def Sys2Proof.boundOf (s : State) (n : Fin 16) (p : PlanEntry) (x : BitVec 6 × Nat) : Option Nat :=
  let c := s.cores[n]
  let a := boundAt c x
  match x.1.toNat / 16 with
  | 0 => some c.b[(Fin.ofNat 16 x.1.toNat : Fin 16)].toNat
  | 1 => if ownMem s n a 4 && a % 4 == 0 && (badWords s a 4).isEmpty then some (natOfBytes (peek s a 4)) else none
  | 2 => if x.1.toNat % 16 = 0 then some ([p.mMax, p.nMax, p.kMax, p.batchMax].getD x.2 0) else none
  | _ => none

/-- What reading the first `k` bounds leaves. -/
def Sys2Proof.boundsRead (s : State) (n : Fin 16) (w : TensorInsn) (k : Nat) : State :=
  ((boundSources w).take k).foldl (fun u x => if x.1.toNat / 16 = 1 then (memRead u n.val (boundAt s.cores[n] x) 4).s else u) s

/-- What the instruction is to the core once its four bounds are read. -/
def Sys2Proof.entryOf (s : State) (n : Fin 16) (op : TOp) (w : TensorInsn) (p : PlanEntry) : Option TEntry :=
  match boundOf s n p (w.MSRC, 0), boundOf s n p (w.NSRC, 1), boundOf s n p (w.KSRC, 2), boundOf s n p (w.BSRC, 3) with
  | some a, some b, some k, some i => some { op := op, insn := w, addr := s.cores[n].pc, M := a, N := b, K := k, BATCH := i }
  | _, _, _, _ => none

/-- Every check of R216 passes, and the shape is not empty. -/
def Sys2Proof.TensorGood (s : State) (n : Fin 16) (p : PlanEntry) (e : TEntry) : Prop :=
  legal n s.cores[n] e p = true ∧ (e.M ≤ p.mMax ∧ e.N ≤ p.nMax ∧ e.K ≤ p.kMax ∧ e.BATCH ≤ p.batchMax) ∧
    extentFault s.cores[n] e p = none ∧ regionFault s n e = none ∧ overlapFault s n e = none ∧ zeroShape s.cores[n] e = false

/-- The instruction completes its issue: the PC is past its 32 bytes, it is counted, and it stands at the tail of its
core's tensor queue with its bounds; a window operator shows its taps (R249). -/
def Sys2Proof.TensorQueued (i : Instr) (n : Fin 16) (w : TensorInsn) (e : TEntry) (s : State) : Prop :=
  let c := s.cores[n]
  let u := boundsRead s n w 4
  let window := [regKey R.WIN_LAST_TAPS_LIVE n.val, regKey R.WIN_LAST_PASSES_LIVE n.val, regKey R.WIN_LAST_LAYOUT n.val,
    regKey R.WIN_TAPS_SKIPPED n.val]
  ∃ t, exec i s = .next t ∧
    t = { u with cores := s.cores.set n { c with pc := c.pc + 32, tq := c.tq ++ [e] }, regs := t.regs } ∧ CountsInsn s t n ∧
    (e.op.window = false → RegsKept u t [regKey R.CORE_INSNS n.val]) ∧
    (e.op.window = true →
      RegsKept u t (regKey R.CORE_INSNS n.val :: window) ∧
      rd t R.WIN_LAST_TAPS_LIVE n.val = (liveTaps c e).length % 2 ^ 10 ∧
      rd t R.WIN_LAST_PASSES_LIVE n.val = livePasses c e % 2 ^ 5 ∧
      rd t R.WIN_LAST_LAYOUT n.val = min 2 (dLayout (xD c e)) ∧
      rd t R.WIN_TAPS_SKIPPED n.val =
        min (rd s R.WIN_TAPS_SKIPPED n.val + (wKH e * wKW e - (liveTaps c e).length)) (2 ^ 32 - 1))

/-- R190, R191, R211, R215, R216, R238, R249: the issue of a tensor instruction, with bounds from registers, memory or
the plan. TMM, TBD, TWG, TQK, TPV, TCONV, TDW, TPOOL and TRSZ each complete: where every check of R216 passes, exec
answers the next state in which the instruction stands in its core's tensor queue with its bounds. One with an empty
shape completes and does nothing, one with a false guard is skipped, a full queue stalls; of the checks the first that
fails gives the trap. The fields that each form must leave 0 are log entry 56, the ADDR of a TENSOR_RANGE trap is entry
57, which channels a region takes entry 71. -/
def Obligations.TensorIssue : Prop :=
  (∀ (n : Fin 16) (w : TensorInsn) (s : State), TensorAtIssue s n w → ∀ p, s.cores[n].plan.entries[w.PLAN.toNat]? = some p →
    (∀ e, entryOf s n .tmm w p = some e → TensorGood s n p e → TensorQueued (.tmm n w) n w e s) ∧
    (∀ e, entryOf s n .tbd w p = some e → TensorGood s n p e → TensorQueued (.tbd n w) n w e s) ∧
    (∀ e, entryOf s n .twg w p = some e → TensorGood s n p e → TensorQueued (.twg n w) n w e s) ∧
    (∀ e, entryOf s n .tqk w p = some e → TensorGood s n p e → TensorQueued (.tqk n w) n w e s) ∧
    (∀ e, entryOf s n .tpv w p = some e → TensorGood s n p e → TensorQueued (.tpv n w) n w e s) ∧
    (∀ e, entryOf s n .tconv w p = some e → TensorGood s n p e → TensorQueued (.tconv n w) n w e s) ∧
    (∀ e, entryOf s n .tdw w p = some e → TensorGood s n p e → TensorQueued (.tdw n w) n w e s) ∧
    (∀ e, entryOf s n .tpool w p = some e → TensorGood s n p e → TensorQueued (.tpool n w) n w e s) ∧
    (∀ e, entryOf s n .trsz w p = some e → TensorGood s n p e → TensorQueued (.trsz n w) n w e s)) ∧
  (∀ (n : Fin 16) (w : TensorInsn) (s : State), Ready s n → ownCoreMem n (s.cores[n].pc.toNat + 31) = true →
    let c := s.cores[n]
    let past := { c with pc := c.pc + 32 }
    ∀ f ∈ tensorForms n w,
      let word := encodeTensor0 f.2.code w
      (c.pc.toNat % 32 ≠ 0 → exec f.1 s = .next (trap s n .illegal { insn := word, addr := c.pc.toNat })) ∧
      (c.pc.toNat % 32 = 0 → guardTrue c w.PG w.PN = false → Does f.1 s (fun t =>
        t = { s with cores := s.cores.set n past, regs := t.regs } ∧
        RegsKept s t [regKey R.CORE_INSNS n.val] ∧ CountsInsn s t n)) ∧
      (c.pc.toNat % 32 = 0 → guardTrue c w.PG w.PN = true → 4 ≤ c.tq.length → exec f.1 s = .next s)) ∧
  (∀ (n : Fin 16) (w : TensorInsn) (s : State), TensorAtIssue s n w →
    s.cores[n].plan.entries[w.PLAN.toNat]? = none → w.MSRC.toNat < 16 → w.NSRC.toNat < 16 → w.KSRC.toNat < 16 → w.BSRC.toNat < 16 →
    ∀ f ∈ tensorForms n w,
      exec f.1 s = .next (trap s n .illegal { insn := encodeTensor0 f.2.code w, addr := s.cores[n].pc.toNat })) ∧
  (∀ (n : Fin 16) (w : TensorInsn) (s : State), TensorAtIssue s n w → ∀ p, s.cores[n].plan.entries[w.PLAN.toNat]? = some p →
    let c := s.cores[n]
    ∀ f ∈ tensorForms n w, ∀ k : Fin 4, (∀ x ∈ (boundSources w).take k, boundOf s n p x ≠ none) →
      ∀ x, (boundSources w)[k.val]? = some x →
      let traps := fun (cause : TrapCause) (addr : Nat) =>
        exec f.1 s = .next (trap (boundsRead s n w k.val) n cause { insn := encodeTensor0 f.2.code w, addr := addr })
      let a := boundAt c x
      (x.1.toNat / 16 = 1 → ownMem s n a 4 = false → traps .addrRange a) ∧
      (x.1.toNat / 16 = 1 → ownMem s n a 4 = true → a % 4 ≠ 0 → traps .misaligned a) ∧
      (32 < x.1.toNat → traps .illegal 0)) ∧
  (∀ (n : Fin 16) (w : TensorInsn) (s : State), TensorAtIssue s n w → ∀ p, s.cores[n].plan.entries[w.PLAN.toNat]? = some p →
    ∀ f ∈ tensorForms n w, ∀ e, entryOf s n f.2 w p = some e →
    let c := s.cores[n]
    let u := boundsRead s n w 4
    let traps := fun (cause : TrapCause) (addr : Nat) =>
      exec f.1 s = .next (trap u n cause { insn := encodeTensor0 f.2.code w, addr := addr })
    (legal n c e p = false → traps .illegal c.pc.toNat) ∧
    (legal n c e p = true →
      (¬ (e.M ≤ p.mMax ∧ e.N ≤ p.nMax ∧ e.K ≤ p.kMax ∧ e.BATCH ≤ p.batchMax) → traps .boundOverPlan c.pc.toNat) ∧
      (e.M ≤ p.mMax ∧ e.N ≤ p.nMax ∧ e.K ≤ p.kMax ∧ e.BATCH ≤ p.batchMax →
        (∀ a, (extentFault c e p <|> regionFault s n e <|> overlapFault s n e) = some a → traps .tensorRange a) ∧
        (extentFault c e p = none → regionFault s n e = none → overlapFault s n e = none → zeroShape c e = true →
          Does f.1 s (fun t =>
            t = { u with cores := s.cores.set n { c with pc := c.pc + 32 }, regs := t.regs, freeCtr := t.freeCtr } ∧
            RegsKept u t [regKey R.CORE_INSNS n.val, regKey R.CORE_ZERO_SHAPE n.val] ∧ CountsInsn s t n ∧
            (rd s R.CORE_ZERO_SHAPE n.val + 1 < 2 ^ 32 →
              rd t R.CORE_ZERO_SHAPE n.val = rd s R.CORE_ZERO_SHAPE n.val + 1 ∧ t.freeCtr = s.freeCtr))))))

/-! ## The tensor sequencer -/

/-- R130, R132, R133, R134, R153, R226, R228, R247: how a tensor instruction starts and ends. The oldest queued one
starts when none is under way and the core feeds steps; with no mask every tile of it is valid; gated arrays ramp up, one
core of a cluster in each c-cycle, the lowest first (R134). It is done once everything is computed and copied. Arrays
that have had no step and no epilogue work for GATE_IDLE c-cycles ramp down; a window reducer uses none. Strict order of
instructions and steps is log entry 66, where a ramp begins and from which level entry 189.
R127, R132, R133, R157 to R160, R164: a reduction step, its operands free of errors, not before the arrays have ramped
up. In the integer path the group accumulator of cell (p, q) takes the products of the step's elements, clamped to 24
bits; in the floating-point path M takes one product, rounded once, and the last step of a tile delivers it. A bubble
step only counts (R241). What BEATS_RD counts of a step is log entry 241, how much ARRAY_CHK_SKIPPED gains entry 210. The cells of one array take the weights of columns 0 to 127 of each slice, those of the other
the columns after them. No byte of memory changes. -/
def Obligations.TensorRunsAndReductions : Prop :=
  (∀ (n : Fin 16) (s : State),
     let c := s.cores[n]
     (∀ e rest, c.tq = e :: rest → c.cur = none → feeds c = true → e.insn.MASK = 0 →
       let ramps := c.ramp.up = false ∧ 0 < totalTiles c e ∧ e.op.reducer = false
       let starts := fun (m : Fin 16) => clusterOf m = clusterOf n ∧ (m = n ∨ (s.cores[m].ramp.up = true ∧ s.clock.cyc ≤ s.cores[m].ramp.start))
       Does (.tensorStart n) s (fun t =>
         t = { s with cores := t.cores, regs := t.regs, freeCtr := t.freeCtr } ∧
         t.cores[n] = { c with tq := rest, cur := some (freshRun e (List.replicate (e.BATCH * tilesM c e) true)), ramp := t.cores[n].ramp } ∧
         (∀ m : Fin 16, m ≠ n → t.cores[m] = { s.cores[m] with ramp := { s.cores[m].ramp with start := t.cores[m].ramp.start } } ∧
           (¬ ramps ∨ ¬ starts m → t.cores[m] = s.cores[m])) ∧
         RegsKept s t ([regKey R.TSQ_CUR_INSN n.val, regKey R.TSQ_MASK_CYC n.val, regKey R.TSQ_TILES_SKIPPED n.val,
           regKey R.ARRAY_STATUS_SHAPE n.val, regKey R.ARRAY_RAMPS n.val] ++ readBeatKeys n) ∧
         rd t R.TSQ_CUR_INSN n.val = e.addr.toNat ∧ rd t R.ARRAY_STATUS_SHAPE n.val = e.insn.SHAPE.toNat ∧
         (¬ ramps → t.cores[n].ramp = c.ramp ∧ rd t R.ARRAY_RAMPS n.val = rd s R.ARRAY_RAMPS n.val) ∧
         (ramps → t.cores[n].ramp = { up := true, start := t.cores[n].ramp.start, groups := rampLevel s.clock.cyc c.ramp } ∧
           (∀ m : Fin 16, starts m → (∀ j : Fin 16, starts j → m ≤ j) → t.cores[m].ramp.start = s.clock.cyc) ∧
           ∀ m j : Fin 16, starts m → starts j → m < j → (∀ i : Fin 16, starts i → i ≤ m ∨ j ≤ i) →
             t.cores[j].ramp.start = t.cores[m].ramp.start + 1))) ∧
     (c.tq = [] ∨ c.cur ≠ none ∨ feeds c = false → exec (.tensorStart n) s = .next s) ∧
     (∀ r, c.cur = some r → c.mode ≠ .stopping →
       (totalTiles c r.e ≤ r.tile → r.closes = [] → r.latchA = none → r.latchB = none →
         (r.e.insn.COPY = true → ∀ t, r.copyTile ≤ t → t < totalTiles c r.e → r.valid.getD (t / tilesN c r.e) false = true) →
         exec (.tensorDone n) s = .next { s with cores := s.cores.set n { c with cur := none } }) ∧
       (r.tile < totalTiles c r.e ∨ r.closes ≠ [] ∨ r.latchA ≠ none ∨ r.latchB ≠ none → exec (.tensorDone n) s = .next s)) ∧
     (planesRun s = true → arrayBusy c 0 = false → arrayBusy c 1 = false → willFeed c = false → c.ramp.up = true →
       let u := passToCyc s (c.busyAt + max 1 (rd s R.ARRAY_CTL_GATE_IDLE n.val))
       exec (.arrayGateIdle n) s = .next { u with cores := u.cores.set n { u.cores[n] with
         ramp := { up := false, start := u.clock.cyc, groups := rampLevel u.clock.cyc u.cores[n].ramp } } }) ∧
     (arrayBusy c 0 = true ∨ arrayBusy c 1 = true ∨ willFeed c = true ∨ c.ramp.up = false → exec (.arrayGateIdle n) s = .next s) ∧
     (c.cur = none → arrayBusy c 0 = false ∧ arrayBusy c 1 = false ∧ willFeed c = false) ∧
     (∀ r, c.cur = some r →
       (r.e.op.reducer = true → arrayBusy c 0 = false ∧ arrayBusy c 1 = false ∧ willFeed c = false) ∧
       (willFeed c = true ↔ feeds c = true ∧ r.e.op.reducer = false ∧ r.tile < totalTiles c r.e) ∧
       (r.e.op.reducer = false → (arrayBusy c 0 = true ↔ (feeds c = true ∧ r.step ≠ 0) ∨ r.closes ≠ [] ∨ r.latchA ≠ none)))) ∧
  ((∀ (n : Fin 16) (r : TRun) (s : State),
     let c := s.cores[n]
     c.cur = some r → feeds c = true → r.e.op.reducer = false → r.tile < totalTiles c r.e → r.step < stepsOf c r.e →
     stepWork c r.e r.step = none → Does (.reductionStep n) s (fun t =>
       t = { s with cores := s.cores.set n { c with cur := some { r with step := r.step + 1 }, busyAt := s.clock.cyc }, regs := t.regs } ∧
       RegsKept s t [regKey R.ARRAY_STEPS n.val, regKey R.WIN_BUBBLES n.val] ∧
       rd t R.ARRAY_STEPS n.val = (rd s R.ARRAY_STEPS n.val + 1) % 2 ^ 64)) ∧
   ∀ (n : Fin 16) (r : TRun) (w : StepWork) (s : State),
     let c := s.cores[n]
     let e := r.e
     let last := r.step + 1 = stepsOf c e
     let b := (tileAt c e r.tile).1
     let mt := (tileAt c e r.tile).2.1
     let nt := (tileAt c e r.tile).2.2
     c.cur = some r → feeds c = true → e.op.reducer = false → r.tile < totalTiles c e → r.step < stepsOf c e →
     stepWork c e r.step = some w →
     cleanSpans s (stepSpans c e b mt nt w (r.openGroup != some w.group)) →
     (∀ v, stepRest e w = some v → cleanSpans s (stepSpans c e b mt nt v true)) →
     (integerPath e = true → r.openGroup = some w.group ∨ ∀ q ∈ r.closes, q.bank ≠ r.bank) →
     (integerPath e = true → stepRest e w = none ∨ ∀ q ∈ r.closes, q.bank = r.bank) →
     (integerPath e = false → last → r.latchA = none ∧ r.latchB = none) →
     let row := fun (p : Nat) => p % tileRows e
     let slice := fun (p : Nat) => p / tileRows e
     let u := awaitRamp s n
     let adds := fun (w : StepWork) (a p q : Nat) =>
       ((stepKs w).map (fun k => actInt s c e b mt nt w (row p) k * wgtInt s c e b nt w a (slice p) q k)).sum
     let g := fun (x : ArraySt) (k : Bool) (p q : Nat) => ((bankOf x k).getD p []).getD q 0
     let gains := fun (t : State) (k : Bool) (v : StepWork) => ∀ p q, p < 128 → q < 128 →
       g t.cores[n].arrA k p q = clampInt (g c.arrA k p q + adds v 0 p q) (-(2 ^ 23)) (2 ^ 23 - 1) ∧
       g t.cores[n].arrB k p q = clampInt (g c.arrB k p q + adds v 1 p q) (-(2 ^ 23)) (2 ^ 23 - 1)
     let m := fun (x : List (List W32)) (p q : Nat) => (x.getD p []).getD q 0
     Does (.reductionStep n) s (fun t =>
       t = { u with
         cores := u.cores.set n { u.cores[n] with arrA := t.cores[n].arrA, arrB := t.cores[n].arrB, cur := t.cores[n].cur
                                                  busyAt := u.clock.cyc },
         regs := t.regs, freeCtr := t.freeCtr, logQ := t.logQ, logLost := t.logLost } ∧
       RegsKept u t ([regKey R.ARRAY_STEPS n.val, regKey R.WIN_GATHER_STEPS n.val, regKey R.NUM_GSAT n.val, regKey R.NUM_FLUSH n.val,
         regKey R.ARRAY_CHK_SKIPPED n.val, regKey R.LOG_QDROP_DATA 0, regKey R.TSQ_TILES_COMPUTED n.val,
         regKey R.TSQ_TILES_SKIPPED n.val] ++ readBeatKeys n) ∧
       rd t R.ARRAY_STEPS n.val = (rd s R.ARRAY_STEPS n.val + 1) % 2 ^ 64 ∧
       (integerPath e = true → gains t r.bank w ∧ ∀ v, stepRest e w = some v → gains t (!r.bank) v) ∧
       (integerPath e = false → ∀ p q, p < 128 → q < 128 →
         let f := fun (x : ArraySt) (a : Nat) => fp32Of (fpAdd (fvOf (m x.m p q))
           (fpMul (actFp s c e b mt nt w (row p) w.k) (wgtFp s c e b nt w a (slice p) q w.k)))
         m (if last then t.cores[n].arrA.latch else t.cores[n].arrA.m) p q = f c.arrA 0 ∧
         m (if last then t.cores[n].arrB.latch else t.cores[n].arrB.m) p q = f c.arrB 1) ∧
       (¬ last → ∃ r', t.cores[n].cur = some r' ∧ r'.e = e ∧ r'.tile = r.tile ∧ r'.step = r.step + 1 ∧ r'.valid = r.valid ∧
         r'.latchA = r.latchA ∧ r'.latchB = r.latchB ∧ r'.copyTile = r.copyTile) ∧
       (last → ∃ r', t.cores[n].cur = some r' ∧ r'.e = e ∧ r.tile < r'.tile ∧ r'.step = 0 ∧ r'.valid = r.valid ∧
         (∀ y, r.tile < y → y < r'.tile → r.valid.getD (y / tilesN c e) false = false) ∧
         (integerPath e = false → r'.latchA = some (r.tile, 0) ∧ r'.latchB = some (r.tile, 0)))) ∧
     (c.ramp.up = true → c.ramp.start + 4 * (8 - c.ramp.groups) ≤ s.clock.cyc → u = s))

/-- R138 to R140, R161 to R163, R165: a group close. A wrong tag and a wrong checksum each fault the instruction.
Otherwise M of each cell takes G times the combined scale, rounded once, where the scales of a slice are the product
of the operands' scales; the bank is empty again, and the last close of a tile delivers M.
R126, R165 to R170, R219, R224: the delivery of one row of a latch to an uncompressed destination, its operands and
its destination free of errors. Each element of the row below the bounds is written at its own place, every other byte
is as it was, and the latch goes to its next row. When scales and trailers are read is log entry 67, overflow of the
affine step entry 62, a CONST column entry 63, a non-finite bound of CLAMP entry 65. -/
def Obligations.GroupsAndEpilogues : Prop :=
  (∀ (n : Fin 16) (r : TRun) (q : PendingClose) (rest : List PendingClose) (s : State),
     let c := s.cores[n]
     let e := r.e
     let b := (tileAt c e q.tile).1
     let nt := (tileAt c e q.tile).2.2
     let r' := { r with closes := rest }
     let after := if q.last then { r' with latchA := some (q.tile, 0), latchB := some (q.tile, 0) } else r'
     c.cur = some r → r.closes = q :: rest →
     let free := q.last = true → r.latchA = none ∧ r.latchB = none
     let differs := fun (a : Nat) => CheckRes.differs ∈ (checksOf s n e a q.bank).1 ++ (checksOf s n e a q.bank).2
     let checked := [regKey R.ARRAY_CHK_DONE n.val, regKey R.ARRAY_CHK_SKIPPED n.val]
     let scale := fun (a p col : Nat) => (round32 true (fpMul (orZero (f32 (dScale (xD c e))))
       (orZero (sliceScale s c e nt q.group a (p / tileRows e) col)))).1
     let g := fun (x : ArraySt) (p col : Nat) => ((bankOf x q.bank).getD p []).getD col 0
     let m := fun (x : List (List W32)) (p col : Nat) => (x.getD p []).getD col 0
     (¬ free → exec (.groupClose n) s = .next s) ∧
     (free →
       (∀ a, a < 2 → tagWrong s c e b nt q.group a = true → (∀ a', a' < a → tagWrong s c e b nt q.group a' = false) →
         exec (.groupClose n) s = .next (tensorFault s n .scaleSyncFault { arr := a } r' q.tile)) ∧
       ((∀ a, a < 2 → tagWrong s c e b nt q.group a = false) →
         (checking s n e = true → (∃ a, a < 2 ∧ differs a) → ∃ u at_,
           u = { s with regs := u.regs, freeCtr := u.freeCtr } ∧ RegsKept s u checked ∧ at_.arr < 2 ∧ differs at_.arr ∧
           exec (.groupClose n) s = .next (tensorFault u n .checksumFault at_ r' q.tile)) ∧
         ((checking s n e = true → ∀ a, a < 2 → ¬ differs a) → Does (.groupClose n) s (fun t =>
           t = { s with
             cores := s.cores.set n { c with arrA := t.cores[n].arrA, arrB := t.cores[n].arrB, cur := some after
                                             satLogged := t.cores[n].satLogged, busyAt := s.clock.cyc },
             regs := t.regs, freeCtr := t.freeCtr, logQ := t.logQ, logLost := t.logLost } ∧
           RegsKept s t (checked ++ [regKey R.NUM_FLUSH n.val, regKey R.NUM_ACC_OVF n.val, regKey R.NUM_BADSCALE n.val,
             regKey R.LOG_QDROP_DATA 0]) ∧
           bankOf t.cores[n].arrA q.bank = [] ∧ bankOf t.cores[n].arrB q.bank = [] ∧
           bankOf t.cores[n].arrA (!q.bank) = bankOf c.arrA (!q.bank) ∧ bankOf t.cores[n].arrB (!q.bank) = bankOf c.arrB (!q.bank) ∧
           ∀ p col, p < 128 → col < 128 →
             let f := fun (x : ArraySt) (a : Nat) => BitVec.ofNat 32 (round32 true (fpAdd (fvOf (m x.m p col))
               (fpMul (fvOfInt (g x p col)) (f32 (scale a p col))))).1
             m (if q.last then t.cores[n].arrA.latch else t.cores[n].arrA.m) p col = f c.arrA 0 ∧
             m (if q.last then t.cores[n].arrB.latch else t.cores[n].arrB.m) p col = f c.arrB 1))))) ∧
  (∀ (n : Fin 16) (arr : Fin 2) (r : TRun) (tile j : Nat) (s : State),
     let c := s.cores[n]
     let e := r.e
     let x := if arr = 0 then c.arrA else c.arrB
     c.cur = some r → (if arr = 0 then r.latchA else r.latchB) = some (tile, j) →
     let b := (tileAt c e tile).1
     let nt := (tileAt c e tile).2.2
     let slice := j % slices e
     let m := (tileAt c e tile).2.1 * tileRows e + j / slices e
     let n0 := nt * tileCols c e + arr.val * (tileCols c e / 2) + slice * 128
     let w := min 128 (e.N - n0)
     let left := if j < 127 then some (tile, j + 1) else none
     let after := some (if arr = 0 then { r with latchA := left } else { r with latchB := left })
     let width := fmtBits (fdOf e) / 8
     let place := fun (i : Nat) => baseD c e b + (denseOff (dD c e) (fdOf e) m (n0 + i)).1
     let old := fun (i : Nat) => if accumulates c e then rawAt s (baseD c e b) 8 (denseOff (dD c e) 8 m (n0 + i)) else 0
     let acc := fun (i : Nat) => ((x.latch.getD (slice * tileRows e + j / slices e) []).getD i 0).toNat
     (rowsM c e ≤ m ∨ w = 0 →
       exec (.epilogueRow n arr) s = .next { s with cores := s.cores.set n { c with cur := after, busyAt := s.clock.cyc } }) ∧
     (m < rowsM c e → 0 < w → e.insn.CD = false → e.op.reducer = false → 8 ≤ fmtBits (fdOf e) → dLayout (dD c e) ≤ 1 →
       (accumulates c e = true → fdOf e = 8) →
       cleanSpans s ((if readsColumns e then [(eColBase (eD c e) + 16 * n0, 16 * w)] else []) ++
         (List.range w).map (fun i => (place i, width))) →
       (∀ i, i < w → OnChip s n (place i) width) →
       (∀ i k, i < w → k < w → i ≠ k → place i + width ≤ place k ∨ place k + width ≤ place i) →
       Does (.epilogueRow n arr) s (fun t =>
         t = { s with
           cores := s.cores.set n { c with cur := after, satLogged := t.cores[n].satLogged, busyAt := s.clock.cyc }, mem := t.mem, ecc := t.ecc,
           regs := t.regs, freeCtr := t.freeCtr, logQ := t.logQ, logLost := t.logLost } ∧
         RegsKept s t ([regKey R.NUM_EPI_SAT n.val, regKey R.NUM_NONFINITE n.val, regKey R.NUM_FLUSH n.val,
           regKey R.TSQ_CAUSAL_MASKED n.val, regKey R.LOG_QDROP_DATA 0] ++ readBeatKeys n ++ writeBeatKeys n) ∧
         (∀ i, i < w → peek t (place i) width =
           bytesOf width (epiElem c e (colEntry s c e (n0 + i)) m (n0 + i) (acc i) (old i)).raw) ∧
         ∀ a, (∀ i, i < w → a < place i ∨ place i + width ≤ a) → peek t a 1 = peek s a 1)))

/-- R228, R245 to R247: a skipped tile is copied from the history to the destination; a tile of a window reducer is
computed and written. The width of a reducer's tile is log entry 68. -/
def Obligations.TileCopiesAndReducerTiles : Prop :=
  ∀ (n : Fin 16) (r : TRun) (s : State), s.cores[n].cur = some r →
    let c := s.cores[n]
    let e := r.e
    (∀ tile, (feeds c = true ∨ c.mode = .stopping) → computed c r = true → nextCopy c r = some tile →
      let b := (tileAt c e tile).1
      let spans := tileSpans c e tile
      let src := fun (p : Span) => baseH c e b + p.1
      let dst := fun (p : Span) => baseD c e b + p.1
      (∀ p ∈ spans, OnChip s n (src p) p.2 ∧ OnChip s n (dst p) p.2) →
      spans.Pairwise (fun p p' => dst p + p.2 ≤ dst p' ∨ dst p' + p'.2 ≤ dst p) →
      (∀ p ∈ spans, ∀ p' ∈ spans, dst p + p.2 ≤ src p' ∨ src p' + p'.2 ≤ dst p) →
      Does (.tileCopy n) s (fun t =>
        t = { s with cores := s.cores.set n { c with cur := some { r with copyTile := tile + 1 } }, mem := t.mem, ecc := t.ecc,
                     regs := t.regs } ∧
        RegsKept s t (regKey R.TSQ_COPY_CYC n.val :: readBeatKeys n ++ writeBeatKeys n) ∧
        rd t R.TSQ_COPY_CYC n.val =
          min (rd s R.TSQ_COPY_CYC n.val + ((spans.map (fun p => p.2)).sum + 1023) / 1024) (2 ^ 32 - 1) ∧
        (∀ p ∈ spans, peek t (dst p) p.2 = peek s (src p) p.2) ∧
        ∀ a, (∀ p ∈ spans, a < dst p ∨ dst p + p.2 ≤ a) → peek t a 1 = peek s a 1)) ∧
    (feeds c = true → e.op.reducer = true → r.tile < totalTiles c e → e.insn.CD = false → fmtBits (fdOf e) = 8 →
      dLayout (dD c e) ≤ 1 →
      let b := (tileAt c e r.tile).1
      let nt := (tileAt c e r.tile).2.2
      let m0 := (tileAt c e r.tile).2.1 * 128
      let rows := min 128 (rowsM c e - m0)
      let n0 := nt * blockWidth (dD c e)
      let w := min (blockWidth (dD c e)) (e.N - n0)
      let place := fun (i k : Nat) => baseD c e b + (denseOff (dD c e) (fdOf e) (m0 + i) (n0 + k)).1
      cleanSpans s ((List.range rows).flatMap (fun i => (reducerReads c e (m0 + i)).flatMap (fun p =>
        (List.range w).map (fun k => xBytes c e b p (n0 + k))))) →
      (∀ i k, i < rows → k < w → OnChip s n (place i k) 1) →
      Does (.reducerTile n) s (fun t =>
        t = { s with
          cores := s.cores.set n { c with cur := t.cores[n].cur, satLogged := t.cores[n].satLogged }, mem := t.mem, ecc := t.ecc,
          regs := t.regs, freeCtr := t.freeCtr, logQ := t.logQ, logLost := t.logLost } ∧
        RegsKept s t ([regKey R.NUM_EPI_SAT n.val, regKey R.WIN_REDUCER_CYC n.val, regKey R.TSQ_TILES_COMPUTED n.val,
          regKey R.TSQ_TILES_SKIPPED n.val, regKey R.LOG_QDROP_DATA 0] ++ readBeatKeys n ++ writeBeatKeys n) ∧
        (∀ i k, i < rows → k < w →
          peek t (place i k) 1 = [BitVec.ofNat 8 (reducerElem s c e b (m0 + i) (n0 + k)).1]) ∧
        (∀ a, (∀ i k, i < rows → k < w → a ≠ place i k) → peek t a 1 = peek s a 1) ∧
        rd t R.WIN_REDUCER_CYC n.val = min (rd s R.WIN_REDUCER_CYC n.val + reducerPeriod c e) (2 ^ 32 - 1) ∧
        ∃ r', t.cores[n].cur = some r' ∧ r'.e = e ∧ r.tile < r'.tile ∧ r'.step = 0 ∧ r'.valid = r.valid))

/-! ## Pre-emption and checkpoints -/

/-- R145, R147, R149, R153, R154, R179: requests to stop a core, and ARRAY_CTL. Where a pre-emption is allowed the
core stops issuing and its waits are withdrawn; a request of the power controller that finds none allowed is a
STOP_SHED fault, one of the chanter does nothing.
R145, R146, R151, R152, R188: what a checkpoint holds. Header, core state and, when the stop is inside a tile, the
accumulators lie at their offsets of the checkpoint area, no byte outside it changes, and the core holds the job.
R148, R152, R188: what a resume restores from the checkpoint area: the registers, the tensor queue, and the
instruction that was under way at its tile, step and bank with its accumulators. A header of another version or
another core is a CKPT_FAULT. The words of the header with no tensor instruction under way, and what is kept with the job,
are log entry 79; a group that awaits its close entry 80; a PREEMPT_EN write that is refused and writes the other fields
entry 82; that PREEMPT_LAT counts the elapsed time entry 233. -/
def Obligations.StopsAndCheckpoints : Prop :=
  (∀ (n : Fin 16) (s : State),
     let c := s.cores[n]
     let u := leaveQueue s n
     let stopped := { u with cores := u.cores.set n { u.cores[n] with mode := .stopping, preemptAt := nowW s, preemptFrom := elapsedW s, preemptThrottled := throttled s } }
     (stoppable c = false → ∀ src, exec (.arrayPreemptRequest n src) s = .next s) ∧
     (stoppable c = true → rd s R.ARRAY_CTL_PREEMPT_EN n.val ≠ 0 → rd s R.ARRAY_STATUS_CKPT_VALID n.val = 0 →
       (∀ j, c.job = some j → j.noPreempt = false) →
         exec (.arrayPreemptRequest n .power) s = .next stopped ∧
         (draining s (clusterOf n) = false → exec (.arrayPreemptRequest n .chanter) s = .next stopped) ∧
         (draining s (clusterOf n) = true → exec (.arrayPreemptRequest n .chanter) s = .next s)) ∧
     (stoppable c = true →
       rd s R.ARRAY_CTL_PREEMPT_EN n.val = 0 ∨ rd s R.ARRAY_STATUS_CKPT_VALID n.val ≠ 0 ∨ (∃ j, c.job = some j ∧ j.noPreempt = true) →
       exec (.arrayPreemptRequest n .chanter) s = .next s ∧ Does (.arrayPreemptRequest n .power) s (fun t =>
         t.cores[n].mode = .trapped 0x24 ∧ t.cores[n].tq = [] ∧ t.cores[n].cur = none ∧
         rd t R.ARRAY_FAULT_STOP_SHED n.val = 1 ∧ rd t R.CORE_TRAP_CAUSE n.val = 0x24 ∧ rd t R.CORE_TRAP_VALID n.val = 1)) ∧
     (∀ ctl : BitVec 32, planesRun s = true →
       let v := ctl.toNat
       (rd s R.ARRAY_STATUS_CKPT_VALID n.val ≠ 0 ∨ c.mode = .stopping → exec (.preemptEnWrite n ctl) s = .next s) ∧
       (rd s R.ARRAY_STATUS_CKPT_VALID n.val = 0 → c.mode ≠ .stopping → Does (.preemptEnWrite n ctl) s (fun t =>
         let refused := bitOf v 0 = true ∧ ckptAreaOk s n = false
         OnlyRegs s t [regKey R.ARRAY_CTL_CHK_OFF n.val, regKey R.ARRAY_CTL_GATE_IDLE n.val, regKey R.ARRAY_CTL_PREEMPT_EN n.val,
           regKey R.ARRAY_FAULT_CKPT_CFG n.val] ∧
         rd t R.ARRAY_CTL_CHK_OFF n.val = b2n (bitOf v 1) ∧ rd t R.ARRAY_CTL_GATE_IDLE n.val = bitsOf v 8 8 ∧
         rd t R.ARRAY_CTL_PREEMPT_EN n.val = (if refused then rd s R.ARRAY_CTL_PREEMPT_EN n.val else b2n (bitOf v 0)) ∧
         rd t R.ARRAY_FAULT_CKPT_CFG n.val = (if refused then 1 else rd s R.ARRAY_FAULT_CKPT_CFG n.val))))) ∧
  (∀ (n : Fin 16) (j : Job) (s : State),
     let c := s.cores[n]
     let a := ckptBase s n
     (s.phase ≠ .up ∨ c.mode ≠ .stopping ∨ drained c = false → ∀ refused, exec (.checkpointWrite n refused) s = .next s) ∧
     (s.phase = .up → c.mode = .stopping → c.job = some j → drained c = true → ckptAreaOk s n = true →
     rd s R.DRC_WINDOW 0 ≤ 0x200000000000 →
     Does (.checkpointWrite n true) s (fun t => t.cores[n].mode = .trapped 0x20 ∧ rd t R.ARRAY_FAULT_CKPT n.val = 1) ∧
     Does (.checkpointWrite n false) s (fun t =>
       let word := fun (off len : Nat) => peekNat t (a + off) len
       t = { s with
         mem := t.mem, ecc := t.ecc, regs := t.regs, freeCtr := t.freeCtr, logQ := t.logQ, logLost := t.logLost
         cores := s.cores.set n { c with
           mode := .held, held := some (holdOf s n j), job := none, chains := [], tq := [], cur := none } } ∧
       RegsKept s t [regKey R.CMEM_BEATS_WR n.val, regKey R.ARRAY_STATUS_CKPT_VALID n.val, regKey R.ARRAY_PREEMPTS n.val,
         regKey R.ARRAY_PREEMPT_LAT_MAX n.val, regKey R.LOG_QDROP_DATA 0] ∧
       rd t R.ARRAY_STATUS_CKPT_VALID n.val = 1 ∧
       word 0 2 = 1 ∧ word 2 1 = n.val ∧ word 24 8 = c.preemptAt.toNat ∧ word 3 1 % 2 = b2n (accSaved c) ∧
       word 3 1 / 8 % 2 = b2n c.preemptThrottled ∧
       word 4 4 = savedTile c % 2 ^ 32 ∧ word 12 2 = savedTag c % 2 ^ 16 ∧ word 14 1 = b2n (savedBank c) ∧
       (∀ e, savedEntry c = some e → word 16 8 = e.addr.toNat ∧ word 32 4 = e.M % 2 ^ 32 ∧ word 36 4 = e.N % 2 ^ 32 ∧
         word 40 4 = e.K % 2 ^ 32 ∧ word 44 4 = e.BATCH % 2 ^ 32) ∧
       (∀ i : Fin 32, word (0x1000 + 8 * i.val) 8 = c.s[i].toNat) ∧
       (∀ i : Fin 16, word (0x1100 + 8 * i.val) 8 = c.a[i].toNat ∧ word (0x1180 + 4 * i.val) 4 = c.b[i].toNat ∧
         word (0x1400 + 64 * i.val) 64 = c.t[i].toNat) ∧
       (∀ i : Fin 8, word (0x11C0 + 16 * i.val) 16 = c.p[i].toNat) ∧
       (∀ i : Fin 32, word (0x2000 + 512 * i.val) 512 = c.v[i].toNat) ∧
       word 0x1240 8 = c.pc.toNat ∧ word 0x1248 8 = c.cyc.toNat ∧
       word 0x1250 4 = rd s R.CORE_JOB_TAG n.val % 2 ^ 32 ∧
       (accSaved c = true → ∀ p q, p < 128 → q < 128 →
         word (0x9000 + 4 * (128 * p + q)) 4 = ((c.arrA.m.getD p []).getD q 0).toNat ∧
         word (0x3A000 + 4 * (128 * p + q)) 4 = ((c.arrB.m.getD p []).getD q 0).toNat) ∧
       ∀ x, x < a ∨ a + 428 * 1024 ≤ x → peek t x 1 = peek s x 1))) ∧
  (∀ (n : Fin 16) (h : HeldJob) (s : State),
     let c := s.cores[n]
     let a := ckptBase s n
     let word := fun (off len : Nat) => peekNat s (a + off) len
     c.held = some h → mayResume s n = true → ckptAreaOk s n = true → rd s R.DRC_WINDOW 0 ≤ 0x200000000000 →
     badWords s a (428 * 1024) = [] →
     (word 0 2 ≠ 1 ∨ word 2 1 ≠ n.val → Does (.checkpointRestore n) s (fun t =>
       t.cores[n].mode = .trapped 0x20 ∧ rd t R.ARRAY_FAULT_CKPT n.val = 1)) ∧
     (word 0 2 = 1 → word 2 1 = n.val → (∀ x ∈ h.insns, x.2.MASK = 0) → Does (.checkpointRestore n) s (fun t =>
       t = { s with regs := t.regs, freeCtr := t.freeCtr, logQ := t.logQ, logLost := t.logLost, cores := t.cores } ∧
       (∀ m : Fin 16, m ≠ n → t.cores[m] = { s.cores[m] with ramp := t.cores[m].ramp } ∧
         (h.started = false ∨ clusterOf m ≠ clusterOf n → t.cores[m] = s.cores[m])) ∧
       RegsKept s t ([regKey R.CMEM_BEATS_RD n.val, regKey R.CORE_JOB_TAG n.val, regKey R.ARRAY_STATUS_CKPT_VALID n.val,
         regKey R.LOG_QDROP_DATA 0] ++ (if h.started then [regKey R.TSQ_CUR_INSN n.val, regKey R.TSQ_MASK_CYC n.val,
           regKey R.ARRAY_STATUS_SHAPE n.val, regKey R.ARRAY_RAMPS n.val] else [])) ∧
       rd t R.ARRAY_STATUS_CKPT_VALID n.val = 0 ∧ rd t R.CORE_JOB_TAG n.val = h.tag.toNat ∧
       t.cores[n].mode = .running ∧ t.cores[n].job = some h.job ∧ t.cores[n].held = none ∧ t.cores[n].plan = h.plan ∧
       t.cores[n].chains = h.chains ∧ sGet t.cores[n] 0 = 0 ∧ pGet t.cores[n] 0 = BitVec.allOnes 128 ∧
       (∀ i : Fin 32, i ≠ 0 → t.cores[n].s[i] = BitVec.ofNat 64 (word (0x1000 + 8 * i.val) 8)) ∧
       (∀ i : Fin 16, t.cores[n].a[i] = BitVec.ofNat 48 (word (0x1100 + 8 * i.val) 8) ∧
         t.cores[n].b[i] = BitVec.ofNat 32 (word (0x1180 + 4 * i.val) 4) ∧
         t.cores[n].t[i] = BitVec.ofNat 512 (word (0x1400 + 64 * i.val) 64)) ∧
       (∀ i : Fin 8, i ≠ 0 → t.cores[n].p[i] = BitVec.ofNat 128 (word (0x11C0 + 16 * i.val) 16)) ∧
       (∀ i : Fin 32, t.cores[n].v[i] = BitVec.ofNat 4096 (word (0x2000 + 512 * i.val) 512)) ∧
       t.cores[n].pc = BitVec.ofNat 48 (word 0x1240 8) ∧ t.cores[n].cyc = BitVec.ofNat 64 (word 0x1248 8) ∧
       (h.insns = [] → t.cores[n].tq = [] ∧ t.cores[n].cur = none) ∧
       (∀ x rest, h.insns = x :: rest →
         let e := headerEntry (peek s a 256) x
         let q := rest.zipIdx.filterMap (fun y => entryFrom (peek s (a + 0x1000) 0x8000) y.2 y.1)
         e.addr.toNat = word 16 6 ∧ e.M = word 32 4 ∧ e.N = word 36 4 ∧ e.K = word 40 4 ∧ e.BATCH = word 44 4 ∧
         (h.started = false → t.cores[n].tq = e :: q ∧ t.cores[n].cur = none) ∧
         (h.started = true → t.cores[n].tq = q ∧ ∃ r, t.cores[n].cur = some r ∧ r.e = e ∧ r.bank = (word 14 1 % 2 == 1) ∧
           r.step = (if e.op.window then word 8 4 else word 8 4 / perStep (fxOf e) (fyOf e)) ∧
           (r.step ≠ 0 → r.tile = word 4 4) ∧ r.closes = h.closes ∧ r.latchA = none ∧ r.latchB = none)) ∧
       (word 3 1 % 2 = 1 → ∀ p q, p < 128 → q < 128 →
         ((t.cores[n].arrA.m.getD p []).getD q 0).toNat = word (0x9000 + 4 * (128 * p + q)) 4 ∧
         ((t.cores[n].arrB.m.getD p []).getD q 0).toNat = word (0x3A000 + 4 * (128 * p + q)) 4))))

/-! ## The chanter, images and jobs -/

/-- R24, R97, R177: the unit a chanter takes at a boundary is one that waits: the oldest live one, and another only
when no live one waits and the stage is below 4. A live ring job takes the place of a unit that is not live when every
core of that one holds a checkpoint, and none has finished (R26, R97; the model's deduction, log entry 78). A unit that
ended without having run is over once its completion entry has room (R73, R275).
R92 to R95, R105, R106: how a batch closes, fills and how a class is enabled and disabled. A closing batch takes the
next BATCH_SEQ and its unreserved slots await the fill; the fill writes BQ_PAD up to the map and 0 after it. EN = 1
while EN = 1 is no new enable (the model's choice, log entry 101). -/
def Obligations.BoundariesAndBatches : Prop :=
  (∀ (s : State) (c : Fin 4),
     let waits := readyBatches s c ++ ringUnits s c
     (∀ w, nextUnit s c = some w → w ∈ waits ∧
       (w.live = true → ∀ v ∈ waits, v.live = true → w.order ≤ v.order) ∧
       (w.live = false → stage s < 4 ∧ ∀ v ∈ waits, v.live = false ∧ w.order ≤ v.order)) ∧
     (nextUnit s c = none → (∀ w ∈ waits, w.live = false) ∧ (4 ≤ stage s ∨ waits = [])) ∧
     (∀ w, nextLiveJob s c = some w → w ∈ ringUnits s c ∧ w.live = true ∧ ∀ v ∈ ringUnits s c, v.live = true → w.order ≤ v.order) ∧
     (nextLiveJob s c = none → ∀ w ∈ ringUnits s c, w.live = false) ∧
     (chanterRuns s c = false → exec (.batchBoundary c) s = .next s) ∧
     (chanterRuns s c = true →
       let x := s.clusters[c]
       (∀ j b d, x.cur = none → x.preempted = some (j, b, d) → exec (.batchBoundary c) s = .next { s with
         clusters := s.clusters.set c { x with cur := some (j, .running), busy := b, sent := d, preempted := none } }) ∧
       (x.cur = none → x.preempted = none → nextUnit s c = none → exec (.batchBoundary c) s = .next s) ∧
       (∀ w o j, x.cur = none → x.preempted = none → nextUnit s c = some w → w.ref = .ring o →
         x.jobs.find? (fun e => e.1 == o) = some (o, j) → exec (.batchBoundary c) s = .next { s with
           clusters := s.clusters.set c { x with jobs := x.jobs.filter (fun e => e.1 != o), cur := some (j, .loading) } }) ∧
       (∀ w q a, x.cur = none → x.preempted = none → nextUnit s c = some w → w.ref = .batch q a →
         let at_ := rd s R.BQ_JOB_ADDR (bqIx c q) * 64
         inMemory s at_ 64 = true → badWords s at_ 64 = [] → Does (.batchBoundary c) s (fun t =>
           t.mem = s.mem ∧ t.cores = s.cores ∧ t.clusters[c].bq[q].areas[a] = { x.bq[q].areas[a] with st := .dispatched } ∧
           t.clusters[c].cur = some (batchJob s c q a (peek s at_ 64), .loading))) ∧
       (∀ j, x.cur = some (j, .running) → x.preempted = none →
         let fits := j.live = false ∧ draining s c = false ∧ allHeld s c = true
         (¬ fits ∨ nextLiveJob s c = none → exec (.batchBoundary c) s = .next s) ∧
         (fits → ∀ w, nextLiveJob s c = some w →
           (∀ o k, w.ref = .ring o → x.jobs.find? (fun e => e.1 == o) = some (o, k) → exec (.batchBoundary c) s = .next { s with
             clusters := s.clusters.set c { x with
               preempted := some (j, x.busy, x.sent), busy := 0, sent := 0,
               jobs := x.jobs.filter (fun e => e.1 != o), cur := some (k, .loading) } }))) ∧
       (∀ j st, x.cur = some (j, .over st) →
         (cplRoom s j = false → exec (.batchBoundary c) s = .next s) ∧
         (cplRoom s j = true → Does (.batchBoundary c) s (fun t => t.clusters[c].cur = none ∧ t.mem = s.mem ∧ t.cores = s.cores ∧
           (∀ q a, j.batch = some (q, a) → t.clusters[c].bq[q].areas[a] = Area.init) ∧
           ∀ r, j.ring = some r → t.rings[r].waiting = s.rings[r].waiting ++
             [{ tag := j.tag, status := st, core := 0xFF, time := nowW s }]))) ∧
       (∀ j p, x.cur = some (j, p) → (∀ st, p ≠ .over st) → p ≠ .running ∨ x.preempted ≠ none →
         exec (.batchBoundary c) s = .next s))) ∧
  (∀ (c q : Fin 4) (s : State),
     let i := bqIx c q
     let b := s.clusters[c].bq[q]
     let closes := fun (a : Fin 4) (u t : State) =>
       let x := t.clusters[c].bq[q].areas[a]
       let y := b.areas[a]
       t.clusters[c].bq[q].seq = b.seq + 1 ∧ rd t R.BQ_SEQ i = (b.seq.toNat + 1) % 2 ^ 32 ∧
       x.seq = b.seq ∧ x.closeTime = nowW u ∧ (x.st = .closed ∨ x.st = .ready) ∧
       x.slots = y.slots ++ List.replicate (bqSize s c q - y.slots.length) emptySlot ∧ t.cores.map (·.s) = s.cores.map (·.s)
     (∀ a, openArea s c q = some a → rd s R.BQ_TIMEOUT i ≠ 0 → rd s R.BQ_TUNE i = 0 →
       Does (.batchTimeout c q) s (closes a (passTo s (b.areas[a].firstAt.toNat + rd s R.BQ_TIMEOUT i * 1000)))) ∧
     (openArea s c q = none ∨ rd s R.BQ_TIMEOUT i = 0 ∨ rd s R.BQ_TUNE i ≠ 0 → exec (.batchTimeout c q) s = .next s) ∧
     (∀ a, b.areas[a].st = .closed → unfilled b.areas[a] ≠ [] → (∀ k ∈ unfilled b.areas[a], k < bqSize s c q) →
       (∀ d : Fin 4, b.areas[d].slots.length ≤ 64) →
       (∀ d : Fin 4, d ≠ a → b.areas[d].st = .closed → unfilled b.areas[d] ≠ [] → b.areas[a].seq.toNat < b.areas[d].seq.toNat) →
       let u := passFill s c q a (unfilled b.areas[a]).length
       Does (.batchFillDone c q) s (fun t =>
         (∀ k ∈ unfilled b.areas[a], ∀ o, o < slotStride s c q → peek t (slotAddr s c q a k + o) 1 =
           [if o < rd s R.BQ_FILL_MAP_OFF i * 256 then BitVec.ofNat 8 (rd s R.BQ_PAD i) else 0]) ∧
         unfilled t.clusters[c].bq[q].areas[a] = [] ∧ t.clusters[c].bq[q].areas[a].slots.length = b.areas[a].slots.length ∧
         t.cores = u.cores ∧ now t = now u ∧ t.clusters[c].bq[q].seq = b.seq ∧
         ∀ z, (∀ d, z < areaAddr s c q d ∨ areaAddr s c q d + areaBytes s c q ≤ z) → peek t z 1 = peek s z 1)) ∧
     (planesRun s = false → (∀ cfg, exec (.bqEnable c q cfg) s = .next s) ∧ exec (.bqDisable c q) s = .next s) ∧
     (planesRun s = true → ∀ cfg : BitVec 32,
       let v := cfg.toNat
       let keys := [regKey R.BQ_EN i, regKey R.BQ_LIVE i, regKey R.BQ_TUNE i, regKey R.BQ_OVERRUN i, regKey R.BQ_REPL i,
         regKey R.BQ_NAREA i, regKey R.BQ_SIZE i, regKey R.BQ_CORES i, regKey R.BQ_SEQ i, regKey R.BQ_POS i,
         regKey R.BQ_CFG_ERR i, regKey R.BQ_DONE i]
       let fields := fun (t : State) =>
         rd t R.BQ_LIVE i = b2n (bitOf v 1) ∧ rd t R.BQ_TUNE i = b2n (bitOf v 2) ∧ rd t R.BQ_OVERRUN i = b2n (bitOf v 3) ∧
         rd t R.BQ_REPL i = b2n (bitOf v 4) ∧ rd t R.BQ_NAREA i = bitsOf v 8 2 ∧ rd t R.BQ_SIZE i = bitsOf v 16 7 ∧
         rd t R.BQ_CORES i = bitsOf v 24 4
       (bitOf v 0 = true → rd s R.BQ_EN i ≠ 0 → Does (.bqEnable c q cfg) s (fun t =>
         OnlyRegs s t keys ∧ fields t ∧ rd t R.BQ_EN i = rd s R.BQ_EN i)) ∧
       (bitOf v 0 = true → rd s R.BQ_EN i = 0 → Does (.bqEnable c q cfg) s (fun t =>
         t = { s with regs := t.regs, clusters := t.clusters } ∧ RegsKept s t keys ∧ fields t ∧
         let fits := classIdle s c q = true ∧ areasFit t c q = true
         (fits → rd t R.BQ_EN i = 1 ∧ rd t R.BQ_CFG_ERR i = 0 ∧ rd t R.BQ_SEQ i = 0 ∧ rd t R.BQ_POS i = 0 ∧
           rd t R.BQ_DONE i = 0 ∧ t.clusters[c].bq[q] = Bq.init) ∧
         (¬ fits → rd t R.BQ_EN i = 0 ∧ rd t R.BQ_CFG_ERR i = 1 ∧ t.clusters = s.clusters)))) ∧
     (planesRun s = true → openArea s c q = none → b.repl = [] → Does (.bqDisable c q) s (fun t =>
       t = { s with regs := t.regs, clusters := t.clusters } ∧ RegsKept s t [regKey R.BQ_EN i] ∧ rd t R.BQ_EN i = 0 ∧
       t.clusters[c].bq[q] = b)) ∧
     (planesRun s = true → ∀ a, openArea s c q = some a → Does (.bqDisable c q) s (fun t =>
       rd t R.BQ_EN i = 0 ∧ closes a s t ∧ t.clusters[c].bq[q].repl = [])))

/-- R184, R185, R209: the loader. An image that passes its checks is copied or found resident; one that does not is
rejected with the code of the first that fails, and its unit is over, or waits until its completion entry, with 0xFF
for CORE (the model's choice, log entry 59), has room. The header, the residents, the reserved bytes and an image that
does not fit are read as log entries 74 to 77 say. A flush drops what is idle. No loader works in a gated cluster. -/
def Obligations.ImageLoading : Prop :=
  ∀ (c : Fin 4) (j : Job) (s : State),
    let x := s.clusters[c]
    let a := j.image.toNat
    let h := parseHeader (peek s a 64)
    let bs := peek s a h.bytes
    let found := x.residents.find? (fun r => r.image == j.image && r.crc.toNat == h.crc && !r.flushed)
    let img : Resident := { image := j.image, crc := BitVec.ofNat 32 h.crc, plan := parsePlan bs h.planOff,
                            sections := parseSections h bs, lastUse := 0, flushed := false }
    let shows := fun (k : Job) (p : UnitPhase) (t : State) => t.mem = s.mem ∧ t.cores = s.cores ∧ t.clusters[c].cur = some (k, p) ∧
      t.clusters[c].jobs = x.jobs ∧ t.clusters[c].bq = x.bq
    let rejects := fun (code : Nat) => Does (.imageCheck c) s (fun t =>
      t.mem = s.mem ∧ t.cores = s.cores ∧ rd t R.CLU_LDR_STATUS_LAST_REJECT c.val = code ∧
      (cplRoom s j = true → t.clusters[c].cur = none ∧ t.clusters[c].busy = 0 ∧
        (∀ r, j.ring = some r → ∃ e, t.rings[r].waiting = s.rings[r].waiting ++ [e] ∧ e.tag = j.tag ∧
          e.status = BitVec.ofNat 16 code ∧ e.core = 0xFF)) ∧
      (cplRoom s j = false → t.clusters[c] = { x with cur := some (j, .over (BitVec.ofNat 16 code)) } ∧ t.rings = s.rings))
    (loaderRuns s c = false → exec (.imageCheck c) s = .next s ∧ exec (.imageCopyDone c) s = .next s) ∧
    (loaderRuns s c = true → x.cur = some (j, .loading) → badWords s a (max 64 h.bytes) = [] → badWords s a 64 = [] → 64 ≤ h.bytes →
      (∀ r, found = some r →
        (jobCode r j = 0 → Does (.imageCheck c) s (shows { j with crc := some r.crc } .loaded)) ∧
        (jobCode r j ≠ 0 → rejects (jobCode r j))) ∧
      (found = none →
        (headerCode s h ≠ 0 → rejects (headerCode s h)) ∧
        (headerCode s h = 0 → imageCode s c j h bs ≠ 0 → rejects (imageCode s c j h bs)) ∧
        (headerCode s h = 0 → imageCode s c j h bs = 0 → imageBlocked x img = false →
          Does (.imageCheck c) s (shows j (.copying img))))) ∧
    (∀ r, loaderRuns s c = true → x.cur = some (j, .copying r) → rd s R.DRC_WINDOW 0 ≤ 0x200000000000 →
      (∀ y ∈ r.sections,
        (y.typ ≠ 3 → badWords s (a + y.src) y.bytes = [] ∧ a + y.src + y.bytes ≤ rd s R.DRC_WINDOW 0) ∧
        y.destOff + y.bytes ≤ (if y.dest = 0 then 0x800000 else 0x1800000)) →
      r.sections.Pairwise (fun y z => sectionsMeet y z = false) →
      Does (.imageCopyDone c) s (fun t =>
        t.cores = s.cores ∧ t.clusters[c].cur = some ({ j with crc := some r.crc }, .loaded) ∧
        rd t R.CLU_LDR_LOADS c.val = (rd s R.CLU_LDR_LOADS c.val + 1) % 2 ^ 32 ∧
        t.clusters[c].residents = afterEviction x r ++ [r] ∧
        (∀ y ∈ r.sections, ∀ b ∈ sectionBases s c y, ∀ i, i < y.bytes →
          peek t (b + y.destOff + i) 1 = if y.typ = 3 then [0] else peek s (a + y.src + i) 1) ∧
        ∀ z, (∀ y ∈ r.sections, ∀ b ∈ sectionBases s c y, z < b + y.destOff ∨ b + y.destOff + y.bytes ≤ z) →
          peek t z 1 = peek s z 1)) ∧
    exec (.cluLdrFlush c) s = .next { s with clusters := s.clusters.set c { x with
      residents := (x.residents.filter (imageUsed x)).map (fun r => { r with flushed := true }) } }

/-- R22, R26, R27, R177, R178, R201, R208: how a job starts and ends. Each chosen core starts with the registers of
R177; the last core that finishes ends the unit and frees its batch area. END is counted when its job completes (the
model's deduction, log entry 36), completion waits for every chain of the core (log entry 53), and a live unit that
takes the place of another finds the semaphores as they are (log entry 61). -/
def Obligations.JobLifeCycle : Prop :=
  ∀ (c : Fin 4) (s : State),
    let x := s.clusters[c]
    let tuneOk := fun (j : Job) (r : Resident) =>
      (r.plan.tune = true ∨ ∃ q a, j.batch = some (q, a) ∧ rd s R.BQ_TUNE (bqIx c q) ≠ 0) → stage s < 2
    (∀ j r, x.cur = some (j, .loaded) → residentOf x j = some r → chanterRuns s c = true → tuneOk j r →
      ringMayRun s j = true → dispatchCores s c j ≠ [] → Does (.jobDispatch c) s (fun t =>
        let is := dispatchCores s c j
        let text := fun (i : Fin 4) => coreBase (coreOf c i) + ((textSection? r.sections).map (fun y => y.destOff)).getD 0
        t = { s with cores := t.cores, clusters := t.clusters, regs := t.regs, order := s.order + 1 } ∧
        RegsKept s t (is.map (fun i => regKey R.CORE_JOB_TAG (coreOf c i).val)) ∧
        t.clusters[c].cur = some (j, .running) ∧ (∀ i : Fin 4, t.clusters[c].busy.getLsbD i.val = decide (i ∈ is)) ∧
        (x.preempted = none → ∀ k : Fin 64, t.clusters[c].sems[k] = r.plan.semInit.getD k.val 0) ∧
        (∀ p ∈ is.zipIdx,
          let y := t.cores[coreOf c p.1]
          rd t R.CORE_JOB_TAG (coreOf c p.1).val = j.tag.toNat ∧ y.mode = .running ∧ y.job = some j ∧ y.plan = r.plan ∧
          y.textBase = BitVec.ofNat 48 (text p.1) ∧ y.pc = BitVec.ofNat 48 (text p.1 + j.entry.toNat) ∧ y.cyc = 0 ∧
          sGet y 1 = j.header.setWidth 64 ∧ sGet y 2 = BitVec.ofNat 64 p.2 ∧ sGet y 3 = BitVec.ofNat 64 is.length ∧
          sGet y 4 = j.arg0 ∧ sGet y 5 = j.arg1 ∧ sGet y 6 = j.arg2 ∧ sGet y 7 = j.arg3 ∧
          (∀ k : BitVec 5, k = 0 ∨ 8 ≤ k.toNat → sGet y k = 0) ∧ (∀ k, vGet y k = 0) ∧
          (∀ k, aGet y k = 0 ∧ bGet y k = 0 ∧ tGet y k = 0) ∧ y.tq = [] ∧ y.cur = none ∧ y.chains = [] ∧
          y.ramp = s.cores[coreOf c p.1].ramp ∧ y.busyAt = s.cores[coreOf c p.1].busyAt) ∧
        ∀ n : Fin 16, (∀ i ∈ is, n ≠ coreOf c i) → t.cores[n] = s.cores[n])) ∧
    (∀ j r, x.cur = some (j, .loaded) → residentOf x j = some r →
      (chanterRuns s c = false ∨ ¬ tuneOk j r ∨ ringMayRun s j = false → exec (.jobDispatch c) s = .next s) ∧
      (chanterRuns s c = true → tuneOk j r → ringMayRun s j = true → dispatchCores s c j = [] →
        Does (.jobDispatch c) s (fun t => t.cores = s.cores ∧ t.mem = s.mem ∧
          (cplRoom s j = true → t.clusters[c].cur = none ∧ t.clusters[c].busy = 0 ∧
            ∀ k, j.ring = some k → t.rings[k].waiting = s.rings[k].waiting ++
              [{ tag := j.tag, status := 0x20, core := 0xFF, time := nowW s }]) ∧
          (cplRoom s j = false → t = { s with clusters := s.clusters.set c { x with cur := some (j, .over 0x20) } })))) ∧
    (planesRun s = false → ∀ n : Fin 16, exec (.coreDisable n) s = .next s) ∧
    (planesRun s = true → ∀ n : Fin 16, Does (.coreDisable n) s (fun t =>
      OnlyRegs s t [regKey R.CORE_CTL_EN n.val] ∧ rd t R.CORE_CTL_EN n.val = 0)) ∧
    ∀ (n : Fin 16) (j : Job), clusterOf n = c → s.cores[n].job = some j → s.cores[n].posts = 0 → chainsDone s n = true → cplRoom s j = true →
      let left := x.busy &&& ~~~BitVec.ofNat 4 (2 ^ (n.val % 4))
      let ended := fun (status : Nat) (keys : List Nat) (t : State) =>
        RegsKept s t (regKey R.CORE_JOBS n.val :: keys) ∧ rd t R.CORE_JOBS n.val = (rd s R.CORE_JOBS n.val + 1) % 2 ^ 32 ∧
        t.cores = s.cores.set n { s.cores[n] with
          mode := if s.cores[n].held.isSome then .held else .idle, job := none, chains := [], tq := [], cur := none } ∧
        t.mem = s.mem ∧ t.hostMem = s.hostMem ∧
        (∀ r, j.ring = some r → t.rings[r].waiting = s.rings[r].waiting ++
          [{ tag := j.tag, status := BitVec.ofNat 16 status, core := BitVec.ofNat 8 n.val, time := nowW s }]) ∧
        (left ≠ 0 → t.clusters[c] = { x with busy := left }) ∧
        (left = 0 → t.clusters[c].cur = none ∧ t.clusters[c].busy = 0 ∧
          ∀ q a, j.batch = some (q, a) → t.clusters[c].bq[q].areas[a] = Area.init)
      (s.cores[n].mode = .ending → tensorFenced s n = true → Does (.jobComplete n) s (fun t =>
        ended 0 [regKey R.CORE_INSNS n.val] t ∧ CountsInsn s t n)) ∧
      (∀ cause, s.cores[n].mode = .trapped cause → Does (.trapDrainDone n) s (fun t =>
        ended (0x100 + cause.toNat) [regKey R.ARRAY_STATUS_CKPT_VALID n.val] t ∧
        (s.cores[n].held = none → rd t R.ARRAY_STATUS_CKPT_VALID n.val = 0)))

/-! ## Streams -/

/-- R45 to R48, R51, R64, R68, R336: producer counts, invalidates and the fetch of a context entry. A count that is
newer makes its chunks available and one that is not has no effect; an invalidate joins the queue, or is dropped and
counted when 64 wait; its application re-reads, closes or drops the cached entry, and keeps device fields that no
write-back has covered; a fetched entry that is valid opens its stream. The kept copy of device fields is log entries 88
and 173, the order of eviction entry 175, an invalidate with a unit in decode and ENABLE = 0 entry 176, FRAME_SEQ of a
stream that is not cached entry 216. -/
def Obligations.StreamContexts : Prop :=
  ∀ (n : Fin 1024) (s : State),
    let x := streamOf s n
    let u := linkUsed s
    let enabled := rd s R.VID_CTX_CFG_ENABLE 0 ≠ 0
    let known := n.val < rd s R.VID_CTX_CFG_COUNT 0
    let fresh := fun (v : Nat) => 1 ≤ subW v x.prod.toNat ∧ subW v x.prod.toNat < 2 ^ 31
    let others := fun (t : State) => ∀ m, m ≠ n → streamOf t m = streamOf s m
    let acked := fun (tok : BitVec 16) (t : State) =>
      rd t R.VID_CTX_INV_ACK_STREAM 0 = n.val ∧ rd t R.VID_CTX_INV_ACK_TOKEN 0 = tok.toNat
    let ackKeys := [regKey R.VID_CTX_INV_ACK_STREAM 0, regKey R.VID_CTX_INV_ACK_TOKEN 0]
    let entry := entryOfBytes (peek s (ctxAddr s n) 256)
    let read := restoreFields (ctxOfEntry entry) x.unsaved
    let dropped := fun (t : State) => (streamOf t n).ctx = none ∧ (streamOf t n).unread = false ∧ (streamOf t n).prod = x.prod ∧
      (streamOf t n).live = x.live ∧ ∀ c, x.ctx = some c → (streamOf t n).unsaved = if c.dirty then some c else none
    (∀ d : DbWrite, claimed s = false → exec (.chunkDoorbell n d) s = .next s ∧ exec (.contextInvalidate d) s = .next s) ∧
    (∀ d : DbWrite, claimed s = true → d.beFull = true → (d.dws = 1 ∨ d.dws = 2) → serving s = true →
      let recorded := fun (t : State) => t = { u with streams := t.streams } ∧ others t ∧
        (streamOf t n).prod = d.value ∧ (streamOf t n).arrivals = x.arrivals ++ [(d.value, nowW s)] ∧ (streamOf t n).ctx = x.ctx
      let inv : Fin 1024 := Fin.ofNat 1024 (d.value.toNat % 1024)
      let token := BitVec.ofNat 16 (d.value.toNat / 2 ^ 16)
      (¬ known → exec (.chunkDoorbell n d) s = .next (logIt u planeCtrl 0x20 0x22 3 46 n.val
        (match x.ctx with | some c => c.frameSeq.toNat | none => 0))) ∧
      (known → ¬ enabled → Does (.chunkDoorbell n d) s (fun t => recorded t ∧ (streamOf t n).readyAt = x.readyAt)) ∧
      (known → enabled → ¬ fresh d.value.toNat → exec (.chunkDoorbell n d) s = .next u) ∧
      (known → enabled → fresh d.value.toNat → x.ctx = none → Does (.chunkDoorbell n d) s recorded) ∧
      (∀ c, known → enabled → fresh d.value.toNat → x.ctx = some c → c.error = false →
        (subW d.value.toNat c.chunkCons.toNat ≤ 2 ^ ctxRingLog2 c.entry → Does (.chunkDoorbell n d) s (fun t => recorded t ∧
          (readyBut t n = true → (streamOf t n).readyAt = some (x.readyAt.getD (elapsedW s))) ∧
          (readyBut t n = false → (streamOf t n).readyAt = none))) ∧
        (2 ^ ctxRingLog2 c.entry < subW d.value.toNat c.chunkCons.toNat → .ctx n ∉ s.hidden → Does (.chunkDoorbell n d) s (fun t =>
          (streamOf t n).prod = d.value ∧ (streamOf t n).ctx = some { c with error := true, dirty := false } ∧ t.cores = s.cores))) ∧
      (inv = n →
        (¬ known → Does (.contextInvalidate d) s (fun t => RegsAndLog u t ackKeys ∧ acked token t)) ∧
        (known → ¬ enabled → Does (.contextInvalidate d) s (fun t =>
          t = { u with streams := t.streams, regs := t.regs } ∧ RegsKept u t ackKeys ∧ acked token t ∧ others t ∧ dropped t)) ∧
        (known → enabled → s.invalidates.length < 64 → Does (.contextInvalidate d) s (fun t =>
          t = { u with streams := t.streams, invalidates := s.invalidates ++ [(n, token)] } ∧ others t ∧
          (streamOf t n).ctx = x.ctx ∧ (streamOf t n).readyAt = none)) ∧
        (known → enabled → 64 ≤ s.invalidates.length → Does (.contextInvalidate d) s (fun t =>
          RegsAndLog u t [regKey R.VID_CTX_INV_STAT_OVERFLOWS 0] ∧
          (rd s R.VID_CTX_INV_STAT_OVERFLOWS 0 + 1 < 2 ^ 16 →
            rd t R.VID_CTX_INV_STAT_OVERFLOWS 0 = rd s R.VID_CTX_INV_STAT_OVERFLOWS 0 + 1))))) ∧
    (s.invalidates = [] → exec .invalidateApply s = .next s) ∧
    (∀ tok rest, s.invalidates = (n, tok) :: rest →
      (x.inDecode = true → exec .invalidateApply s = .next s) ∧
      (x.inDecode = false → Does .invalidateApply s (fun t =>
        acked tok t ∧ t.invalidates = rest ∧ t.cores = s.cores ∧ (streamOf t n).ctx = none ∧ (streamOf t n).unread = false ∧
        (¬ known ∨ ¬ enabled → t = { s with streams := t.streams, regs := t.regs, invalidates := rest, ltr := t.ltr, linkAt := t.linkAt } ∧
          dropped t) ∧
        (known → enabled → ctxAddr s n + 256 ≤ rd s R.DRC_WINDOW 0 → badWords s (ctxAddr s n) 256 = [] →
          (ctlValid entry = true → t.mem = s.mem ∧ dropped t ∧ (streamOf t n).refs = x.refs) ∧
          (ctlValid entry = false → streamOf t n = { Stream.init with shedSuspended := x.shedSuspended }))))) ∧
    (planesRun s = false → ∀ cfg, exec (.vidCtxEnable cfg) s = .next s) ∧
    (planesRun s = true → ∀ cfg : BitVec 32, Does (.vidCtxEnable cfg) s (fun t =>
      rd t R.VID_CTX_CFG_ENABLE 0 = b2n (bitOf cfg.toNat 16) ∧ rd t R.VID_CTX_CFG_COUNT 0 = min (bitsOf cfg.toNat 0 11) 1024 ∧
      t.invalidates = s.invalidates ∧ t.cores = s.cores ∧ (streamOf t n).prod = x.prod ∧
      ((∀ e ∈ s.streams, e.2.ctx = none) → t = { s with streams := t.streams, regs := t.regs } ∧
        RegsKept s t [regKey R.VID_CTX_CFG_ENABLE 0, regKey R.VID_CTX_CFG_COUNT 0]))) ∧
    (enabled → serving s = true → known → x.ctx = none → x.unread = false → (cachedStreams s).length < 512 →
      (rd s R.DRC_WINDOW 0 < ctxAddr s n + 256 → Does (.contextFetch n) s (fun t =>
        t = { s with streams := t.streams, regs := t.regs, freeCtr := t.freeCtr, logQ := t.logQ, logLost := t.logLost } ∧
        others t ∧ streamOf t n = { x with readyAt := none, unread := true })) ∧
      (ctxAddr s n + 256 ≤ rd s R.DRC_WINDOW 0 → badWords s (ctxAddr s n) 256 = [] →
        (ctlValid entry = false → Does (.contextFetch n) s (fun t =>
          t.mem = s.mem ∧ t.cores = s.cores ∧ others t ∧
          streamOf t n = { x with ctx := some { read with lastDispatch := s.order }, unsaved := none })) ∧
        (ctlValid entry = true → read.error = false → framePoolOk s entry = true → ctxRangesOk entry = true →
          subW x.prod.toNat read.chunkCons.toNat ≤ 2 ^ ctxRingLog2 entry → x.fmt = none → (stage s < 4 ∨ s.offers = []) →
          Does (.contextFetch n) s (fun t =>
            t.mem = s.mem ∧ t.cores = s.cores ∧ others t ∧ (streamOf t n).fmt = some (ctxFormat entry) ∧
            (streamOf t n).allChanged = true ∧ ∃ c, (streamOf t n).ctx = some c ∧ c.entry = entry ∧ c.resync = true ∧
            c.chunkCons = read.chunkCons ∧ c.frameSeq = read.frameSeq ∧ (streamOf t n).live = c.treatedLive ∧
            (c.treatedLive = true → ctlLiveBit entry = true)))))

/-! ## Decoders -/

/-- R58 to R60, R68, R285: the stream an idle decoder takes. Live streams come first, each rank in the order in which
its streams became ready; another needs a stage below 4 and leaves the live reserve free. A dispatch gives it a frame
buffer and its budget; a stream whose FRAME_POOL is one that R285 forbids enters ERROR instead.
R54, R55, R69: the frame in its buffer. The header's fields lie at their offsets and its byte 3 is left to the buffer
pool manager; each 16 × 16 block has its activity byte; no byte outside the frame changes. The lowest number of streams
that became ready at one time is log entry 177, KEY entry 219, a stream that R285 forbids taken at its dispatch, and a
group without bytes consumed at one, entry 218. -/
def Obligations.DispatchAndFrames : Prop :=
  (∀ (k : Fin 12) (s : State),
     let ready := fun (e : Fin 1024 × Stream) => e ∈ cachedStreams s ∧ streamReady s e.1 e.2 = true
     let since := fun (y : Stream) => readySince s y
     (∀ n, nextStream s = some n → ∃ x, ready (n, x) ∧
       (∀ e, ready e → isLive e.2 = isLive x → since x ≤ since e.2) ∧
       (isLive x = false → stage s < 4 ∧ nonLiveHeld s + 1 ≤ decodersInUse s - liveReserve s ∧ ∀ e, ready e → isLive e.2 = false)) ∧
     (serving s = false ∨ vdUsable s k = false ∨ rd s R.VD_CTL_EN k.val = 0 ∨ s.vds[k] ≠ none ∨
         inDroneSet s (vdUsable s) 2 k = false ∨ nextStream s = none → exec (.decoderDispatch k) s = .next s) ∧
     (∀ n c g, serving s = true → vdUsable s k = true → rd s R.VD_CTL_EN k.val ≠ 0 → s.vds[k] = none →
       inDroneSet s (vdUsable s) 2 k = true → nextStream s = some n → (streamOf s n).ctx = some c →
       c.treatedLive = ctlLiveBit c.entry → nextChunks s (streamOf s n) c = some g → formsUnit g = true →
       (∀ y ∈ g, y.discont = false) → .ctx n ∉ s.hidden → (stage s < 4 ∨ s.offers = []) →
       (∀ i, i < g.length → badWords s (chunkAddr c (c.chunkCons.toNat + i)) 16 = []) →
       (framePoolOk s c.entry = false → Does (.decoderDispatch k) s (fun t => t.vds = s.vds ∧ t.cores = s.cores ∧
         ∃ c', (streamOf t n).ctx = some c' ∧ c'.error = true ∧ c'.entry = c.entry)) ∧
       (framePoolOk s c.entry = true → s.pools[ctlFramePool c.entry].waiting = [] →
         canAlloc s (ctlFramePool c.entry) c.treatedLive = true → Does (.decoderDispatch k) s (fun t =>
         t.vds = s.vds.set k (some { stream := n, live := c.treatedLive, startAt := elapsedW s, budget := budgetOf c
                                     frame := t.allocOut, chunks := g, conceal := none, spoiled := false
                                     time := BitVec.ofNat 64 (arrivalTime (streamOf s n) (c.chunkCons.toNat + g.length)) }) ∧
         (streamOf t n).inDecode = true ∧ (streamOf t n).readyAt = none ∧
         (∃ c', (streamOf t n).ctx = some c' ∧ c'.entry = c.entry ∧ c'.chunkCons = c.chunkCons ∧ c'.frameSeq = c.frameSeq) ∧
         (∀ m, m ≠ n → streamOf t m = streamOf s m) ∧ t.cores = s.cores ∧ t.shs = s.shs ∧ t.ves = s.ves))) ∧
     (planesRun s = true → Does (.vdDisable k) s (fun t => OnlyRegs s t [regKey R.VD_CTL_EN k.val] ∧ rd t R.VD_CTL_EN k.val = 0))) ∧
  (∀ (s : State) (k : Fin 12) (j : DecJob) (c : Ctx) (drift all : Bool) (r : DecodeResult),
     let t := writeFrame s k j c drift all r
     let w := r.width.toNat
     let h := r.height.toNat
     let p010 := ctlP010 c.entry
     let a := j.frame.toNat
     let word := fun (off len : Nat) => peekNat t (a + off) len
     let pitch := ((if p010 then 2 * w else w) + 255) / 256 * 256
     let luma := pitch * ((h + 15) / 16 * 16)
     let map := 256 + luma + luma / 2
     let stride := ((w + 15) / 16 + 63) / 64 * 64
     word 0 2 = j.stream.val ∧
     word 2 1 = 2 * b2n drift + 4 * b2n r.rap + 8 * b2n r.grain + 16 * b2n p010 + 32 * b2n all ∧
     peek t (a + 3) 1 = peek s (a + 3) 1 ∧
     word 4 4 = c.frameSeq.toNat ∧ word 8 8 = j.time.toNat ∧ word 20 2 = w ∧ word 22 2 = h ∧
     (pitch < 2 ^ 32 → word 24 4 = pitch) ∧ (map < 2 ^ 32 → word 28 4 = 256 + luma ∧ word 32 4 = map) ∧
     (stride < 2 ^ 16 → word 36 2 = stride) ∧
     (∀ i b, i < (h + 15) / 16 → b < (w + 15) / 16 → peek t (a + map + i * stride + b) 1 =
       [if all then 0xFF else mapByte c.entry (r.blocks.getD (i * ((w + 15) / 16) + b) ⟨[], []⟩)]) ∧
     ∀ z, z < a ∨ a + map + stride * ((h + 15) / 16) ≤ z → peek t z 1 = peek s z 1)

/-- R50, R53, R57, R61 to R67, R70: how an access unit ends. A good frame, a skipped one, a dropped one and a
concealed one each consume the unit's chunks and take one sequence number; a refused one is not consumed and puts the
stream in ERROR. A unit ends no earlier than the time that has passed and within its budget (R428; the bounds on CYCLES
are the model's deduction, log entry 196, and CODEC 3 at the end of the budget is log entry 197). RESYNC ends with a
random access point whatever becomes of it (log entry 162). Of memory a good frame changes its own buffer, as
`DispatchAndFrames` says of `writeFrame`, a concealed one takes the planes of LAST_GOOD, the others nothing; beside
that only the context entry, the bitmaps of the pools and byte 3 of their buffers can change. -/
def Obligations.AccessUnitsEnd : Prop :=
  ∀ (k : Fin 12) (j : DecJob) (c : Ctx) (s : State),
    let n := j.stream
    let x := streamOf s n
    s.vds[k] = some j → x.ctx = some c →
    let breaks := j.chunks.any (fun y => y.eos || y.bad)
    let after := fun (cycles : Nat) => passUntil s (j.startAt.toNat + vNs cycles)
    let left := fun (u t : State) => t.vds = s.vds.set k none ∧ (streamOf t n).inDecode = false ∧ t.cores = u.cores ∧ now t = now u ∧
      t.ves = s.ves ∧ t.shs = s.shs
    let ended := fun (u t : State) (c' : Ctx) => left u t ∧ (streamOf t n).ctx = some c' ∧ c'.entry = c.entry ∧
      c'.frameSeq = c.frameSeq + 1 ∧ c'.chunkCons = c.chunkCons + BitVec.ofNat 32 j.chunks.length ∧ c'.posOffset = 0 ∧
      c'.error = c.error ∧ rd t R.VD_FRAMES k.val = (rd s R.VD_FRAMES k.val + 1) % 2 ^ 32
    let kept := fun (z : Nat) => (z < ctxAddr s n ∨ ctxAddr s n + 256 ≤ z) ∧
      ∀ p : Fin 8, (z < poolMap s p ∨ poolMap s p + mapBytes s p ≤ z) ∧ ∀ i, z ≠ bufAddr s p i + 3
    let writesNone := fun (t : State) => ∀ z, kept z → peek t z 1 = peek s z 1
    let refused := fun (cycles : Nat) (t : State) => left (after cycles) t ∧ writesNone t ∧
      ∃ c', (streamOf t n).ctx = some c' ∧ c'.error = true ∧ c'.entry = c.entry ∧ c'.chunkCons = c.chunkCons ∧ c'.frameSeq = c.frameSeq
    let conceals := fun (code detail : Nat) (pos : AuPos) (cycles : Nat) (rap : Bool) (t : State) =>
      t.vds = s.vds.set k (some { j with conceal := some { code := BitVec.ofNat 8 code, detail := BitVec.ofNat 8 detail
                                                           pos := pos, cycles := cycles, since := elapsedW (after cycles), rap := rap } }) ∧
      t.mem = s.mem ∧ (streamOf t n).ctx = some c
    let fits := fun (cycles : Nat) => vCycles (elapsed s - j.startAt.toNat) ≤ cycles ∧ cycles ≤ j.budget
    (j.conceal = none →
      (∀ r : DecodeResult, .decoder k ∉ s.hidden →
        let unsupported := ctlCodec c.entry = 3 ∨ (ctlCodec c.entry = 0 ∧ r.bitDepth10 = true) ∨
          withinDevice c.entry r.width.toNat r.height.toNat = false
        let inStream := withinStream s c.entry r.width.toNat r.height.toNat
        let good := j.spoiled = false ∧ unreadable s j.chunks = false ∧ fits r.cycles
        (¬ good → exec (.frameOk k r) s = .next s) ∧
        (good → unsupported → Does (.frameOk k r) s (refused r.cycles)) ∧
        (good → ¬ unsupported → inStream = false → Does (.frameOk k r) s (refused r.cycles)) ∧
        (good → ¬ unsupported → inStream = true →
          (r.rap = false → c.resync = true ∨ (r.rasl = true ∧ x.started = true) → Does (.frameOk k r) s (fun t =>
            ∃ c', ended (after r.cycles) t c' ∧ c'.resync = (c.resync || breaks) ∧ c'.framesDecoded = c.framesDecoded ∧
              c'.lastGood = c.lastGood ∧ c'.avgVcycles = c.avgVcycles ∧ (streamOf t n).skipReported = true ∧ writesNone t)) ∧
          (r.rap = true ∨ (c.resync = false ∧ ¬ (r.rasl = true ∧ x.started = true)) → Does (.frameOk k r) s (fun t =>
            ∃ c', ended (after r.cycles) t c' ∧ c'.resync = breaks ∧ c'.framesDecoded = c.framesDecoded + 1 ∧
              c'.drift = (c.drift && !r.rap) ∧ c'.lastGood = (if c.drift && !r.rap then c.lastGood else j.frame) ∧
              (avgAfter c r.cycles < 2 ^ 32 → c'.avgVcycles = BitVec.ofNat 32 (avgAfter c r.cycles)) ∧
              (streamOf t n).allChanged = breaks ∧
              ∃ d, ∀ z, kept z → peek t z 1 =
                peek (writeFrame { after r.cycles with freeCtr := d } k j c (c.drift && !r.rap) x.allChanged r) z 1)))) ∧
      (∀ (why : DecodeFault) (pos : AuPos) (cycles : Nat) (rap : Bool),
        let may := faultFits s j c why = true ∧ fits cycles
        (¬ may → exec (.decodeError k why ⟨pos, rap⟩ cycles) s = .next s) ∧
        (may →
          (why = .unsupported ∨ ctlCodec c.entry = 3 → Does (.decodeError k why ⟨pos, rap⟩ cycles) s (refused cycles)) ∧
          (∀ w h, why = .tooLarge w h → Does (.decodeError k why ⟨pos, rap⟩ cycles) s (refused cycles)) ∧
          (why ≠ .unsupported → (∀ w h, why ≠ .tooLarge w h) → ctlCodec c.entry ≠ 3 →
            (c.lastGood = 0 → Does (.decodeError k why ⟨pos, rap⟩ cycles) s (fun t => ∃ c', ended (after cycles) t c' ∧
              c'.resync = ((c.resync && !rap) || breaks) ∧ c'.framesDecoded = c.framesDecoded ∧
              c'.bsErrors = c.bsErrors + (if faultDetail why ≤ 4 then 1 else 0) ∧ writesNone t)) ∧
            (c.lastGood ≠ 0 → badWords s c.lastGood.toNat 64 = [] →
              Does (.decodeError k why ⟨pos, rap⟩ cycles) s (conceals 1 (faultDetail why) pos cycles rap))))) ∧
      (∀ (pos : AuPos) (rap : Bool), poisonOnly j = true → exec (.budgetExpiry k ⟨pos, rap⟩) s = .next s) ∧
      (∀ (pos : AuPos) (rap : Bool), poisonOnly j = false →
        (ctlCodec c.entry = 3 → Does (.budgetExpiry k ⟨pos, rap⟩) s (refused j.budget)) ∧
        (ctlCodec c.entry ≠ 3 → c.lastGood = 0 → Does (.budgetExpiry k ⟨pos, rap⟩) s (fun t => ∃ c', ended (after j.budget) t c' ∧
          c'.resync = ((c.resync && !rap) || breaks) ∧ c'.framesAbandoned = c.framesAbandoned + 1 ∧ writesNone t ∧
          rd t R.VD_ABANDONED k.val = (rd s R.VD_ABANDONED k.val + 1) % 2 ^ 32)) ∧
        (ctlCodec c.entry ≠ 3 → c.lastGood ≠ 0 → badWords s c.lastGood.toNat 64 = [] → Does (.budgetExpiry k ⟨pos, rap⟩) s
          (conceals 2 7 pos j.budget rap)))) ∧
    (∀ e refs self, j.conceal = some e → e.code = 1 ∨ e.code = 2 → Does (.concealDone k refs self) s (fun t =>
      let g := parseFrame (peek s c.lastGood.toNat 64)
      let a := j.frame.toNat
      let size := g.map + (g.height + 15) / 16 * g.mapStride
      (∀ z, kept z → z < a ∨ a + size ≤ z → peek t z 1 = peek s z 1) ∧
      (badWords s c.lastGood.toNat 64 = [] → 256 ≤ g.map → a + size ≤ c.lastGood.toNat ∨ c.lastGood.toNat + g.map ≤ a →
        (∀ i, i + 256 < g.map → kept (a + 256 + i) → peek t (a + 256 + i) 1 = peek s (c.lastGood.toNat + 256 + i) 1) ∧
        ((∀ i, i < 24 → kept (a + i) ∨ i = 3) → peekNat t a 2 = n.val ∧ peekNat t (a + 4) 4 = c.frameSeq.toNat)) ∧
      ∃ c', ended (passCopy s c e) t c' ∧ c'.drift = true ∧ c'.lastGood = c.lastGood ∧ c'.framesDecoded = c.framesDecoded ∧
        c'.resync = ((c.resync && !e.rap) || breaks) ∧
        c'.framesConcealed = c.framesConcealed + (if e.code = 1 then 1 else 0) ∧
        c'.framesAbandoned = c.framesAbandoned + (if e.code = 2 then 1 else 0) ∧
        (streamOf t n).allChanged = true ∧ (streamOf t n).resyncDue = true))

/-! ## Shapers -/

/-- R81, R82, R94, R96, R104: a shaper takes a frame. The oldest offered frame of a live stream goes first, else the
oldest; its sample reserves the next slot of the stream's class, and the frame is no longer on offer. From stage 4 on
frames of streams that are not live are released unshaped.
R88 to R90, R93: what a shaper writes into a slot. Each value of the tensor is clamped to 8 bits; the gate map follows
at the next multiple of 256 bytes; nothing outside the slot changes.
R84, R91, R94, R98, R99: how a sample ends. One that passes its setup and whose lines hold no error completes its
slot; one that fails with no replacement frame is filled, counted as corrupt, and completes with 0x80 added to its
reason; with one it is shaped anew from that frame. The v-cycles of R91 have then passed since its start. Beside the
slot only the headers of the class's areas, the bitmaps of the pools and byte 3 of their buffers can change. The model's
choices: TIME, CHUNK_TAG and FLAGS are of the sample's own frame (log entry 98), lines are read once and a failed sample
writes nothing (99), the replacement of entry 100, the fields of a re-shape that cannot be read (238), when a corrupt
sample's slot is filled (102), that a re-shape is not counted again (184), the time of a sample that poison ends (185). -/
def Obligations.ShapedSamples : Prop :=
  (∀ (k : Fin 8) (s : State),
     let live := fun (o : Offer) => isLive (streamOf s o.stream)
     (∀ o, nextOffer s = some o → o ∈ s.offers ∧ (live o = false → ∀ o' ∈ s.offers, live o' = false) ∧
       ∃ before after, s.offers = before ++ o :: after ∧ ∀ o' ∈ before, live o = true ∧ live o' = false) ∧
     (∀ j, s.shs[k] = some j → j.started = true → exec (.shaperTakeFrame k) s = .next s) ∧
     (s.shs[k] = none → stage s < 4 → shaperRuns s k = false ∨ s.offers = [] → exec (.shaperTakeFrame k) s = .next s) ∧
     (s.shs[k] = none → shaperRuns s k = true → 4 ≤ stage s → (∀ o ∈ s.offers, live o = false) →
       Does (.shaperTakeFrame k) s (fun t => t.offers = [] ∧ t.shs = s.shs ∧ t.cores = s.cores)) ∧
     (∀ o ctx a, s.shs[k] = none → stage s < 4 → shaperRuns s k = true → nextOffer s = some o →
       (streamOf s o.stream).ctx = some ctx →
       let cfg : BitVec 512 := BitVec.ofNat 512 (entryField ctx.entry 0x80 64)
       let c := (parseSh cfg).cluster
       let q := (parseSh cfg).cls
       let x := s.clusters[c].bq[q].areas[a]
       let taken : ShJob := { stream := o.stream, frame := o.frame, cluster := c, cls := q, area := a
                              slot := x.slots.length, started := true, reason := 0, replacing := false, startAt := elapsedW s
                              cfg := cfg, tune := none }
       let slot : Slot := { emptySlot with valid := true, sampleId := BitVec.ofNat 64 (o.stream.val + o.seq.toNat * 2 ^ 16) }
       (classOn s c q = true → rd s R.BQ_TUNE (bqIx c q) = 0 → nextArea s c q = some a → .ctx o.stream ∉ s.hidden →
         bqSize s c q ≤ x.slots.length + 1 → Does (.shaperTakeFrame k) s (fun t =>
           let y := t.clusters[c].bq[q].areas[a]
           t.shs = s.shs.set k (some taken) ∧ t.offers = s.offers.erase o ∧ t.cores = s.cores ∧ y.slots = x.slots ++ [slot] ∧
           y.seq = s.clusters[c].bq[q].seq ∧ y.closeTime = nowW s ∧ (y.st = .closed ∨ y.st = .ready) ∧
           t.clusters[c].bq[q].seq = s.clusters[c].bq[q].seq + 1)) ∧
       (classOn s c q = true → rd s R.BQ_TUNE (bqIx c q) = 0 → nextArea s c q = some a → .ctx o.stream ∉ s.hidden →
         x.slots.length + 1 < bqSize s c q →
       Does (.shaperTakeFrame k) s (fun t =>
         t = { s with shs := t.shs, offers := s.offers.erase o, clusters := t.clusters, regs := t.regs } ∧
         RegsKept s t [regKey R.SH_WAIT_MAX_VCYCLES 0] ∧
         t.shs = s.shs.set k (some taken) ∧
         t.clusters[c].bq[q].areas[a] = { x with
           st := .opened, epoch := 0, firstAt := if x.slots = [] then nowW s else x.firstAt, slots := x.slots ++ [slot] }))) ∧
     (planesRun s = false → exec (.shDisable k) s = .next s) ∧
     (planesRun s = true → Does (.shDisable k) s (fun t => OnlyRegs s t [regKey R.SH_CTL_EN k.val] ∧ rd t R.SH_CTL_EN k.val = 0))) ∧
  (∀ (s : State) (k : Fin 8) (j : ShJob) (h : FrameHdr) (frame : Nat),
     let x := shotOf (jobCfg j) h frame
     shCfgOk x = true →
     let t := writeSample s k j x
     let a := slotAddr s j.cluster j.cls j.area j.slot
     let qs := x.tensor s j.tune (signedOf 8 (rd s R.BQ_PAD (bqIx j.cluster j.cls)))
     let fold := foldOf x.p
     let len := (x.p.outW / fold.1) * (x.p.outH / fold.2) * (if x.p.c16 then 16 else 32)
     let map := (len + 255) / 256 * 256
     let wide := (x.p.outW + 15) / 16
     let high := (x.p.outH + 15) / 16
     qs.length = len ∧
     (∀ i, i < len → peek t (a + i) 1 = [BitVec.ofInt 8 (max (-128) (min 127 (qs.getD i 0)))]) ∧
     (∀ bx by_, bx < wide → by_ < high → peek t (a + map + by_ * wide + bx) 1 =
       [x.gateByte s (allChangedGate j x.h) bx by_]) ∧
     ∀ z, z < a ∨ a + map + wide * high ≤ z → peek t z 1 = peek s z 1) ∧
  (∀ (k : Fin 8) (j : ShJob) (s : State), s.shs[k] = some j →
     let h := parseFrame (peek s j.frame.toNat 64)
     let x := shotOf (jobCfg j) h j.frame.toNat
     let i := bqIx j.cluster j.cls
     let slots := fun (t : State) => t.clusters[j.cluster].bq[j.cls].areas[j.area].slots
     let reason := setupReason s j (j.tune.isSome && j.reason != 0) x
     let ends := fun (cycles code : Nat) (t : State) =>
       let u := passUntil s (j.startAt.toNat + vNs cycles)
       t.shs = s.shs.set k none ∧ t.cores = u.cores ∧ now t = now u ∧ t.vds = s.vds ∧ t.ves = s.ves ∧
       rd t R.SH_SAMPLES k.val = (rd s R.SH_SAMPLES k.val + 1) % 2 ^ 32 ∧
       rd t R.BQ_DELIVERED i = (rd s R.BQ_DELIVERED i + 1) % 2 ^ 32 ∧
       (slots t).length = (slots s).length ∧ (∀ m, m ≠ j.slot → (slots t)[m]? = (slots s)[m]?) ∧
       ∀ y, (slots s)[j.slot]? = some y → ∃ y', (slots t)[j.slot]? = some y' ∧ y'.complete = true ∧ y'.valid = y.valid ∧
         y'.sampleId = y.sampleId ∧ y'.reason = BitVec.ofNat 8 code ∧
         (j.replacing = false → (j.tune.isSome && j.reason != 0) = false →
           y'.time = BitVec.ofNat 64 h.time ∧ y'.chunkTag = BitVec.ofNat 32 h.tag ∧ y'.flags = BitVec.ofNat 8 h.flags) ∧
         y'.replaced = (y.replaced || (code ≥ 0x80 && !j.replacing))
     let kept := fun (z : Nat) => (∀ (p : Fin 8) i, z ≠ bufAddr s p i + 3) ∧
       (∀ p : Fin 8, z < poolMap s p ∨ poolMap s p + mapBytes s p ≤ z) ∧
       ∀ d, z < areaAddr s j.cluster j.cls d ∨ areaAddr s j.cluster j.cls d + 4096 ≤ z
     (j.started = false → exec (.shaperSampleDone k) s = .next s) ∧
     (j.started = true → badWords s j.frame.toNat 64 = [] →
       (reason = 0 → (∀ l ∈ x.lines (allChangedGate j h), badWords s (64 * l) 64 = []) → .shaper k ∉ s.hidden →
         Does (.shaperSampleDone k) s (fun t => ends x.cycles (if j.replacing then j.reason.toNat else 0) t ∧
           ∀ z, kept z → peek t z 1 = peek (writeSample s k j x) z 1)) ∧
       (reason ≠ 0 → j.replacing = true ∨ rd s R.BQ_REPL i = 0 ∨ j.tune ≠ none ∨ replacementOf s j = none →
         Does (.shaperSampleDone k) s (fun t => ends 512 ((if j.replacing then j.reason.toNat else reason) + 0x80) t ∧
           ∀ z, kept z → peek t z 1 = peek (fillSlot s j.cluster j.cls j.area j.slot) z 1)) ∧
       (∀ a ctx, reason ≠ 0 → j.replacing = false → rd s R.BQ_REPL i ≠ 0 → j.tune = none → replacementOf s j = some a →
         (streamOf s j.stream).ctx = some ctx → .ctx j.stream ∉ s.hidden → Does (.shaperSampleDone k) s (fun t =>
           let u := passUntil s (j.startAt.toNat + vNs 512)
           t.shs = s.shs.set k (some { j with replacing := true, reason := BitVec.ofNat 8 reason, frame := a, startAt := elapsedW u
                                              cfg := BitVec.ofNat 512 (entryField ctx.entry 0x80 64) }) ∧
           t.cores = u.cores ∧ now t = now u ∧ (slots t).length = (slots s).length ∧
           (∀ y', (slots t)[j.slot]? = some y' → y'.replaced = true) ∧
           rd t R.SH_CORRUPT k.val = (rd s R.SH_CORRUPT k.val + 1) % 2 ^ 32 ∧
           rd t R.BQ_REPLACED i = (rd s R.BQ_REPLACED i + 1) % 2 ^ 32 ∧
           ∀ z, (∀ (p : Fin 8) i, z ≠ bufAddr s p i + 3) → (∀ p : Fin 8, z < poolMap s p ∨ poolMap s p + mapBytes s p ≤ z) →
             peek t z 1 = peek s z 1))))

/-- R101: the shuffle of site tuning is a permutation of the positions of the list.
R100 to R103: the start of a site-tuning sample. It takes the list's next position in the shuffled order, reserves a
slot under the number of its list entry, and moves on; the last position of the list ends the epoch. That an empty list,
or an epoch beyond the last, starts nothing is log entry 104. -/
def Obligations.SiteTunes : Prop :=
  (∀ (seed e n : Nat), 0 < n → n ≤ 2 ^ 24 →
     (∀ p, p < n → perm p seed e n < n) ∧
     ∀ p p', p < n → p' < n → perm p seed e n = perm p' seed e n → p = p') ∧
  (∀ (k : Fin 8) (c q a : Fin 4) (s : State),
     let i := bqIx c q
     let pos := rd s R.BQ_POS i
     let entry := perm pos (rd s R.BQ_SEED i) (rd s R.BQ_EPOCH i) (rd s R.BQ_LIST_N i)
     let at_ := rd s R.BQ_LIST i * 32 + 32 * entry
     let d : BitVec 256 := BitVec.ofNat 256 (natOfBytes (peek s at_ 32))
     let x := s.clusters[c].bq[q].areas[a]
     (shaperRuns s k = false ∨ s.shs[k] ≠ none ∨ tuneRuns s c q = false ∨ nextArea s c q = none →
       exec (.siteTuningSampleStart k c q) s = .next s) ∧
     (∀ ctx, shaperRuns s k = true → s.shs[k] = none → tuneRuns s c q = true → nextArea s c q = some a →
       (streamOf s (Fin.ofNat 1024 (bitsOf d.toNat 64 10))).ctx = some ctx → badWords s at_ 32 = [] →
       .ctx (Fin.ofNat 1024 (bitsOf d.toNat 64 10)) ∉ s.hidden → Does (.siteTuningSampleStart k c q) s (fun t =>
         let y := t.clusters[c].bq[q].areas[a]
         t.cores = s.cores ∧ t.vds = s.vds ∧ t.offers = s.offers ∧
         t.shs = s.shs.set k (some { stream := Fin.ofNat 1024 (bitsOf d.toNat 64 10), frame := BitVec.ofNat 48 d.toNat
                                     cluster := c, cls := q, area := a, slot := x.slots.length, started := true, reason := 0
                                     replacing := false, startAt := elapsedW s, cfg := BitVec.ofNat 512 (entryField ctx.entry 0x80 64), tune := some d }) ∧
         (∀ z, y.slots[x.slots.length]? = some z → z.sampleId = BitVec.ofNat 64 (2 ^ 63 + entry) ∧ z.valid = true) ∧
         x.slots.length < y.slots.length ∧ y.epoch = BitVec.ofNat 32 (rd s R.BQ_EPOCH i) ∧
         (pos + 1 ≠ rd s R.BQ_LIST_N i →
           rd t R.BQ_POS i = (pos + 1) % 2 ^ 24 ∧ rd t R.BQ_EPOCH i = rd s R.BQ_EPOCH i ∧
           (0 < (pos + 1) % bqSize s c q → y.st = .opened)) ∧
         (pos + 1 = rd s R.BQ_LIST_N i →
           rd t R.BQ_POS i = 0 ∧ rd t R.BQ_EPOCH i = (rd s R.BQ_EPOCH i + 1) % 2 ^ 32 ∧
           rd t R.BQ_DONE i = b2n (decide (rd s R.BQ_EPOCH_LAST i ≤ rd s R.BQ_EPOCH i)) ∧ y.st ≠ .opened))))

/-! ## Encoders -/

/-- R109 to R119: encode requests and encoders. A request that its ring holds is accepted where its fields pass, and
is answered and dropped from stage 1 on. An idle encoder takes the oldest request of a live stream that has a frame,
else the oldest; a frame that cannot be scaled ends its request. A coded frame is stored behind its prefix in the
request's chain of buffers and the rate control moves on; where they are full the encoder waits for one, and a wait that
runs out ends the request. A request that ends posts its CLIP record. The model's choices: which refusal has which code
(log entry 94), the small points of an encode (187), an entry that is not cached is read in DRAM and stays uncached
(223), the range of QP_MIN and QP_MAX (240), the syntax of coded bytes (166, 186). -/
def Obligations.EncodeRequests : Prop :=
  ∀ (k : Fin 4) (s : State),
    let cons := rd s R.VE_REQ_CONS 0
    let at_ := rd s R.VE_REQ_BASE 0 * 32 + cons % 2 ^ rd s R.VE_REQ_LOG2 0 * 32
    let bs := peek s at_ 32
    let n : Fin 1024 := Fin.ofNat 1024 (fieldOf bs 4 2)
    let accepts := serving s = true ∧ rd s R.VE_REQ_EN 0 ≠ 0 ∧ rd s R.VE_REQ_PROD 0 ≠ cons ∧ s.encReqs.length < 64
    let dropped := fun (r : EncReq) (t : State) => t.encReqs = s.encReqs.filter (fun y => y.id != r.id) ∧ t.vds = s.vds ∧ t.shs = s.shs
    let clip := fun (r : EncReq) (status : Nat) (t : State) =>
      ∃ e, t.mqs[encMq r.cfg].waiting = s.mqs[encMq r.cfg].waiting ++ [e] ∧ e.bytes.length = 64 ∧ fieldOf e.bytes 0 1 = 2 ∧
        fieldOf e.bytes 2 2 = r.stream.val ∧ fieldOf e.bytes 4 4 = r.first.toNat ∧ fieldOf e.bytes 16 4 = r.tag.toNat ∧
        fieldOf e.bytes 20 1 = status
    let kept := fun (z : Nat) => ∀ p : Fin 8, (z < poolMap s p ∨ poolMap s p + mapBytes s p ≤ z) ∧
      (poolHolds s p = true → ∀ i, z ≠ bufAddr s p i + 3)
    (∀ prod, planesRun s = true → Does (.veReqProd prod) s (fun t =>
      OnlyRegs s t [regKey R.VE_REQ_PROD 0] ∧ rd t R.VE_REQ_PROD 0 = prod.toNat)) ∧
    (∀ prod, planesRun s = false → exec (.veReqProd prod) s = .next s ∧ exec (.veDisable k) s = .next s) ∧
    (¬ accepts → exec .encodeRequestAccept s = .next s) ∧
    (∀ ctx, accepts → badWords s at_ 32 = [] → (streamOf s n).ctx = some ctx → ctlValid ctx.entry = true → stage s = 0 →
      (streamOf s n).preroll = [] → (∀ y ∈ s.encReqs, y.id < s.order) → .ctx n ∉ s.hidden →
      let e := entryOfBytes (encEntry s n).bytes
      let r := parseReq s bs e
      reqOk s r = true → rangePassed r = false → Does .encodeRequestAccept s (fun t =>
        t.encReqs = s.encReqs ++ [r] ∧ t.order = s.order + 1 ∧ rd t R.VE_REQ_CONS 0 = (cons + 1) % 2 ^ 32 ∧
        t.mem = s.mem ∧ t.cores = s.cores ∧ t.ves = s.ves ∧ t.streams = s.streams ∧ r.frames = [] ∧ r.busy = false ∧
        r.next = ctx.frameSeq)) ∧
    (accepts → badWords s at_ 32 = [] → 1 ≤ stage s → (∀ y ∈ s.encReqs, y.id < s.order) → Does .encodeRequestAccept s (fun t =>
      t.encReqs = s.encReqs ∧ rd t R.VE_REQ_CONS 0 = (cons + 1) % 2 ^ 32 ∧ t.cores = s.cores ∧ t.ves = s.ves ∧
      clip (parseReq s bs (entryOfBytes (encEntry s n).bytes)) 2 t)) ∧
    (∀ r, nextRequest s = some r → r ∈ s.encReqs ∧ hasFrame r = true ∧
      (reqLive s r = false → ∀ y ∈ s.encReqs, hasFrame y = true → reqLive s y = false)) ∧
    (∀ r f rest, serving s = true → veUsable s k = true → rd s R.VE_CTL_EN k.val ≠ 0 → s.ves[k] = none → stage s = 0 →
      nextRequest s = some r → r.frames = f :: rest → badWords s f.frame.toNat 64 = [] →
      let shot := encShot r (parseFrame (peek s f.frame.toNat 64)) f.frame.toNat
      (encScaleOk shot = true → Does (.encodeFrameStart k) s (fun t =>
        t.ves = s.ves.set k (some { req := r.id, stream := r.stream, live := reqLive s r, frame := f, startAt := elapsedW s, coded := none }) ∧
        t.veWait = s.veWait.set k none ∧ t.mem = s.mem ∧ t.cores = s.cores ∧ t.streams = s.streams ∧
        t.encReqs = s.encReqs.map (fun y => if y.id = r.id then { y with frames := rest, busy := true, servedLive := y.servedLive || reqLive s r } else y))) ∧
      (encScaleOk shot = false → Does (.encodeFrameStart k) s (fun t =>
        dropped r t ∧ clip r 6 t ∧ t.ves = s.ves ∧ t.cores = s.cores))) ∧
    (∀ j r bytes params, s.ves[k] = some j → reqOf s j.req = some r → .encoder k ∉ s.hidden → s.veGot[k] = [] →
      let done := codeFrame s k r j bytes params
      let c : State × List Byte := match j.coded with | some x => (s, x) | none => done
      let n := c.2.length
      let h := parseFrame (peek s j.frame.frame.toNat 64)
      let cap := encCapacity s r
      let block := bytesOf 4 (16 + n) ++ bytesOf 4 j.frame.seq.toNat ++ bytesOf 8 h.time ++ c.2
      (r.bytes + 16 + n ≤ r.buffers.length * cap → Does (.encodeFrameDone k ⟨bytes, params⟩) s (fun t =>
        t.ves = s.ves.set k none ∧ t.veWait = s.veWait.set k none ∧ t.cores = c.1.cores ∧ now t = now c.1 ∧
        rd t R.VE_FRAMES k.val = (rd s R.VE_FRAMES k.val + 1) % 2 ^ 32 ∧
        rd t R.VE_BYTES k.val = (rd s R.VE_BYTES k.val + (16 + n)) % 2 ^ 32 ∧
        (∀ z, kept z → (∀ b ∈ r.buffers, z < b.toNat ∨ b.toNat + poolSize s (encPool r.cfg) ≤ z) → peek t z 1 = peek s z 1) ∧
        (r.buffers.Pairwise (fun b b' => b.toNat + poolSize s (encPool r.cfg) ≤ b'.toNat ∨ b'.toNat + poolSize s (encPool r.cfg) ≤ b.toNat) →
          (∀ i, i < 16 + n →
            let z := (r.buffers.getD ((r.bytes + i) / cap) 0).toNat + 64 + (r.bytes + i) % cap
            kept z → peek t z 1 = [block.getD i 0]) ∧
          ∀ m, m * cap < r.bytes + 16 + n → let b := (r.buffers.getD m 0).toNat
            (∀ i, i < 64 → kept (b + i)) → peekNat t b 8 = (r.buffers.getD (m + 1) 0).toNat ∧
              peekNat t (b + 8) 4 = min cap (r.bytes + 16 + n - m * cap) % 2 ^ 32 ∧ peekNat t (b + 12) 4 = r.tag.toNat) ∧
        (r.frames = [] → rangePassed r = true → t.encReqs = s.encReqs.filter (fun y => y.id != r.id) ∧
          clip r (if r.encoded + 1 = r.count then 0 else 1) t) ∧
        (r.frames ≠ [] → ∃ r', reqOf t j.req = some r' ∧ r'.encoded = r.encoded + 1 ∧ r'.bytes = r.bytes + 16 + n ∧ r'.busy = false ∧
          r'.lastSeq = j.frame.seq ∧ r'.frames = r.frames ∧ r'.buffers = r.buffers ∧ r'.timeLast = BitVec.ofNat 64 h.time ∧
          (r.thumb = false → (r'.fill, r'.qp) = rateControl r.cfg r.fill r.qp (8 * n)
            (if r.encoded = 0 then 0 else h.time - r.timeLast.toNat))))) ∧
      (∀ p : Fin 8, p = encPool r.cfg → r.buffers.length * cap < r.bytes + 16 + n → encWaits s k = false →
        (s.pools[p].ready = [] ∧ s.pools[p].waiting = []) → Does (.encodeFrameDone k ⟨bytes, params⟩) s (fun t =>
          t.ves = s.ves.set k (some { j with coded := some c.2 }) ∧ t.encReqs = s.encReqs ∧ encWaits t k = true ∧
          t.veWait[k] ≠ none ∧ t.mem = s.mem))) ∧
    (∀ slot r, s.encReqs[slot]? = some r → r.frames = [] → r.busy = false →
      Does (.encodeWaitTimeout slot) s (fun t => dropped r t ∧ clip r 5 t ∧ t.ves = s.ves ∧
        elapsedW t = elapsedW (passUntil s (r.lastArrival.toNat + r.waitMs * 1000000)))) ∧
    (∀ j r since, s.veWait[k] = some since → s.ves[k] = some j → reqOf s j.req = some r → encWaits s k = true →
      let u := passUntil s (since.toNat + rd s R.VE_OUT_WAIT 0 * 1000)
      (s.pools[encPool r.cfg].ready = [] → Does (.noBuffer k) s (fun t =>
        dropped r t ∧ clip r 3 t ∧ t.ves = s.ves.set k none ∧ t.veWait = s.veWait.set k none ∧ elapsedW t = elapsedW u)) ∧
      (∀ w, s.pools[encPool r.cfg].waiting = [w] → w.user = .encoder k → canAlloc (notePool u (encPool r.cfg)) (encPool r.cfg) w.live = true →
        (∀ p, p ≠ encPool r.cfg → s.pools[p].waiting = []) → Does (.noBuffer k) s (fun t =>
        t.encReqs = s.encReqs ∧ t.ves = s.ves ∧ encWaits t k = false ∧ ∃ a, t.veGot[k] = s.veGot[k] ++ [a] ∧ elapsedW t = elapsedW u))) ∧
    (planesRun s = true → Does (.veDisable k) s (fun t => OnlyRegs s t [regKey R.VE_CTL_EN k.val] ∧ rd t R.VE_CTL_EN k.val = 0))

/-! ## Arbitration -/

/-- R256, R266 to R271, R290: a decision of an arbiter. Each request has the class that the state gives its requester.
With no grant in force the request that no other outranks wins; each other one that takes part loses, and presents
again after a breath that doubles with every loss in a row; the eighth promotes it, all of one cycle as equals.
Without pre-emption a grant that is not in its last beat stands; with it, the holder that is outranked is displaced
and keeps what is left of its transfer. The indices of a bag bank's requesters, and the class of one whose state gives
it none, are log entry 191. -/
def Obligations.ArbiterDecisions : Prop :=
  ∀ (r : ArbRes) (c : Nat) (present : List ArbReq) (s : State),
    (∀ q ∈ present, q.idx < arbUnits r ∧ 1 ≤ q.beats ∧ q.beats ≤ maxBeats r) → (present.map (fun q => q.idx)).Nodup →
    let reqs := present.map (classed s r)
    let taking := if reqs.all (fun q => decide (c < (arbSt s r q.idx).until_)) then reqs
      else reqs.filter (fun q => decide ((arbSt s r q.idx).until_ ≤ c))
    (∀ idx, planesRun s = false → exec (.arbDecision r c present) s = .next s ∧ exec (.arbBreathEnd r idx) s = .next s) ∧
    (planesRun s = true →
      (grantOf s r = none → present ≠ [] → Does (.arbDecision r c present) s (fun t =>
        t = { s with regs := t.regs, arb := t.arb, grants := t.grants, freeCtr := t.freeCtr } ∧
        ∃ w ∈ taking, (∀ q ∈ taking, outranks s r q w = false) ∧
          (∃ g, grantOf t r = some g ∧ g.req.idx = w.idx ∧ g.from_ = c + 1) ∧
          (arbSt t r w.idx).losses = 0 ∧ (arbSt t r w.idx).promoted = none ∧ (arbSt t r w.idx).until_ = 0 ∧
          (∀ q ∈ taking, q ≠ w →
            let old := arbSt s r q.idx
            let new := arbSt t r q.idx
            new.losses = old.losses + 1 ∧ new.until_ = c + min (2 ^ (old.losses + 1)) 1024 ∧
            (old.losses + 1 < 8 ∨ old.promoted ≠ none → new.promoted = old.promoted) ∧
            (8 ≤ old.losses + 1 → old.promoted = none → new.promoted = some c)) ∧
          (∀ i, i < 64 → (∀ q ∈ taking, q.idx ≠ i) → arbSt t r i = arbSt s r i) ∧
          ∀ r', arbKey r' ≠ arbKey r → grantOf t r' = grantOf s r' ∧ ∀ i, i < 64 → arbSt t r' i = arbSt s r' i)) ∧
      (grantOf s r = none → present = [] → exec (.arbDecision r c present) s = .next s) ∧
      (∀ g, grantOf s r = some g → inForce r g reqs c = true → holding r g reqs c = true →
        (arbPreempts s r = false → exec (.arbDecision r c present) s = .next s) ∧
        (arbPreempts s r = true →
          (∃ q ∈ reqs, q.idx ≠ g.req.idx ∧ (arbSt s r q.idx).until_ ≤ c ∧
            outranks s r q ((holderEntry g reqs).getD (classed s r g.req)) = true) →
          Does (.arbDecision r c present) s (fun t =>
            (∃ g', grantOf t r = some g' ∧ g'.req.idx ≠ g.req.idx ∧ g'.from_ = c + 1) ∧ t.cores = s.cores ∧ t.mem = s.mem ∧
            (arbSt t r g.req.idx).until_ = c + 1 ∧
            (arbSt t r g.req.idx).left = some (g.req.ready, g.req.beats - beatsDone r g reqs c, g.req.first)))) ∧
      ∀ idx,
        (idx < arbUnits r → Does (.arbBreathEnd r idx) s (fun t =>
          t = { s with arb := t.arb } ∧ arbSt t r idx = { arbSt s r idx with until_ := 0 } ∧
          ∀ i, i < 64 → i ≠ idx → arbSt t r i = arbSt s r i)) ∧
        (arbUnits r ≤ idx → exec (.arbBreathEnd r idx) s = .next s))

/-! ## Memory -/

/-- R258 to R260, R278: what a read of core memory does with a word in error, and the write-back of corrected words
and the scrubbers. A single-bit error is corrected, counted and written back later; an uncorrectable word is counted
once, recorded, and holds the poison pattern from then on; a word that holds it is returned as poison and not
counted. The word as the unit of an error is log entry 133, what a scrubber counts entry 107. -/
def Obligations.OnChipErrors : Prop :=
  ∀ (n : Fin 16) (a len req x off off' : Nat) (e : EccState) (s : State),
    (regionOf s a = .core n off → regionOf s x = .core n off' → x % 8 = 0 → 0x200000000000 ≤ a →
      rd s R.DRC_WINDOW 0 ≤ 0x200000000000 → badWords s a len = [(x, e)] →
      let m := memRead s req a len
      m.bytes = peek s a len ∧ m.s.mem = s.mem ∧ m.poison = decide (e = .double ∨ e = .poison) ∧
      (e = .single → m.s.writeback = s.writeback ++ [x] ∧ m.s.ecc = s.ecc ∧
        rd m.s R.CMEM_ECC_UE n.val = rd s R.CMEM_ECC_UE n.val ∧
        (rd s R.CMEM_ECC_ADDR_VALID n.val = 0 → rd m.s R.CMEM_ECC_ADDR_ADDR n.val = x % 2 ^ 48 ∧
          rd m.s R.CMEM_ECC_ADDR_UE n.val = 0 ∧ rd m.s R.CMEM_ECC_ADDR_VALID n.val = 1)) ∧
      (e = .double → eccAt m.s x = .poison ∧ m.s.writeback = s.writeback ∧
        rd m.s R.CMEM_ECC_CE n.val = rd s R.CMEM_ECC_CE n.val ∧
        (rd s R.CMEM_ECC_ADDR_VALID n.val = 0 ∨ rd s R.CMEM_ECC_ADDR_UE n.val = 0 →
          rd m.s R.CMEM_ECC_ADDR_ADDR n.val = x % 2 ^ 48 ∧ rd m.s R.CMEM_ECC_ADDR_UE n.val = 1 ∧
          rd m.s R.CMEM_ECC_ADDR_VALID n.val = 1)) ∧
      (e = .poison → m.s.ecc = s.ecc ∧ m.s.writeback = s.writeback ∧ m.s.logQ = s.logQ ∧
        rd m.s R.CMEM_ECC_CE n.val = rd s R.CMEM_ECC_CE n.val ∧ rd m.s R.CMEM_ECC_UE n.val = rd s R.CMEM_ECC_UE n.val)) ∧
    ∀ b : MemBank,
      (∀ w, s.writeback.find? (inBank s b) = some w → Does (.eccCeWriteback b) s (fun t =>
        t = { s with writeback := s.writeback.erase w, ecc := t.ecc } ∧
        (eccAt s w = .single → eccAt t w = .ok ∧ ∀ y, y ≠ w → eccAt t y = eccAt s y) ∧
        (eccAt s w ≠ .single → t.ecc = s.ecc))) ∧
      (s.writeback.find? (inBank s b) = none → exec (.eccCeWriteback b) s = .next s) ∧
      (s.phase ≠ .up ∨ planesRun s = false ∨ scrubs s b = false → exec (.memScrub b) s = .next s) ∧
      (s.phase = .up → planesRun s = true → scrubs s b = true →
        let line := bankLine b (scrubbed s b (bankIx b) % bankRows b)
        Does (.memScrub b) s (fun t =>
          t.mem = s.mem ∧ scrubbed t b (bankIx b) = scrubbed s b (bankIx b) + 1 ∧
          (∀ k, k < 64 → k ≠ bankIx b → scrubbed t b k = scrubbed s b k) ∧
          (badWords s line 128 = [] → t = { s with scrubAt := t.scrubAt, regs := t.regs })))

/-- R306, R307: the map from the DRAM window to channels and from a channel's offset to its rank, bank, row and column
are each one to one. With inline ECC the check bytes of a line lie behind the 28 lines of its page.
R313, R314, R316, R317, R319, R321, R322: the upkeep of a DRAM channel in service. The scrubber takes the next granule
SCRUB_INTERVAL after the one before; a refresh that is due is issued, or postponed up to eight times, and closes rows; a
poll of MR4 comes MR4_POLL_MS after the one before; an idle row is closed PAGE_IDLE after its last access; self-refresh is
entered SR_IDLE µs after the last request and left on a request; the oscillator check every RETRAIN_MS counts the drifts; a
training record takes the place of the older of the two copies in the flash, whose other bytes stay.
The moments are those of log entry 7 (time passes with the command), the shares of d-cycles in nanoseconds entry 233, the
layout of a record's header entry 126. -/
def Obligations.DramChannels : Prop :=
  ((∀ p n a, 256 ∣ p → 2 ≤ n →
     (dramChannel p n a).1 < n ∧ dramAddr p n (dramChannel p n a).1 (dramChannel p n a).2 = a) ∧
   ∀ ecc rankBytes off off', 2048 ≤ rankBytes → dramPlace ecc rankBytes off = dramPlace ecc rankBytes off' → off = off' ∧
     (ecc = true → (dramPlace ecc rankBytes off).column < 1792 ∧
       (dramPlace ecc rankBytes off).check = some (1792 + (dramPlace ecc rankBytes off).column / 64 * 8)) ∧
     (ecc = false → (dramPlace ecc rankBytes off).check = none)) ∧
  (∀ (k : Fin 16) (s : State),
     let d := s.dramChs[k]
     let active := planesRun s = true ∧ rd s R.DRC_CH_STATUS_IN_USE k.val ≠ 0 ∧ rd s R.DRC_STATUS_READY 0 ≠ 0
     let used := planesRun s = true ∧ rd s R.DRC_CH_STATUS_IN_USE k.val ≠ 0
     let asleep := rd s R.DRC_CH_STATUS_SR k.val ≠ 0
     let becomes := fun (u : State) (y : DramCh) (t : State) =>
       t = { u with dramChs := s.dramChs.set k y, regs := t.regs, freeCtr := t.freeCtr }
     let at_ := dramAddr (pinBytes s) (rd s R.DRC_STATUS_NCH 0) k.val (d.scrubAt * 256)
     (active → ¬ asleep → rd s R.DRC_ECC_CTL_SCRUB_EN 0 ≠ 0 → Does (.dramScrub k) s (fun t =>
       let u := passUntil s (d.scrubbed.toNat + dNs s R.DRC_ECC_CTL_SCRUB_INTERVAL)
       t.mem = s.mem ∧ t.dramChs[k].scrubAt = (d.scrubAt + 1) % (usableChannel s / 256) ∧
       t.dramChs[k].scrubbed = elapsedW u ∧ (∀ j : Fin 16, j ≠ k → t.dramChs[j] = s.dramChs[j]) ∧
       (badWords s at_ 256 = [] → t = { u with dramChs := t.dramChs }))) ∧
     (¬ active ∨ asleep ∨ rd s R.DRC_ECC_CTL_SCRUB_EN 0 = 0 → exec (.dramScrub k) s = .next s) ∧
     (¬ used ∨ asleep → ∀ b, exec (.dramRefresh k b) s = .next s) ∧
     (used → ¬ asleep →
       (d.owed < 8 → Does (.dramRefresh k true) s (fun t => becomes s { d with owed := d.owed + 1 } t ∧
         RegsKept s t [regKey R.DRC_CH_REF_POSTPONED_MAX k.val])) ∧
       (8 ≤ d.owed → Does (.dramRefresh k true) s (fun t => t.dramChs[k].owed = 8 ∧ t.regs = s.regs ∧
         (rd s R.DRC_REF_CTL_PER_BANK 0 = 0 → becomes s { d with owed := 8, openRows := [] } t))) ∧
       Does (.dramRefresh k false) s (fun t => t.dramChs[k].owed = 0 ∧ t.regs = s.regs ∧
         (rd s R.DRC_REF_CTL_PER_BANK 0 = 0 → becomes s { d with owed := 0, openRows := [] } t))) ∧
     (∀ rate above, used → Does (.mr4Poll k rate above) s (fun t =>
       let u := passUntil s (d.mr4At.toNat + max 1 (rd s R.DRC_REF_CTL_MR4_POLL_MS 0) * 1000000)
       rd t R.DRC_CH_STATUS_MR4_RATE k.val = rate.toNat ∧
       t.dramChs = s.dramChs.set k { d with hot := above, mr4At := elapsedW u } ∧ t.mem = s.mem)) ∧
     (∀ rate above, ¬ used → exec (.mr4Poll k rate above) s = .next s) ∧
     (∀ (rank : Fin 2) (bank : Fin 16),
       let open_ := planesRun s = true ∧ ∃ r ∈ d.openRows, r.1 = rank.val ∧ r.2.1 = bank.val
       let u := passUntil s (storeGet 0 d.rowAt (rank.val * 16 + bank.val) + dNs s R.DRC_PAGE_CTL_PAGE_IDLE)
       (open_ → exec (.pageIdleClose k rank bank) s = .next { u with dramChs := s.dramChs.set k { d with
         openRows := d.openRows.filter (fun r => r.1 ≠ rank.val ∨ r.2.1 ≠ bank.val) } }) ∧
       (¬ open_ → exec (.pageIdleClose k rank bank) s = .next s)) ∧
     (active → ¬ asleep → rd s R.DRC_SR_CTL_SR_EN 0 ≠ 0 → Does (.selfRefreshEntry k) s (fun t =>
       let u := passUntil s (d.lastReq.toNat + max 1 (rd s R.DRC_SR_CTL_SR_IDLE 0) * 1000)
       becomes u { d with owed := 0, openRows := [], srSince := elapsedW u } t ∧ rd t R.DRC_CH_STATUS_SR k.val = 1 ∧
       RegsKept u t [regKey R.DRC_CH_STATUS_SR k.val, regKey R.DRC_CH_SR_ENTRIES k.val])) ∧
     (¬ active ∨ asleep → exec (.selfRefreshEntry k) s = .next s) ∧
     (planesRun s = true → asleep → Does (.selfRefreshExit k) s (fun t =>
       let ns := elapsed s - d.srSince.toNat
       let us := rneQuot ns 1000
       becomes s (if retrainNs s < ns then { d with oscAt := elapsedW s } else d) t ∧ rd t R.DRC_CH_STATUS_SR k.val = 0 ∧
       RegsKept s t [regKey R.DRC_CH_STATUS_SR k.val, regKey R.DRC_CH_SR_US k.val, regKey R.DRC_CH_RETRAINS k.val] ∧
       (ns ≤ retrainNs s → rd t R.DRC_CH_RETRAINS k.val = rd s R.DRC_CH_RETRAINS k.val) ∧
       (rd s R.DRC_CH_SR_US k.val + us < 2 ^ 32 → rd t R.DRC_CH_SR_US k.val = rd s R.DRC_CH_SR_US k.val + us))) ∧
     (planesRun s = false ∨ ¬ asleep → exec (.selfRefreshExit k) s = .next s) ∧
     (active → ¬ asleep → ∀ drifted, Does (.wckRetrainCheck k drifted) s (fun t =>
       let u := passUntil s (d.oscAt.toNat + retrainNs s)
       becomes u { d with oscAt := elapsedW u } t ∧ RegsKept u t [regKey R.DRC_CH_RETRAINS k.val] ∧
       (drifted = false → rd t R.DRC_CH_RETRAINS k.val = rd s R.DRC_CH_RETRAINS k.val) ∧
       (drifted = true → rd s R.DRC_CH_RETRAINS k.val + 1 < 2 ^ 32 →
         rd t R.DRC_CH_RETRAINS k.val = rd s R.DRC_CH_RETRAINS k.val + 1))) ∧
     (¬ active ∨ asleep → ∀ drifted, exec (.wckRetrainCheck k drifted) s = .next s) ∧
     (s.recordDue = none → ∀ ok, exec (.trainingRecordWrite ok) s = .next s) ∧
     (∀ r ok, s.recordDue = some r → Does (.trainingRecordWrite ok) s (fun t =>
       let base := copyBase (olderIsB s)
       t = { s with recordDue := none, flash := t.flash, regs := t.regs, freeCtr := t.freeCtr
                    logQ := t.logQ, logLost := t.logLost } ∧
       rd t R.DRC_STATUS_REC_WRITE_FAIL 0 = b2n (!ok) ∧
       (ok = true → (∀ i, i < 12288 → storeGet 0xFF t.flash (base + i) = (recordBytes r).getD i 0xFF) ∧
         (r.modes.length = 48 → r.values.length = 8192 → readCopy t (olderIsB s) = some r)) ∧
       ∀ a, a < base ∨ base + 12288 ≤ a → storeGet 0xFF t.flash a = storeGet 0xFF s.flash a)))

/-! ## The host interface -/

/-- R3, R332 to R334: BAR0 accesses of the registers that hold what is written to them. A write gives each RW field
its bits and clears the RW1C bits it names; a read returns every field and clears the RC fields. An access that cannot
be served changes no register but the counter of its error, and is logged. A write by SMBus command 0x21 in the same
m-cycle comes after it (R424; commands with no time between them lie in one m-cycle, log entry 235). A write of two DWs at two unassigned offsets has an
entry in the log for each (the model's choice, log entry 231). The order of the
tests of an access is log entry 212, which block answers when entries 130 and 135.
R332, R335, R336, R351: accesses of BAR4 (its rows are those of BAR0, log entry 159). A write at a doorbell is that
doorbell's command; the MSI-X table holds what is written to it (its layout is entry 12), the pending bits are read-only,
and everything else reads 0 and is discarded, with one entry in the log (its arguments are entry 182; a write that is
misaligned, longer than two DWs or partial has one, entry 159). -/
def Obligations.HostRegisterAccess : Prop :=
  (∀ (off : BitVec 25) (v : BitVec 64) (s : State),
     let o := off.toNat
     let u := linkUsed s
     let hs := regHits o
     let keys := hs.map (fun h => regKey h.1 h.2.1)
     let logs := fun (code : BitVec 16) (t : State) => s.logQ[planeCtrl].length < 16 →
       ∃ e, t.logQ[planeCtrl] = s.logQ[planeCtrl] ++ [e] ∧ e.code = code ∧ e.sev = 3
     let errs := [regKey R.HIF_CA 0, regKey R.HIF_ERR_LAST_ADDR 0, regKey R.HIF_ERR_LAST_SPACE 0, regKey R.HIF_ERR_LAST_CODE 0,
       regKey R.HIF_ERR_LAST_VALID 0, regKey R.LOG_QDROP_CTRL 0]
     let answered := fun (st : CplStatus) (bytes : List Byte) (t : State) => t.cpl = [{ status := st, ep := false, bytes := bytes }]
     let smbNow := fun (e : Nat × Nat × W64) => e.2.2 = elapsedW s ∧ e.1 < o + 8 ∧ o < e.1 + 8
     (claimed s = true →
       (answers s o true = true → o % 4 = 0 → (o < 0x8000 ∨ 0x10000 ≤ o) →
         (hs ≠ [] → isWide hs = false → (∀ h ∈ hs, ∀ a ∈ writeActs h.2.1 (v.toNat % 2 ^ 32), a.1.id ≠ h.1.id) →
           (∀ x at_, s.smbWrote = some (o, x, at_) → smbNow (o, x, at_) →
             (∀ h ∈ hs, ∀ a ∈ writeActs h.2.1 (x % 2 ^ 32), a.1.id ≠ h.1.id) →
             Does (.bar0Write ⟨.bar0, off⟩ v 1 true) s (fun t => RegsKept u t (linkKey :: keys) ∧
               ∀ h ∈ hs, (h.1.ty = .rw ∨ h.1.ty = .rws) → ring31 h.1 h.2.1 = false → regKey h.1 h.2.1 ≠ linkKey →
                 rd t h.1 h.2.1 = bitsOf x h.1.lo h.1.width)) ∧
           ((∀ e, s.smbWrote = some e → ¬ smbNow e) → Does (.bar0Write ⟨.bar0, off⟩ v 1 true) s (fun t =>
             t = { u with regs := t.regs, ltr := t.ltr } ∧ RegsKept u t (linkKey :: keys) ∧
             ∀ h ∈ hs,
               let x := bitsOf (v.toNat % 2 ^ 32) h.1.lo h.1.width
               ((h.1.ty = .rw ∨ h.1.ty = .rws) → ring31 h.1 h.2.1 = false → rd t h.1 h.2.1 = x) ∧
               (ring31 h.1 h.2.1 = true → rd t h.1 h.2.1 = rd s h.1 h.2.1) ∧
               (h.1.ty = .rw1c → rd t h.1 h.2.1 = (rd s h.1 h.2.1 - (rd s h.1 h.2.1 &&& x)) % 2 ^ h.1.width) ∧
               ((h.1.ty = .ro ∨ h.1.ty = .wo ∨ h.1.ty = .rc) → regKey h.1 h.2.1 ≠ linkKey → rd t h.1 h.2.1 = rd s h.1 h.2.1))))) ∧
       (answers s o true = true → o % 8 = 0 → hs = [] → regHits (o + 4) = [] → (o < 0x8000 ∨ 0x10000 ≤ o) →
         (∀ e, s.smbWrote = some e → ¬ smbNow e) → s.logQ[planeCtrl].length < 15 → Does (.bar0Write ⟨.bar0, off⟩ v 2 true) s (fun t =>
           RegsAndLog u t [] ∧ ∃ e e', t.logQ[planeCtrl] = s.logQ[planeCtrl] ++ [e, e'] ∧ e.code = 0x0101 ∧ e'.code = 0x0101 ∧
             e.arg0.toNat = o ∧ e'.arg0.toNat = o + 4)) ∧
       (o % 4 = 0 → Does (.bar0Write ⟨.bar0, off⟩ v 1 false) s (fun t => RegsAndLog u t [] ∧ logs 0x5021 t)) ∧
       (o % 4 = 0 → answers s o true = false → Does (.bar0Write ⟨.bar0, off⟩ v 1 true) s (fun t => RegsAndLog u t [] ∧ logs 0x5020 t)) ∧
       (∀ dws, bar0Sized o dws = false →
         Does (.bar0Write ⟨.bar0, off⟩ v dws true) s (fun t => RegsKept u t errs ∧ logs 0x5004 t ∧
           t = { u with regs := t.regs, pci := t.pci, logQ := t.logQ, logLost := t.logLost } ∧
           rd t R.HIF_CA 0 = min (rd s R.HIF_CA 0 + 1) (2 ^ 32 - 1)) ∧
         Does (.bar0Read ⟨.bar0, off⟩ dws) s (fun t => RegsKept u t errs ∧ logs 0x5004 t ∧ answered .abort [] t)) ∧
       (answers s o false = true → o % 4 = 0 → (o < 0x8000 ∨ 0x10000 ≤ o) → allocRead hs = none → timingRead hs = none →
         let reads := fun (n : Nat) (value : Nat) (t : State) =>
           t = { u with regs := t.regs, power := t.power, cpl := t.cpl } ∧
           answered .success (bytesOf n value) t ∧
           RegsKept u t ((hs.filter (fun h => h.1.ty == .rc)).map (fun h => regKey h.1 h.2.1)) ∧
           ∀ h ∈ hs, h.1.ty = .rc → rd t h.1 h.2.1 =
             if h.1.id = R.DMA_OUTSTANDING_MAX.id then outstanding s % 2 ^ h.1.width else 0
         (isWide hs = false → latches hs = false → Does (.bar0Read ⟨.bar0, off⟩ 1) s (reads 4 (regValue u hs % 2 ^ 32))) ∧
         (isWide hs = true → o % 8 = 0 → Does (.bar0Read ⟨.bar0, off⟩ 2) s (reads 8 (regValue u hs)))) ∧
       (alwaysOn o = false →
         Does (.lateReg off true) s (fun t => RegsAndLog u t [] ∧ logs 0x5020 t) ∧
         Does (.lateReg off false) s (fun t => answered .success [0, 0, 0, 0] t ∧ logs 0x5020 t ∧
           RegsKept u t [regKey R.HIF_LATE_REG 0, regKey R.LOG_QDROP_CTRL 0] ∧
           rd t R.HIF_LATE_REG 0 = min (rd s R.HIF_LATE_REG 0 + 1) (2 ^ 32 - 1)))) ∧
     (claimed s = false → ∀ dws be, exec (.bar0Write ⟨.bar0, off⟩ v dws be) s = .next s ∧
       (linkIsUp s = false → exec (.bar0Read ⟨.bar0, off⟩ dws) s = .next s) ∧
       (linkIsUp s = true → Does (.bar0Read ⟨.bar0, off⟩ dws) s (fun t => t = { u with cpl := t.cpl } ∧ answered .unsupported [] t)))) ∧
  (∀ (off : BitVec 25) (v : BitVec 64) (s : State), claimed s = true →
     let o := off.toNat % 2 ^ 20
     let u := linkUsed s
     let wrote := fun (n : Fin 2048) (e : MsixEntry) => Does (.bar0Write ⟨.bar4, off⟩ v 1 true) s (fun t =>
       t = { u with msix := t.msix } ∧ msixEntry t n.val = e ∧ ∀ m : Fin 2048, m ≠ n → msixEntry t m.val = msixEntry s m.val)
     let shows := fun (dws : Nat) (bs : List Byte) => exec (.bar0Read ⟨.bar4, off⟩ dws) s =
       .next { u with cpl := [{ status := .success, ep := false, bytes := bs }] }
     (∀ dws be,
       let d : DbWrite := { value := v.setWidth 32, beFull := be, dws := dws }
       (∀ r : Fin 31, o = 8 * r.val → exec (.bar0Write ⟨.bar4, off⟩ v dws be) s = exec (.jobRingDoorbell r d) s) ∧
       (∀ r : Fin 31, o = 0x100 + 8 * r.val → exec (.bar0Write ⟨.bar4, off⟩ v dws be) s = exec (.completionRingDoorbell r d) s) ∧
       (∀ m : Fin 16, o = 0x200 + 8 * m.val → exec (.bar0Write ⟨.bar4, off⟩ v dws be) s = exec (.mqHeadDoorbell m d) s) ∧
       (o = 0x400 → exec (.bar0Write ⟨.bar4, off⟩ v dws be) s = exec (.contextInvalidate d) s) ∧
       (∀ n : Fin 1024, o = 0x2000 + 8 * n.val → exec (.bar0Write ⟨.bar4, off⟩ v dws be) s = exec (.chunkDoorbell n d) s)) ∧
     (∀ n : Fin 2048,
       let e := msixEntry s n.val
       (o = 0x80000 + 16 * n.val → wrote n { e with addr := BitVec.ofNat 64 (e.addr.toNat / 2 ^ 32 * 2 ^ 32 + v.toNat % 2 ^ 32 / 4 * 4) } ∧
         shows 2 (bytesOf 8 e.addr.toNat) ∧ shows 4 (bytesOf 8 e.addr.toNat ++ bytesOf 4 e.data.toNat ++ bytesOf 4 (b2n e.masked))) ∧
       (o = 0x80004 + 16 * n.val →
         wrote n { e with addr := BitVec.ofNat 64 (v.toNat % 2 ^ 32 * 2 ^ 32 + e.addr.toNat % 2 ^ 32) }) ∧
       (o = 0x80008 + 16 * n.val → wrote n { e with data := v.setWidth 32 } ∧ shows 1 (bytesOf 4 e.data.toNat)) ∧
       (o = 0x8000C + 16 * n.val → wrote n { e with masked := v.getLsbD 0 } ∧ shows 1 (bytesOf 4 (b2n e.masked)))) ∧
     (∀ k, k < 64 → o = 0x90000 + 4 * k →
       shows 1 (bytesOf 4 (s.pba.toNat / 2 ^ (32 * k) % 2 ^ 32)) ∧ exec (.bar0Write ⟨.bar4, off⟩ v 1 true) s = .next u) ∧
     (∀ dws, o % 4 = 0 → o + 4 * dws ≤ 0x80000 → shows dws (List.replicate (4 * dws) 0)) ∧
     (o % 4 = 0 → (0x4000 ≤ o ∧ o < 0x80000 ∨ 0x88000 ≤ o ∧ o < 0x90000 ∨ 0x90100 ≤ o) →
       Does (.bar0Write ⟨.bar4, off⟩ v 1 true) s (fun t => RegsAndLog u t [] ∧
         (s.logQ[planeCtrl].length < 16 → ∃ e, t.logQ[planeCtrl] = s.logQ[planeCtrl] ++ [e] ∧ e.code = 0x0101 ∧ e.arg0.toNat = o))) ∧
     (∀ dws be, o % 4 ≠ 0 ∨ be = false ∨ 2 < dws →
       (0x4000 ≤ o ∧ o + 4 * dws ≤ 0x80000 ∨ 0x88000 ≤ o ∧ o + 4 * dws ≤ 0x90000 ∨ 0x90100 ≤ o) →
       Does (.bar0Write ⟨.bar4, off⟩ v dws be) s (fun t => RegsAndLog u t [] ∧
         (s.logQ[planeCtrl].length < 16 → ∃ e, t.logQ[planeCtrl] = s.logQ[planeCtrl] ++ [e] ∧ e.code = 0x0101 ∧ e.arg0.toNat = o))))

/-- R6: a read of an unassigned offset inside a block's BAR0 range completes normally and returns 0, and changes
nothing; a write of one is ignored, and recorded in the error log as an unassigned-register access. The other
argument of the entry is log entry 182; no SMBus write of that offset lies in the same m-cycle (R424, entry 235). -/
def Obligations.UnassignedOffsets : Prop :=
  ∀ (off : BitVec 25) (v : BitVec 64) (s : State),
    let o := off.toNat
    let u := linkUsed s
    let apart := ∀ e, s.smbWrote = some e → e.2.2 ≠ elapsedW s ∨ o + 8 ≤ e.1 ∨ e.1 + 8 ≤ o
    claimed s = true → o < 0x8000 ∨ 0x10000 ≤ o → regHits o = [] →
      (answers s o false = true → o % 4 = 0 →
        exec (.bar0Read ⟨.bar0, off⟩ 1) s = .next { u with cpl := [{ status := .success, ep := false, bytes := [0, 0, 0, 0] }] }) ∧
      (answers s o false = true → o % 8 = 0 → regHits (o + 4) = [] →
        exec (.bar0Read ⟨.bar0, off⟩ 2) s = .next { u with
          cpl := [{ status := .success, ep := false, bytes := [0, 0, 0, 0, 0, 0, 0, 0] }] }) ∧
      (answers s o true = true → o % 4 = 0 → apart →
        Does (.bar0Write ⟨.bar0, off⟩ v 1 true) s (fun t => RegsAndLog u t [] ∧
        (s.logQ[planeCtrl].length < 16 → ∃ e, t.logQ[planeCtrl] = s.logQ[planeCtrl] ++ [e] ∧ e.code = 0x0101 ∧
          e.plane = planeCtrl ∧ e.time = nowW s ∧ e.arg0.toNat = o))) ∧
      (answers s o true = true → o % 8 = 0 → regHits (o + 4) = [] → apart →
        Does (.bar0Write ⟨.bar0, off⟩ v 2 true) s (fun t => RegsAndLog u t [] ∧
        (s.logQ[planeCtrl].length < 16 → ∃ e ∈ t.logQ[planeCtrl].drop s.logQ[planeCtrl].length, e.code = 0x0101 ∧
          e.plane = planeCtrl ∧ e.time = nowW s ∧ e.arg0.toNat = o)))

/-- R341 to R345, R356: inbound windows. An access through a window of the active copy reaches the bytes that the
window maps and is counted there; one that no window serves changes no memory and is counted as Unsupported Request; a
commit takes over all sixteen shadows or none. A read is completed in pieces of at most Max_Payload_Size, all but the
last ending on a 64 B boundary.
R347 to R349: completions of the device's own reads. Data goes where the read asked for it, and the last of it frees
the tag; without an answer the tag is quarantined for as long again, and a completion that no read waits for is
counted and discarded; one that comes with the link down is dropped (R350). Reads of descriptors take a tag too, and their
errors are reported alike. The model's choices: a read of a descriptor begins and ends in one command (log entry 201), a
flush read that ends in error proves the writes too (192), how a read is split (193), what a poisoned write stores (199),
an access no BAR claims (136), NO_SERVICE (206), the order of the checks of a commit (151), a span (152). -/
def Obligations.WindowsAndOutboundReads : Prop :=
  (∀ (off : BitVec 36) (s : State), claimed s = true →
     let o := off.toNat
     let u := linkUsed s
     (∀ (bytes : List Byte) (w : Nat), claimed2 s o bytes.length = true →
       let a := rd s R.HIF_WACT_TARGET w * 4096 + (o - actOffset s w)
       let hit := regKey R.HIF_WACT_HITS w
       let onChip := rd s R.DRC_WINDOW 0 ≤ a ∧ inMemory s a bytes.length = true ∧ badWords s a bytes.length = []
       let counters := (List.range 16).flatMap (fun n => [regKey R.CMEM_BEATS_WR n, regKey R.BAG_BEATS_WR n,
         regKey R.CMEM_BEATS_RD n, regKey R.BAG_BEATS_RD n, regKey R.CMEM_POISON_WRITES n, regKey R.BAG_POISON_WRITES n])
       windowFor s o bytes.length = some w → w < 16 → unitUsableAt s a = true → onChip → bytes ≠ [] →
         (rd s R.HIF_WACT_CTL_WR w ≠ 0 →
           Does (.bar2Write off bytes false) s (fun t =>
             t = { u with regs := t.regs, mem := t.mem, freeCtr := t.freeCtr } ∧ RegsKept u t (hit :: counters) ∧
             rd t R.HIF_WACT_HITS w = (rd s R.HIF_WACT_HITS w + 1) % 2 ^ 32 ∧ Stored s t a bytes) ∧
           Does (.bar2Write off bytes true) s (fun t =>
             Stored s t a bytes ∧ poisonedAt t a bytes.length = true ∧
             rd t R.HIF_POISON_IN 0 = min (rd s R.HIF_POISON_IN 0 + 1) (2 ^ 32 - 1))) ∧
         (rd s R.HIF_WACT_CTL_RD w ≠ 0 → Does (.bar2Read off bytes.length) s (fun t =>
           t = { u with regs := t.regs, cpl := t.cpl, freeCtr := t.freeCtr } ∧ RegsKept u t (hit :: counters) ∧
           t.cpl.flatMap (fun c => c.bytes) = peek s a bytes.length ∧
           (∀ c ∈ t.cpl, c.status = .success ∧ c.ep = false ∧ c.bytes.length ≤ maxPayload s) ∧
           ∀ before c d after, t.cpl = before ++ c :: d :: after →
             (a + (before.flatMap (fun x => x.bytes)).length + c.bytes.length) % 64 = 0)) ∧
         (rd s R.HIF_WACT_CTL_WR w = 0 → ∀ p, Does (.bar2Write off bytes p) s (fun t =>
           t = { u with regs := t.regs, pci := t.pci, logQ := t.logQ, logLost := t.logLost } ∧
           rd t R.HIF_UR 0 = min (rd s R.HIF_UR 0 + 1) (2 ^ 32 - 1) ∧ rd t R.HIF_ERR_LAST_CODE 0 = 2))) ∧
     (∀ bytes : List Byte, claimed2 s o bytes.length = false →
       (∀ p, exec (.bar2Write off bytes p) s = .next s) ∧
       Does (.bar2Read off bytes.length) s (fun t => t = { u with cpl := [{ status := .unsupported, ep := false, bytes := [] }] })) ∧
     (planesRun s = false → ∀ n, windowFor s o n = none) ∧
     (∀ bytes : List Byte, claimed2 s o bytes.length = true → windowFor s o bytes.length = none →
       let code := if touchesWindow s o bytes.length then 3 else 1
       let served := fun (t : State) =>
         rd t R.HIF_UR 0 = min (rd s R.HIF_UR 0 + 1) (2 ^ 32 - 1) ∧ rd t R.HIF_ERR_LAST_CODE 0 = code ∧
         rd t R.HIF_ERR_LAST_ADDR 0 = o ∧ rd t R.HIF_ERR_LAST_VALID 0 = 1
       (∀ p, Does (.bar2Write off bytes p) s (fun t =>
         t = { u with regs := t.regs, pci := t.pci, logQ := t.logQ, logLost := t.logLost } ∧ served t)) ∧
       Does (.bar2Read off bytes.length) s (fun t =>
         t = { u with regs := t.regs, pci := t.pci, logQ := t.logQ, logLost := t.logLost, cpl := t.cpl } ∧ served t ∧
         t.cpl = [{ status := .unsupported, ep := false, bytes := [] }])) ∧
     (planesRun s = false → exec .hifWinCommit s = .next s) ∧
     (planesRun s = true → (∀ w, w < 16 → winCode s w = 0) → Does .hifWinCommit s (fun t =>
       t = { s with regs := t.regs } ∧
       rd t R.HIF_WIN_STATUS_GEN 0 = (rd s R.HIF_WIN_STATUS_GEN 0 + 1) % 2 ^ 16 ∧
       ∀ w, w < 16 →
         rd t R.HIF_WACT_OFFSET w = rd s R.HIF_WIN_OFFSET w % 2 ^ 24 ∧ rd t R.HIF_WACT_TARGET w = rd s R.HIF_WIN_TARGET w % 2 ^ 36 ∧
         rd t R.HIF_WACT_CTL_EN w = rd s R.HIF_WIN_CTL_EN w % 2 ∧ rd t R.HIF_WACT_CTL_RD w = rd s R.HIF_WIN_CTL_RD w % 2 ∧
         rd t R.HIF_WACT_CTL_WR w = rd s R.HIF_WIN_CTL_WR w % 2 ∧
         rd t R.HIF_WACT_CTL_SIZE_LOG2 w = rd s R.HIF_WIN_CTL_SIZE_LOG2 w % 2 ^ 6)) ∧
     (∀ w, planesRun s = true → w < 16 → winCode s w ≠ 0 → (∀ x, x < w → winCode s x = 0) → Does .hifWinCommit s (fun t =>
       RegsAndLog s t [regKey R.HIF_WIN_STATUS_COMMIT_ERR 0, regKey R.HIF_WIN_STATUS_ERR_WIN 0, regKey R.HIF_WIN_STATUS_ERR_CODE 0] ∧
       rd t R.HIF_WIN_STATUS_COMMIT_ERR 0 = 1 ∧ rd t R.HIF_WIN_STATUS_ERR_WIN 0 = w ∧
       rd t R.HIF_WIN_STATUS_ERR_CODE 0 = winCode s w))) ∧
  (∀ (tag : BitVec 10) (bytes : List Byte) (ep : Bool) (s : State),
     let limit := cplTimeoutUs s.pci.cplTimeout * 1000
     let noneWait := ∀ k : Fin 64, s.dma[k].unsent = [] ∧ s.dma[k].flushDue = false
     let proved := fun (x : Tag) => match x.flush with
       | none => s.cores
       | some n => s.cores.map (fun c => { c with chains := c.chains.filter (fun e => !(e.1 == x.ch && countReached n e.2)) })
     let u := linkUsed s
     let up := linkIsUp s = true
     (linkIsUp s = false → ∀ st, exec (.outboundCompletion tag st bytes ep) s = .next s) ∧
     (∀ st, up → (∀ x ∈ s.tags, x.tag ≠ tag) → Does (.outboundCompletion tag st bytes ep) s (fun t =>
       t = { u with regs := t.regs, pci := t.pci, logQ := t.logQ, logLost := t.logLost } ∧ rd t R.HIF_LINK_STATUS_PM 0 = 0 ∧
       rd t R.HIF_UNEXP_CPL 0 = min (rd s R.HIF_UNEXP_CPL 0 + 1) (2 ^ 32 - 1) ∧ rd t R.HIF_ERR_LAST_CODE 0 = 9)) ∧
     (∀ x, s.tags.find? (fun y => y.tag == tag) = some x →
       (up → x.quarantined = true → x.got + bytes.length < x.len → ∀ st, Does (.outboundCompletion tag st bytes ep) s (fun t =>
         t.linkAt = elapsedW s ∧ t.dma = s.dma ∧ t.mem = s.mem ∧ rd t R.HIF_UNEXP_CPL 0 = min (rd s R.HIF_UNEXP_CPL 0 + 1) (2 ^ 32 - 1) ∧
         t.tags = s.tags.map (fun y => if y.tag = tag then { y with got := x.got + bytes.length } else y))) ∧
       (up → x.quarantined = false → x.got + bytes.length < x.len → Does (.outboundCompletion tag .success bytes ep) s (fun t =>
         t.linkAt = elapsedW s ∧ t.mem = s.mem ∧ t.cores = s.cores ∧ (ep = false → t.regs = u.regs) ∧
         (ep = true → rd t R.HIF_POISON_IN 0 = min (rd s R.HIF_POISON_IN 0 + 1) (2 ^ 32 - 1)) ∧
         t.tags = s.tags.map (fun y => if y.tag = tag then { y with got := x.got + bytes.length } else y) ∧
         (∀ k, k ≠ x.ch → t.dma[k] = s.dma[k]) ∧ t.dma[x.ch].phase = s.dma[x.ch].phase ∧
         t.dma[x.ch].staged.length = s.dma[x.ch].staged.length ∧
         ∀ i, i < s.dma[x.ch].staged.length →
           (i < bytes.length → x.pos + x.got + i < s.dma[x.ch].staged.length → t.dma[x.ch].staged[x.pos + x.got + i]? =
             some (if ep then Staged.poison else Staged.data (bytes.getD i 0))) ∧
           ((i < x.pos + x.got ∨ x.pos + x.got + bytes.length ≤ i) → t.dma[x.ch].staged[i]? = s.dma[x.ch].staged[i]?))) ∧
       (up → x.quarantined = false → x.len ≤ x.got + bytes.length → noneWait →
         Does (.outboundCompletion tag .success bytes ep) s (fun t =>
           t.tags = s.tags.filter (fun y => y.tag ≠ tag) ∧ t.mem = s.mem ∧ t.cores = proved x)) ∧
       (up → x.quarantined = true → x.len ≤ x.got + bytes.length → noneWait → ∀ st, Does (.outboundCompletion tag st bytes ep) s (fun t =>
         t.tags = s.tags.filter (fun y => y.tag ≠ tag) ∧ t.mem = s.mem ∧ t.cores = s.cores)) ∧
       (up → x.quarantined = false → ∀ st, st ≠ .success → noneWait →
         Does (.outboundCompletion tag st bytes ep) s (fun t =>
           t.tags = s.tags.filter (fun y => y.tag ≠ tag) ∧ rd t R.HIF_ERR_LAST_CODE 0 = 10 ∧ t.cores = proved x ∧
           ∀ i, x.got ≤ i → i < x.len → x.pos + i < s.dma[x.ch].staged.length →
             t.dma[x.ch].staged[x.pos + i]? = some .error))) ∧
     (∀ x, s.tags.find? (fun y => y.tag == tag && !y.quarantined) = some x → Does (.cplTimeout tag) s (fun t =>
       let u := passTo s (x.sentAt.toNat + limit)
       t.tags = s.tags.map (fun y => if y.tag = tag then { y with quarantined := true, sentAt := nowW u } else y) ∧
       rd t R.HIF_CPL_TIMEOUTS 0 = min (rd s R.HIF_CPL_TIMEOUTS 0 + 1) (2 ^ 32 - 1) ∧ rd t R.HIF_ERR_LAST_CODE 0 = 8 ∧
       t.mem = s.mem ∧ ∀ i, x.got ≤ i → i < x.len → x.pos + i < s.dma[x.ch].staged.length →
         t.dma[x.ch].staged[x.pos + i]? = some .error)) ∧
     (∀ x, s.tags.find? (fun y => y.tag == tag && y.quarantined) = some x → noneWait →
       Does (.tagQuarantineEnd tag) s (fun t => t.tags = s.tags.filter (fun y => y.tag ≠ tag) ∧ t.mem = s.mem ∧
         (∀ k : Fin 64, t.dma[k].staged = s.dma[k].staged ∧ t.dma[k].phase = s.dma[k].phase) ∧
         (x.sentAt.toNat + limit ≤ now s → t = { s with tags := s.tags.filter (fun y => y.tag ≠ tag), dma := t.dma }))) ∧
     ((∀ y ∈ s.tags, y.tag ≠ tag) → exec (.cplTimeout tag) s = .next s ∧ exec (.tagQuarantineEnd tag) s = .next s) ∧
     ∀ (k : Fin 64) (a len : Nat) (got : HostRead),
       (freeTag s k = none → hostFetch s k a len got = none) ∧
       (freeTag s k ≠ none → noneWait → ∃ t, hostFetch s k a len got = some t ∧ t.mem = s.mem ∧ t.hostMem = s.hostMem ∧
         (∀ bs, got = .data bs → t.tags = s.tags ∧ RegsKept s t [linkKey, regKey R.DMA_OUTSTANDING_MAX 0] ∧ t.logQ = s.logQ) ∧
         (got = .poisoned → t.tags = s.tags ∧ rd t R.HIF_ERR_LAST_CODE 0 = 11 ∧
           rd t R.HIF_POISON_IN 0 = min (rd s R.HIF_POISON_IN 0 + 1) (2 ^ 32 - 1)) ∧
         (got = .errorStatus → t.tags = s.tags ∧ rd t R.HIF_ERR_LAST_CODE 0 = 10) ∧
         (got = .timeout → rd t R.HIF_ERR_LAST_CODE 0 = 8 ∧
           rd t R.HIF_CPL_TIMEOUTS 0 = min (rd s R.HIF_CPL_TIMEOUTS 0 + 1) (2 ^ 32 - 1) ∧
           ∃ x, t.tags = s.tags ++ [x] ∧ x.quarantined = true ∧ x.ch = k ∧ x.sentAt = nowW t)))

/-- R328, R330, R338 to R340, R390: the expansion ROM window and configuration space. The window shows the descriptor
block, zeros and the image of the running slot, and a write of it is discarded and logged; configuration requests are
retried until phase 2 has ended (the layout inside a register is the base specification's, log entry 12). The image the
window shows is that of the running slot (entry 156), the block before it is written entry 157, an access that nothing
claims entry 136.
R351, R352, R354 to R356: messages, link power states and link errors. One message goes for everything that arose
while it was pending; L1 is entered when nothing waits, L1_IDLE µs after the last TLP (entry 160), in the substate of
entry 211; a link error sets its bit of AER (the places are entry 12's) and counts if it is correctable; the log entry of
another is entry 158. -/
def Obligations.ConfigurationAndLink : Prop :=
  (∀ (s : State),
     let u := linkUsed s
     let answered := fun (st : CplStatus) (bytes : List Byte) => ({ u with cpl := [{ status := st, ep := false, bytes := bytes }] } : State)
     (romOpen s = true → ∀ (off : BitVec 20) (len : Nat), Does (.romRead off len) s (fun t =>
       t = { u with cpl := t.cpl } ∧ ∃ bs, t.cpl = [{ status := .success, ep := false, bytes := bs }] ∧ bs.length = len ∧
       ∀ i, i < len →
         let x := off.toNat + i
         (0x1000 ≤ x → x < 0x10000 → bs[i]? = some 0) ∧
         (0x10000 ≤ x → bs[i]? = some (storeGet 0xFF s.flash
           ((if rd s R.MC_FW_STATUS_SLOT 0 ≠ 0 then 0x100000 else 0) + (x - 0x10000)))) ∧
         (x < 4 → bs[i]? = some ([0x44, 0x44, 0x42, 0x31].getD x 0)) ∧
         (244 ≤ x → x < 256 → bs[i]? = some 0) ∧
         (s.ddbValid = true → x = 10 → bs[i]? = some (BitVec.ofNat 8 (rd s R.GLB_SVC_STATE_STATE 0))))) ∧
     (romOpen s = true → ∀ off : BitVec 20, Does (.romWrite off) s (fun t => RegsAndLog u t [] ∧
       (s.logQ[planeCtrl].length < 16 → ∃ e, t.logQ[planeCtrl] = s.logQ[planeCtrl] ++ [e] ∧ e.code = 0x5022 ∧ e.sev = 3 ∧
         e.arg0.toNat = off.toNat))) ∧
     (romOpen s = false → ∀ (off : BitVec 20) (len : Nat), exec (.romWrite off) s = .next s ∧
       exec (.romRead off len) s = .next (if linkIsUp s then answered .unsupported [] else s)) ∧
     (linkIsUp s = false → ∀ off w, exec (.configRequest off w) s = .next s) ∧
     (linkIsUp s = true → s.pci.ready = false → ∀ off w, exec (.configRequest off w) s = .next (answered .retry [])) ∧
     (linkIsUp s = true → s.pci.ready = true →
       exec (.configRequest 0 none) s = .next (answered .success [0x6B, 0x1F, 0x16, 0x04]) ∧
       (∀ off v, exec (.configRequest off (some v)) s = exec (.configRequest (BitVec.ofNat 12 (off.toNat / 4 * 4)) (some v)) s) ∧
       (∀ off : BitVec 12, ∃ w : BitVec 32, exec (.configRequest off none) s = .next (answered .success (bytesOf 4 w.toNat)) ∧
         (off = 0x08 → w.toNat / 2 ^ 8 = 0x120000) ∧ (off = 0x2C → w.toNat = s.pci.subsysVid.toNat + s.pci.subsysId.toNat * 2 ^ 16) ∧
         (off = 0x60 → w.toNat % 2 ^ 16 = 0x0010 ∧ w.toNat / 2 ^ 20 % 2 ^ 4 = 0) ∧
         (off = 0x54 → w.toNat = 0x80004) ∧ (off = 0x58 → w.toNat = 0x90004) ∧
         (off = 0x14C → w.toNat = s.fuses.serial.toNat % 2 ^ 32) ∧ (off = 0x1B4 → w.toNat % 2 = 1)) ∧
       (∀ v : BitVec 32,
         exec (.configRequest 4 (some v)) s = .next { answered .success [] with
           pci := { s.pci with memSpace := v.getLsbD 1, busMaster := v.getLsbD 2 } } ∧
         exec (.configRequest 0x30 (some v)) s = .next { answered .success [] with pci := { s.pci with rom := v &&& 0xFFF00001 } } ∧
         exec (.configRequest 0x104 (some v)) s = .next { answered .success [] with
           pci := { s.pci with aerUncorr := s.pci.aerUncorr &&& ~~~v } } ∧
         Does (.configRequest 0x10 (some v)) s (fun t =>
           t = { answered .success [] with pci := { s.pci with bar0 := t.pci.bar0 } } ∧
           t.pci.bar0.toNat = s.pci.bar0.toNat / 2 ^ 32 * 2 ^ 32 + v.toNat / 2 ^ 25 * 2 ^ 25) ∧
         (v.toNat % 4 = 3 → exec (.configRequest 0x44 (some v)) s = .next { answered .success [] with
           pci := { s.pci with d3hot := true } })))) ∧
  (∀ (s : State),
     let awake := fun (t : State) => RegsKept s t [regKey R.HIF_LINK_STATUS_PM 0] ∧ rd t R.HIF_LINK_STATUS_PM 0 = 0
     (∀ v : Fin 2048,
       (linkIsUp s = true → deliverable s v.val = true → Does (.msixMessage v) s (fun t =>
         t = { s with regs := t.regs, pba := t.pba, hostMem := t.hostMem, linkAt := elapsedW s, posted := t.posted } ∧ awake t ∧
         (∀ i, t.pba.getLsbD i = (s.pba.getLsbD i && i != v.val)) ∧
         t.hostMem = storeSetMany 0 s.hostMem (msixEntry s v.val).addr.toNat (bytesOf 4 (msixEntry s v.val).data.toNat))) ∧
       (linkIsUp s = false ∨ deliverable s v.val = false → exec (.msixMessage v) s = .next s)) ∧
     (linkIsUp s = true → s.pci.aspm.getLsbD 1 = true → rd s R.HIF_LINK_STATUS_PM 0 = 0 → linkQuiet s = true →
       Does .l1Entry s (fun t =>
         OnlyRegs (passUntil s (s.linkAt.toNat + max 1 (rd s R.HIF_PM_CTL_L1_IDLE 0) * 1000)) t [regKey R.HIF_LINK_STATUS_PM 0, regKey R.HIF_L1_ENTRIES 0] ∧
         rd t R.HIF_LINK_STATUS_PM 0 = (if s.pci.l1ss.getLsbD 2 then 3 else if s.pci.l1ss.getLsbD 3 then 2 else 1) ∧
         rd t R.HIF_L1_ENTRIES 0 = (rd s R.HIF_L1_ENTRIES 0 + 1) % 2 ^ 32)) ∧
     (linkQuiet s = false ∨ s.pci.aspm.getLsbD 1 = false → exec .l1Entry s = .next s) ∧
     Does .l1Exit s (fun t => t = { s with regs := t.regs, linkAt := elapsedW s } ∧ awake t) ∧
     (∀ e, linkIsUp s = false → exec (.receiverError e) s = .next s) ∧
     ∀ e b, linkIsUp s = true →
       (aerBit e = (b, true) → Does (.receiverError e) s (fun t =>
         t = { s with pci := { s.pci with aerCorr := s.pci.aerCorr ||| BitVec.ofNat 32 (2 ^ b) }, regs := t.regs
                      logQ := t.logQ, logLost := t.logLost } ∧
         RegsKept s t [regKey R.HIF_CORR_ERR 0, regKey R.LOG_QDROP_DATA 0] ∧
         rd t R.HIF_CORR_ERR 0 = min (rd s R.HIF_CORR_ERR 0 + 1) (2 ^ 32 - 1))) ∧
       (aerBit e = (b, false) → Does (.receiverError e) s (fun t =>
         t = { s with pci := { s.pci with aerUncorr := s.pci.aerUncorr ||| BitVec.ofNat 32 (2 ^ b) }, regs := t.regs
                      logQ := t.logQ, logLost := t.logLost } ∧
         RegsKept s t [regKey R.LOG_QDROP_DATA 0])))

/-! ## Resets and the start of service -/

/-- R361, R363, R364, R374, R393: what each reset leaves. The power-on reset leaves every register at its reset value
but MC_RST_CAUSE; PERST_N keeps the RWS fields; a function reset keeps those and what belongs to the link, the
firmware, DRAM training and the clocks, and restarts from phase 4, or with logic BIST where it is requested when the
reset begins (log entry 229); an earlier phase goes on (the model's choice, log entry 194). PERST_N high ends the
effect of a TAP instruction (R421). What lies outside the device stays, the fuses and pins among them (log entries 3,
4), and a tripped device stays tripped. -/
def Obligations.Resets : Prop :=
  ∀ (s : State),
    let cause := fun (t : State) => rd t R.MC_RST_CAUSE 0
    let empties := fun (t : State) =>
      t.mem = [] ∧ t.ecc = [] ∧ t.cores = State.reset.cores ∧ t.clusters = State.reset.clusters ∧ t.streams = [] ∧
      t.vds = State.reset.vds ∧ t.shs = State.reset.shs ∧ t.ves = State.reset.ves ∧ t.encReqs = [] ∧ t.rings = State.reset.rings ∧
      t.mqs = State.reset.mqs ∧ t.pools = State.reset.pools ∧ t.dma = State.reset.dma ∧ t.tags = [] ∧ t.pba = 0 ∧ t.log = []
    let stays := fun (t : State) => t.hostMem = s.hostMem ∧ t.flash = s.flash ∧ t.fuses = s.fuses ∧ t.pending = s.pending
    let resetBut := fun (fs : List RegField) (t : State) => ∀ f ∈ regTable, ∀ i, (∀ g ∈ fs, g.id ≠ f.id) → rd t f i = regReset s f i
    let poweredOn := fun (t : State) => empties t ∧ stays t ∧ t.phase = .powerOn ∧ t.tap = Tap.reset s.fuses ∧ cause t = 1 ∧
      t.power.perstN = s.power.perstN ∧ resetBut [R.MC_RST_CAUSE] t
    let begins := fun (u t : State) =>
      t = { u with phase := .phase1, bistDue := rdb s R.ST_CTL_BIST_REQ 0, regs := t.regs, logQ := t.logQ, logLost := t.logLost } ∧
      RegsKept s t [regKey R.GLB_SVC_STATE_STATE 0, regKey R.LOG_QDROP_MGMT 0] ∧ rd t R.GLB_SVC_STATE_STATE 0 = 1 ∧
      (s.logQ[planeMgmt].length < 16 → ∃ e, t.logQ[planeMgmt] = s.logQ[planeMgmt] ++ [e] ∧ e.code = 0x0106 ∧ e.sev = 0 ∧
        e.arg1 = BitVec.ofNat 64 (cause s))
    let keeps := fun (u t : State) =>
      (∀ f ∈ rwsFields ++ functionFields, f.id ≠ R.MC_CLK_STATUS_CORE_MHZ.id → f.id ≠ R.MC_CLK_STATUS_VDD_CORE_MV.id →
        ∀ i, rd t f i = rd u f i) ∧
      rd t R.MC_CLK_STATUS_CORE_MHZ 0 = slewedMhz u % 2 ^ 12
    let restarts := fun (bit : Nat) (u t : State) =>
      empties t ∧ stays t ∧ cause t = 2 ^ bit ∧ rd t R.GLB_SVC_STATE_STATE 0 = 1 ∧ t.pci.memSpace = false ∧ keeps u t ∧
      (∃ e, t.logQ[planeMgmt] = [e] ∧ e.code = 0x0106 ∧ e.arg1 = BitVec.ofNat 64 (2 ^ bit)) ∧
      (rd s R.ST_CTL_BIST_REQ 0 = 0 → t.phase = .phase5 ∧ t.power.targetMhz = (clockTarget t).1 ∧
        resetBut (rwsFields ++ functionFields ++ [R.MC_RST_CAUSE, R.GLB_SVC_STATE_STATE, R.MC_CLK_STATUS_LIMITER]) t) ∧
      (rd s R.ST_CTL_BIST_REQ 0 ≠ 0 → t.phase = .bist ∧ rd t R.ST_STATUS_RUNNING 0 = 1 ∧ rd t R.ST_STATUS_STEP 0 = 1 ∧
        rd t R.ST_TESTED 0 = 0 ∧ rd t R.ST_FAILED 0 = 0)
    let early := s.phase = .phase1 ∨ s.phase = .phase2 ∨ s.phase = .phase3
    let runs := pastHeld s = true ∧ ¬ early ∧ s.missing.toNat / 1024 = 0 ∧ trainedOnce s = true ∧ rd s R.DRC_STATUS_NCH 0 ≠ 0
    let down := wrb (wr (wr s R.HIF_LINK_STATUS_SPEED 0 0) R.HIF_LINK_STATUS_WIDTH 0 0) R.HIF_LINK_STATUS_LINK_UP 0 false
    Does .powerOnReset s poweredOn ∧ Does .ref25Loss s poweredOn ∧
    (s.phase = .powerOn →
      (s.power.perstN = false → exec .powerOnResetRelease s = .next { s with phase := .held }) ∧
      (s.power.perstN = true → s.tap.inEffect = false → Does .powerOnResetRelease s (begins s)) ∧
      (s.power.perstN = true → s.tap.inEffect = true → exec .powerOnResetRelease s = .next { s with
        phase := .held, tap := { s.tap with inEffect := false, phase1Waits := true } })) ∧
    (s.phase ≠ .powerOn → exec .powerOnResetRelease s = .next s) ∧
    (s.power.perstN = false → exec .perstNAssert s = .next s) ∧
    (s.power.perstN = true → s.phase = .powerOn → exec .perstNAssert s = .next { s with
      power := { s.power with perstN := false }, tap := { s.tap with inEffect := tapDrives s.tap.insn, phase1Waits := false } }) ∧
    (s.power.perstN = true → s.phase ≠ .powerOn → Does .perstNAssert s (fun t =>
      empties t ∧ stays t ∧ t.power.perstN = false ∧ cause t = 2 ∧ (∀ f ∈ rwsFields, ∀ i, rd t f i = rd s f i) ∧
      t.tap = { s.tap with inEffect := tapDrives s.tap.insn, phase1Waits := false } ∧
      (s.phase ≠ .tripped → t.phase = .held ∧ resetBut (rwsFields ++ [R.MC_RST_CAUSE]) t) ∧
      (s.phase = .tripped → t.phase = .tripped ∧ rd t R.GLB_SVC_STATE_STATE 0 = 5 ∧ rd t R.GLB_SVC_STATE_SHED_STAGE 0 = 7))) ∧
    (s.power.perstN = true → exec .perstNDeassert s = .next s) ∧
    (s.power.perstN = false →
      let u := { s with power := { s.power with perstN := true }, tap := { s.tap with inEffect := false } }
      (s.phase ≠ .held → exec .perstNDeassert s = .next u) ∧
      (s.phase = .held → s.tap.inEffect = false → Does .perstNDeassert s (begins u)) ∧
      (s.phase = .held → s.tap.inEffect = true → exec .perstNDeassert s = .next { u with
        tap := { s.tap with inEffect := false, phase1Waits := true } })) ∧
    (pastHeld s = false → exec .functionLevelReset s = .next s ∧ exec .hotReset s = .next s) ∧
    (early →
      let goesOn := fun (bit : Nat) (u t : State) => empties t ∧ stays t ∧ cause t = 2 ^ bit ∧ t.phase = s.phase ∧
        t.bistDue = rdb s R.ST_CTL_BIST_REQ 0 ∧ rd t R.GLB_SVC_STATE_STATE 0 = 1 ∧ t.pci.memSpace = false ∧
        rd t R.MC_CLK_STATUS_VDD_CORE_MV 0 = rd u R.MC_CLK_STATUS_VDD_CORE_MV 0 ∧ keeps u t
      Does .functionLevelReset s (goesOn 2 s) ∧ Does .hotReset s (goesOn 3 s) ∧
      (s.pci.d3hot = true → Does .d3hotExit s (goesOn 5 s)) ∧
      (linkIsUp s = true → s.power.perstN = true → Does .linkDown s (goesOn 4 down))) ∧
    (pastHeld s = true → ¬ early → ¬ runs →
      let begun := fun (bit : Nat) (t : State) => empties t ∧ stays t ∧ cause t = 2 ^ bit ∧ ∀ f ∈ rwsFields, ∀ i, rd t f i = rd s f i
      Does .functionLevelReset s (begun 2) ∧ Does .hotReset s (begun 3) ∧ (s.pci.d3hot = true → Does .d3hotExit s (begun 5)) ∧
      (linkIsUp s = true → s.power.perstN = true → Does .linkDown s (begun 4))) ∧
    (runs → Does .functionLevelReset s (restarts 2 s) ∧ Does .hotReset s (restarts 3 s) ∧
      (s.pci.d3hot = true → Does .d3hotExit s (restarts 5 s)) ∧
      (linkIsUp s = true → s.power.perstN = true → Does .linkDown s (restarts 4 down))) ∧
    (s.pci.d3hot = false → exec .d3hotExit s = .next s) ∧
    (linkIsUp s = false → exec .linkDown s = .next s) ∧
    (s.pci.ready = true → s.phase ≠ .tripped →
      exec .d3hotEntry s = .next { s with pci := { s.pci with d3hot := true } })

/-- R326, R364 to R366, R305, R427: the link trains at the rates and widths the endpoint has, and the first phases of
INIT: the PLLs lock, the board configuration is read and checked, and the first valid firmware slot runs.
R34, R35, R39, R308, R315 to R318, R320, R321: DRAM training and zeroing, and the start of service. A channel that
passes is trained, one that fails is taken out with its step; 16, 8, 4 or 2 channels are in use; every mapped byte is
zeroed; then the device serves, or answers NO_SERVICE where something it needs is missing. The model's choices: a phase's
end lets no time pass (log entry 128), both slots are verified (118), what a bad board configuration leaves (119), what a
training record holds (126, 125), what still runs in NO_SERVICE (206). -/
def Obligations.InitSequence : Prop :=
  (∀ (s : State),
     let logs := fun (u : State) (code : BitVec 16) (t : State) => u.logQ[planeMgmt].length < 16 →
       ∃ e, t.logQ[planeMgmt] = u.logQ[planeMgmt] ++ [e] ∧ e.code = code ∧ e.sev = 5
     (∀ speed width,
       (linkTrains s = true → linkOk speed width = true → Does (.linkUp speed width) s (fun t =>
         OnlyRegs s t [regKey R.HIF_LINK_STATUS_SPEED 0, regKey R.HIF_LINK_STATUS_WIDTH 0, regKey R.HIF_LINK_STATUS_LINK_UP 0] ∧
         rd t R.HIF_LINK_STATUS_SPEED 0 = speed.toNat ∧ rd t R.HIF_LINK_STATUS_WIDTH 0 = width.toNat ∧ linkIsUp t = true)) ∧
       (linkTrains s = false ∨ linkOk speed width = false → exec (.linkUp speed width) s = .next s)) ∧
     (s.phase = .phase1 → Does .pllLock s (fun t => t = { s with phase := .phase2, regs := t.regs } ∧
       RegsKept s t [regKey R.MC_CLK_STATUS_CORE_MHZ 0] ∧ 400 ≤ coreMhz t ∧ coreMhz t ≤ 1150 ∧ coreMhz t % 25 = 0)) ∧
     (s.phase ≠ .phase1 → exec .pllLock s = .next s) ∧
     (s.phase = .phase2 →
       (boardOk (boardBytes s) = true → Does .boardCfgRead s (fun t =>
         t = { s with phase := .phase3, regs := t.regs, pci := { s.pci with
           ready := true, subsysVid := BitVec.ofNat 16 (fieldOf (boardBytes s) 2 2)
           subsysId := BitVec.ofNat 16 (fieldOf (boardBytes s) 4 2) } } ∧
         RegsKept s t [regKey R.MC_PWR_CTL_BOARD_LIMIT 0] ∧
         rd t R.MC_PWR_CTL_BOARD_LIMIT 0 = bitsOf (fieldOf (boardBytes s) 8 1) 0 2)) ∧
       (boardOk (boardBytes s) = false → Does .boardCfgRead s (fun t =>
         t = { s with phase := .phase3, regs := t.regs, logQ := t.logQ, logLost := t.logLost
                      pci := { s.pci with ready := true }, missing := s.missing ||| 0x400 } ∧
         RegsKept s t [regKey R.LOG_QDROP_MGMT 0] ∧ logs s 0x0103 t))) ∧
     (s.phase ≠ .phase2 → exec .boardCfgRead s = .next s) ∧
     (s.phase = .phase3 → s.bistDue = true → Does .fwVerify s (fun t => t.phase = .bist ∧ rd t R.ST_STATUS_RUNNING 0 = 1 ∧
       rd t R.ST_STATUS_STEP 0 = 1 ∧ t.bistDone = 0 ∧ t.bistAt = elapsedW s ∧ t.cores = s.cores ∧ t.mem = s.mem)) ∧
     (s.phase = .phase3 → s.bistDue = false → s.missing = 0 → trainedOnce s = false →
       let a := slotOk s 0
       let b := slotOk s 0x100000
       let head := fun (at_ n : Nat) => fieldOf (flashRead s (if a then 0 else 0x100000) 512) at_ n
       let board := fun (at_ lo w : Nat) => bitsOf (fieldOf (boardBytes s) at_ 1) lo w
       (a = true ∨ b = true → Does .fwVerify s (fun t =>
         t = { s with phase := .phase4, fwVersion := BitVec.ofNat 32 (head 12 4), regs := t.regs, power := { s.power with
           boost := false, targetMhz := (clockTarget t).1, slewAt := t.power.slewAt, throttleStage := t.power.throttleStage } } ∧
         rd t R.MC_FW_STATUS_A_OK 0 = b2n a ∧ rd t R.MC_FW_STATUS_B_OK 0 = b2n b ∧ rd t R.MC_FW_STATUS_SLOT 0 = b2n (!a) ∧
         rd t R.MC_FW_STATUS_SVN 0 = head 16 2 ∧
         rd t R.MC_ALERT_STAT 0 = (if a then rd s R.MC_ALERT_STAT 0 else (rd s R.MC_ALERT_STAT 0 ||| 16) % 64) ∧
         rd t R.DRC_CFG_SPEED 0 = board 6 0 2 ∧ rd t R.DRC_CFG_CAP 0 = board 7 0 2 ∧ rd t R.DRC_CFG_RANKS 0 = board 7 2 1 ∧
         rd t R.DRC_CFG_ECC_EN 0 = board 7 3 1 ∧ rd t R.DRC_CFG_PIN 0 = max 1 (board 7 4 3))) ∧
       (a = false → b = false → Does .fwVerify s (fun t =>
         t.phase = .up ∧ rd t R.GLB_SVC_STATE_STATE 0 = 4 ∧ rd t R.MC_FW_STATUS_A_OK 0 = 0 ∧ rd t R.MC_FW_STATUS_B_OK 0 = 0 ∧
         t.missing.getLsbD 11 = true ∧ t.cores = s.cores ∧ t.mem = s.mem))) ∧
     (s.phase ≠ .phase3 → exec .fwVerify s = .next s)) ∧
  (∀ (s : State),
     (∀ (results : List ChannelTrain) (modes : List ModeRegs), s.phase = .phase4 →
       let at_ := fun (k : Fin 16) => trainOf results k
       let fits := (bestRecord s).any (recordFits s modes)
       let stale := !fits || rdb s R.DRC_TRAIN_CTL_FORCE_FULL 0
       let passes := fun (k : Fin 16) => (!stale && (at_ k).verifyOk) || (at_ k).failStep == 0
       let failed := fun (k : Fin 16) => s.fuses.dramCh.getLsbD k.val && !passes k
       let usable := fun (k : Fin 16) => chUsable s k && !failed k
       let n := channelsInUse usable
       (∀ r, bestRecord s = some r → (fits = true ↔ r.stepping = stepping s ∧ r.cfg.toNat = drcCfg s ∧
         ∀ k : Fin 16, s.fuses.dramCh.getLsbD k.val = true → sliceOf r.modes (3 * k.val) 3 = modeId (modeOf modes k))) ∧
       (∀ a b, readCopy s false = some a → readCopy s true = some b → bestRecord s = some (if b.seq ≤ a.seq then a else b)) ∧
       (bestRecord s = none → fits = false) ∧
       ((∀ k : Fin 16, rd s R.DRC_CH_STATUS_FAIL_STEP k.val = 0) → n ≠ 0 → Does (.dramTraining results modes) s (fun t =>
         t = { s with phase := .phase5, regs := t.regs, recordDue := t.recordDue, dramChs := t.dramChs, freeCtr := t.freeCtr
                      logQ := t.logQ, logLost := t.logLost } ∧
         (∀ k : Fin 16, t.dramChs[k] = { s.dramChs[k] with rfmAt := (modeOf modes k).rfmAt }) ∧
         (∀ k : Fin 16, s.fuses.dramCh.getLsbD k.val = true →
           (passes k = true → rd t R.DRC_CH_STATUS_TRAINED k.val = 1 ∧ rd t R.DRC_CH_STATUS_FAIL_STEP k.val = 0) ∧
           (passes k = false → rd t R.DRC_CH_STATUS_FAIL_STEP k.val = (at_ k).failStep.toNat)) ∧
         rd t R.DRC_STATUS_NCH 0 = n ∧ rd t R.DRC_WINDOW 0 = n * usableChannel s % 2 ^ 37 ∧
         (∀ k, k < 16 → rd t R.DRC_CH_STATUS_IN_USE k = b2n (decide (k < n))) ∧
         (rd t R.DRC_STATUS_TRAIN_SRC 0 = 0 ↔ stale = true) ∧
         (stale = true → ∃ r, t.recordDue = some r ∧ r.stepping = stepping s ∧ r.cfg = BitVec.ofNat 16 (drcCfg s) ∧
           r.seq = nextSeq s ∧ r.modes = (List.finRange 16).flatMap (fun k => modeId (modeOf modes k)) ∧
           r.temp = BitVec.ofNat 8 (rd s R.MC_THERM_TJ 0) ∧ r.values.length = 8192) ∧
         (bestRecord s = none → nextSeq s = 1) ∧ (∀ b, bestRecord s = some b → nextSeq s = b.seq + 1) ∧
         rd t R.DRC_TRAIN_CTL_FORCE_FULL 0 = 0))) ∧
     (∀ (results : List ChannelTrain) (modes : List ModeRegs), s.phase ≠ .phase4 → exec (.dramTraining results modes) s = .next s) ∧
     (s.phase = .phase5 → missingSet s = 0 →
       requestedStage { s with power := { s.power with firstUse := true } } = 0 → Does .dramZeroDone s (fun t =>
         t.phase = .up ∧ rd t R.GLB_SVC_STATE_STATE 0 = (if allUsable s then 2 else 3) ∧ rd t R.GLB_SVC_STATE_SVC_OK 0 = 1 ∧
         rd t R.GLB_SVC_STATE_FIRST_USE 0 = 1 ∧ rd t R.DRC_STATUS_READY 0 = 1 ∧ t.power.firstUse = true ∧
         t.power.serviceAt = elapsedW s ∧ t.ddbValid = true ∧ t.missing = 0 ∧ t.cores = s.cores ∧
         (∀ x, peek t x 1 = if x < rd s R.DRC_WINDOW 0 then [0] else peek s x 1) ∧
         (∀ e ∈ t.ecc, rd s R.DRC_WINDOW 0 ≤ e.1 ∧ e ∈ s.ecc))) ∧
     (s.phase = .phase5 → missingSet s ≠ 0 → missingSet s < 4096 → Does .dramZeroDone s (fun t =>
       t.phase = .up ∧ rd t R.GLB_SVC_STATE_STATE 0 = 4 ∧ rd t R.GLB_SVC_STATE_SHED_STAGE 0 = 7 ∧ t.missing.toNat = missingSet s ∧
       t.ddbValid = true ∧ t.cores = s.cores ∧
       (s.logQ[planeMgmt].length < 16 → ∃ e, t.logQ[planeMgmt] = s.logQ[planeMgmt] ++ [e] ∧ e.code = 0x0102 ∧ e.sev = 5 ∧
         e.arg0.toNat = missingSet s))) ∧
     (s.phase ≠ .phase5 → exec .dramZeroDone s = .next s) ∧
     (planesRun s = false → ∀ (c q : Fin 4) (src : BpmSrc) (op : BpmOp) (ptr : Addr) (d : Fin 12) (h : Fin 8) (lines : Nat),
       (∀ cfg, exec (.bqEnable c q cfg) s = .next s) ∧ exec (.bqDisable c q) s = .next s ∧ exec (.bpmHostOpWrite op ptr) s = .next s ∧
       exec (.bpmFree src) s = .next s ∧ exec (.bpmHold src) s = .next s ∧ exec (.bpmRelease src) s = .next s ∧
       (∀ k, exec (.dmaAbort k lines) s = .next s) ∧ (∀ n cfg, exec (.preemptEnWrite n cfg) s = .next s) ∧
       (∀ n, exec (.coreDisable n) s = .next s) ∧ exec (.vdDisable d) s = .next s ∧ exec (.shDisable h) s = .next s ∧
       exec (.veDisable c) s = .next s ∧ ∀ cfg, exec (.veReqProd cfg) s = .next s) ∧
     (planesRun s = false → ∀ (p : Fin 8) (k : Fin 64) (n : Fin 16) (live : Bool) (cfg : BitVec 32) (x : BitVec 64) (got : HostRead)
         (b : MemBank),
       exec (.bpmAlloc p live) s = .next s ∧ exec (.readyListRefill p) s = .next s ∧ exec (.bpmPoolEnable p cfg) s = .next s ∧
       exec (.bitmapInitDone p) s = .next s ∧ exec (.bpmPoolDisable p) s = .next s ∧ exec (.thrGapExpiry p) s = .next s ∧
       exec (.dmaChQueue k x) s = .next s ∧ exec (.dmaDescriptorFetch k got) s = .next s ∧ exec (.dmaAllocDst k) s = .next s ∧
       exec (.dmaAllocTimeout k) s = .next s ∧ exec (.dmaWaitPrevDone k) s = .next s ∧ exec (.dmaDescriptorDone k) s = .next s ∧
       exec (.dmaChPause k) s = .next s ∧ exec (.dmaChResume k) s = .next s ∧ exec (.paceGrant k (x.setWidth 8)) s = .next s ∧
       exec (.paceConfig k cfg) s = .next s ∧ exec (.memScrub b) s = .next s ∧ exec (.arrayGateIdle n) s = .next s) ∧
     (s.power.firstUse = false → exec .firstUseEnd s = .next s) ∧
     (s.power.firstUse = true → s.phase = .up →
       requestedStage { s with power := { s.power with firstUse := false } } ≤ stage s → Does .firstUseEnd s (fun t =>
         t.power.firstUse = false ∧ rd t R.GLB_SVC_STATE_FIRST_USE 0 = 0 ∧ t.mem = s.mem ∧ stage t = stage s ∧
         t.cores.map (·.mode) = s.cores.map (·.mode))))

/-- R384, R385, R387, R388: logic BIST. A block is under test when no block that comes before it is left: the earlier
steps, in step 1 the lower cores of its cluster and then the cluster block, in steps 2 and 3 the groups of four before
it, in step 4 the blocks before it. A block that ends is tested, and failed where its signature is not the fused one or
does not come within twice its time; the last block, 210 ms after the start, or an abort at a block boundary ends the
run and clears the request. That each block ends at its time of the table is log entry 7, what a boundary is entry 242,
the signature of a block that gives none a free value. -/
def Obligations.LogicBist : Prop :=
  ∀ (k : Fin 50) (sig : BitVec 64) (s : State),
    let left := bistLeft s
    let keys := [regKey R.ST_STATUS_RUNNING 0, regKey R.ST_STATUS_RAN 0, regKey R.ST_STATUS_ABORTED 0, regKey R.ST_STATUS_PASS 0,
      regKey R.ST_STATUS_STEP 0, regKey R.ST_DURATION 0, regKey R.ST_CTL_BIST_REQ 0, regKey R.ST_TESTED 0, regKey R.ST_FAILED 0,
      regKey R.ST_FAIL_BLOCK 0, regKey R.ST_FAIL_SIG 0, regKey R.LOG_QDROP_MGMT 0, regKey R.MC_CLK_STATUS_LIMITER 0,
      regKey R.MC_CLK_STATUS_CORE_MHZ 0, regKey R.MC_CLK_STATUS_VDD_CORE_MV 0]
    let tested := fun (t : State) => rd t R.ST_TESTED 0 = (rd s R.ST_TESTED 0 ||| 2 ^ k.val) % 2 ^ 64
    let failsIt := fun (t : State) => rd t R.ST_FAILED 0 = (rd s R.ST_FAILED 0 ||| 2 ^ k.val) % 2 ^ 64
    let runEnds := fun (aborted : Bool) (t : State) => rd t R.ST_STATUS_RUNNING 0 = 0 ∧ rd t R.ST_STATUS_RAN 0 = 1 ∧
      rd t R.ST_STATUS_ABORTED 0 = b2n aborted ∧ rd t R.ST_CTL_BIST_REQ 0 = 0 ∧
      rd t R.ST_STATUS_PASS 0 = b2n (rd t R.ST_FAILED 0 == 0) ∧ t.phase = .phase4 ∧ t.bistDue = false ∧
      rd t R.ST_DURATION 0 = rneQuot (elapsed t - s.bistAt.toNat) 1000000 % 2 ^ R.ST_DURATION.width
    let goesOn := fun (t : State) => t.phase = .bist ∧ rd t R.ST_STATUS_RUNNING 0 = rd s R.ST_STATUS_RUNNING 0 ∧
      rd t R.ST_CTL_BIST_REQ 0 = rd s R.ST_CTL_BIST_REQ 0 ∧ rd t R.ST_STATUS_STEP 0 = bistStepNow t
    let ends := fun (at_ : Nat) (t : State) =>
      if left = [k.val] then runEnds false t ∧ elapsedW t = elapsedW (passUntil (passUntil s at_) (s.bistAt.toNat + 210000000))
      else goesOn t ∧ elapsedW t = elapsedW (passUntil s at_) ∧ t.bistEdge = some (elapsedW t)
    let at_ := bistDueAt s k.val
    let plain := s.missing.toNat / 1024 = 0 ∧ trainedOnce s = false
    let ahead := fun (j : Nat) => bistStep j < bistStep k.val ∨ (bistStep j = bistStep k.val ∧
      if k.val < 16 then j / 4 = k.val / 4 ∧ j < k.val else if k.val < 20 then j < 16 ∧ j / 4 = k.val - 16
      else if k.val < 44 then j / 4 < k.val / 4 else j < k.val)
    (underTest s k.val = true ↔ s.phase = .bist ∧ k.val ∈ left ∧ ∀ j ∈ left, ¬ ahead j) ∧
    (underTest s k.val = false → exec (.bistBlockDone k sig) s = .next s ∧ exec (.bistTimeout k) s = .next s) ∧
    (underTest s k.val = true → plain →
      (s.fuses.signatures.getD k.val 0 = sig → Does (.bistBlockDone k sig) s (fun t =>
        tested t ∧ rd t R.ST_FAILED 0 = rd s R.ST_FAILED 0 ∧ ends at_ t ∧ t.logQ = s.logQ ∧ t.mem = s.mem)) ∧
      (s.fuses.signatures.getD k.val 0 ≠ sig → Does (.bistBlockDone k sig) s (fun t =>
        tested t ∧ failsIt t ∧ ends at_ t ∧ t.mem = s.mem ∧
        (rd s R.ST_FAILED 0 = 0 ∨ k.val < rd s R.ST_FAIL_BLOCK 0 →
          rd t R.ST_FAIL_BLOCK 0 = k.val ∧ rd t R.ST_FAIL_SIG 0 = sig.toNat) ∧
        (s.logQ[planeMgmt].length < 16 → ∃ e, t.logQ[planeMgmt] = s.logQ[planeMgmt] ++ [e] ∧ e.code = 0x1001 ∧ e.sev = 4))) ∧
      Does (.bistTimeout k) s (fun t => tested t ∧ failsIt t ∧ ends (at_ + bistTime k.val * 1000000) t ∧ t.mem = s.mem ∧
        (s.logQ[planeMgmt].length < 16 → ∃ e, t.logQ[planeMgmt] = s.logQ[planeMgmt] ++ [e] ∧ e.code = 0x1002 ∧ e.sev = 4))) ∧
    let abortDue := s.phase = .bist ∧ atBoundary s = true ∧ (3 ≤ rd s R.MC_SHED_STATUS_REQ 0 ∨ 100 ≤ tjOf s + tjOffset s)
    (abortDue → plain → Does .bistAborted s (fun t =>
      runEnds true t ∧ RegsKept s t keys ∧ rd t R.ST_TESTED 0 = rd s R.ST_TESTED 0 ∧ rd t R.ST_FAILED 0 = rd s R.ST_FAILED 0 ∧
      t = { s with phase := .phase4, bistDue := false, power := t.power, regs := t.regs, logQ := t.logQ, logLost := t.logLost })) ∧
    (¬ abortDue → exec .bistAborted s = .next s) ∧
    (atBoundary s = true → s.bistEdge = some (elapsedW s))

/-! ## Clocks, power and temperature -/

/-- R368, R369, R372, R422: the core clock and its voltage. The clock reaches its target with the voltage of the fused
table; an AVSBus write that is not acknowledged is logged once and holds the clock at 700 MHz or below until one is.
R370, R418: the discipline of the timestamp counter. An accepted edge shows its phase error and locks after two good
ones; a time that software sets is applied at once or, with a PPS in use, at the next edge; a count ahead of it holds;
1.5 s without an edge is PPS_LOST. The error is removed within 2 s at 500 ppm or less, and what the rate is after that is
free (log entry 168); the even one of two nearest seconds is R2's. Which edge and pulse PPS_EDGE stands for is log entry
224; the clock moves 25 MHz in each whole microsecond of a slew, from the last change of its target or voltage
(entry 233). -/
def Obligations.ClocksAndTime : Prop :=
  (∀ (s : State),
     let volts := fun (mhz : Nat) => max 700 (min 800 (s.fuses.voltages[Fin.ofNat 31 ((mhz - 400) / 25)].toNat + 10))
     let follows := fun (t : State) => t.power.targetMhz = (clockTarget t).1 ∧ t.power.boost = boostHolds t ∧
       rd t R.MC_CLK_STATUS_LIMITER 0 = (clockTarget t).2 % 8 ∧
       (avsRuns t = true → rd t R.MC_CLK_STATUS_VDD_CORE_MV 0 =
         if coreMhz t < t.power.targetMhz then max (volts (coreMhz t)) (volts t.power.targetMhz) else volts (coreMhz t))
     let keys := [regKey R.MC_CLK_STATUS_LIMITER 0, regKey R.MC_CLK_STATUS_VDD_CORE_MV 0, regKey R.MC_CLK_STATUS_CORE_MHZ 0]
     let acked := fun (u t : State) => t = { u with power := t.power, regs := t.regs } ∧ RegsKept u t keys ∧ follows t ∧
       t.power.avsFail = false ∧ t.power.avsMv = rd u R.MC_CLK_STATUS_VDD_CORE_MV 0 ∧ coreMhz t = slewedMhz u % 2 ^ 12
     let failed := fun (u t : State) => t = { u with power := t.power, regs := t.regs, logQ := t.logQ, logLost := t.logLost } ∧
       RegsKept u t (regKey R.LOG_QDROP_MGMT 0 :: keys) ∧ follows t ∧ t.power.avsFail = true ∧ t.power.avsAt = elapsedW u ∧
       t.power.targetMhz ≤ 700 ∧
       coreMhz t = (if t.power.targetMhz = u.power.targetMhz then coreMhz u else slewedMhz u % 2 ^ 12) ∧ (u.power.avsFail = true → t.logQ = u.logQ) ∧
       (u.power.avsFail = false → u.logQ[planeMgmt].length < 16 →
         ∃ e, t.logQ[planeMgmt] = u.logQ[planeMgmt] ++ [e] ∧ e.code = 0x010A ∧ e.sev = 2)
     let target := s.power.targetMhz
     let ready := avsRuns s = true ∧ target ≠ coreMhz s ∧ (coreMhz s < target → targetMv s target ≤ s.power.avsMv)
     (ready → Does .clockSlewDone s (fun t =>
       let u := passUntil s (s.power.slewAt.toNat + ceilDiv ((target - coreMhz s) + (coreMhz s - target)) 25 * 1000)
       t = { u with regs := t.regs, power := { u.power with throttleStage := false } } ∧
       RegsKept u t [regKey R.MC_CLK_STATUS_CORE_MHZ 0, regKey R.MC_CLK_STATUS_VDD_CORE_MV 0] ∧
       rd t R.MC_CLK_STATUS_CORE_MHZ 0 = target % 2 ^ 12 ∧
       rd t R.MC_CLK_STATUS_VDD_CORE_MV 0 = volts target)) ∧
     (¬ ready → exec .clockSlewDone s = .next s ∧ slewedMhz s = coreMhz s) ∧
     (ready → let moved := (elapsed s - s.power.slewAt.toNat) / 1000 * 25
       slewedMhz s = if target < coreMhz s then max target (coreMhz s - moved) else min target (coreMhz s + moved)) ∧
     (avsRuns s = true →
       Does (.avsWrite true) s (acked s) ∧ Does (.avsWrite false) s (failed s) ∧
       (s.power.avsFail = true →
         let u := passUntil s (s.power.avsAt.toNat + 100000000)
         Does (.avsRetry true) s (acked u) ∧ Does (.avsRetry false) s (failed u))) ∧
     (avsRuns s = false → ∀ a, exec (.avsWrite a) s = .next s ∧ exec (.avsRetry a) s = .next s) ∧
     (s.power.avsFail = false → ∀ a, exec (.avsRetry a) s = .next s)) ∧
  (∀ (s : State),
     let applied := fun (u : State) (v : W64) (t : State) =>
       (now u ≤ v.toNat → now t = v.toNat ∧ t.clock.shadow = none) ∧ (v.toNat < now u → now t = now u ∧ t.clock.shadow = some v) ∧
       t.clock.setPending = none
     let part := now s % 1000000000
     let down := part < 500000000 ∨ (part = 500000000 ∧ now s / 1000000000 % 2 = 0)
     let err : Int := if down then part else (part : Int) - 1000000000
     let inUse := s.phase ≠ .powerOn ∧ s.phase ≠ .held ∧ rd s R.MC_TS_CTL_PPS_EN 0 ≠ 0
     let accepted := ∀ e, s.clock.lastEdge = some e → e.toNat + 500000000 ≤ elapsed s
     let good := err.natAbs < 1000000
     (inUse → accepted → Does .ppsEdge s (fun t =>
       t = { s with clock := t.clock, regs := t.regs } ∧
       RegsKept s t [regKey R.MC_TS_STATUS_PHASE_ERR 0, regKey R.MC_TS_STATUS_LOCKED 0, regKey R.MC_TS_STATUS_PPS_LOST 0,
         regKey R.GLB_TIMESTAMP_NS 0] ∧
       rd t R.MC_TS_STATUS_PHASE_ERR 0 = (BitVec.ofInt 24 (max (-8388608) (min err 8388607))).toNat ∧
       rd t R.MC_TS_STATUS_PPS_LOST 0 = 0 ∧ t.clock.goodEdges = (if good then s.clock.goodEdges + 1 else 0) ∧
       rd t R.MC_TS_STATUS_LOCKED 0 = b2n (decide (2 ≤ t.clock.goodEdges)) ∧ t.clock.firstEdge = false ∧
       t.clock.lastEdge = some (elapsedW s) ∧
       (¬ good ∨ s.clock.firstEdge = true →
         t.clock.ppm = s.clock.ppm ∧ t.clock.slew = s.clock.slew ∧ t.clock.slewEnd = s.clock.slewEnd) ∧
       (good → s.clock.firstEdge = false → -500 ≤ t.clock.ppm ∧ t.clock.ppm ≤ 500 ∧ t.clock.slew.natAbs ≤ 500 ∧
         t.clock.slew * err ≤ 0 ∧ t.clock.slewEnd ≤ elapsed s + 2000000000 ∧
         err.natAbs * 1000000 ≤ (t.clock.slewEnd - elapsed s) * t.clock.slew.natAbs) ∧
       (s.clock.setPending = none → now t = now s) ∧ ∀ v, s.clock.setPending = some v → applied s v t)) ∧
     (¬ inUse ∨ ¬ accepted → exec .ppsEdge s = .next s) ∧
     (inUse → rd s R.MC_TS_STATUS_PPS_LOST 0 = 0 → Does .ppsLost s (fun t =>
       let u := passUntil s (max s.clock.ppsSince.toNat (s.clock.lastEdge.getD 0).toNat + 1500000000)
       rd t R.MC_TS_STATUS_PPS_LOST 0 = 1 ∧ rd t R.MC_TS_STATUS_LOCKED 0 = 0 ∧ t.clock.goodEdges = 0 ∧ t.mem = s.mem ∧
       (rd t R.MC_ALERT_STAT 0).testBit 3 = true ∧ (s.clock.setPending = none → now t = now u) ∧
       (∀ v, s.clock.setPending = some v → applied u v t) ∧
       (s.logQ[planeMgmt].length < 16 → ∃ e, t.logQ[planeMgmt] = s.logQ[planeMgmt] ++ [e] ∧ e.code = 0x0107 ∧ e.sev = 2))) ∧
     (¬ inUse ∨ rd s R.MC_TS_STATUS_PPS_LOST 0 ≠ 0 → exec .ppsLost s = .next s) ∧
     ∀ v : BitVec 64,
       (rd s R.MC_TS_CTL_PPS_EN 0 ≠ 0 → rd s R.MC_TS_STATUS_PPS_LOST 0 = 0 →
         exec (.mcTsSet v) s = .next { s with clock := { s.clock with setPending := some v } }) ∧
       (rd s R.MC_TS_CTL_PPS_EN 0 = 0 ∨ rd s R.MC_TS_STATUS_PPS_LOST 0 ≠ 0 → Does (.mcTsSet v) s (fun t =>
         t = { s with clock := t.clock, regs := t.regs } ∧ RegsKept s t [regKey R.GLB_TIMESTAMP_NS 0] ∧ applied s v t)))

/-- R371, R373, R426: the power estimate and the temperature sample of every 100 µs. The average of the last 100
estimates moves the power limit on the clock by 25 MHz, up only while it is the lowest of the limits and down from what
the clock may reach (log entry 225); the hottest of the 16 sensors is TJ, in a tripped device too; a temperature at the threshold asserts the thermal throttle, which ends
3 °C below it, and higher ones request stages 3 and 5; every evaluation shows its request and enters every stage up to
it.
R374, R378: the thermal trip and the orderly halt. Either leaves a halt record with its cause, the stage and the time,
and a device that serves no more. The moments of the samples and steps are those of log entry 7; what a trip drops is
entry 208, the end of the first-use window entry 181. -/
def Obligations.PowerAndTemperature : Prop :=
  (∀ (s : State), managed s = true →
     let p := s.power
     let settles := fun (t : State) =>
       rd t R.MC_SHED_STATUS_REQ 0 = requestedStage t ∧ (serving t = true → requestedStage t ≤ stage t) ∧
       t.power.targetMhz = (clockTarget t).1 ∧ t.power.boost = boostHolds t ∧ t.phase = s.phase ∧
       t.power.exitHold = rd s R.MC_SHED_CTL_EXIT_HOLD 0 ∧ t.power.boostEn = rdb s R.MC_PWR_CTL_BOOST_EN 0
     (∀ est : BitVec 16,
       let es := (est.toNat :: p.estimates).take 100
       let avg := rneQuot (es.foldl (· + ·) 0) es.length % 2 ^ 16
       let other := otherLimits (evalCtl (passUntil s (p.tickAt.toNat + 100000)))
       let limit := powerLimitW { s with power := { p with hostLimit := rd s R.MC_PWR_CTL_HOST_LIMIT 0 } } * 10
       Does (.powerEstimateTick est) s (fun t => settles t ∧ t.power.estimates = es ∧ rd t R.MC_PWR_EST_AVG 0 = avg ∧
         rd t R.MC_PWR_EST_PEAK 0 = max (rd s R.MC_PWR_EST_PEAK 0) est.toNat % 2 ^ 16 ∧
         t.power.powerLimit = (if limit < avg then max 400 (min p.powerLimit other - 25)
           else if avg * 100 < limit * 95 ∧ p.powerLimit < other then p.powerLimit + 25 else p.powerLimit) ∧
         t.power.throttlePower = (if limit * 11 < est.toNat * 10 then true
           else if est.toNat < limit then false else p.throttlePower))) ∧
     (∀ (sensors : Vector (BitVec 8) 16) (tj : BitVec 8), (∃ i : Fin 16, sensors[i] = tj) →
       (∀ i : Fin 16, sensors[i].toInt ≤ tj.toInt) →
       let at_ := tj.toInt + (if p.firstUse then 3 else 0)
       Does (.thermalSample sensors) s (fun t => settles t ∧ rd t R.MC_THERM_TJ 0 = tj.toNat ∧
         signedOf 8 (rd t R.MC_THERM_TJ_PEAK 0) =
           (if p.tjSeen then max tj.toInt (signedOf 8 (rd s R.MC_THERM_TJ_PEAK 0)) else tj.toInt) ∧
         t.power.temp3 = decide (103 ≤ at_) ∧ t.power.temp5 = decide (105 ≤ at_) ∧ t.power.tjSeen = true ∧
         t.power.throttleTherm = (if 100 ≤ at_ then true else if at_ ≤ 97 then false else p.throttleTherm) ∧
         rd t R.MC_THERM_THROTTLE 0 = b2n t.power.throttleTherm)) ∧
     (p.throttleTherm = true ∨ p.thermLimit < 1150 → Does .thermalLimitStep s (fun t =>
       t.power.thermLimit = (if p.throttleTherm = false then min 1150 (p.thermLimit + 50)
         else if 100 ≤ signedOf 8 (rd s R.MC_THERM_TJ 0) + (if p.firstUse then 3 else 0) then max 400 (p.thermLimit - 50)
         else p.thermLimit) ∧
       t.power.targetMhz = (clockTarget t).1 ∧ t.mem = s.mem ∧ t.phase = s.phase)) ∧
     (p.throttleTherm = false → 1150 ≤ p.thermLimit → exec .thermalLimitStep s = .next s)) ∧
  (∀ (s : State), managed s = false →
     exec .thermalLimitStep s = .next s ∧ (∀ est, exec (.powerEstimateTick est) s = .next s) ∧
     ∀ sensors : Vector (BitVec 8) 16,
       (s.phase ≠ .tripped → exec (.thermalSample sensors) s = .next s) ∧
       (s.phase = .tripped → ∀ tj : BitVec 8, (∃ i : Fin 16, sensors[i] = tj) → (∀ i : Fin 16, sensors[i].toInt ≤ tj.toInt) →
         Does (.thermalSample sensors) s (fun t =>
           let u := passUntil s (s.power.sampleAt.toNat + 100000)
           t = { u with regs := t.regs, power := { u.power with tjSeen := true, sampleAt := elapsedW u } } ∧
           RegsKept u t [regKey R.MC_THERM_TJ 0, regKey R.MC_THERM_TJ_PEAK 0] ∧ rd t R.MC_THERM_TJ 0 = tj.toNat ∧
           signedOf 8 (rd t R.MC_THERM_TJ_PEAK 0) =
             (if s.power.tjSeen then max tj.toInt (signedOf 8 (rd s R.MC_THERM_TJ_PEAK 0)) else tj.toInt)))) ∧
  (∀ (s : State),
     let halted := fun (cause : Nat) (p : Phase) (t : State) =>
       t.phase = p ∧ rd t R.GLB_SVC_STATE_STATE 0 = 5 ∧ rd t R.GLB_SVC_STATE_SHED_STAGE 0 = 7 ∧ rd t R.GLB_SVC_STATE_SVC_OK 0 = 0 ∧
       rd t R.GLB_SVC_STATE_DRONE 0 = 0 ∧ rd t R.MC_HALT_RECORD_CAUSE 0 = cause ∧ rd t R.MC_HALT_RECORD_STAGE 0 = stage s % 8 ∧
       rd t R.MC_HALT_RECORD_VALID 0 = 1 ∧ rd t R.MC_HALT_TIME 0 = now s % 2 ^ 64
     (s.phase ≠ .powerOn → s.phase ≠ .tripped → Does .thermalTrip s (fun t =>
       halted 3 .tripped t ∧ rd t R.MC_CLK_STATUS_CORE_MHZ 0 = 0 ∧ linkIsUp t = false ∧
       t = stopClocks { s with phase := .tripped, power := { s.power with firstUse := false, exitSince := none }, regs := t.regs
                               logQ := t.logQ, logLost := t.logLost, ddbGen := t.ddbGen } ∧
       t.cores = State.reset.cores ∧ t.clusters = State.reset.clusters ∧ t.streams = [] ∧ t.mem = s.mem ∧ t.hostMem = s.hostMem ∧
       (s.logQ[planeMgmt].length < 16 → ∃ e, t.logQ[planeMgmt] = s.logQ[planeMgmt] ++ [e] ∧ e.code = 0x0109 ∧ e.sev = 5))) ∧
     (s.phase = .powerOn ∨ s.phase = .tripped → exec .thermalTrip s = .next s) ∧
     ∀ core vid : BitVec 12,
       (serving s = true → core.toNat < 620 ∨ vid.toNat < 670 → Does (.orderlyHalt core vid) s (fun t =>
         halted (if core.toNat < 620 then 1 else 2) .halted t ∧
         (∀ i : Fin 8, t.shs[i] = none) ∧ (∀ i : Fin 4, t.ves[i] = none ∧ t.veWait[i] = none) ∧
         ((∀ k : Fin 12, s.vds[k] = none) → (∀ n : Fin 16, canTrap s.cores[n] = false) → cachedStreams s = [] →
           t = { s with phase := .halted, shs := t.shs, ves := t.ves, veWait := t.veWait, veGot := t.veGot, pools := t.pools
                        regs := t.regs, logQ := t.logQ
                        power := { s.power with firstUse := false, exitSince := none }
                        logLost := t.logLost, ddbGen := t.ddbGen }))) ∧
       (serving s = false ∨ (620 ≤ core.toNat ∧ 670 ≤ vid.toNat) → exec (.orderlyHalt core vid) s = .next s))

/-! ## Supply shedding -/

/-- R375, R377: what an evaluation of the requests in `u` leaves. A higher stage is entered at once; a lower request
starts the hold before a stage is left. -/
def Sys2Proof.StageEvaluated (u t : State) : Prop :=
  let req := requestedStage u
  rd t R.MC_SHED_STATUS_REQ 0 = req ∧ rd t R.MC_SHED_STATUS_SOURCES 0 = requestSources u % 256 ∧
  t.power.pwrWarnN = u.power.pwrWarnN ∧ t.power.vrHotN = u.power.vrHotN ∧ t.power.shedReqN = u.power.shedReqN ∧
  t.power.warnHold = u.power.warnHold ∧ t.power.droop1 = u.power.droop1 ∧ t.power.droop2 = u.power.droop2 ∧
  (serving u = false → OnlyRegs u t [regKey R.MC_SHED_STATUS_REQ 0, regKey R.MC_SHED_STATUS_SOURCES 0]) ∧
  (serving u = true → req ≤ stage u →
    t = { u with regs := t.regs, power := { u.power with
      exitSince := if req < stage u then some (u.power.exitSince.getD (elapsedW u)) else none } } ∧
    RegsKept u t [regKey R.MC_SHED_STATUS_REQ 0, regKey R.MC_SHED_STATUS_SOURCES 0, regKey R.MC_SHED_STATUS_EXITING 0] ∧
    rd t R.MC_SHED_STATUS_EXITING 0 = b2n (decide (req < stage u))) ∧
  (serving u = true → stage u < req → stage t = req ∧ rd t R.MC_SHED_STATUS_EXITING 0 = 0 ∧ t.power.exitSince = none ∧
    rd t R.MC_SHED_ENTRIES 0 = min (rd u R.MC_SHED_ENTRIES 0 + (req - stage u)) (2 ^ 32 - 1) ∧
    (rd t R.MC_ALERT_STAT 0).testBit 0 = true ∧ t.power.targetMhz = (clockTarget t).1 ∧ t.power.boost = false ∧ (req = 5 → rd t R.GLB_SVC_STATE_DRONE 0 = 1 ∧
      ∀ c, droneCluster u ≠ some c → t.clusters[c].gated = true) ∧
    t.mgmt = u.mgmt ++ (if stage u < 4 ∧ 4 ≤ req then [.suspend] else []))

/-- R375 to R377, R381, R383: the inputs of the shedding controller. Each evaluation takes the highest request; a
device that serves enters every stage up to it at once, and below the stage it holds the exit timer runs.
R11, R178, R375, R377, R379, R383: leaving stages, what software writes, and the streams the MC suspends. A stage is
left one at a time, each after its hold; the drone stage gives every cluster its clocks back (which arrays ramp then is entry 243). The MC posts the ring
commands of stage 4 on entry and exit (log entry 195), and each is carried out, and counted in the registers of ring
31, in order; a withdrawal of the MC's ends the undispatched jobs of a tag with CANCELLED (its posting is log entry
227), and a command that is poison in MC memory is logged and not run (log entry 226). The hold of an exit begins at the
evaluation that finds the lower request (log entry 7); a droop counts in every phase with sensors that run. -/
def Obligations.SheddingStages : Prop :=
  (∀ (s : State),
     let p := s.power
     let sees := fun (u t : State) => if s.phase = .powerOn then t = u else StageEvaluated u t
     let droop := fun (mv : BitVec 12) => rd s R.MC_CLK_STATUS_VDD_CORE_MV 0 - mv.toNat
     (p.pwrWarnN = true → Does .pwrWarnNFall s (sees { s with
       power := { p with pwrWarnN := false, warnHold := false, pwrWarnAt := elapsedW s } })) ∧
     (p.pwrWarnN = false → exec .pwrWarnNFall s = .next s) ∧
     Does .pwrWarnNRise s (sees { s with power := { p with pwrWarnN := true, warnHold := false } }) ∧
     (p.pwrWarnN = false → p.warnHold = false →
       let u := passUntil s (p.pwrWarnAt.toNat + 20000000)
       Does .pwrWarnHold s (sees { u with power := { u.power with warnHold := true } })) ∧
     (p.pwrWarnN = true ∨ p.warnHold = true → exec .pwrWarnHold s = .next s) ∧
     (∀ level, Does (.vrHotNChange level) s (sees { s with power := { p with vrHotN := level } })) ∧
     (∀ level, Does (.shedReqNChange level) s (sees { s with power := { p with shedReqN := level } })) ∧
     (∀ mv, managed s = true → Does (.droopDetect mv) s (sees { s with power := { p with
       droop1 := p.droop1 || decide (droop mv > (droopLimits s).1), droop2 := p.droop2 || decide (droop mv > (droopLimits s).2) } })) ∧
     (∀ mv, managed s = false → exec (.droopDetect mv) s = .next s) ∧
     (∀ mv, Does (.droopClear mv) s (sees { s with power := { p with
       droop1 := p.droop1 && decide (droop mv > (droopLimits s).1), droop2 := p.droop2 && decide (droop mv > (droopLimits s).2) } }))) ∧
  (∀ (s : State),
     (s.power.exitSince = none ∨ serving s = false → exec .exitHoldExpiry s = .next s) ∧
     (∀ since, s.power.exitSince = some since → serving s = true → s.phase ≠ .powerOn →
       requestedStage s < stage s → stage s ≤ 5 → Does .exitHoldExpiry s (fun t =>
         stage t = stage s - 1 ∧ rd t R.MC_SHED_ENTRIES 0 = rd s R.MC_SHED_ENTRIES 0 ∧ t.mem = s.mem ∧
         rd t R.MC_SHED_STATUS_EXITING 0 = b2n (decide (requestedStage s < stage s - 1)) ∧
         (stage s = 5 → rd t R.GLB_SVC_STATE_DRONE 0 = 0 ∧ ∀ c : Fin 4, t.clusters[c].gated = false) ∧
         (s.logQ[planeMgmt].length < 16 → ∃ e, t.logQ[planeMgmt] = s.logQ[planeMgmt] ++ [e] ∧
           e.code = BitVec.ofNat 16 (0x0200 + 128 + stage s) ∧ e.sev = 0) ∧
         t.mgmt = s.mgmt ++ (if stage s = 4 then [.resume] else []) ∧
         t.power.targetMhz = (clockTarget t).1)) ∧
     (∀ ctl : BitVec 32, Does (.forceStage ctl) s (fun t =>
       OnlyRegs s t [regKey R.MC_SHED_CTL_FORCE_STAGE 0, regKey R.MC_SHED_CTL_SHEDREQ_STAGE 0, regKey R.MC_SHED_CTL_EXIT_HOLD 0] ∧
       rd t R.MC_SHED_CTL_FORCE_STAGE 0 = bitsOf ctl.toNat 0 3 ∧ rd t R.MC_SHED_CTL_SHEDREQ_STAGE 0 = bitsOf ctl.toNat 4 3 ∧
       rd t R.MC_SHED_CTL_EXIT_HOLD 0 = bitsOf ctl.toNat 8 16)) ∧
     (serving s = false → ∀ cmd, exec (.mgmtRingSuspend cmd) s = .next s) ∧
     (s.mgmt = [] → exec (.mgmtRingSuspend .suspend) s = .next s ∧ exec (.mgmtRingSuspend .resume) s = .next s) ∧
     (∀ r tag, serving s = true → .mc ∉ s.hidden → .mc ∉ s.hiddenCe → (s.mgmt = [] ∨ s.mgmt = [.withdraw r tag]) →
       Does (.mgmtRingSuspend (.withdraw r tag)) s (fun t =>
         let hit := fun (j : Job) => j.ring == some r && j.batch.isNone && j.tag == tag
         t = { s with mgmt := [], clusters := t.clusters, rings := t.rings, regs := t.regs, ltr := t.ltr, linkAt := t.linkAt } ∧
         RegsKept s t [regKey R.JR_HEAD 31, regKey R.CR_TAIL 31, regKey R.CR_HEAD 31, linkKey] ∧
         (∀ f ∈ [R.JR_HEAD, R.CR_TAIL, R.CR_HEAD], rd t f 31 = (rd s f 31 + 1) % 2 ^ f.width) ∧
         (∀ c : Fin 4, t.clusters[c].jobs = s.clusters[c].jobs.filter (fun e => !hit e.2)) ∧
         (∀ k : Fin 31, k ≠ r → t.rings[k] = s.rings[k]) ∧
         ∃ l : List CplEntry, t.rings[r].waiting = s.rings[r].waiting ++ l ∧ ∀ e ∈ l, e.tag = tag ∧ e.status = 0x21 ∧ e.core = 0xFF)) ∧
     (serving s = true → .mc ∈ s.hidden → ∀ cmd, (s.mgmt = [cmd] ∨ (s.mgmt = [] ∧ ∃ r tag, cmd = .withdraw r tag)) →
       Does (.mgmtRingSuspend cmd) s (fun t =>
         t = { s with mgmt := [], hidden := s.hidden.filter (fun x => x != .mc), regs := t.regs, logQ := t.logQ, logLost := t.logLost } ∧
         (∀ f ∈ [R.JR_HEAD, R.CR_TAIL, R.CR_HEAD], rd t f 31 = (rd s f 31 + 1) % 2 ^ f.width) ∧
         (s.logQ[planeCtrl].length < 16 → ∃ e, t.logQ[planeCtrl] = s.logQ[planeCtrl] ++ [e] ∧ e.code = 0x2024 ∧ e.sev = 3))) ∧
     ∀ c rest, s.mgmt = c :: rest →
       (∀ cmd, cmd ≠ c → exec (.mgmtRingSuspend cmd) s = .next s) ∧
       (serving s = true → .mc ∉ s.hidden → .mc ∉ s.hiddenCe →
         let counted := fun (t : State) => t.mgmt = rest ∧ ∀ f ∈ [R.JR_HEAD, R.CR_TAIL, R.CR_HEAD],
           rd t f 31 = (rd s f 31 + 1) % 2 ^ f.width
         (c = .suspend → Does (.mgmtRingSuspend .suspend) s (fun t => counted t ∧ t.cores = s.cores ∧ t.dma = s.dma ∧
           (∀ n ∈ knownStreams s, isLive (streamOf s n) = false → (streamOf t n).shedSuspended = true) ∧
           ∀ n, isLive (streamOf s n) = true → streamOf t n = streamOf s n)) ∧
         (c = .resume → Does (.mgmtRingSuspend .resume) s (fun t => counted t ∧
           t = { s with streams := t.streams, mgmt := rest, regs := t.regs } ∧
           RegsKept s t [regKey R.JR_HEAD 31, regKey R.CR_TAIL 31, regKey R.CR_HEAD 31] ∧
           ∀ n ∈ knownStreams s, (streamOf t n).shedSuspended = false))))

/-! ## The error log and the ports -/

/-- R395: an entry that arrives at a plane's queue joins it while it holds fewer than 16, and is otherwise lost and
counted; when the queue has room again one QUEUE_LOSS entry says how many were lost since the last (its unit is log entry
138). -/
def Obligations.LogQueues : Prop :=
  ∀ (p : Fin 3) (s : State),
    (∀ e, s.logQ[p].length < 16 → logPush s p e = { s with logQ := s.logQ.set p (s.logQ[p] ++ [e]) }) ∧
    (∀ e, 16 ≤ s.logQ[p].length →
      let t := logPush s p e
      t = { s with regs := t.regs, logLost := s.logLost.set p (s.logLost[p] + 1) } ∧
      RegsKept s t [regKey (qdropField p) 0] ∧ rd t (qdropField p) 0 = min (rd s (qdropField p) 0 + 1) 255) ∧
    (s.logLost[p] = 0 ∨ 16 ≤ s.logQ[p].length → exec (.queueLoss p) s = .next s) ∧
    (s.logLost[p] ≠ 0 → s.logQ[p].length < 16 → Does (.queueLoss p) s (fun t => ∃ e,
      t = { s with logQ := s.logQ.set p (s.logQ[p] ++ [e]), logLost := s.logLost.set p 0 } ∧
      e.code = 0x0108 ∧ e.plane = p ∧ e.time = nowW s ∧ e.arg0 = BitVec.ofNat 64 s.logLost[p]))

/-- R13, R391, R396, R397: the ring of the error log. The oldest entry over the planes is stored next, a control entry
after a management entry of its m-cycle; a full ring discards entries of severity 0 to 2 and gives up its oldest entry
for others; what is stored raises the interrupt and the alert; LOG_ACK is taken only up to LOG_WR. That the planes are
taken in the order of m-cycles, and then by plane, is log entry 137. -/
def Obligations.LogRing : Prop :=
  ∀ (s : State),
    let at_ := fun (e : LogEntry) => (e.time.toNat * 2 / 5, e.plane.val)
    let wrote := fun (ack : Nat) (e : LogEntry) (t : State) =>
      let x := { e with seq := BitVec.ofNat 32 (rd s R.LOG_WR 0) }
      t.log = (x :: s.log).take 1024 ∧ rd t R.LOG_WR 0 = (rd s R.LOG_WR 0 + 1) % 2 ^ 32 ∧ rd t R.LOG_ACK 0 = ack ∧
      (∀ i, i < 32 → logByte t ((rd s R.LOG_WR 0 % 2 ^ 32) % 1024 * 32 + i) = (entryBytes x).getD i 0) ∧
      rd t R.LOG_MAX_SEV 0 = max (rd s R.LOG_MAX_SEV 0) e.sev.toNat % 8 ∧
      (rd s R.LOG_CTL_ALERT_SEV 0 ≤ e.sev.toNat → (rd t R.MC_ALERT_STAT 0).testBit 5 = true) ∧
      (rd s R.LOG_CTL_IRQ_EN 0 ≠ 0 → rd s R.LOG_CTL_IRQ_SEV 0 ≤ e.sev.toNat →
        t.pba.getLsbD (rd s R.LOG_CTL_VECTOR 0 % 2048) = true) ∧
      (rd s R.LOG_CTL_IRQ_EN 0 = 0 ∨ e.sev.toNat < rd s R.LOG_CTL_IRQ_SEV 0 → t.pba = s.pba)
    ((∀ p : Fin 3, s.logQ[p] = []) → exec .errorLogEntry s = .next s) ∧
    (∀ (p : Fin 3) e rest, s.logQ[p] = e :: rest → e.plane = p →
      (∀ q : Fin 3, ∀ f fs, s.logQ[q] = f :: fs → f.plane = q ∧ (q ≠ p →
        (at_ e).1 < (at_ f).1 ∨ ((at_ e).1 = (at_ f).1 ∧ p.val < q.val))) →
      let u := { s with logQ := s.logQ.set p rest }
      (logFull s = false → Does .errorLogEntry s (fun t => wrote (rd s R.LOG_ACK 0) e t ∧
        t = { u with regs := t.regs, pba := t.pba, log := t.log })) ∧
      (logFull s = true → e.sev.toNat ≤ 2 → Does .errorLogEntry s (fun t =>
        OnlyRegs u t [regKey R.LOG_DISCARDED 0] ∧ rd t R.LOG_DISCARDED 0 = min (rd s R.LOG_DISCARDED 0 + 1) (2 ^ 32 - 1))) ∧
      (logFull s = true → 2 < e.sev.toNat → Does .errorLogEntry s (fun t => wrote ((rd s R.LOG_ACK 0 + 1) % 2 ^ 32) e t ∧
        rd t R.LOG_OVERWRITTEN 0 = min (rd s R.LOG_OVERWRITTEN 0 + 1) (2 ^ 32 - 1) ∧
        t = { u with regs := t.regs, pba := t.pba, log := t.log }))) ∧
    ∀ v : BitVec 32, rd s R.LOG_ACK 0 < 2 ^ 32 → rd s R.LOG_WR 0 < 2 ^ 32 →
      let from_ := (v.toNat + 2 ^ 32 - rd s R.LOG_ACK 0) % 2 ^ 32
      let held := (rd s R.LOG_WR 0 + 2 ^ 32 - rd s R.LOG_ACK 0) % 2 ^ 32
      (from_ ≤ held → Does (.logAck v) s (fun t => OnlyRegs s t [regKey R.LOG_ACK 0] ∧ rd t R.LOG_ACK 0 = v.toNat)) ∧
      (held < from_ → exec (.logAck v) s = .next s)

/-- R398, R423, R424: the SMBus-compatible port. Reads hand out the state, the temperature, the alerts, the log at the
cursor or a register, with the PEC of the transaction behind them; writes clear alerts, move the cursor or write a
register of the management range; a wrong PEC, or an offset outside that range, is not acknowledged. The form of the PEC
is the SMBus specification's (log entry 236); an offset that names no register is entry 141, the cursor's upper bits entry
140, a timeout entry 237, the write that is remembered for R424 entry 235. -/
def Obligations.SmbusCommands : Prop :=
  ∀ (s : State),
    let pec := fun (cmd : Byte) (sent : List Byte) (bs : List Byte) => pecOf ([0x98, cmd] ++ sent ++ [0x99] ++ bs)
    let shows := fun (cmd : Byte) (bs : List Byte) => ({ s with smbOut := bs, smbNack := false, smbPec := pec cmd [] bs } : State)
    let kept := ({ s with smbNack := false } : State)
    let q := rd s R.LOG_SMB_CURSOR 0
    let cursor := [regKey R.LOG_SMB_CURSOR 0]
    exec .smbTimeout s = .next { s with smbOut := [] } ∧
    (portRuns s = false → ∀ v w x y ok, exec .smbReadState s = .next s ∧ exec .smbReadTj s = .next s ∧ exec .smbReadAlert s = .next s ∧
      exec (.smbClearAlert v ok) s = .next s ∧ exec .smbLogRead s = .next s ∧ exec (.smbSetCursor w ok) s = .next s ∧
      exec (.smbRegRead x ok) s = .next s ∧ exec (.smbRegWrite x y ok) s = .next s) ∧
    (∀ v w x y, portRuns s = true →
      let refused := ({ s with smbNack := true } : State)
      exec (.smbClearAlert v false) s = .next refused ∧ exec (.smbSetCursor w false) s = .next refused ∧
      exec (.smbRegRead x false) s = .next refused ∧ exec (.smbRegWrite x y false) s = .next refused) ∧
    (portRuns s = true →
      (rd s R.GLB_SVC_STATE_STATE 0 < 8 → rd s R.GLB_SVC_STATE_SHED_STAGE 0 < 8 → Does .smbReadState s (fun t =>
        t = shows 0x00 t.smbOut ∧ t.smbOut.length = 2 ∧ natOfBytes t.smbOut % 8 = rd s R.GLB_SVC_STATE_STATE 0 ∧
        natOfBytes t.smbOut / 16 % 8 = rd s R.GLB_SVC_STATE_SHED_STAGE 0)) ∧
      exec .smbReadTj s = .next (shows 0x01 [BitVec.ofNat 8 (rd s R.MC_THERM_TJ 0)]) ∧
      exec .smbReadAlert s = .next (shows 0x02 [BitVec.ofNat 8 (rd s R.MC_ALERT_STAT 0)]) ∧
      (∀ v : BitVec 8, rd s R.MC_ALERT_STAT 0 < 64 → Does (.smbClearAlert v true) s (fun t =>
        OnlyRegs kept t [regKey R.MC_ALERT_STAT 0] ∧ ∀ i, (rd t R.MC_ALERT_STAT 0).testBit i =
          ((rd s R.MC_ALERT_STAT 0).testBit i && !v.getLsbD i))) ∧
      (logHolds s q = true → q ≠ rd s R.LOG_WR 0 → Does .smbLogRead s (fun t =>
        t = { shows 0x10 t.smbOut with regs := t.regs, smbPec := pec 0x10 [] (32 :: t.smbOut) } ∧ RegsKept s t cursor ∧
        rd t R.LOG_SMB_CURSOR 0 = (q + 1) % 2 ^ 32 ∧ t.smbOut = (List.range 32).map (fun i => logByte s (q % 1024 * 32 + i)))) ∧
      (q = rd s R.LOG_WR 0 → Does .smbLogRead s (fun t =>
        t = { shows 0x10 (List.replicate 32 0xFF) with regs := t.regs, smbPec := pec 0x10 [] (32 :: List.replicate 32 0xFF) } ∧
        RegsKept s t cursor)) ∧
      (∀ v : BitVec 16, rd s R.LOG_WR 0 < 2 ^ 32 → Does (.smbSetCursor v true) s (fun t => OnlyRegs kept t cursor ∧
        rd t R.LOG_SMB_CURSOR 0 % 2 ^ 16 = v.toNat ∧
        (rd s R.LOG_WR 0 + 2 ^ 32 - rd t R.LOG_SMB_CURSOR 0) % 2 ^ 32 < 2 ^ 16)) ∧
      (∀ x : BitVec 32,
        let hs := regHits x.toNat
        (x.toNat % 4 = 0 → x.toNat < 0x8000 → isWide hs = false → latches hs = false → allocRead hs = none →
          timingRead hs = none → Does (.smbRegRead x true) s (fun t =>
            t = { kept with regs := t.regs, power := t.power, smbOut := bytesOf 4 (regValue s hs % 2 ^ 32)
                            smbPec := pec 0x20 (4 :: bytesOf 4 x.toNat) (4 :: t.smbOut) } ∧
            RegsKept s t ((hs.filter (fun h => h.1.ty == .rc)).map (fun h => regKey h.1 h.2.1)))) ∧
        ((x.toNat % 4 ≠ 0 ∨ 0x100000 ≤ x.toNat) → Does (.smbRegRead x true) s (fun t =>
          t = { kept with freeCtr := s.freeCtr + 1, smbOut := t.smbOut, smbPec := pec 0x20 (4 :: bytesOf 4 x.toNat) (4 :: t.smbOut) } ∧
          t.smbOut.length = 4)) ∧
        ∀ y : BitVec 32,
          (x.toNat % 4 = 0 → 0x1000 ≤ x.toNat → x.toNat < 0x8000 → isWide hs = false → hs ≠ [] →
            (∀ h ∈ hs, ∀ a ∈ writeActs h.2.1 y.toNat, a.1.id ≠ h.1.id) → Does (.smbRegWrite x y true) s (fun t =>
              t = { kept with regs := t.regs, ltr := t.ltr, smbWrote := some (x.toNat, y.toNat, elapsedW s) } ∧ RegsKept s t (hs.map (fun h => regKey h.1 h.2.1)) ∧
              ∀ h ∈ hs, (h.1.ty = .rw ∨ h.1.ty = .rws) → rd t h.1 h.2.1 = bitsOf y.toNat h.1.lo h.1.width)) ∧
          (x.toNat < 0x1000 ∨ 0x8000 ≤ x.toNat → exec (.smbRegWrite x y true) s = .next { s with smbNack := true }) ∧
          (x.toNat % 4 ≠ 0 → 0x1000 ≤ x.toNat → x.toNat < 0x8000 → exec (.smbRegWrite x y true) s = .next kept)))

/-- R420, R421: the TAP. A loaded instruction becomes the present one; those that drive the outputs take effect only
while PERST_N is low; one that does not, or Test-Logic-Reset, lets phase 1 begin where it waited. SAMPLE/PRELOAD and the
EXTEST instructions capture the level of every ball into its cell, an output in effect follows its cell, and HIGHZ lets it
float; otherwise the status balls show the state (R380, R414). Which register Test-Logic-Reset selects is log entry 143, four bits of STEP_MAJOR entry 145, the order of the cells
and what is captured at a ball that the state does not give entry 234, an instruction kept while PERST_N is high entry
144. -/
def Obligations.TapInstructions : Prop :=
  ∀ (s : State), s.phase ≠ .powerOn →
    let loads := fun (i : TapInsn) (out : BitVec 32) => ({ s with tap := { s.tap with insn := i, inEffect := false, shiftOut := out } } : State)
    let drives := fun (i : TapInsn) => ({ s with tap := { s.tap with insn := i, inEffect := !s.power.perstN, shiftOut := 0 } } : State)
    let id := BitVec.ofNat 32 (s.fuses.stepMajor.toNat % 16 * 2 ^ 28 + 0x4169AB)
    let begins := fun (u t : State) => t.phase = .phase1 ∧ rd t R.GLB_SVC_STATE_STATE 0 = 1 ∧ t.tap = { u.tap with phase1Waits := false } ∧
      RegsKept s t [regKey R.GLB_SVC_STATE_STATE 0, regKey R.LOG_QDROP_MGMT 0] ∧ t.mem = s.mem
    let captures := fun (cells : List Bool) => cells.length = scanCells ∧
      ∀ e ∈ knownLevels s, ∀ v, e.2 = some v → cells.getD (cellOf e.1) (!v) = v
    let extests := fun (i : TapInsn) (t : State) =>
      t = { drives i with freeCtr := t.freeCtr, tap := { (drives i).tap with sampled := t.tap.sampled } } ∧
      (s.power.perstN = true → t = drives i) ∧ (s.power.perstN = false → t.tap.sampled.length = scanCells ∧
        ∀ e ∈ knownLevels (drives i), ∀ v, e.2 = some v → t.tap.sampled.getD (cellOf e.1) (!v) = v)
    Does .extest s (extests .extest) ∧ Does .extestPulse s (extests .extestPulse) ∧
    Does .extestTrain s (extests .extestTrain) ∧ exec .clamp s = .next (drives .clamp) ∧
    exec .highz s = .next (drives .highz) ∧
    (∀ p : OutPin, scannedBall p.ball = true → s.tap.inEffect = true →
      pinDrive s p = if s.tap.insn = .highz then .floats else .byCell (s.tap.cells.getD (cellOf p.ball) false)) ∧
    (s.tap.inEffect = false → pinDrive s .thermTripN = (if s.phase = .tripped then .low else .floats) ∧
      (s.phase = .held → pinDrive s .alertN = .floats ∧ pinDrive s .svcOk = .floats ∧ ∀ i, pinDrive s (.shedStat i) = .floats) ∧
      (s.phase = .up → pinDrive s .svcOk = (if rd s R.GLB_SVC_STATE_SVC_OK 0 ≠ 0 then .high else .low) ∧
        ∀ i : Fin 3, pinDrive s (.shedStat i) = if (stage s).testBit i.val then .floats else .low)) ∧
    (s.tap.phase1Waits = false →
      exec .bypass s = .next (loads .bypass 0) ∧ exec .idcode s = .next (loads .idcode id) ∧
      (∀ pins cells, Does (.samplePreload pins cells) s (fun t => t = { s with tap := { s.tap with
        insn := .samplePreload, inEffect := false, sampled := t.tap.sampled, cells := cells } } ∧
        (pins.length = scanCells → captures t.tap.sampled))) ∧
      exec .tapReset s = .next (loads .idcode id)) ∧
    (s.tap.phase1Waits = true →
      Does .bypass s (begins (loads .bypass 0)) ∧ Does .idcode s (begins (loads .idcode id)) ∧
      Does .tapReset s (begins (loads .idcode id)) ∧
      ∀ pins cells, Does (.samplePreload pins cells) s (fun t => t.phase = .phase1 ∧ t.tap.cells = cells ∧
        (pins.length = scanCells → captures t.tap.sampled) ∧
        t.tap.phase1Waits = false ∧ t.tap.insn = .samplePreload ∧ rd t R.GLB_SVC_STATE_STATE 0 = 1))

/-! ## The whole block -/

/-- A step takes the command at the front of the queue and runs it on the state with the queue's rest; with an empty
queue one management-clock cycle passes (the model's choice, log entry 1). -/
def Obligations.StepRunsTheFrontCommand : Prop :=
  ∀ (s : State),
    (∀ c rest, s.pending = c :: rest → step s = exec c { s with pending := rest }) ∧
    (s.pending = [] → step s = .next (passCycle s))

/-- Every command answers a next state, takes no part in the queue, and leaves the fuses as they are. That a command whose
condition does not hold answers the state as it is, is log entry 2; the queue is the model's own field (entry 8), the fuses
come with the part (entry 4). -/
def Obligations.CommandsComplete : Prop :=
  ∀ (c : Instr) (s : State), ∃ t, exec c s = .next t ∧ t.pending = s.pending ∧ t.fuses = s.fuses

/-- R361, R363: the state after the release of the power-on reset. Every register reads its reset value but
MC_RST_CAUSE, which says power-on; the queue is empty, and the invariant holds. Memory that nothing has written reads 0
(the model's choice, log entry 11); PERST_N is low, so the block stays held (entry 13). -/
def Obligations.ResetState : Prop :=
  Inv State.reset ∧ State.reset.pending = [] ∧ State.reset.phase = .held ∧ rd State.reset R.MC_RST_CAUSE 0 = 1 ∧
  (∀ f ∈ regTable, ∀ i, regKey f i ≠ regKey R.MC_RST_CAUSE 0 → rd State.reset f i = regReset State.reset f i) ∧
  ∀ a n, peek State.reset a n = List.replicate n 0

/-- R258, R395, R396: what every step keeps. Each memory stays in its canonical form, the error log holds at most 1024
entries and the queue of each plane into it at most 16. The canonical form is the model's (log entry 11). -/
def Obligations.StepKeepsTheInvariant : Prop :=
  ∀ (s t : State), Inv s → step s = .next t → Inv t

/-- R186: s0 reads as 0 and p0 as all ones in every core, and every step keeps it so (before the first job these are the
values of log entry 10). -/
def Obligations.ConstantRegistersStay : Prop :=
  ∀ (s t : State), (∀ n : Fin 16, sGet s.cores[n] 0 = 0 ∧ pGet s.cores[n] 0 = BitVec.allOnes 128) → step s = .next t →
    ∀ n : Fin 16, sGet t.cores[n] 0 = 0 ∧ pGet t.cores[n] 0 = BitVec.allOnes 128

/-- R189, R211: instruction words. The opcode and the fields of every instruction, base or tensor, are read back from
its word, and a 64-bit word is the word of the instruction that is read from it. A command carries the fields (log entry
5), so a word's place in memory has no part in it. -/
def Obligations.InstructionWords : Prop :=
  (∀ (op : Nat) (w : Insn), op < 256 → decodeInsn (encodeInsn op w) = (op, w) ∧ encodeInsn op w < 2 ^ 64) ∧
  (∀ x, x < 2 ^ 64 → encodeInsn (decodeInsn x).1 (decodeInsn x).2 = x) ∧
  ∀ (op op' : Nat) (v w : TensorInsn), op < 256 → op' < 256 → encodeTensor0 op v = encodeTensor0 op' w →
    op = op' ∧ v.TX = w.TX ∧ v.TY = w.TY ∧ v.TD = w.TD ∧ v.TE = w.TE ∧ v.TM = w.TM ∧ v.PG = w.PG ∧ v.PN = w.PN ∧
    v.PLAN = w.PLAN ∧ v.TAG_BASE = w.TAG_BASE

end
end

