-- ==== Sys2Proof/Laws/Store.lean ====
section
/-! SUPPORT. Sparse stores: what every operation leaves to be read, and that every operation keeps the canonical form. -/

namespace Sys2Proof.Laws

open Sys2Proof.Machine

variable {α : Type}

theorem storeGet_append (d : α) (m n : SMap α) (k : Nat) :
    storeGet d (m ++ n) k = if (m.any fun e => e.1 == k) then storeGet d m k else storeGet d n k := by
  induction m with
  | nil => simp
  | cons e m ih =>
    by_cases h : e.1 = k
    · simp [storeGet, h]
    · have hb : (e.1 == k) = false := by simpa using h
      simp only [storeGet, List.cons_append, List.find?_cons, hb, List.any_cons, Bool.false_or] at ih ⊢
      exact ih

theorem storeGet_of_not_any (d : α) (m : SMap α) (k : Nat) (h : (m.any fun e => e.1 == k) = false) :
    storeGet d m k = d := by
  have : m.find? (fun e => e.1 == k) = none := by
    rw [List.find?_eq_none]
    intro e he
    have := List.any_eq_false.mp h e he
    simpa using this
  simp [storeGet, this]

/-- A filter that keeps every entry of a key keeps what the key reads as. -/
theorem storeGet_filter_keep (d : α) (m : SMap α) (p : Nat × α → Bool) (k : Nat) (h : ∀ v, p (k, v) = true) :
    storeGet d (m.filter p) k = storeGet d m k := by
  induction m with
  | nil => rfl
  | cons e m ih =>
    obtain ⟨a, v⟩ := e
    by_cases ha : a = k
    · subst ha
      simp [storeGet, h]
    · have hb : (a == k) = false := by simpa using ha
      simp only [storeGet] at ih ⊢
      by_cases hp : p (a, v) = true
      · simp only [List.filter_cons, hp, if_true, List.find?_cons, hb]
        exact ih
      · simp only [List.filter_cons, hp, List.find?_cons, hb]
        exact ih

/-- A filter that keeps no entry of a key makes it read as unlisted. -/
theorem storeGet_filter_drop (d : α) (m : SMap α) (p : Nat × α → Bool) (k : Nat) (h : ∀ v, p (k, v) = false) :
    storeGet d (m.filter p) k = d := by
  apply storeGet_of_not_any
  rw [List.any_eq_false]
  intro e he
  obtain ⟨a, v⟩ := e
  have h1 := (List.mem_filter.mp he).2
  simp only [beq_iff_eq]
  intro hk
  subst hk
  rw [h v] at h1
  exact absurd h1 (by decide)

theorem any_filter_drop (m : SMap α) (p : Nat × α → Bool) (k : Nat) (h : ∀ v, p (k, v) = false) :
    ((m.filter p).any fun e => e.1 == k) = false := by
  rw [List.any_eq_false]
  intro e he
  obtain ⟨a, v⟩ := e
  have h1 := (List.mem_filter.mp he).2
  simp only [beq_iff_eq]
  intro hk
  subst hk
  rw [h v] at h1
  exact absurd h1 (by decide)

theorem any_of_storeGet_ne (d : α) (m : SMap α) (k : Nat) (h : storeGet d m k ≠ d) :
    (m.any fun e => e.1 == k) = true := by
  cases hb : (m.any fun e => e.1 == k) with
  | true => rfl
  | false => exact absurd (storeGet_of_not_any d m k hb) h

/-- What the first part of a list shows of a key that the second part does not hold. -/
theorem storeGet_append_left (d : α) (m n : SMap α) (k : Nat) (h : (n.any fun e => e.1 == k) = false) :
    storeGet d (m ++ n) k = storeGet d m k := by
  rw [storeGet_append]
  split
  · rfl
  · rename_i hm
    rw [storeGet_of_not_any d n k h, storeGet_of_not_any d m k (Bool.eq_false_iff.mpr hm)]

/-- What the second part of a list shows of a key that the first part does not hold. -/
theorem storeGet_append_right (d : α) (m n : SMap α) (k : Nat) (h : (m.any fun e => e.1 == k) = false) :
    storeGet d (m ++ n) k = storeGet d n k := by
  rw [storeGet_append, h]
  simp

variable [DecidableEq α]

theorem storeEntries_keys (d : α) (vs : List α) (k : Nat) :
    ∀ e ∈ storeEntries d k vs, k ≤ e.1 ∧ e.1 < k + vs.length ∧ e.2 ≠ d := by
  induction vs generalizing k with
  | nil => simp [storeEntries]
  | cons v vs ih =>
    intro e he
    rw [storeEntries] at he
    split at he
    · have := ih (k + 1) e he
      simp only [List.length_cons]
      exact ⟨by omega, by omega, this.2.2⟩
    · rename_i hv
      rcases List.mem_cons.mp he with rfl | he
      · simp only [List.length_cons]
        exact ⟨by omega, by omega, hv⟩
      · have := ih (k + 1) e he
        simp only [List.length_cons]
        exact ⟨by omega, by omega, this.2.2⟩

theorem storeEntries_any (d : α) (vs : List α) (k j : Nat) (h : j < k ∨ k + vs.length ≤ j) :
    ((storeEntries d k vs).any fun e => e.1 == j) = false := by
  rw [List.any_eq_false]
  intro e he
  have := storeEntries_keys d vs k e he
  simp only [beq_iff_eq]
  omega

theorem storeGet_entries (d : α) (vs : List α) (k j : Nat) (h : k ≤ j) :
    storeGet d (storeEntries d k vs) j = vs.getD (j - k) d := by
  induction vs generalizing k with
  | nil => simp [storeEntries, storeGet]
  | cons v vs ih =>
    by_cases hj : j = k
    · subst hj
      rw [storeEntries]
      split
      · rename_i hv
        rw [storeGet_of_not_any d _ _ (storeEntries_any d vs (j + 1) j (by omega))]
        simp [hv]
      · simp [storeGet]
    · have hk : k + 1 ≤ j := by omega
      have hs : j - k = (j - (k + 1)) + 1 := by omega
      rw [storeEntries]
      split
      · rw [ih (k + 1) hk, hs]
        simp
      · have hb : (k == j) = false := by simpa using (fun h => hj h.symm)
        have : storeGet d ((k, v) :: storeEntries d (k + 1) vs) j = storeGet d (storeEntries d (k + 1) vs) j := by
          simp [storeGet, hb]
        rw [this, ih (k + 1) hk, hs]
        simp

/-- A write of many values changes exactly the keys it covers. -/
theorem storeGet_setMany (d : α) (m : SMap α) (k : Nat) (vs : List α) (j : Nat) :
    storeGet d (storeSetMany d m k vs) j =
      if k ≤ j ∧ j < k + vs.length then vs.getD (j - k) d else storeGet d m j := by
  unfold storeSetMany
  by_cases h1 : j < k
  · rw [if_neg (by omega), storeGet_append_left, storeGet_filter_keep]
    · intro v; simpa using h1
    · rw [List.any_append, storeEntries_any d vs k j (Or.inl h1), any_filter_drop]
      · rfl
      · intro v
        simp only [decide_eq_false_iff_not]
        omega
  · rw [storeGet_append_right _ _ _ _ (any_filter_drop _ _ _ (by intro v; simpa using h1))]
    by_cases h2 : j < k + vs.length
    · rw [if_pos (by omega), storeGet_append_left, storeGet_entries d vs k j (by omega)]
      apply any_filter_drop
      intro v
      simp only [decide_eq_false_iff_not]
      omega
    · rw [if_neg (by omega), storeGet_append_right _ _ _ _ (storeEntries_any d vs k j (by omega)), storeGet_filter_keep]
      intro v
      simp only [decide_eq_true_eq]
      omega

/-- A write of one value changes exactly its key. -/
theorem storeGet_set (d : α) (m : SMap α) (k : Nat) (v : α) (j : Nat) :
    storeGet d (storeSet d m k v) j = if j = k then v else storeGet d m j := by
  rw [storeSet, storeGet_setMany]
  by_cases h : j = k
  · subst h
    simp
  · rw [if_neg (by simp only [List.length_singleton]; omega), if_neg h]

@[simp] theorem storeGet_set_same (d : α) (m : SMap α) (k : Nat) (v : α) : storeGet d (storeSet d m k v) k = v := by
  rw [storeGet_set, if_pos rfl]

theorem storeGet_set_other (d : α) (m : SMap α) (k : Nat) (v : α) (j : Nat) (h : j ≠ k) :
    storeGet d (storeSet d m k v) j = storeGet d m j := by
  rw [storeGet_set, if_neg h]

omit [DecidableEq α] in
/-- Clearing makes exactly its keys read as unlisted. -/
theorem storeGet_clear (d : α) (m : SMap α) (k n j : Nat) :
    storeGet d (storeClear m k n) j = if k ≤ j ∧ j < k + n then d else storeGet d m j := by
  unfold storeClear
  by_cases h : k ≤ j ∧ j < k + n
  · rw [if_pos h, storeGet_filter_drop]
    intro v
    simp only [decide_eq_false_iff_not]
    omega
  · rw [if_neg h, storeGet_filter_keep]
    intro v
    simp only [decide_eq_true_eq]
    omega

/-- What was written is read back, in any part. -/
theorem storeGetMany_setMany (d : α) (m : SMap α) (k : Nat) (vs : List α) :
    storeGetMany d (storeSetMany d m k vs) k vs.length = vs := by
  apply List.ext_getElem
  · simp [storeGetMany]
  · intro i h1 h2
    simp only [storeGetMany, List.getElem_map, List.getElem_range, storeGet_setMany]
    rw [if_pos (by omega)]
    simp [List.getD_eq_getElem?_getD, h2]

/-! ## The canonical form -/

theorem storeEntries_wf (d : α) (vs : List α) (k : Nat) : storeWf d (storeEntries d k vs) := by
  refine ⟨?_, fun e he => (storeEntries_keys d vs k e he).2.2⟩
  induction vs generalizing k with
  | nil => simp [storeEntries]
  | cons v vs ih =>
    rw [storeEntries]
    split
    · exact ih (k + 1)
    · rw [List.pairwise_cons]
      refine ⟨fun e he => ?_, ih (k + 1)⟩
      have := storeEntries_keys d vs (k + 1) e he
      show k < e.1
      omega

omit [DecidableEq α] in
theorem storeWf_filter (d : α) (m : SMap α) (p : Nat × α → Bool) (h : storeWf d m) : storeWf d (m.filter p) :=
  ⟨h.1.filter p, fun e he => h.2 e (List.mem_filter.mp he).1⟩

theorem storeWf_setMany (d : α) (m : SMap α) (k : Nat) (vs : List α) (h : storeWf d m) :
    storeWf d (storeSetMany d m k vs) := by
  have he := storeEntries_wf d vs k
  have hk := storeEntries_keys d vs k
  unfold storeSetMany
  refine ⟨?_, ?_⟩
  · rw [List.pairwise_append, List.pairwise_append]
    refine ⟨h.1.filter _, ⟨he.1, h.1.filter _, ?_⟩, ?_⟩
    · intro a ha b hb
      have h1 := hk a ha
      have h2 := (List.mem_filter.mp hb).2
      simp only [decide_eq_true_eq] at h2
      omega
    · intro a ha b hb
      have h1 := (List.mem_filter.mp ha).2
      simp only [decide_eq_true_eq] at h1
      rcases List.mem_append.mp hb with hb | hb
      · have h2 := hk b hb
        omega
      · have h2 := (List.mem_filter.mp hb).2
        simp only [decide_eq_true_eq] at h2
        omega
  · intro e hm
    rcases List.mem_append.mp hm with hm | hm
    · exact h.2 e (List.mem_filter.mp hm).1
    · rcases List.mem_append.mp hm with hm | hm
      · exact (hk e hm).2.2
      · exact h.2 e (List.mem_filter.mp hm).1

theorem storeWf_set (d : α) (m : SMap α) (k : Nat) (v : α) (h : storeWf d m) : storeWf d (storeSet d m k v) :=
  storeWf_setMany d m k [v] h

omit [DecidableEq α] in
theorem storeWf_clear (d : α) (m : SMap α) (k n : Nat) (h : storeWf d m) : storeWf d (storeClear m k n) :=
  storeWf_filter d m _ h

theorem storeWf_setEach (d : α) (ks : List Nat) (v : α) (m : SMap α) (h : storeWf d m) :
    storeWf d (storeSetEach d m ks v) := by
  unfold storeSetEach
  induction ks generalizing m with
  | nil => exact h
  | cons k ks ih => exact ih _ (storeWf_set d m k v h)

omit [DecidableEq α] in
theorem storeWf_nil (d : α) : storeWf d ([] : SMap α) := ⟨List.Pairwise.nil, fun _ h => absurd h (by simp)⟩

end Sys2Proof.Laws
end

