-- ==== Sys2Proof/Laws/Bytes.lean ====
section
/-! SUPPORT. Laws of little-endian byte strings, and the training record read back from its bytes. -/

namespace Sys2Proof.Laws

open Sys2Proof.Machine

@[simp] theorem bytesOf_length (n v : Nat) : (bytesOf n v).length = n := by simp [bytesOf]

/-- The lowest byte of a number, and the bytes of the rest. -/
theorem bytesOf_succ (n v : Nat) : bytesOf (n + 1) v = BitVec.ofNat 8 v :: bytesOf n (v / 256) := by
  simp only [bytesOf, List.range_succ_eq_map, List.map_cons, List.map_map, Nat.pow_zero, Nat.div_one]
  congr 1
  apply List.map_congr_left
  intro i _
  simp only [Function.comp_apply, Nat.div_div_eq_div_mul, Nat.pow_succ']

/-- A number of n bytes read back from them. -/
theorem natOfBytes_bytesOf (n v : Nat) : natOfBytes (bytesOf n v) = v % 256 ^ n := by
  induction n generalizing v with
  | zero => simp [bytesOf, natOfBytes, Nat.mod_one]
  | succ n ih =>
    rw [bytesOf_succ, natOfBytes, ih, BitVec.toNat_ofNat, Nat.pow_succ' (n := n) (m := 256), Nat.mod_mul]

theorem sliceOf_cons (b : Byte) (bs : List Byte) (k n : Nat) : sliceOf (b :: bs) (k + 1) n = sliceOf bs k n := by
  simp only [sliceOf]
  apply List.map_congr_left
  intro i _
  rw [Nat.add_right_comm]
  rfl

/-- The bytes of a middle part. -/
theorem sliceOf_middle (pre mid post : List Byte) : sliceOf (pre ++ (mid ++ post)) pre.length mid.length = mid := by
  induction pre with
  | nil =>
    apply List.ext_getElem (by simp [sliceOf])
    intro i h h'
    simp [sliceOf, List.getD_eq_getElem?_getD, List.getElem?_append_left h', h']
  | cons b pre ih => rw [List.cons_append, List.length_cons, sliceOf_cons, ih]

/-- The number of a middle part that was written as one. -/
theorem fieldOf_middle (pre post : List Byte) (n v : Nat) :
    fieldOf (pre ++ (bytesOf n v ++ post)) pre.length n = v % 256 ^ n := by
  have h := sliceOf_middle pre (bytesOf n v) post
  rw [bytesOf_length] at h
  rw [fieldOf, h, natOfBytes_bytesOf]

theorem recordHead_length (r : TrainRecord) (h : r.modes.length = 48) : (recordHead r).length = 60 := by
  simp [recordHead, h]

/-- A training record reads back from its bytes (R316). -/
theorem recordOf_recordBytes (r : TrainRecord) (h : r.modes.length = 48) : recordOf (recordBytes r) = some r := by
  have hl := recordHead_length r h
  have two := fun v => bytesOf_length 2 v
  have four := fun v => bytesOf_length 4 v
  have f0 : fieldOf (recordBytes r) 0 2 = 1 := by
    have := fieldOf_middle [] (bytesOf 2 r.stepping.toNat ++ bytesOf 2 r.cfg.toNat ++ [r.temp, 0] ++ bytesOf 4 r.seq.toNat ++ r.modes ++
      (bytesOf 4 (crc32 (recordHead r ++ r.values)).toNat ++ r.values)) 2 1
    simpa [recordBytes, recordHead] using this
  have f2 : fieldOf (recordBytes r) 2 2 = r.stepping.toNat := by
    have := fieldOf_middle (bytesOf 2 1) (bytesOf 2 r.cfg.toNat ++ [r.temp, 0] ++ bytesOf 4 r.seq.toNat ++ r.modes ++
      (bytesOf 4 (crc32 (recordHead r ++ r.values)).toNat ++ r.values)) 2 r.stepping.toNat
    rw [two, Nat.mod_eq_of_lt (by have := r.stepping.isLt; omega)] at this
    simpa [recordBytes, recordHead] using this
  have f4 : fieldOf (recordBytes r) 4 2 = r.cfg.toNat := by
    have := fieldOf_middle (bytesOf 2 1 ++ bytesOf 2 r.stepping.toNat) ([r.temp, 0] ++ bytesOf 4 r.seq.toNat ++ r.modes ++
      (bytesOf 4 (crc32 (recordHead r ++ r.values)).toNat ++ r.values)) 2 r.cfg.toNat
    rw [List.length_append, two, two, Nat.mod_eq_of_lt (by have := r.cfg.isLt; omega)] at this
    simpa [recordBytes, recordHead] using this
  have f8 : fieldOf (recordBytes r) 8 4 = r.seq.toNat := by
    have := fieldOf_middle (bytesOf 2 1 ++ bytesOf 2 r.stepping.toNat ++ bytesOf 2 r.cfg.toNat ++ [r.temp, 0]) (r.modes ++
      (bytesOf 4 (crc32 (recordHead r ++ r.values)).toNat ++ r.values)) 4 r.seq.toNat
    simp only [List.length_append, two, List.length_cons, List.length_nil] at this
    rw [Nat.mod_eq_of_lt (by have := r.seq.isLt; omega)] at this
    simpa [recordBytes, recordHead] using this
  have f60 : fieldOf (recordBytes r) 60 4 = (crc32 (recordHead r ++ r.values)).toNat := by
    have := fieldOf_middle (recordHead r) r.values 4 (crc32 (recordHead r ++ r.values)).toNat
    rw [hl, Nat.mod_eq_of_lt (by have := (crc32 (recordHead r ++ r.values)).isLt; omega)] at this
    rw [recordBytes, List.append_assoc]
    exact this
  have m12 : sliceOf (recordBytes r) 12 48 = r.modes := by
    have := sliceOf_middle (bytesOf 2 1 ++ bytesOf 2 r.stepping.toNat ++ bytesOf 2 r.cfg.toNat ++ [r.temp, 0] ++ bytesOf 4 r.seq.toNat)
      r.modes (bytesOf 4 (crc32 (recordHead r ++ r.values)).toNat ++ r.values)
    simp only [List.length_append, two, four, List.length_cons, List.length_nil, h] at this
    simpa [recordBytes, recordHead] using this
  have t6 : (recordBytes r)[6]?.getD 0#8 = r.temp := by simp [recordBytes, recordHead, bytesOf, List.range_succ]
  have take : (recordBytes r).take 60 = recordHead r := by
    rw [recordBytes, List.append_assoc, List.take_append_of_le_length (Nat.le_of_eq hl.symm), List.take_of_length_le (Nat.le_of_eq hl)]
  have drop : (recordBytes r).drop 64 = r.values := by
    rw [recordBytes, List.drop_append, List.drop_eq_nil_of_le (by simp [hl]), List.length_append, hl, four]
    simp
  simp [recordOf, f0, f2, f4, f8, f60, m12, t6, take, drop]

theorem recordBytes_length (r : TrainRecord) (h : r.modes.length = 48) (hv : r.values.length = 8192) :
    (recordBytes r).length = recordLen := by
  simp [recordBytes, recordHead_length r h, hv, recordLen]

/-- A record that lies in a copy is what that copy reads as. -/
theorem readCopy_written (s : State) (b : Bool) (r : TrainRecord) (h : r.modes.length = 48) (hv : r.values.length = 8192) :
    readCopy { s with flash := storeSetMany 0xFF s.flash (copyBase b) (recordBytes r) } b = some r := by
  unfold readCopy
  rw [flashRead, ← recordBytes_length r h hv, storeGetMany_setMany, recordOf_recordBytes r h]

/-- It does not reach into the other copy. -/
theorem readCopy_other (s : State) (b : Bool) (r : TrainRecord) (h : r.modes.length = 48) (hv : r.values.length = 8192) :
    readCopy { s with flash := storeSetMany 0xFF s.flash (copyBase b) (recordBytes r) } (!b) = readCopy s (!b) := by
  have hl := recordBytes_length r h hv
  have e : flashRead { s with flash := storeSetMany 0xFF s.flash (copyBase b) (recordBytes r) } (copyBase (!b)) recordLen =
      flashRead s (copyBase (!b)) recordLen := by
    simp only [flashRead, storeGetMany]
    apply List.map_congr_left
    intro i hi
    rw [List.mem_range] at hi
    rw [storeGet_setMany, if_neg]
    rw [hl]
    cases b <;> simp only [copyBase, recordLen] at hi ⊢ <;> simp <;> omega
  unfold readCopy
  rw [e]

end Sys2Proof.Laws
end

