-- ==== Sys2Proof/Laws/State.lean ====
section
/-! SUPPORT. What each update of the state leaves in each of its fields, and what a register reads as after an update. -/

namespace Sys2Proof.Laws

open Sys2Proof.Machine

/-! ## Registers -/

theorem rd_wr_same (s : State) (f : RegField) (i v : Nat) : rd (wr s f i v) f i = v % 2 ^ f.width := by
  show storeGet (regReset s f i) (storeSet (regReset s f i) s.regs (regKey f i) (v % 2 ^ f.width)) (regKey f i) = _
  simp

theorem rd_wr_other (s : State) (f g : RegField) (i j v : Nat) (h : regKey g j ≠ regKey f i) :
    rd (wr s f i v) g j = rd s g j := by
  show storeGet (regReset s g j) (storeSet (regReset s f i) s.regs (regKey f i) (v % 2 ^ f.width)) (regKey g j) = _
  unfold storeSet
  have hs : ∀ d : Nat, storeGet d (storeSetMany (regReset s f i) s.regs (regKey f i) [v % 2 ^ f.width]) (regKey g j) =
      storeGet d s.regs (regKey g j) := by
    intro d
    unfold storeSetMany
    by_cases hk : regKey g j < regKey f i
    · rw [storeGet_append_left, storeGet_filter_keep]
      · intro x; simpa using hk
      · rw [List.any_append, storeEntries_any _ _ _ _ (Or.inl hk), any_filter_drop]
        · rfl
        · intro x
          simp only [List.length_singleton, decide_eq_false_iff_not]
          omega
    · rw [storeGet_append_right _ _ _ _ (any_filter_drop _ _ _ (by intro x; simpa using hk)),
        storeGet_append_right _ _ _ _ (storeEntries_any _ _ _ _ (Or.inr (by simp only [List.length_singleton]; omega))),
        storeGet_filter_keep]
      intro x
      simp only [List.length_singleton, decide_eq_true_eq]
      omega
  exact hs _

theorem rd_wrb_same (s : State) (f : RegField) (i : Nat) (b : Bool) : rd (wrb s f i b) f i = b2n b % 2 ^ f.width :=
  rd_wr_same s f i (b2n b)

theorem rd_wrb_other (s : State) (f g : RegField) (i j : Nat) (b : Bool) (h : regKey g j ≠ regKey f i) :
    rd (wrb s f i b) g j = rd s g j :=
  rd_wr_other s f g i j (b2n b) h

/-- Two fields of different identity or instance have different keys. -/
theorem regKey_ne_of_id (f g : RegField) (i j : Nat) (hf : f.id < 512) (hg : g.id < 512) (h : g.id ≠ f.id) :
    regKey g j ≠ regKey f i := by
  unfold regKey
  omega

theorem regKey_ne_of_index (f : RegField) (i j : Nat) (h : j ≠ i) : regKey f j ≠ regKey f i := by
  unfold regKey
  omega

/-- Adding to a counter writes that counter alone, and may draw a free value. -/
theorem bump_cases (s : State) (f : RegField) (i n : Nat) :
    (∃ v, bump s f i n = wr s f i v) ∨ (∃ v, bump s f i n = wr { s with freeCtr := s.freeCtr + 1 } f i v) := by
  unfold bump
  dsimp only
  split
  · exact Or.inl ⟨_, rfl⟩
  · exact Or.inl ⟨_, rfl⟩
  · split
    · exact Or.inl ⟨_, rfl⟩
    · exact Or.inr ⟨_, rfl⟩

theorem rd_bump_other (s : State) (f g : RegField) (i j n : Nat) (h : regKey g j ≠ regKey f i) :
    rd (bump s f i n) g j = rd s g j := by
  rcases bump_cases s f i n with ⟨v, hv⟩ | ⟨v, hv⟩
  · rw [hv, rd_wr_other _ _ _ _ _ _ h]
  · rw [hv, rd_wr_other _ _ _ _ _ _ h]
    rfl

theorem rd_bump_wraps (s : State) (f : RegField) (i n : Nat) (h : f.atMax = .wraps) :
    rd (bump s f i n) f i = (rd s f i + n) % 2 ^ f.width := by
  unfold bump
  simp only [h]
  exact rd_wr_same s f i _

theorem rd_bump_stops (s : State) (f : RegField) (i n : Nat) (h : f.atMax = .stops) :
    rd (bump s f i n) f i = min (rd s f i + n) (2 ^ f.width - 1) := by
  unfold bump
  simp only [h]
  rw [rd_wr_same, Nat.mod_eq_of_lt]
  have : 0 < 2 ^ f.width := Nat.two_pow_pos _
  omega

theorem rd_bump_below (s : State) (f : RegField) (i n : Nat) (h : rd s f i + n < 2 ^ f.width) :
    rd (bump s f i n) f i = rd s f i + n := by
  have hw : (rd s f i + n) % 2 ^ f.width = rd s f i + n := Nat.mod_eq_of_lt h
  unfold bump
  dsimp only
  split
  · rw [rd_wr_same, hw]
  · rw [rd_wr_same, Nat.mod_eq_of_lt]
    · omega
    · omega
  · rw [if_pos h, rd_wr_same, hw]


/-! ## `wr` -/

@[simp] theorem wr_regs (s : State) (f : RegField) (i v : Nat) : (wr s f i v).regs = storeSet (regReset s f i) s.regs (regKey f i) (v % 2 ^ f.width) := rfl
@[simp] theorem wr_halfW (s : State) (f : RegField) (i v : Nat) : (wr s f i v).halfW = s.halfW := rfl
@[simp] theorem wr_halfR (s : State) (f : RegField) (i v : Nat) : (wr s f i v).halfR = s.halfR := rfl
@[simp] theorem wr_mem (s : State) (f : RegField) (i v : Nat) : (wr s f i v).mem = s.mem := rfl
@[simp] theorem wr_ecc (s : State) (f : RegField) (i v : Nat) : (wr s f i v).ecc = s.ecc := rfl
@[simp] theorem wr_hostMem (s : State) (f : RegField) (i v : Nat) : (wr s f i v).hostMem = s.hostMem := rfl
@[simp] theorem wr_hidden (s : State) (f : RegField) (i v : Nat) : (wr s f i v).hidden = s.hidden := rfl
@[simp] theorem wr_hiddenCe (s : State) (f : RegField) (i v : Nat) : (wr s f i v).hiddenCe = s.hiddenCe := rfl
@[simp] theorem wr_stallSeen (s : State) (f : RegField) (i v : Nat) : (wr s f i v).stallSeen = s.stallSeen := rfl
@[simp] theorem wr_flash (s : State) (f : RegField) (i v : Nat) : (wr s f i v).flash = s.flash := rfl
@[simp] theorem wr_fuses (s : State) (f : RegField) (i v : Nat) : (wr s f i v).fuses = s.fuses := rfl
@[simp] theorem wr_phase (s : State) (f : RegField) (i v : Nat) : (wr s f i v).phase = s.phase := rfl
@[simp] theorem wr_clock (s : State) (f : RegField) (i v : Nat) : (wr s f i v).clock = s.clock := rfl
@[simp] theorem wr_power (s : State) (f : RegField) (i v : Nat) : (wr s f i v).power = s.power := rfl
@[simp] theorem wr_cores (s : State) (f : RegField) (i v : Nat) : (wr s f i v).cores = s.cores := rfl
@[simp] theorem wr_clusters (s : State) (f : RegField) (i v : Nat) : (wr s f i v).clusters = s.clusters := rfl
@[simp] theorem wr_streams (s : State) (f : RegField) (i v : Nat) : (wr s f i v).streams = s.streams := rfl
@[simp] theorem wr_invalidates (s : State) (f : RegField) (i v : Nat) : (wr s f i v).invalidates = s.invalidates := rfl
@[simp] theorem wr_vds (s : State) (f : RegField) (i v : Nat) : (wr s f i v).vds = s.vds := rfl
@[simp] theorem wr_offers (s : State) (f : RegField) (i v : Nat) : (wr s f i v).offers = s.offers := rfl
@[simp] theorem wr_shs (s : State) (f : RegField) (i v : Nat) : (wr s f i v).shs = s.shs := rfl
@[simp] theorem wr_encReqs (s : State) (f : RegField) (i v : Nat) : (wr s f i v).encReqs = s.encReqs := rfl
@[simp] theorem wr_ves (s : State) (f : RegField) (i v : Nat) : (wr s f i v).ves = s.ves := rfl
@[simp] theorem wr_veWait (s : State) (f : RegField) (i v : Nat) : (wr s f i v).veWait = s.veWait := rfl
@[simp] theorem wr_veGot (s : State) (f : RegField) (i v : Nat) : (wr s f i v).veGot = s.veGot := rfl
@[simp] theorem wr_rings (s : State) (f : RegField) (i v : Nat) : (wr s f i v).rings = s.rings := rfl
@[simp] theorem wr_mgmt (s : State) (f : RegField) (i v : Nat) : (wr s f i v).mgmt = s.mgmt := rfl
@[simp] theorem wr_mqs (s : State) (f : RegField) (i v : Nat) : (wr s f i v).mqs = s.mqs := rfl
@[simp] theorem wr_pools (s : State) (f : RegField) (i v : Nat) : (wr s f i v).pools = s.pools := rfl
@[simp] theorem wr_hostOps (s : State) (f : RegField) (i v : Nat) : (wr s f i v).hostOps = s.hostOps := rfl
@[simp] theorem wr_allocOut (s : State) (f : RegField) (i v : Nat) : (wr s f i v).allocOut = s.allocOut := rfl
@[simp] theorem wr_dma (s : State) (f : RegField) (i v : Nat) : (wr s f i v).dma = s.dma := rfl
@[simp] theorem wr_tags (s : State) (f : RegField) (i v : Nat) : (wr s f i v).tags = s.tags := rfl
@[simp] theorem wr_arb (s : State) (f : RegField) (i v : Nat) : (wr s f i v).arb = s.arb := rfl
@[simp] theorem wr_grants (s : State) (f : RegField) (i v : Nat) : (wr s f i v).grants = s.grants := rfl
@[simp] theorem wr_dramChs (s : State) (f : RegField) (i v : Nat) : (wr s f i v).dramChs = s.dramChs := rfl
@[simp] theorem wr_scrubAt (s : State) (f : RegField) (i v : Nat) : (wr s f i v).scrubAt = s.scrubAt := rfl
@[simp] theorem wr_writeback (s : State) (f : RegField) (i v : Nat) : (wr s f i v).writeback = s.writeback := rfl
@[simp] theorem wr_recordDue (s : State) (f : RegField) (i v : Nat) : (wr s f i v).recordDue = s.recordDue := rfl
@[simp] theorem wr_pci (s : State) (f : RegField) (i v : Nat) : (wr s f i v).pci = s.pci := rfl
@[simp] theorem wr_msix (s : State) (f : RegField) (i v : Nat) : (wr s f i v).msix = s.msix := rfl
@[simp] theorem wr_pba (s : State) (f : RegField) (i v : Nat) : (wr s f i v).pba = s.pba := rfl
@[simp] theorem wr_cpl (s : State) (f : RegField) (i v : Nat) : (wr s f i v).cpl = s.cpl := rfl
@[simp] theorem wr_posted (s : State) (f : RegField) (i v : Nat) : (wr s f i v).posted = s.posted := rfl
@[simp] theorem wr_linkAt (s : State) (f : RegField) (i v : Nat) : (wr s f i v).linkAt = s.linkAt := rfl
@[simp] theorem wr_ltr (s : State) (f : RegField) (i v : Nat) : (wr s f i v).ltr = s.ltr := rfl
@[simp] theorem wr_log (s : State) (f : RegField) (i v : Nat) : (wr s f i v).log = s.log := rfl
@[simp] theorem wr_logQ (s : State) (f : RegField) (i v : Nat) : (wr s f i v).logQ = s.logQ := rfl
@[simp] theorem wr_logLost (s : State) (f : RegField) (i v : Nat) : (wr s f i v).logLost = s.logLost := rfl
@[simp] theorem wr_smbNack (s : State) (f : RegField) (i v : Nat) : (wr s f i v).smbNack = s.smbNack := rfl
@[simp] theorem wr_smbOut (s : State) (f : RegField) (i v : Nat) : (wr s f i v).smbOut = s.smbOut := rfl
@[simp] theorem wr_smbPec (s : State) (f : RegField) (i v : Nat) : (wr s f i v).smbPec = s.smbPec := rfl
@[simp] theorem wr_smbWrote (s : State) (f : RegField) (i v : Nat) : (wr s f i v).smbWrote = s.smbWrote := rfl
@[simp] theorem wr_bistDone (s : State) (f : RegField) (i v : Nat) : (wr s f i v).bistDone = s.bistDone := rfl
@[simp] theorem wr_bistDue (s : State) (f : RegField) (i v : Nat) : (wr s f i v).bistDue = s.bistDue := rfl
@[simp] theorem wr_bistAt (s : State) (f : RegField) (i v : Nat) : (wr s f i v).bistAt = s.bistAt := rfl
@[simp] theorem wr_bistEdge (s : State) (f : RegField) (i v : Nat) : (wr s f i v).bistEdge = s.bistEdge := rfl
@[simp] theorem wr_ddbGen (s : State) (f : RegField) (i v : Nat) : (wr s f i v).ddbGen = s.ddbGen := rfl
@[simp] theorem wr_ddbValid (s : State) (f : RegField) (i v : Nat) : (wr s f i v).ddbValid = s.ddbValid := rfl
@[simp] theorem wr_fwVersion (s : State) (f : RegField) (i v : Nat) : (wr s f i v).fwVersion = s.fwVersion := rfl
@[simp] theorem wr_missing (s : State) (f : RegField) (i v : Nat) : (wr s f i v).missing = s.missing := rfl
@[simp] theorem wr_tap (s : State) (f : RegField) (i v : Nat) : (wr s f i v).tap = s.tap := rfl
@[simp] theorem wr_order (s : State) (f : RegField) (i v : Nat) : (wr s f i v).order = s.order := rfl
@[simp] theorem wr_freeCtr (s : State) (f : RegField) (i v : Nat) : (wr s f i v).freeCtr = s.freeCtr := rfl
@[simp] theorem wr_pending (s : State) (f : RegField) (i v : Nat) : (wr s f i v).pending = s.pending := rfl

/-! ## `wrb` -/

@[simp] theorem wrb_regs (s : State) (f : RegField) (i : Nat) (b : Bool) : (wrb s f i b).regs = storeSet (regReset s f i) s.regs (regKey f i) (b2n b % 2 ^ f.width) := rfl
@[simp] theorem wrb_halfW (s : State) (f : RegField) (i : Nat) (b : Bool) : (wrb s f i b).halfW = s.halfW := rfl
@[simp] theorem wrb_halfR (s : State) (f : RegField) (i : Nat) (b : Bool) : (wrb s f i b).halfR = s.halfR := rfl
@[simp] theorem wrb_mem (s : State) (f : RegField) (i : Nat) (b : Bool) : (wrb s f i b).mem = s.mem := rfl
@[simp] theorem wrb_ecc (s : State) (f : RegField) (i : Nat) (b : Bool) : (wrb s f i b).ecc = s.ecc := rfl
@[simp] theorem wrb_hostMem (s : State) (f : RegField) (i : Nat) (b : Bool) : (wrb s f i b).hostMem = s.hostMem := rfl
@[simp] theorem wrb_hidden (s : State) (f : RegField) (i : Nat) (b : Bool) : (wrb s f i b).hidden = s.hidden := rfl
@[simp] theorem wrb_hiddenCe (s : State) (f : RegField) (i : Nat) (b : Bool) : (wrb s f i b).hiddenCe = s.hiddenCe := rfl
@[simp] theorem wrb_stallSeen (s : State) (f : RegField) (i : Nat) (b : Bool) : (wrb s f i b).stallSeen = s.stallSeen := rfl
@[simp] theorem wrb_flash (s : State) (f : RegField) (i : Nat) (b : Bool) : (wrb s f i b).flash = s.flash := rfl
@[simp] theorem wrb_fuses (s : State) (f : RegField) (i : Nat) (b : Bool) : (wrb s f i b).fuses = s.fuses := rfl
@[simp] theorem wrb_phase (s : State) (f : RegField) (i : Nat) (b : Bool) : (wrb s f i b).phase = s.phase := rfl
@[simp] theorem wrb_clock (s : State) (f : RegField) (i : Nat) (b : Bool) : (wrb s f i b).clock = s.clock := rfl
@[simp] theorem wrb_power (s : State) (f : RegField) (i : Nat) (b : Bool) : (wrb s f i b).power = s.power := rfl
@[simp] theorem wrb_cores (s : State) (f : RegField) (i : Nat) (b : Bool) : (wrb s f i b).cores = s.cores := rfl
@[simp] theorem wrb_clusters (s : State) (f : RegField) (i : Nat) (b : Bool) : (wrb s f i b).clusters = s.clusters := rfl
@[simp] theorem wrb_streams (s : State) (f : RegField) (i : Nat) (b : Bool) : (wrb s f i b).streams = s.streams := rfl
@[simp] theorem wrb_invalidates (s : State) (f : RegField) (i : Nat) (b : Bool) : (wrb s f i b).invalidates = s.invalidates := rfl
@[simp] theorem wrb_vds (s : State) (f : RegField) (i : Nat) (b : Bool) : (wrb s f i b).vds = s.vds := rfl
@[simp] theorem wrb_offers (s : State) (f : RegField) (i : Nat) (b : Bool) : (wrb s f i b).offers = s.offers := rfl
@[simp] theorem wrb_shs (s : State) (f : RegField) (i : Nat) (b : Bool) : (wrb s f i b).shs = s.shs := rfl
@[simp] theorem wrb_encReqs (s : State) (f : RegField) (i : Nat) (b : Bool) : (wrb s f i b).encReqs = s.encReqs := rfl
@[simp] theorem wrb_ves (s : State) (f : RegField) (i : Nat) (b : Bool) : (wrb s f i b).ves = s.ves := rfl
@[simp] theorem wrb_veWait (s : State) (f : RegField) (i : Nat) (b : Bool) : (wrb s f i b).veWait = s.veWait := rfl
@[simp] theorem wrb_veGot (s : State) (f : RegField) (i : Nat) (b : Bool) : (wrb s f i b).veGot = s.veGot := rfl
@[simp] theorem wrb_rings (s : State) (f : RegField) (i : Nat) (b : Bool) : (wrb s f i b).rings = s.rings := rfl
@[simp] theorem wrb_mgmt (s : State) (f : RegField) (i : Nat) (b : Bool) : (wrb s f i b).mgmt = s.mgmt := rfl
@[simp] theorem wrb_mqs (s : State) (f : RegField) (i : Nat) (b : Bool) : (wrb s f i b).mqs = s.mqs := rfl
@[simp] theorem wrb_pools (s : State) (f : RegField) (i : Nat) (b : Bool) : (wrb s f i b).pools = s.pools := rfl
@[simp] theorem wrb_hostOps (s : State) (f : RegField) (i : Nat) (b : Bool) : (wrb s f i b).hostOps = s.hostOps := rfl
@[simp] theorem wrb_allocOut (s : State) (f : RegField) (i : Nat) (b : Bool) : (wrb s f i b).allocOut = s.allocOut := rfl
@[simp] theorem wrb_dma (s : State) (f : RegField) (i : Nat) (b : Bool) : (wrb s f i b).dma = s.dma := rfl
@[simp] theorem wrb_tags (s : State) (f : RegField) (i : Nat) (b : Bool) : (wrb s f i b).tags = s.tags := rfl
@[simp] theorem wrb_arb (s : State) (f : RegField) (i : Nat) (b : Bool) : (wrb s f i b).arb = s.arb := rfl
@[simp] theorem wrb_grants (s : State) (f : RegField) (i : Nat) (b : Bool) : (wrb s f i b).grants = s.grants := rfl
@[simp] theorem wrb_dramChs (s : State) (f : RegField) (i : Nat) (b : Bool) : (wrb s f i b).dramChs = s.dramChs := rfl
@[simp] theorem wrb_scrubAt (s : State) (f : RegField) (i : Nat) (b : Bool) : (wrb s f i b).scrubAt = s.scrubAt := rfl
@[simp] theorem wrb_writeback (s : State) (f : RegField) (i : Nat) (b : Bool) : (wrb s f i b).writeback = s.writeback := rfl
@[simp] theorem wrb_recordDue (s : State) (f : RegField) (i : Nat) (b : Bool) : (wrb s f i b).recordDue = s.recordDue := rfl
@[simp] theorem wrb_pci (s : State) (f : RegField) (i : Nat) (b : Bool) : (wrb s f i b).pci = s.pci := rfl
@[simp] theorem wrb_msix (s : State) (f : RegField) (i : Nat) (b : Bool) : (wrb s f i b).msix = s.msix := rfl
@[simp] theorem wrb_pba (s : State) (f : RegField) (i : Nat) (b : Bool) : (wrb s f i b).pba = s.pba := rfl
@[simp] theorem wrb_cpl (s : State) (f : RegField) (i : Nat) (b : Bool) : (wrb s f i b).cpl = s.cpl := rfl
@[simp] theorem wrb_posted (s : State) (f : RegField) (i : Nat) (b : Bool) : (wrb s f i b).posted = s.posted := rfl
@[simp] theorem wrb_linkAt (s : State) (f : RegField) (i : Nat) (b : Bool) : (wrb s f i b).linkAt = s.linkAt := rfl
@[simp] theorem wrb_ltr (s : State) (f : RegField) (i : Nat) (b : Bool) : (wrb s f i b).ltr = s.ltr := rfl
@[simp] theorem wrb_log (s : State) (f : RegField) (i : Nat) (b : Bool) : (wrb s f i b).log = s.log := rfl
@[simp] theorem wrb_logQ (s : State) (f : RegField) (i : Nat) (b : Bool) : (wrb s f i b).logQ = s.logQ := rfl
@[simp] theorem wrb_logLost (s : State) (f : RegField) (i : Nat) (b : Bool) : (wrb s f i b).logLost = s.logLost := rfl
@[simp] theorem wrb_smbNack (s : State) (f : RegField) (i : Nat) (b : Bool) : (wrb s f i b).smbNack = s.smbNack := rfl
@[simp] theorem wrb_smbOut (s : State) (f : RegField) (i : Nat) (b : Bool) : (wrb s f i b).smbOut = s.smbOut := rfl
@[simp] theorem wrb_smbPec (s : State) (f : RegField) (i : Nat) (b : Bool) : (wrb s f i b).smbPec = s.smbPec := rfl
@[simp] theorem wrb_smbWrote (s : State) (f : RegField) (i : Nat) (b : Bool) : (wrb s f i b).smbWrote = s.smbWrote := rfl
@[simp] theorem wrb_bistDone (s : State) (f : RegField) (i : Nat) (b : Bool) : (wrb s f i b).bistDone = s.bistDone := rfl
@[simp] theorem wrb_bistDue (s : State) (f : RegField) (i : Nat) (b : Bool) : (wrb s f i b).bistDue = s.bistDue := rfl
@[simp] theorem wrb_bistAt (s : State) (f : RegField) (i : Nat) (b : Bool) : (wrb s f i b).bistAt = s.bistAt := rfl
@[simp] theorem wrb_bistEdge (s : State) (f : RegField) (i : Nat) (b : Bool) : (wrb s f i b).bistEdge = s.bistEdge := rfl
@[simp] theorem wrb_ddbGen (s : State) (f : RegField) (i : Nat) (b : Bool) : (wrb s f i b).ddbGen = s.ddbGen := rfl
@[simp] theorem wrb_ddbValid (s : State) (f : RegField) (i : Nat) (b : Bool) : (wrb s f i b).ddbValid = s.ddbValid := rfl
@[simp] theorem wrb_fwVersion (s : State) (f : RegField) (i : Nat) (b : Bool) : (wrb s f i b).fwVersion = s.fwVersion := rfl
@[simp] theorem wrb_missing (s : State) (f : RegField) (i : Nat) (b : Bool) : (wrb s f i b).missing = s.missing := rfl
@[simp] theorem wrb_tap (s : State) (f : RegField) (i : Nat) (b : Bool) : (wrb s f i b).tap = s.tap := rfl
@[simp] theorem wrb_order (s : State) (f : RegField) (i : Nat) (b : Bool) : (wrb s f i b).order = s.order := rfl
@[simp] theorem wrb_freeCtr (s : State) (f : RegField) (i : Nat) (b : Bool) : (wrb s f i b).freeCtr = s.freeCtr := rfl
@[simp] theorem wrb_pending (s : State) (f : RegField) (i : Nat) (b : Bool) : (wrb s f i b).pending = s.pending := rfl

/-! ## `modCore` -/

@[simp] theorem modCore_regs (s : State) (n : Fin 16) (f : Core → Core) : (modCore s n f).regs = s.regs := rfl
@[simp] theorem modCore_halfW (s : State) (n : Fin 16) (f : Core → Core) : (modCore s n f).halfW = s.halfW := rfl
@[simp] theorem modCore_halfR (s : State) (n : Fin 16) (f : Core → Core) : (modCore s n f).halfR = s.halfR := rfl
@[simp] theorem modCore_mem (s : State) (n : Fin 16) (f : Core → Core) : (modCore s n f).mem = s.mem := rfl
@[simp] theorem modCore_ecc (s : State) (n : Fin 16) (f : Core → Core) : (modCore s n f).ecc = s.ecc := rfl
@[simp] theorem modCore_hostMem (s : State) (n : Fin 16) (f : Core → Core) : (modCore s n f).hostMem = s.hostMem := rfl
@[simp] theorem modCore_hidden (s : State) (n : Fin 16) (f : Core → Core) : (modCore s n f).hidden = s.hidden := rfl
@[simp] theorem modCore_hiddenCe (s : State) (n : Fin 16) (f : Core → Core) : (modCore s n f).hiddenCe = s.hiddenCe := rfl
@[simp] theorem modCore_stallSeen (s : State) (n : Fin 16) (f : Core → Core) : (modCore s n f).stallSeen = s.stallSeen := rfl
@[simp] theorem modCore_flash (s : State) (n : Fin 16) (f : Core → Core) : (modCore s n f).flash = s.flash := rfl
@[simp] theorem modCore_fuses (s : State) (n : Fin 16) (f : Core → Core) : (modCore s n f).fuses = s.fuses := rfl
@[simp] theorem modCore_phase (s : State) (n : Fin 16) (f : Core → Core) : (modCore s n f).phase = s.phase := rfl
@[simp] theorem modCore_clock (s : State) (n : Fin 16) (f : Core → Core) : (modCore s n f).clock = s.clock := rfl
@[simp] theorem modCore_power (s : State) (n : Fin 16) (f : Core → Core) : (modCore s n f).power = s.power := rfl
@[simp] theorem modCore_cores (s : State) (n : Fin 16) (f : Core → Core) : (modCore s n f).cores = s.cores.set n (f s.cores[n]) := rfl
@[simp] theorem modCore_clusters (s : State) (n : Fin 16) (f : Core → Core) : (modCore s n f).clusters = s.clusters := rfl
@[simp] theorem modCore_streams (s : State) (n : Fin 16) (f : Core → Core) : (modCore s n f).streams = s.streams := rfl
@[simp] theorem modCore_invalidates (s : State) (n : Fin 16) (f : Core → Core) : (modCore s n f).invalidates = s.invalidates := rfl
@[simp] theorem modCore_vds (s : State) (n : Fin 16) (f : Core → Core) : (modCore s n f).vds = s.vds := rfl
@[simp] theorem modCore_offers (s : State) (n : Fin 16) (f : Core → Core) : (modCore s n f).offers = s.offers := rfl
@[simp] theorem modCore_shs (s : State) (n : Fin 16) (f : Core → Core) : (modCore s n f).shs = s.shs := rfl
@[simp] theorem modCore_encReqs (s : State) (n : Fin 16) (f : Core → Core) : (modCore s n f).encReqs = s.encReqs := rfl
@[simp] theorem modCore_ves (s : State) (n : Fin 16) (f : Core → Core) : (modCore s n f).ves = s.ves := rfl
@[simp] theorem modCore_veWait (s : State) (n : Fin 16) (f : Core → Core) : (modCore s n f).veWait = s.veWait := rfl
@[simp] theorem modCore_veGot (s : State) (n : Fin 16) (f : Core → Core) : (modCore s n f).veGot = s.veGot := rfl
@[simp] theorem modCore_rings (s : State) (n : Fin 16) (f : Core → Core) : (modCore s n f).rings = s.rings := rfl
@[simp] theorem modCore_mgmt (s : State) (n : Fin 16) (f : Core → Core) : (modCore s n f).mgmt = s.mgmt := rfl
@[simp] theorem modCore_mqs (s : State) (n : Fin 16) (f : Core → Core) : (modCore s n f).mqs = s.mqs := rfl
@[simp] theorem modCore_pools (s : State) (n : Fin 16) (f : Core → Core) : (modCore s n f).pools = s.pools := rfl
@[simp] theorem modCore_hostOps (s : State) (n : Fin 16) (f : Core → Core) : (modCore s n f).hostOps = s.hostOps := rfl
@[simp] theorem modCore_allocOut (s : State) (n : Fin 16) (f : Core → Core) : (modCore s n f).allocOut = s.allocOut := rfl
@[simp] theorem modCore_dma (s : State) (n : Fin 16) (f : Core → Core) : (modCore s n f).dma = s.dma := rfl
@[simp] theorem modCore_tags (s : State) (n : Fin 16) (f : Core → Core) : (modCore s n f).tags = s.tags := rfl
@[simp] theorem modCore_arb (s : State) (n : Fin 16) (f : Core → Core) : (modCore s n f).arb = s.arb := rfl
@[simp] theorem modCore_grants (s : State) (n : Fin 16) (f : Core → Core) : (modCore s n f).grants = s.grants := rfl
@[simp] theorem modCore_dramChs (s : State) (n : Fin 16) (f : Core → Core) : (modCore s n f).dramChs = s.dramChs := rfl
@[simp] theorem modCore_scrubAt (s : State) (n : Fin 16) (f : Core → Core) : (modCore s n f).scrubAt = s.scrubAt := rfl
@[simp] theorem modCore_writeback (s : State) (n : Fin 16) (f : Core → Core) : (modCore s n f).writeback = s.writeback := rfl
@[simp] theorem modCore_recordDue (s : State) (n : Fin 16) (f : Core → Core) : (modCore s n f).recordDue = s.recordDue := rfl
@[simp] theorem modCore_pci (s : State) (n : Fin 16) (f : Core → Core) : (modCore s n f).pci = s.pci := rfl
@[simp] theorem modCore_msix (s : State) (n : Fin 16) (f : Core → Core) : (modCore s n f).msix = s.msix := rfl
@[simp] theorem modCore_pba (s : State) (n : Fin 16) (f : Core → Core) : (modCore s n f).pba = s.pba := rfl
@[simp] theorem modCore_cpl (s : State) (n : Fin 16) (f : Core → Core) : (modCore s n f).cpl = s.cpl := rfl
@[simp] theorem modCore_posted (s : State) (n : Fin 16) (f : Core → Core) : (modCore s n f).posted = s.posted := rfl
@[simp] theorem modCore_linkAt (s : State) (n : Fin 16) (f : Core → Core) : (modCore s n f).linkAt = s.linkAt := rfl
@[simp] theorem modCore_ltr (s : State) (n : Fin 16) (f : Core → Core) : (modCore s n f).ltr = s.ltr := rfl
@[simp] theorem modCore_log (s : State) (n : Fin 16) (f : Core → Core) : (modCore s n f).log = s.log := rfl
@[simp] theorem modCore_logQ (s : State) (n : Fin 16) (f : Core → Core) : (modCore s n f).logQ = s.logQ := rfl
@[simp] theorem modCore_logLost (s : State) (n : Fin 16) (f : Core → Core) : (modCore s n f).logLost = s.logLost := rfl
@[simp] theorem modCore_smbNack (s : State) (n : Fin 16) (f : Core → Core) : (modCore s n f).smbNack = s.smbNack := rfl
@[simp] theorem modCore_smbOut (s : State) (n : Fin 16) (f : Core → Core) : (modCore s n f).smbOut = s.smbOut := rfl
@[simp] theorem modCore_smbPec (s : State) (n : Fin 16) (f : Core → Core) : (modCore s n f).smbPec = s.smbPec := rfl
@[simp] theorem modCore_smbWrote (s : State) (n : Fin 16) (f : Core → Core) : (modCore s n f).smbWrote = s.smbWrote := rfl
@[simp] theorem modCore_bistDone (s : State) (n : Fin 16) (f : Core → Core) : (modCore s n f).bistDone = s.bistDone := rfl
@[simp] theorem modCore_bistDue (s : State) (n : Fin 16) (f : Core → Core) : (modCore s n f).bistDue = s.bistDue := rfl
@[simp] theorem modCore_bistAt (s : State) (n : Fin 16) (f : Core → Core) : (modCore s n f).bistAt = s.bistAt := rfl
@[simp] theorem modCore_bistEdge (s : State) (n : Fin 16) (f : Core → Core) : (modCore s n f).bistEdge = s.bistEdge := rfl
@[simp] theorem modCore_ddbGen (s : State) (n : Fin 16) (f : Core → Core) : (modCore s n f).ddbGen = s.ddbGen := rfl
@[simp] theorem modCore_ddbValid (s : State) (n : Fin 16) (f : Core → Core) : (modCore s n f).ddbValid = s.ddbValid := rfl
@[simp] theorem modCore_fwVersion (s : State) (n : Fin 16) (f : Core → Core) : (modCore s n f).fwVersion = s.fwVersion := rfl
@[simp] theorem modCore_missing (s : State) (n : Fin 16) (f : Core → Core) : (modCore s n f).missing = s.missing := rfl
@[simp] theorem modCore_tap (s : State) (n : Fin 16) (f : Core → Core) : (modCore s n f).tap = s.tap := rfl
@[simp] theorem modCore_order (s : State) (n : Fin 16) (f : Core → Core) : (modCore s n f).order = s.order := rfl
@[simp] theorem modCore_freeCtr (s : State) (n : Fin 16) (f : Core → Core) : (modCore s n f).freeCtr = s.freeCtr := rfl
@[simp] theorem modCore_pending (s : State) (n : Fin 16) (f : Core → Core) : (modCore s n f).pending = s.pending := rfl
@[simp] theorem rd_modCore (s : State) (n : Fin 16) (f : Core → Core) (g : RegField) (j : Nat) : rd (modCore s n f) g j = rd s g j := rfl

/-! ## `modCluster` -/

@[simp] theorem modCluster_regs (s : State) (c : Fin 4) (f : Cluster → Cluster) : (modCluster s c f).regs = s.regs := rfl
@[simp] theorem modCluster_halfW (s : State) (c : Fin 4) (f : Cluster → Cluster) : (modCluster s c f).halfW = s.halfW := rfl
@[simp] theorem modCluster_halfR (s : State) (c : Fin 4) (f : Cluster → Cluster) : (modCluster s c f).halfR = s.halfR := rfl
@[simp] theorem modCluster_mem (s : State) (c : Fin 4) (f : Cluster → Cluster) : (modCluster s c f).mem = s.mem := rfl
@[simp] theorem modCluster_ecc (s : State) (c : Fin 4) (f : Cluster → Cluster) : (modCluster s c f).ecc = s.ecc := rfl
@[simp] theorem modCluster_hostMem (s : State) (c : Fin 4) (f : Cluster → Cluster) : (modCluster s c f).hostMem = s.hostMem := rfl
@[simp] theorem modCluster_hidden (s : State) (c : Fin 4) (f : Cluster → Cluster) : (modCluster s c f).hidden = s.hidden := rfl
@[simp] theorem modCluster_hiddenCe (s : State) (c : Fin 4) (f : Cluster → Cluster) : (modCluster s c f).hiddenCe = s.hiddenCe := rfl
@[simp] theorem modCluster_stallSeen (s : State) (c : Fin 4) (f : Cluster → Cluster) : (modCluster s c f).stallSeen = s.stallSeen := rfl
@[simp] theorem modCluster_flash (s : State) (c : Fin 4) (f : Cluster → Cluster) : (modCluster s c f).flash = s.flash := rfl
@[simp] theorem modCluster_fuses (s : State) (c : Fin 4) (f : Cluster → Cluster) : (modCluster s c f).fuses = s.fuses := rfl
@[simp] theorem modCluster_phase (s : State) (c : Fin 4) (f : Cluster → Cluster) : (modCluster s c f).phase = s.phase := rfl
@[simp] theorem modCluster_clock (s : State) (c : Fin 4) (f : Cluster → Cluster) : (modCluster s c f).clock = s.clock := rfl
@[simp] theorem modCluster_power (s : State) (c : Fin 4) (f : Cluster → Cluster) : (modCluster s c f).power = s.power := rfl
@[simp] theorem modCluster_cores (s : State) (c : Fin 4) (f : Cluster → Cluster) : (modCluster s c f).cores = s.cores := rfl
@[simp] theorem modCluster_clusters (s : State) (c : Fin 4) (f : Cluster → Cluster) : (modCluster s c f).clusters = s.clusters.set c (f s.clusters[c]) := rfl
@[simp] theorem modCluster_streams (s : State) (c : Fin 4) (f : Cluster → Cluster) : (modCluster s c f).streams = s.streams := rfl
@[simp] theorem modCluster_invalidates (s : State) (c : Fin 4) (f : Cluster → Cluster) : (modCluster s c f).invalidates = s.invalidates := rfl
@[simp] theorem modCluster_vds (s : State) (c : Fin 4) (f : Cluster → Cluster) : (modCluster s c f).vds = s.vds := rfl
@[simp] theorem modCluster_offers (s : State) (c : Fin 4) (f : Cluster → Cluster) : (modCluster s c f).offers = s.offers := rfl
@[simp] theorem modCluster_shs (s : State) (c : Fin 4) (f : Cluster → Cluster) : (modCluster s c f).shs = s.shs := rfl
@[simp] theorem modCluster_encReqs (s : State) (c : Fin 4) (f : Cluster → Cluster) : (modCluster s c f).encReqs = s.encReqs := rfl
@[simp] theorem modCluster_ves (s : State) (c : Fin 4) (f : Cluster → Cluster) : (modCluster s c f).ves = s.ves := rfl
@[simp] theorem modCluster_veWait (s : State) (c : Fin 4) (f : Cluster → Cluster) : (modCluster s c f).veWait = s.veWait := rfl
@[simp] theorem modCluster_veGot (s : State) (c : Fin 4) (f : Cluster → Cluster) : (modCluster s c f).veGot = s.veGot := rfl
@[simp] theorem modCluster_rings (s : State) (c : Fin 4) (f : Cluster → Cluster) : (modCluster s c f).rings = s.rings := rfl
@[simp] theorem modCluster_mgmt (s : State) (c : Fin 4) (f : Cluster → Cluster) : (modCluster s c f).mgmt = s.mgmt := rfl
@[simp] theorem modCluster_mqs (s : State) (c : Fin 4) (f : Cluster → Cluster) : (modCluster s c f).mqs = s.mqs := rfl
@[simp] theorem modCluster_pools (s : State) (c : Fin 4) (f : Cluster → Cluster) : (modCluster s c f).pools = s.pools := rfl
@[simp] theorem modCluster_hostOps (s : State) (c : Fin 4) (f : Cluster → Cluster) : (modCluster s c f).hostOps = s.hostOps := rfl
@[simp] theorem modCluster_allocOut (s : State) (c : Fin 4) (f : Cluster → Cluster) : (modCluster s c f).allocOut = s.allocOut := rfl
@[simp] theorem modCluster_dma (s : State) (c : Fin 4) (f : Cluster → Cluster) : (modCluster s c f).dma = s.dma := rfl
@[simp] theorem modCluster_tags (s : State) (c : Fin 4) (f : Cluster → Cluster) : (modCluster s c f).tags = s.tags := rfl
@[simp] theorem modCluster_arb (s : State) (c : Fin 4) (f : Cluster → Cluster) : (modCluster s c f).arb = s.arb := rfl
@[simp] theorem modCluster_grants (s : State) (c : Fin 4) (f : Cluster → Cluster) : (modCluster s c f).grants = s.grants := rfl
@[simp] theorem modCluster_dramChs (s : State) (c : Fin 4) (f : Cluster → Cluster) : (modCluster s c f).dramChs = s.dramChs := rfl
@[simp] theorem modCluster_scrubAt (s : State) (c : Fin 4) (f : Cluster → Cluster) : (modCluster s c f).scrubAt = s.scrubAt := rfl
@[simp] theorem modCluster_writeback (s : State) (c : Fin 4) (f : Cluster → Cluster) : (modCluster s c f).writeback = s.writeback := rfl
@[simp] theorem modCluster_recordDue (s : State) (c : Fin 4) (f : Cluster → Cluster) : (modCluster s c f).recordDue = s.recordDue := rfl
@[simp] theorem modCluster_pci (s : State) (c : Fin 4) (f : Cluster → Cluster) : (modCluster s c f).pci = s.pci := rfl
@[simp] theorem modCluster_msix (s : State) (c : Fin 4) (f : Cluster → Cluster) : (modCluster s c f).msix = s.msix := rfl
@[simp] theorem modCluster_pba (s : State) (c : Fin 4) (f : Cluster → Cluster) : (modCluster s c f).pba = s.pba := rfl
@[simp] theorem modCluster_cpl (s : State) (c : Fin 4) (f : Cluster → Cluster) : (modCluster s c f).cpl = s.cpl := rfl
@[simp] theorem modCluster_posted (s : State) (c : Fin 4) (f : Cluster → Cluster) : (modCluster s c f).posted = s.posted := rfl
@[simp] theorem modCluster_linkAt (s : State) (c : Fin 4) (f : Cluster → Cluster) : (modCluster s c f).linkAt = s.linkAt := rfl
@[simp] theorem modCluster_ltr (s : State) (c : Fin 4) (f : Cluster → Cluster) : (modCluster s c f).ltr = s.ltr := rfl
@[simp] theorem modCluster_log (s : State) (c : Fin 4) (f : Cluster → Cluster) : (modCluster s c f).log = s.log := rfl
@[simp] theorem modCluster_logQ (s : State) (c : Fin 4) (f : Cluster → Cluster) : (modCluster s c f).logQ = s.logQ := rfl
@[simp] theorem modCluster_logLost (s : State) (c : Fin 4) (f : Cluster → Cluster) : (modCluster s c f).logLost = s.logLost := rfl
@[simp] theorem modCluster_smbNack (s : State) (c : Fin 4) (f : Cluster → Cluster) : (modCluster s c f).smbNack = s.smbNack := rfl
@[simp] theorem modCluster_smbOut (s : State) (c : Fin 4) (f : Cluster → Cluster) : (modCluster s c f).smbOut = s.smbOut := rfl
@[simp] theorem modCluster_smbPec (s : State) (c : Fin 4) (f : Cluster → Cluster) : (modCluster s c f).smbPec = s.smbPec := rfl
@[simp] theorem modCluster_smbWrote (s : State) (c : Fin 4) (f : Cluster → Cluster) : (modCluster s c f).smbWrote = s.smbWrote := rfl
@[simp] theorem modCluster_bistDone (s : State) (c : Fin 4) (f : Cluster → Cluster) : (modCluster s c f).bistDone = s.bistDone := rfl
@[simp] theorem modCluster_bistDue (s : State) (c : Fin 4) (f : Cluster → Cluster) : (modCluster s c f).bistDue = s.bistDue := rfl
@[simp] theorem modCluster_bistAt (s : State) (c : Fin 4) (f : Cluster → Cluster) : (modCluster s c f).bistAt = s.bistAt := rfl
@[simp] theorem modCluster_bistEdge (s : State) (c : Fin 4) (f : Cluster → Cluster) : (modCluster s c f).bistEdge = s.bistEdge := rfl
@[simp] theorem modCluster_ddbGen (s : State) (c : Fin 4) (f : Cluster → Cluster) : (modCluster s c f).ddbGen = s.ddbGen := rfl
@[simp] theorem modCluster_ddbValid (s : State) (c : Fin 4) (f : Cluster → Cluster) : (modCluster s c f).ddbValid = s.ddbValid := rfl
@[simp] theorem modCluster_fwVersion (s : State) (c : Fin 4) (f : Cluster → Cluster) : (modCluster s c f).fwVersion = s.fwVersion := rfl
@[simp] theorem modCluster_missing (s : State) (c : Fin 4) (f : Cluster → Cluster) : (modCluster s c f).missing = s.missing := rfl
@[simp] theorem modCluster_tap (s : State) (c : Fin 4) (f : Cluster → Cluster) : (modCluster s c f).tap = s.tap := rfl
@[simp] theorem modCluster_order (s : State) (c : Fin 4) (f : Cluster → Cluster) : (modCluster s c f).order = s.order := rfl
@[simp] theorem modCluster_freeCtr (s : State) (c : Fin 4) (f : Cluster → Cluster) : (modCluster s c f).freeCtr = s.freeCtr := rfl
@[simp] theorem modCluster_pending (s : State) (c : Fin 4) (f : Cluster → Cluster) : (modCluster s c f).pending = s.pending := rfl
@[simp] theorem rd_modCluster (s : State) (c : Fin 4) (f : Cluster → Cluster) (g : RegField) (j : Nat) : rd (modCluster s c f) g j = rd s g j := rfl

/-! ## `modBq` -/

@[simp] theorem modBq_regs (s : State) (c q : Fin 4) (f : Bq → Bq) : (modBq s c q f).regs = s.regs := rfl
@[simp] theorem modBq_halfW (s : State) (c q : Fin 4) (f : Bq → Bq) : (modBq s c q f).halfW = s.halfW := rfl
@[simp] theorem modBq_halfR (s : State) (c q : Fin 4) (f : Bq → Bq) : (modBq s c q f).halfR = s.halfR := rfl
@[simp] theorem modBq_mem (s : State) (c q : Fin 4) (f : Bq → Bq) : (modBq s c q f).mem = s.mem := rfl
@[simp] theorem modBq_ecc (s : State) (c q : Fin 4) (f : Bq → Bq) : (modBq s c q f).ecc = s.ecc := rfl
@[simp] theorem modBq_hostMem (s : State) (c q : Fin 4) (f : Bq → Bq) : (modBq s c q f).hostMem = s.hostMem := rfl
@[simp] theorem modBq_hidden (s : State) (c q : Fin 4) (f : Bq → Bq) : (modBq s c q f).hidden = s.hidden := rfl
@[simp] theorem modBq_hiddenCe (s : State) (c q : Fin 4) (f : Bq → Bq) : (modBq s c q f).hiddenCe = s.hiddenCe := rfl
@[simp] theorem modBq_stallSeen (s : State) (c q : Fin 4) (f : Bq → Bq) : (modBq s c q f).stallSeen = s.stallSeen := rfl
@[simp] theorem modBq_flash (s : State) (c q : Fin 4) (f : Bq → Bq) : (modBq s c q f).flash = s.flash := rfl
@[simp] theorem modBq_fuses (s : State) (c q : Fin 4) (f : Bq → Bq) : (modBq s c q f).fuses = s.fuses := rfl
@[simp] theorem modBq_phase (s : State) (c q : Fin 4) (f : Bq → Bq) : (modBq s c q f).phase = s.phase := rfl
@[simp] theorem modBq_clock (s : State) (c q : Fin 4) (f : Bq → Bq) : (modBq s c q f).clock = s.clock := rfl
@[simp] theorem modBq_power (s : State) (c q : Fin 4) (f : Bq → Bq) : (modBq s c q f).power = s.power := rfl
@[simp] theorem modBq_cores (s : State) (c q : Fin 4) (f : Bq → Bq) : (modBq s c q f).cores = s.cores := rfl
@[simp] theorem modBq_streams (s : State) (c q : Fin 4) (f : Bq → Bq) : (modBq s c q f).streams = s.streams := rfl
@[simp] theorem modBq_invalidates (s : State) (c q : Fin 4) (f : Bq → Bq) : (modBq s c q f).invalidates = s.invalidates := rfl
@[simp] theorem modBq_vds (s : State) (c q : Fin 4) (f : Bq → Bq) : (modBq s c q f).vds = s.vds := rfl
@[simp] theorem modBq_offers (s : State) (c q : Fin 4) (f : Bq → Bq) : (modBq s c q f).offers = s.offers := rfl
@[simp] theorem modBq_shs (s : State) (c q : Fin 4) (f : Bq → Bq) : (modBq s c q f).shs = s.shs := rfl
@[simp] theorem modBq_encReqs (s : State) (c q : Fin 4) (f : Bq → Bq) : (modBq s c q f).encReqs = s.encReqs := rfl
@[simp] theorem modBq_ves (s : State) (c q : Fin 4) (f : Bq → Bq) : (modBq s c q f).ves = s.ves := rfl
@[simp] theorem modBq_veWait (s : State) (c q : Fin 4) (f : Bq → Bq) : (modBq s c q f).veWait = s.veWait := rfl
@[simp] theorem modBq_veGot (s : State) (c q : Fin 4) (f : Bq → Bq) : (modBq s c q f).veGot = s.veGot := rfl
@[simp] theorem modBq_rings (s : State) (c q : Fin 4) (f : Bq → Bq) : (modBq s c q f).rings = s.rings := rfl
@[simp] theorem modBq_mgmt (s : State) (c q : Fin 4) (f : Bq → Bq) : (modBq s c q f).mgmt = s.mgmt := rfl
@[simp] theorem modBq_mqs (s : State) (c q : Fin 4) (f : Bq → Bq) : (modBq s c q f).mqs = s.mqs := rfl
@[simp] theorem modBq_pools (s : State) (c q : Fin 4) (f : Bq → Bq) : (modBq s c q f).pools = s.pools := rfl
@[simp] theorem modBq_hostOps (s : State) (c q : Fin 4) (f : Bq → Bq) : (modBq s c q f).hostOps = s.hostOps := rfl
@[simp] theorem modBq_allocOut (s : State) (c q : Fin 4) (f : Bq → Bq) : (modBq s c q f).allocOut = s.allocOut := rfl
@[simp] theorem modBq_dma (s : State) (c q : Fin 4) (f : Bq → Bq) : (modBq s c q f).dma = s.dma := rfl
@[simp] theorem modBq_tags (s : State) (c q : Fin 4) (f : Bq → Bq) : (modBq s c q f).tags = s.tags := rfl
@[simp] theorem modBq_arb (s : State) (c q : Fin 4) (f : Bq → Bq) : (modBq s c q f).arb = s.arb := rfl
@[simp] theorem modBq_grants (s : State) (c q : Fin 4) (f : Bq → Bq) : (modBq s c q f).grants = s.grants := rfl
@[simp] theorem modBq_dramChs (s : State) (c q : Fin 4) (f : Bq → Bq) : (modBq s c q f).dramChs = s.dramChs := rfl
@[simp] theorem modBq_scrubAt (s : State) (c q : Fin 4) (f : Bq → Bq) : (modBq s c q f).scrubAt = s.scrubAt := rfl
@[simp] theorem modBq_writeback (s : State) (c q : Fin 4) (f : Bq → Bq) : (modBq s c q f).writeback = s.writeback := rfl
@[simp] theorem modBq_recordDue (s : State) (c q : Fin 4) (f : Bq → Bq) : (modBq s c q f).recordDue = s.recordDue := rfl
@[simp] theorem modBq_pci (s : State) (c q : Fin 4) (f : Bq → Bq) : (modBq s c q f).pci = s.pci := rfl
@[simp] theorem modBq_msix (s : State) (c q : Fin 4) (f : Bq → Bq) : (modBq s c q f).msix = s.msix := rfl
@[simp] theorem modBq_pba (s : State) (c q : Fin 4) (f : Bq → Bq) : (modBq s c q f).pba = s.pba := rfl
@[simp] theorem modBq_cpl (s : State) (c q : Fin 4) (f : Bq → Bq) : (modBq s c q f).cpl = s.cpl := rfl
@[simp] theorem modBq_posted (s : State) (c q : Fin 4) (f : Bq → Bq) : (modBq s c q f).posted = s.posted := rfl
@[simp] theorem modBq_linkAt (s : State) (c q : Fin 4) (f : Bq → Bq) : (modBq s c q f).linkAt = s.linkAt := rfl
@[simp] theorem modBq_ltr (s : State) (c q : Fin 4) (f : Bq → Bq) : (modBq s c q f).ltr = s.ltr := rfl
@[simp] theorem modBq_log (s : State) (c q : Fin 4) (f : Bq → Bq) : (modBq s c q f).log = s.log := rfl
@[simp] theorem modBq_logQ (s : State) (c q : Fin 4) (f : Bq → Bq) : (modBq s c q f).logQ = s.logQ := rfl
@[simp] theorem modBq_logLost (s : State) (c q : Fin 4) (f : Bq → Bq) : (modBq s c q f).logLost = s.logLost := rfl
@[simp] theorem modBq_smbNack (s : State) (c q : Fin 4) (f : Bq → Bq) : (modBq s c q f).smbNack = s.smbNack := rfl
@[simp] theorem modBq_smbOut (s : State) (c q : Fin 4) (f : Bq → Bq) : (modBq s c q f).smbOut = s.smbOut := rfl
@[simp] theorem modBq_smbPec (s : State) (c q : Fin 4) (f : Bq → Bq) : (modBq s c q f).smbPec = s.smbPec := rfl
@[simp] theorem modBq_smbWrote (s : State) (c q : Fin 4) (f : Bq → Bq) : (modBq s c q f).smbWrote = s.smbWrote := rfl
@[simp] theorem modBq_bistDone (s : State) (c q : Fin 4) (f : Bq → Bq) : (modBq s c q f).bistDone = s.bistDone := rfl
@[simp] theorem modBq_bistDue (s : State) (c q : Fin 4) (f : Bq → Bq) : (modBq s c q f).bistDue = s.bistDue := rfl
@[simp] theorem modBq_bistAt (s : State) (c q : Fin 4) (f : Bq → Bq) : (modBq s c q f).bistAt = s.bistAt := rfl
@[simp] theorem modBq_bistEdge (s : State) (c q : Fin 4) (f : Bq → Bq) : (modBq s c q f).bistEdge = s.bistEdge := rfl
@[simp] theorem modBq_ddbGen (s : State) (c q : Fin 4) (f : Bq → Bq) : (modBq s c q f).ddbGen = s.ddbGen := rfl
@[simp] theorem modBq_ddbValid (s : State) (c q : Fin 4) (f : Bq → Bq) : (modBq s c q f).ddbValid = s.ddbValid := rfl
@[simp] theorem modBq_fwVersion (s : State) (c q : Fin 4) (f : Bq → Bq) : (modBq s c q f).fwVersion = s.fwVersion := rfl
@[simp] theorem modBq_missing (s : State) (c q : Fin 4) (f : Bq → Bq) : (modBq s c q f).missing = s.missing := rfl
@[simp] theorem modBq_tap (s : State) (c q : Fin 4) (f : Bq → Bq) : (modBq s c q f).tap = s.tap := rfl
@[simp] theorem modBq_order (s : State) (c q : Fin 4) (f : Bq → Bq) : (modBq s c q f).order = s.order := rfl
@[simp] theorem modBq_freeCtr (s : State) (c q : Fin 4) (f : Bq → Bq) : (modBq s c q f).freeCtr = s.freeCtr := rfl
@[simp] theorem modBq_pending (s : State) (c q : Fin 4) (f : Bq → Bq) : (modBq s c q f).pending = s.pending := rfl
@[simp] theorem rd_modBq (s : State) (c q : Fin 4) (f : Bq → Bq) (g : RegField) (j : Nat) : rd (modBq s c q f) g j = rd s g j := rfl

/-! ## `modArea` -/

@[simp] theorem modArea_regs (s : State) (c q a : Fin 4) (f : Area → Area) : (modArea s c q a f).regs = s.regs := rfl
@[simp] theorem modArea_halfW (s : State) (c q a : Fin 4) (f : Area → Area) : (modArea s c q a f).halfW = s.halfW := rfl
@[simp] theorem modArea_halfR (s : State) (c q a : Fin 4) (f : Area → Area) : (modArea s c q a f).halfR = s.halfR := rfl
@[simp] theorem modArea_mem (s : State) (c q a : Fin 4) (f : Area → Area) : (modArea s c q a f).mem = s.mem := rfl
@[simp] theorem modArea_ecc (s : State) (c q a : Fin 4) (f : Area → Area) : (modArea s c q a f).ecc = s.ecc := rfl
@[simp] theorem modArea_hostMem (s : State) (c q a : Fin 4) (f : Area → Area) : (modArea s c q a f).hostMem = s.hostMem := rfl
@[simp] theorem modArea_hidden (s : State) (c q a : Fin 4) (f : Area → Area) : (modArea s c q a f).hidden = s.hidden := rfl
@[simp] theorem modArea_hiddenCe (s : State) (c q a : Fin 4) (f : Area → Area) : (modArea s c q a f).hiddenCe = s.hiddenCe := rfl
@[simp] theorem modArea_stallSeen (s : State) (c q a : Fin 4) (f : Area → Area) : (modArea s c q a f).stallSeen = s.stallSeen := rfl
@[simp] theorem modArea_flash (s : State) (c q a : Fin 4) (f : Area → Area) : (modArea s c q a f).flash = s.flash := rfl
@[simp] theorem modArea_fuses (s : State) (c q a : Fin 4) (f : Area → Area) : (modArea s c q a f).fuses = s.fuses := rfl
@[simp] theorem modArea_phase (s : State) (c q a : Fin 4) (f : Area → Area) : (modArea s c q a f).phase = s.phase := rfl
@[simp] theorem modArea_clock (s : State) (c q a : Fin 4) (f : Area → Area) : (modArea s c q a f).clock = s.clock := rfl
@[simp] theorem modArea_power (s : State) (c q a : Fin 4) (f : Area → Area) : (modArea s c q a f).power = s.power := rfl
@[simp] theorem modArea_cores (s : State) (c q a : Fin 4) (f : Area → Area) : (modArea s c q a f).cores = s.cores := rfl
@[simp] theorem modArea_streams (s : State) (c q a : Fin 4) (f : Area → Area) : (modArea s c q a f).streams = s.streams := rfl
@[simp] theorem modArea_invalidates (s : State) (c q a : Fin 4) (f : Area → Area) : (modArea s c q a f).invalidates = s.invalidates := rfl
@[simp] theorem modArea_vds (s : State) (c q a : Fin 4) (f : Area → Area) : (modArea s c q a f).vds = s.vds := rfl
@[simp] theorem modArea_offers (s : State) (c q a : Fin 4) (f : Area → Area) : (modArea s c q a f).offers = s.offers := rfl
@[simp] theorem modArea_shs (s : State) (c q a : Fin 4) (f : Area → Area) : (modArea s c q a f).shs = s.shs := rfl
@[simp] theorem modArea_encReqs (s : State) (c q a : Fin 4) (f : Area → Area) : (modArea s c q a f).encReqs = s.encReqs := rfl
@[simp] theorem modArea_ves (s : State) (c q a : Fin 4) (f : Area → Area) : (modArea s c q a f).ves = s.ves := rfl
@[simp] theorem modArea_veWait (s : State) (c q a : Fin 4) (f : Area → Area) : (modArea s c q a f).veWait = s.veWait := rfl
@[simp] theorem modArea_veGot (s : State) (c q a : Fin 4) (f : Area → Area) : (modArea s c q a f).veGot = s.veGot := rfl
@[simp] theorem modArea_rings (s : State) (c q a : Fin 4) (f : Area → Area) : (modArea s c q a f).rings = s.rings := rfl
@[simp] theorem modArea_mgmt (s : State) (c q a : Fin 4) (f : Area → Area) : (modArea s c q a f).mgmt = s.mgmt := rfl
@[simp] theorem modArea_mqs (s : State) (c q a : Fin 4) (f : Area → Area) : (modArea s c q a f).mqs = s.mqs := rfl
@[simp] theorem modArea_pools (s : State) (c q a : Fin 4) (f : Area → Area) : (modArea s c q a f).pools = s.pools := rfl
@[simp] theorem modArea_hostOps (s : State) (c q a : Fin 4) (f : Area → Area) : (modArea s c q a f).hostOps = s.hostOps := rfl
@[simp] theorem modArea_allocOut (s : State) (c q a : Fin 4) (f : Area → Area) : (modArea s c q a f).allocOut = s.allocOut := rfl
@[simp] theorem modArea_dma (s : State) (c q a : Fin 4) (f : Area → Area) : (modArea s c q a f).dma = s.dma := rfl
@[simp] theorem modArea_tags (s : State) (c q a : Fin 4) (f : Area → Area) : (modArea s c q a f).tags = s.tags := rfl
@[simp] theorem modArea_arb (s : State) (c q a : Fin 4) (f : Area → Area) : (modArea s c q a f).arb = s.arb := rfl
@[simp] theorem modArea_grants (s : State) (c q a : Fin 4) (f : Area → Area) : (modArea s c q a f).grants = s.grants := rfl
@[simp] theorem modArea_dramChs (s : State) (c q a : Fin 4) (f : Area → Area) : (modArea s c q a f).dramChs = s.dramChs := rfl
@[simp] theorem modArea_scrubAt (s : State) (c q a : Fin 4) (f : Area → Area) : (modArea s c q a f).scrubAt = s.scrubAt := rfl
@[simp] theorem modArea_writeback (s : State) (c q a : Fin 4) (f : Area → Area) : (modArea s c q a f).writeback = s.writeback := rfl
@[simp] theorem modArea_recordDue (s : State) (c q a : Fin 4) (f : Area → Area) : (modArea s c q a f).recordDue = s.recordDue := rfl
@[simp] theorem modArea_pci (s : State) (c q a : Fin 4) (f : Area → Area) : (modArea s c q a f).pci = s.pci := rfl
@[simp] theorem modArea_msix (s : State) (c q a : Fin 4) (f : Area → Area) : (modArea s c q a f).msix = s.msix := rfl
@[simp] theorem modArea_pba (s : State) (c q a : Fin 4) (f : Area → Area) : (modArea s c q a f).pba = s.pba := rfl
@[simp] theorem modArea_cpl (s : State) (c q a : Fin 4) (f : Area → Area) : (modArea s c q a f).cpl = s.cpl := rfl
@[simp] theorem modArea_posted (s : State) (c q a : Fin 4) (f : Area → Area) : (modArea s c q a f).posted = s.posted := rfl
@[simp] theorem modArea_linkAt (s : State) (c q a : Fin 4) (f : Area → Area) : (modArea s c q a f).linkAt = s.linkAt := rfl
@[simp] theorem modArea_ltr (s : State) (c q a : Fin 4) (f : Area → Area) : (modArea s c q a f).ltr = s.ltr := rfl
@[simp] theorem modArea_log (s : State) (c q a : Fin 4) (f : Area → Area) : (modArea s c q a f).log = s.log := rfl
@[simp] theorem modArea_logQ (s : State) (c q a : Fin 4) (f : Area → Area) : (modArea s c q a f).logQ = s.logQ := rfl
@[simp] theorem modArea_logLost (s : State) (c q a : Fin 4) (f : Area → Area) : (modArea s c q a f).logLost = s.logLost := rfl
@[simp] theorem modArea_smbNack (s : State) (c q a : Fin 4) (f : Area → Area) : (modArea s c q a f).smbNack = s.smbNack := rfl
@[simp] theorem modArea_smbOut (s : State) (c q a : Fin 4) (f : Area → Area) : (modArea s c q a f).smbOut = s.smbOut := rfl
@[simp] theorem modArea_smbPec (s : State) (c q a : Fin 4) (f : Area → Area) : (modArea s c q a f).smbPec = s.smbPec := rfl
@[simp] theorem modArea_smbWrote (s : State) (c q a : Fin 4) (f : Area → Area) : (modArea s c q a f).smbWrote = s.smbWrote := rfl
@[simp] theorem modArea_bistDone (s : State) (c q a : Fin 4) (f : Area → Area) : (modArea s c q a f).bistDone = s.bistDone := rfl
@[simp] theorem modArea_bistDue (s : State) (c q a : Fin 4) (f : Area → Area) : (modArea s c q a f).bistDue = s.bistDue := rfl
@[simp] theorem modArea_bistAt (s : State) (c q a : Fin 4) (f : Area → Area) : (modArea s c q a f).bistAt = s.bistAt := rfl
@[simp] theorem modArea_bistEdge (s : State) (c q a : Fin 4) (f : Area → Area) : (modArea s c q a f).bistEdge = s.bistEdge := rfl
@[simp] theorem modArea_ddbGen (s : State) (c q a : Fin 4) (f : Area → Area) : (modArea s c q a f).ddbGen = s.ddbGen := rfl
@[simp] theorem modArea_ddbValid (s : State) (c q a : Fin 4) (f : Area → Area) : (modArea s c q a f).ddbValid = s.ddbValid := rfl
@[simp] theorem modArea_fwVersion (s : State) (c q a : Fin 4) (f : Area → Area) : (modArea s c q a f).fwVersion = s.fwVersion := rfl
@[simp] theorem modArea_missing (s : State) (c q a : Fin 4) (f : Area → Area) : (modArea s c q a f).missing = s.missing := rfl
@[simp] theorem modArea_tap (s : State) (c q a : Fin 4) (f : Area → Area) : (modArea s c q a f).tap = s.tap := rfl
@[simp] theorem modArea_order (s : State) (c q a : Fin 4) (f : Area → Area) : (modArea s c q a f).order = s.order := rfl
@[simp] theorem modArea_freeCtr (s : State) (c q a : Fin 4) (f : Area → Area) : (modArea s c q a f).freeCtr = s.freeCtr := rfl
@[simp] theorem modArea_pending (s : State) (c q a : Fin 4) (f : Area → Area) : (modArea s c q a f).pending = s.pending := rfl
@[simp] theorem rd_modArea (s : State) (c q a : Fin 4) (f : Area → Area) (g : RegField) (j : Nat) : rd (modArea s c q a f) g j = rd s g j := rfl

/-! ## `modDma` -/

@[simp] theorem modDma_regs (s : State) (k : Fin 64) (f : DmaCh → DmaCh) : (modDma s k f).regs = s.regs := rfl
@[simp] theorem modDma_halfW (s : State) (k : Fin 64) (f : DmaCh → DmaCh) : (modDma s k f).halfW = s.halfW := rfl
@[simp] theorem modDma_halfR (s : State) (k : Fin 64) (f : DmaCh → DmaCh) : (modDma s k f).halfR = s.halfR := rfl
@[simp] theorem modDma_mem (s : State) (k : Fin 64) (f : DmaCh → DmaCh) : (modDma s k f).mem = s.mem := rfl
@[simp] theorem modDma_ecc (s : State) (k : Fin 64) (f : DmaCh → DmaCh) : (modDma s k f).ecc = s.ecc := rfl
@[simp] theorem modDma_hostMem (s : State) (k : Fin 64) (f : DmaCh → DmaCh) : (modDma s k f).hostMem = s.hostMem := rfl
@[simp] theorem modDma_hidden (s : State) (k : Fin 64) (f : DmaCh → DmaCh) : (modDma s k f).hidden = s.hidden := rfl
@[simp] theorem modDma_hiddenCe (s : State) (k : Fin 64) (f : DmaCh → DmaCh) : (modDma s k f).hiddenCe = s.hiddenCe := rfl
@[simp] theorem modDma_stallSeen (s : State) (k : Fin 64) (f : DmaCh → DmaCh) : (modDma s k f).stallSeen = s.stallSeen := rfl
@[simp] theorem modDma_flash (s : State) (k : Fin 64) (f : DmaCh → DmaCh) : (modDma s k f).flash = s.flash := rfl
@[simp] theorem modDma_fuses (s : State) (k : Fin 64) (f : DmaCh → DmaCh) : (modDma s k f).fuses = s.fuses := rfl
@[simp] theorem modDma_phase (s : State) (k : Fin 64) (f : DmaCh → DmaCh) : (modDma s k f).phase = s.phase := rfl
@[simp] theorem modDma_clock (s : State) (k : Fin 64) (f : DmaCh → DmaCh) : (modDma s k f).clock = s.clock := rfl
@[simp] theorem modDma_power (s : State) (k : Fin 64) (f : DmaCh → DmaCh) : (modDma s k f).power = s.power := rfl
@[simp] theorem modDma_cores (s : State) (k : Fin 64) (f : DmaCh → DmaCh) : (modDma s k f).cores = s.cores := rfl
@[simp] theorem modDma_clusters (s : State) (k : Fin 64) (f : DmaCh → DmaCh) : (modDma s k f).clusters = s.clusters := rfl
@[simp] theorem modDma_streams (s : State) (k : Fin 64) (f : DmaCh → DmaCh) : (modDma s k f).streams = s.streams := rfl
@[simp] theorem modDma_invalidates (s : State) (k : Fin 64) (f : DmaCh → DmaCh) : (modDma s k f).invalidates = s.invalidates := rfl
@[simp] theorem modDma_vds (s : State) (k : Fin 64) (f : DmaCh → DmaCh) : (modDma s k f).vds = s.vds := rfl
@[simp] theorem modDma_offers (s : State) (k : Fin 64) (f : DmaCh → DmaCh) : (modDma s k f).offers = s.offers := rfl
@[simp] theorem modDma_shs (s : State) (k : Fin 64) (f : DmaCh → DmaCh) : (modDma s k f).shs = s.shs := rfl
@[simp] theorem modDma_encReqs (s : State) (k : Fin 64) (f : DmaCh → DmaCh) : (modDma s k f).encReqs = s.encReqs := rfl
@[simp] theorem modDma_ves (s : State) (k : Fin 64) (f : DmaCh → DmaCh) : (modDma s k f).ves = s.ves := rfl
@[simp] theorem modDma_veWait (s : State) (k : Fin 64) (f : DmaCh → DmaCh) : (modDma s k f).veWait = s.veWait := rfl
@[simp] theorem modDma_veGot (s : State) (k : Fin 64) (f : DmaCh → DmaCh) : (modDma s k f).veGot = s.veGot := rfl
@[simp] theorem modDma_rings (s : State) (k : Fin 64) (f : DmaCh → DmaCh) : (modDma s k f).rings = s.rings := rfl
@[simp] theorem modDma_mgmt (s : State) (k : Fin 64) (f : DmaCh → DmaCh) : (modDma s k f).mgmt = s.mgmt := rfl
@[simp] theorem modDma_mqs (s : State) (k : Fin 64) (f : DmaCh → DmaCh) : (modDma s k f).mqs = s.mqs := rfl
@[simp] theorem modDma_pools (s : State) (k : Fin 64) (f : DmaCh → DmaCh) : (modDma s k f).pools = s.pools := rfl
@[simp] theorem modDma_hostOps (s : State) (k : Fin 64) (f : DmaCh → DmaCh) : (modDma s k f).hostOps = s.hostOps := rfl
@[simp] theorem modDma_allocOut (s : State) (k : Fin 64) (f : DmaCh → DmaCh) : (modDma s k f).allocOut = s.allocOut := rfl
@[simp] theorem modDma_dma (s : State) (k : Fin 64) (f : DmaCh → DmaCh) : (modDma s k f).dma = s.dma.set k (f s.dma[k]) := rfl
@[simp] theorem modDma_tags (s : State) (k : Fin 64) (f : DmaCh → DmaCh) : (modDma s k f).tags = s.tags := rfl
@[simp] theorem modDma_arb (s : State) (k : Fin 64) (f : DmaCh → DmaCh) : (modDma s k f).arb = s.arb := rfl
@[simp] theorem modDma_grants (s : State) (k : Fin 64) (f : DmaCh → DmaCh) : (modDma s k f).grants = s.grants := rfl
@[simp] theorem modDma_dramChs (s : State) (k : Fin 64) (f : DmaCh → DmaCh) : (modDma s k f).dramChs = s.dramChs := rfl
@[simp] theorem modDma_scrubAt (s : State) (k : Fin 64) (f : DmaCh → DmaCh) : (modDma s k f).scrubAt = s.scrubAt := rfl
@[simp] theorem modDma_writeback (s : State) (k : Fin 64) (f : DmaCh → DmaCh) : (modDma s k f).writeback = s.writeback := rfl
@[simp] theorem modDma_recordDue (s : State) (k : Fin 64) (f : DmaCh → DmaCh) : (modDma s k f).recordDue = s.recordDue := rfl
@[simp] theorem modDma_pci (s : State) (k : Fin 64) (f : DmaCh → DmaCh) : (modDma s k f).pci = s.pci := rfl
@[simp] theorem modDma_msix (s : State) (k : Fin 64) (f : DmaCh → DmaCh) : (modDma s k f).msix = s.msix := rfl
@[simp] theorem modDma_pba (s : State) (k : Fin 64) (f : DmaCh → DmaCh) : (modDma s k f).pba = s.pba := rfl
@[simp] theorem modDma_cpl (s : State) (k : Fin 64) (f : DmaCh → DmaCh) : (modDma s k f).cpl = s.cpl := rfl
@[simp] theorem modDma_posted (s : State) (k : Fin 64) (f : DmaCh → DmaCh) : (modDma s k f).posted = s.posted := rfl
@[simp] theorem modDma_linkAt (s : State) (k : Fin 64) (f : DmaCh → DmaCh) : (modDma s k f).linkAt = s.linkAt := rfl
@[simp] theorem modDma_ltr (s : State) (k : Fin 64) (f : DmaCh → DmaCh) : (modDma s k f).ltr = s.ltr := rfl
@[simp] theorem modDma_log (s : State) (k : Fin 64) (f : DmaCh → DmaCh) : (modDma s k f).log = s.log := rfl
@[simp] theorem modDma_logQ (s : State) (k : Fin 64) (f : DmaCh → DmaCh) : (modDma s k f).logQ = s.logQ := rfl
@[simp] theorem modDma_logLost (s : State) (k : Fin 64) (f : DmaCh → DmaCh) : (modDma s k f).logLost = s.logLost := rfl
@[simp] theorem modDma_smbNack (s : State) (k : Fin 64) (f : DmaCh → DmaCh) : (modDma s k f).smbNack = s.smbNack := rfl
@[simp] theorem modDma_smbOut (s : State) (k : Fin 64) (f : DmaCh → DmaCh) : (modDma s k f).smbOut = s.smbOut := rfl
@[simp] theorem modDma_smbPec (s : State) (k : Fin 64) (f : DmaCh → DmaCh) : (modDma s k f).smbPec = s.smbPec := rfl
@[simp] theorem modDma_smbWrote (s : State) (k : Fin 64) (f : DmaCh → DmaCh) : (modDma s k f).smbWrote = s.smbWrote := rfl
@[simp] theorem modDma_bistDone (s : State) (k : Fin 64) (f : DmaCh → DmaCh) : (modDma s k f).bistDone = s.bistDone := rfl
@[simp] theorem modDma_bistDue (s : State) (k : Fin 64) (f : DmaCh → DmaCh) : (modDma s k f).bistDue = s.bistDue := rfl
@[simp] theorem modDma_bistAt (s : State) (k : Fin 64) (f : DmaCh → DmaCh) : (modDma s k f).bistAt = s.bistAt := rfl
@[simp] theorem modDma_bistEdge (s : State) (k : Fin 64) (f : DmaCh → DmaCh) : (modDma s k f).bistEdge = s.bistEdge := rfl
@[simp] theorem modDma_ddbGen (s : State) (k : Fin 64) (f : DmaCh → DmaCh) : (modDma s k f).ddbGen = s.ddbGen := rfl
@[simp] theorem modDma_ddbValid (s : State) (k : Fin 64) (f : DmaCh → DmaCh) : (modDma s k f).ddbValid = s.ddbValid := rfl
@[simp] theorem modDma_fwVersion (s : State) (k : Fin 64) (f : DmaCh → DmaCh) : (modDma s k f).fwVersion = s.fwVersion := rfl
@[simp] theorem modDma_missing (s : State) (k : Fin 64) (f : DmaCh → DmaCh) : (modDma s k f).missing = s.missing := rfl
@[simp] theorem modDma_tap (s : State) (k : Fin 64) (f : DmaCh → DmaCh) : (modDma s k f).tap = s.tap := rfl
@[simp] theorem modDma_order (s : State) (k : Fin 64) (f : DmaCh → DmaCh) : (modDma s k f).order = s.order := rfl
@[simp] theorem modDma_freeCtr (s : State) (k : Fin 64) (f : DmaCh → DmaCh) : (modDma s k f).freeCtr = s.freeCtr := rfl
@[simp] theorem modDma_pending (s : State) (k : Fin 64) (f : DmaCh → DmaCh) : (modDma s k f).pending = s.pending := rfl
@[simp] theorem rd_modDma (s : State) (k : Fin 64) (f : DmaCh → DmaCh) (g : RegField) (j : Nat) : rd (modDma s k f) g j = rd s g j := rfl

/-! ## `modPool` -/

@[simp] theorem modPool_regs (s : State) (p : Fin 8) (f : Pool → Pool) : (modPool s p f).regs = s.regs := rfl
@[simp] theorem modPool_halfW (s : State) (p : Fin 8) (f : Pool → Pool) : (modPool s p f).halfW = s.halfW := rfl
@[simp] theorem modPool_halfR (s : State) (p : Fin 8) (f : Pool → Pool) : (modPool s p f).halfR = s.halfR := rfl
@[simp] theorem modPool_mem (s : State) (p : Fin 8) (f : Pool → Pool) : (modPool s p f).mem = s.mem := rfl
@[simp] theorem modPool_ecc (s : State) (p : Fin 8) (f : Pool → Pool) : (modPool s p f).ecc = s.ecc := rfl
@[simp] theorem modPool_hostMem (s : State) (p : Fin 8) (f : Pool → Pool) : (modPool s p f).hostMem = s.hostMem := rfl
@[simp] theorem modPool_hidden (s : State) (p : Fin 8) (f : Pool → Pool) : (modPool s p f).hidden = s.hidden := rfl
@[simp] theorem modPool_hiddenCe (s : State) (p : Fin 8) (f : Pool → Pool) : (modPool s p f).hiddenCe = s.hiddenCe := rfl
@[simp] theorem modPool_stallSeen (s : State) (p : Fin 8) (f : Pool → Pool) : (modPool s p f).stallSeen = s.stallSeen := rfl
@[simp] theorem modPool_flash (s : State) (p : Fin 8) (f : Pool → Pool) : (modPool s p f).flash = s.flash := rfl
@[simp] theorem modPool_fuses (s : State) (p : Fin 8) (f : Pool → Pool) : (modPool s p f).fuses = s.fuses := rfl
@[simp] theorem modPool_phase (s : State) (p : Fin 8) (f : Pool → Pool) : (modPool s p f).phase = s.phase := rfl
@[simp] theorem modPool_clock (s : State) (p : Fin 8) (f : Pool → Pool) : (modPool s p f).clock = s.clock := rfl
@[simp] theorem modPool_power (s : State) (p : Fin 8) (f : Pool → Pool) : (modPool s p f).power = s.power := rfl
@[simp] theorem modPool_cores (s : State) (p : Fin 8) (f : Pool → Pool) : (modPool s p f).cores = s.cores := rfl
@[simp] theorem modPool_clusters (s : State) (p : Fin 8) (f : Pool → Pool) : (modPool s p f).clusters = s.clusters := rfl
@[simp] theorem modPool_streams (s : State) (p : Fin 8) (f : Pool → Pool) : (modPool s p f).streams = s.streams := rfl
@[simp] theorem modPool_invalidates (s : State) (p : Fin 8) (f : Pool → Pool) : (modPool s p f).invalidates = s.invalidates := rfl
@[simp] theorem modPool_vds (s : State) (p : Fin 8) (f : Pool → Pool) : (modPool s p f).vds = s.vds := rfl
@[simp] theorem modPool_offers (s : State) (p : Fin 8) (f : Pool → Pool) : (modPool s p f).offers = s.offers := rfl
@[simp] theorem modPool_shs (s : State) (p : Fin 8) (f : Pool → Pool) : (modPool s p f).shs = s.shs := rfl
@[simp] theorem modPool_encReqs (s : State) (p : Fin 8) (f : Pool → Pool) : (modPool s p f).encReqs = s.encReqs := rfl
@[simp] theorem modPool_ves (s : State) (p : Fin 8) (f : Pool → Pool) : (modPool s p f).ves = s.ves := rfl
@[simp] theorem modPool_veWait (s : State) (p : Fin 8) (f : Pool → Pool) : (modPool s p f).veWait = s.veWait := rfl
@[simp] theorem modPool_veGot (s : State) (p : Fin 8) (f : Pool → Pool) : (modPool s p f).veGot = s.veGot := rfl
@[simp] theorem modPool_rings (s : State) (p : Fin 8) (f : Pool → Pool) : (modPool s p f).rings = s.rings := rfl
@[simp] theorem modPool_mgmt (s : State) (p : Fin 8) (f : Pool → Pool) : (modPool s p f).mgmt = s.mgmt := rfl
@[simp] theorem modPool_mqs (s : State) (p : Fin 8) (f : Pool → Pool) : (modPool s p f).mqs = s.mqs := rfl
@[simp] theorem modPool_pools (s : State) (p : Fin 8) (f : Pool → Pool) : (modPool s p f).pools = s.pools.set p (f s.pools[p]) := rfl
@[simp] theorem modPool_hostOps (s : State) (p : Fin 8) (f : Pool → Pool) : (modPool s p f).hostOps = s.hostOps := rfl
@[simp] theorem modPool_allocOut (s : State) (p : Fin 8) (f : Pool → Pool) : (modPool s p f).allocOut = s.allocOut := rfl
@[simp] theorem modPool_dma (s : State) (p : Fin 8) (f : Pool → Pool) : (modPool s p f).dma = s.dma := rfl
@[simp] theorem modPool_tags (s : State) (p : Fin 8) (f : Pool → Pool) : (modPool s p f).tags = s.tags := rfl
@[simp] theorem modPool_arb (s : State) (p : Fin 8) (f : Pool → Pool) : (modPool s p f).arb = s.arb := rfl
@[simp] theorem modPool_grants (s : State) (p : Fin 8) (f : Pool → Pool) : (modPool s p f).grants = s.grants := rfl
@[simp] theorem modPool_dramChs (s : State) (p : Fin 8) (f : Pool → Pool) : (modPool s p f).dramChs = s.dramChs := rfl
@[simp] theorem modPool_scrubAt (s : State) (p : Fin 8) (f : Pool → Pool) : (modPool s p f).scrubAt = s.scrubAt := rfl
@[simp] theorem modPool_writeback (s : State) (p : Fin 8) (f : Pool → Pool) : (modPool s p f).writeback = s.writeback := rfl
@[simp] theorem modPool_recordDue (s : State) (p : Fin 8) (f : Pool → Pool) : (modPool s p f).recordDue = s.recordDue := rfl
@[simp] theorem modPool_pci (s : State) (p : Fin 8) (f : Pool → Pool) : (modPool s p f).pci = s.pci := rfl
@[simp] theorem modPool_msix (s : State) (p : Fin 8) (f : Pool → Pool) : (modPool s p f).msix = s.msix := rfl
@[simp] theorem modPool_pba (s : State) (p : Fin 8) (f : Pool → Pool) : (modPool s p f).pba = s.pba := rfl
@[simp] theorem modPool_cpl (s : State) (p : Fin 8) (f : Pool → Pool) : (modPool s p f).cpl = s.cpl := rfl
@[simp] theorem modPool_posted (s : State) (p : Fin 8) (f : Pool → Pool) : (modPool s p f).posted = s.posted := rfl
@[simp] theorem modPool_linkAt (s : State) (p : Fin 8) (f : Pool → Pool) : (modPool s p f).linkAt = s.linkAt := rfl
@[simp] theorem modPool_ltr (s : State) (p : Fin 8) (f : Pool → Pool) : (modPool s p f).ltr = s.ltr := rfl
@[simp] theorem modPool_log (s : State) (p : Fin 8) (f : Pool → Pool) : (modPool s p f).log = s.log := rfl
@[simp] theorem modPool_logQ (s : State) (p : Fin 8) (f : Pool → Pool) : (modPool s p f).logQ = s.logQ := rfl
@[simp] theorem modPool_logLost (s : State) (p : Fin 8) (f : Pool → Pool) : (modPool s p f).logLost = s.logLost := rfl
@[simp] theorem modPool_smbNack (s : State) (p : Fin 8) (f : Pool → Pool) : (modPool s p f).smbNack = s.smbNack := rfl
@[simp] theorem modPool_smbOut (s : State) (p : Fin 8) (f : Pool → Pool) : (modPool s p f).smbOut = s.smbOut := rfl
@[simp] theorem modPool_smbPec (s : State) (p : Fin 8) (f : Pool → Pool) : (modPool s p f).smbPec = s.smbPec := rfl
@[simp] theorem modPool_smbWrote (s : State) (p : Fin 8) (f : Pool → Pool) : (modPool s p f).smbWrote = s.smbWrote := rfl
@[simp] theorem modPool_bistDone (s : State) (p : Fin 8) (f : Pool → Pool) : (modPool s p f).bistDone = s.bistDone := rfl
@[simp] theorem modPool_bistDue (s : State) (p : Fin 8) (f : Pool → Pool) : (modPool s p f).bistDue = s.bistDue := rfl
@[simp] theorem modPool_bistAt (s : State) (p : Fin 8) (f : Pool → Pool) : (modPool s p f).bistAt = s.bistAt := rfl
@[simp] theorem modPool_bistEdge (s : State) (p : Fin 8) (f : Pool → Pool) : (modPool s p f).bistEdge = s.bistEdge := rfl
@[simp] theorem modPool_ddbGen (s : State) (p : Fin 8) (f : Pool → Pool) : (modPool s p f).ddbGen = s.ddbGen := rfl
@[simp] theorem modPool_ddbValid (s : State) (p : Fin 8) (f : Pool → Pool) : (modPool s p f).ddbValid = s.ddbValid := rfl
@[simp] theorem modPool_fwVersion (s : State) (p : Fin 8) (f : Pool → Pool) : (modPool s p f).fwVersion = s.fwVersion := rfl
@[simp] theorem modPool_missing (s : State) (p : Fin 8) (f : Pool → Pool) : (modPool s p f).missing = s.missing := rfl
@[simp] theorem modPool_tap (s : State) (p : Fin 8) (f : Pool → Pool) : (modPool s p f).tap = s.tap := rfl
@[simp] theorem modPool_order (s : State) (p : Fin 8) (f : Pool → Pool) : (modPool s p f).order = s.order := rfl
@[simp] theorem modPool_freeCtr (s : State) (p : Fin 8) (f : Pool → Pool) : (modPool s p f).freeCtr = s.freeCtr := rfl
@[simp] theorem modPool_pending (s : State) (p : Fin 8) (f : Pool → Pool) : (modPool s p f).pending = s.pending := rfl
@[simp] theorem rd_modPool (s : State) (p : Fin 8) (f : Pool → Pool) (g : RegField) (j : Nat) : rd (modPool s p f) g j = rd s g j := rfl

/-! ## `modRing` -/

@[simp] theorem modRing_regs (s : State) (r : Fin 31) (f : RingSt → RingSt) : (modRing s r f).regs = s.regs := rfl
@[simp] theorem modRing_halfW (s : State) (r : Fin 31) (f : RingSt → RingSt) : (modRing s r f).halfW = s.halfW := rfl
@[simp] theorem modRing_halfR (s : State) (r : Fin 31) (f : RingSt → RingSt) : (modRing s r f).halfR = s.halfR := rfl
@[simp] theorem modRing_mem (s : State) (r : Fin 31) (f : RingSt → RingSt) : (modRing s r f).mem = s.mem := rfl
@[simp] theorem modRing_ecc (s : State) (r : Fin 31) (f : RingSt → RingSt) : (modRing s r f).ecc = s.ecc := rfl
@[simp] theorem modRing_hostMem (s : State) (r : Fin 31) (f : RingSt → RingSt) : (modRing s r f).hostMem = s.hostMem := rfl
@[simp] theorem modRing_hidden (s : State) (r : Fin 31) (f : RingSt → RingSt) : (modRing s r f).hidden = s.hidden := rfl
@[simp] theorem modRing_hiddenCe (s : State) (r : Fin 31) (f : RingSt → RingSt) : (modRing s r f).hiddenCe = s.hiddenCe := rfl
@[simp] theorem modRing_stallSeen (s : State) (r : Fin 31) (f : RingSt → RingSt) : (modRing s r f).stallSeen = s.stallSeen := rfl
@[simp] theorem modRing_flash (s : State) (r : Fin 31) (f : RingSt → RingSt) : (modRing s r f).flash = s.flash := rfl
@[simp] theorem modRing_fuses (s : State) (r : Fin 31) (f : RingSt → RingSt) : (modRing s r f).fuses = s.fuses := rfl
@[simp] theorem modRing_phase (s : State) (r : Fin 31) (f : RingSt → RingSt) : (modRing s r f).phase = s.phase := rfl
@[simp] theorem modRing_clock (s : State) (r : Fin 31) (f : RingSt → RingSt) : (modRing s r f).clock = s.clock := rfl
@[simp] theorem modRing_power (s : State) (r : Fin 31) (f : RingSt → RingSt) : (modRing s r f).power = s.power := rfl
@[simp] theorem modRing_cores (s : State) (r : Fin 31) (f : RingSt → RingSt) : (modRing s r f).cores = s.cores := rfl
@[simp] theorem modRing_clusters (s : State) (r : Fin 31) (f : RingSt → RingSt) : (modRing s r f).clusters = s.clusters := rfl
@[simp] theorem modRing_streams (s : State) (r : Fin 31) (f : RingSt → RingSt) : (modRing s r f).streams = s.streams := rfl
@[simp] theorem modRing_invalidates (s : State) (r : Fin 31) (f : RingSt → RingSt) : (modRing s r f).invalidates = s.invalidates := rfl
@[simp] theorem modRing_vds (s : State) (r : Fin 31) (f : RingSt → RingSt) : (modRing s r f).vds = s.vds := rfl
@[simp] theorem modRing_offers (s : State) (r : Fin 31) (f : RingSt → RingSt) : (modRing s r f).offers = s.offers := rfl
@[simp] theorem modRing_shs (s : State) (r : Fin 31) (f : RingSt → RingSt) : (modRing s r f).shs = s.shs := rfl
@[simp] theorem modRing_encReqs (s : State) (r : Fin 31) (f : RingSt → RingSt) : (modRing s r f).encReqs = s.encReqs := rfl
@[simp] theorem modRing_ves (s : State) (r : Fin 31) (f : RingSt → RingSt) : (modRing s r f).ves = s.ves := rfl
@[simp] theorem modRing_veWait (s : State) (r : Fin 31) (f : RingSt → RingSt) : (modRing s r f).veWait = s.veWait := rfl
@[simp] theorem modRing_veGot (s : State) (r : Fin 31) (f : RingSt → RingSt) : (modRing s r f).veGot = s.veGot := rfl
@[simp] theorem modRing_rings (s : State) (r : Fin 31) (f : RingSt → RingSt) : (modRing s r f).rings = s.rings.set r (f s.rings[r]) := rfl
@[simp] theorem modRing_mgmt (s : State) (r : Fin 31) (f : RingSt → RingSt) : (modRing s r f).mgmt = s.mgmt := rfl
@[simp] theorem modRing_mqs (s : State) (r : Fin 31) (f : RingSt → RingSt) : (modRing s r f).mqs = s.mqs := rfl
@[simp] theorem modRing_pools (s : State) (r : Fin 31) (f : RingSt → RingSt) : (modRing s r f).pools = s.pools := rfl
@[simp] theorem modRing_hostOps (s : State) (r : Fin 31) (f : RingSt → RingSt) : (modRing s r f).hostOps = s.hostOps := rfl
@[simp] theorem modRing_allocOut (s : State) (r : Fin 31) (f : RingSt → RingSt) : (modRing s r f).allocOut = s.allocOut := rfl
@[simp] theorem modRing_dma (s : State) (r : Fin 31) (f : RingSt → RingSt) : (modRing s r f).dma = s.dma := rfl
@[simp] theorem modRing_tags (s : State) (r : Fin 31) (f : RingSt → RingSt) : (modRing s r f).tags = s.tags := rfl
@[simp] theorem modRing_arb (s : State) (r : Fin 31) (f : RingSt → RingSt) : (modRing s r f).arb = s.arb := rfl
@[simp] theorem modRing_grants (s : State) (r : Fin 31) (f : RingSt → RingSt) : (modRing s r f).grants = s.grants := rfl
@[simp] theorem modRing_dramChs (s : State) (r : Fin 31) (f : RingSt → RingSt) : (modRing s r f).dramChs = s.dramChs := rfl
@[simp] theorem modRing_scrubAt (s : State) (r : Fin 31) (f : RingSt → RingSt) : (modRing s r f).scrubAt = s.scrubAt := rfl
@[simp] theorem modRing_writeback (s : State) (r : Fin 31) (f : RingSt → RingSt) : (modRing s r f).writeback = s.writeback := rfl
@[simp] theorem modRing_recordDue (s : State) (r : Fin 31) (f : RingSt → RingSt) : (modRing s r f).recordDue = s.recordDue := rfl
@[simp] theorem modRing_pci (s : State) (r : Fin 31) (f : RingSt → RingSt) : (modRing s r f).pci = s.pci := rfl
@[simp] theorem modRing_msix (s : State) (r : Fin 31) (f : RingSt → RingSt) : (modRing s r f).msix = s.msix := rfl
@[simp] theorem modRing_pba (s : State) (r : Fin 31) (f : RingSt → RingSt) : (modRing s r f).pba = s.pba := rfl
@[simp] theorem modRing_cpl (s : State) (r : Fin 31) (f : RingSt → RingSt) : (modRing s r f).cpl = s.cpl := rfl
@[simp] theorem modRing_posted (s : State) (r : Fin 31) (f : RingSt → RingSt) : (modRing s r f).posted = s.posted := rfl
@[simp] theorem modRing_linkAt (s : State) (r : Fin 31) (f : RingSt → RingSt) : (modRing s r f).linkAt = s.linkAt := rfl
@[simp] theorem modRing_ltr (s : State) (r : Fin 31) (f : RingSt → RingSt) : (modRing s r f).ltr = s.ltr := rfl
@[simp] theorem modRing_log (s : State) (r : Fin 31) (f : RingSt → RingSt) : (modRing s r f).log = s.log := rfl
@[simp] theorem modRing_logQ (s : State) (r : Fin 31) (f : RingSt → RingSt) : (modRing s r f).logQ = s.logQ := rfl
@[simp] theorem modRing_logLost (s : State) (r : Fin 31) (f : RingSt → RingSt) : (modRing s r f).logLost = s.logLost := rfl
@[simp] theorem modRing_smbNack (s : State) (r : Fin 31) (f : RingSt → RingSt) : (modRing s r f).smbNack = s.smbNack := rfl
@[simp] theorem modRing_smbOut (s : State) (r : Fin 31) (f : RingSt → RingSt) : (modRing s r f).smbOut = s.smbOut := rfl
@[simp] theorem modRing_smbPec (s : State) (r : Fin 31) (f : RingSt → RingSt) : (modRing s r f).smbPec = s.smbPec := rfl
@[simp] theorem modRing_smbWrote (s : State) (r : Fin 31) (f : RingSt → RingSt) : (modRing s r f).smbWrote = s.smbWrote := rfl
@[simp] theorem modRing_bistDone (s : State) (r : Fin 31) (f : RingSt → RingSt) : (modRing s r f).bistDone = s.bistDone := rfl
@[simp] theorem modRing_bistDue (s : State) (r : Fin 31) (f : RingSt → RingSt) : (modRing s r f).bistDue = s.bistDue := rfl
@[simp] theorem modRing_bistAt (s : State) (r : Fin 31) (f : RingSt → RingSt) : (modRing s r f).bistAt = s.bistAt := rfl
@[simp] theorem modRing_bistEdge (s : State) (r : Fin 31) (f : RingSt → RingSt) : (modRing s r f).bistEdge = s.bistEdge := rfl
@[simp] theorem modRing_ddbGen (s : State) (r : Fin 31) (f : RingSt → RingSt) : (modRing s r f).ddbGen = s.ddbGen := rfl
@[simp] theorem modRing_ddbValid (s : State) (r : Fin 31) (f : RingSt → RingSt) : (modRing s r f).ddbValid = s.ddbValid := rfl
@[simp] theorem modRing_fwVersion (s : State) (r : Fin 31) (f : RingSt → RingSt) : (modRing s r f).fwVersion = s.fwVersion := rfl
@[simp] theorem modRing_missing (s : State) (r : Fin 31) (f : RingSt → RingSt) : (modRing s r f).missing = s.missing := rfl
@[simp] theorem modRing_tap (s : State) (r : Fin 31) (f : RingSt → RingSt) : (modRing s r f).tap = s.tap := rfl
@[simp] theorem modRing_order (s : State) (r : Fin 31) (f : RingSt → RingSt) : (modRing s r f).order = s.order := rfl
@[simp] theorem modRing_freeCtr (s : State) (r : Fin 31) (f : RingSt → RingSt) : (modRing s r f).freeCtr = s.freeCtr := rfl
@[simp] theorem modRing_pending (s : State) (r : Fin 31) (f : RingSt → RingSt) : (modRing s r f).pending = s.pending := rfl
@[simp] theorem rd_modRing (s : State) (r : Fin 31) (f : RingSt → RingSt) (g : RegField) (j : Nat) : rd (modRing s r f) g j = rd s g j := rfl

/-! ## `modMq` -/

@[simp] theorem modMq_regs (s : State) (m : Fin 16) (f : MqSt → MqSt) : (modMq s m f).regs = s.regs := rfl
@[simp] theorem modMq_halfW (s : State) (m : Fin 16) (f : MqSt → MqSt) : (modMq s m f).halfW = s.halfW := rfl
@[simp] theorem modMq_halfR (s : State) (m : Fin 16) (f : MqSt → MqSt) : (modMq s m f).halfR = s.halfR := rfl
@[simp] theorem modMq_mem (s : State) (m : Fin 16) (f : MqSt → MqSt) : (modMq s m f).mem = s.mem := rfl
@[simp] theorem modMq_ecc (s : State) (m : Fin 16) (f : MqSt → MqSt) : (modMq s m f).ecc = s.ecc := rfl
@[simp] theorem modMq_hostMem (s : State) (m : Fin 16) (f : MqSt → MqSt) : (modMq s m f).hostMem = s.hostMem := rfl
@[simp] theorem modMq_hidden (s : State) (m : Fin 16) (f : MqSt → MqSt) : (modMq s m f).hidden = s.hidden := rfl
@[simp] theorem modMq_hiddenCe (s : State) (m : Fin 16) (f : MqSt → MqSt) : (modMq s m f).hiddenCe = s.hiddenCe := rfl
@[simp] theorem modMq_stallSeen (s : State) (m : Fin 16) (f : MqSt → MqSt) : (modMq s m f).stallSeen = s.stallSeen := rfl
@[simp] theorem modMq_flash (s : State) (m : Fin 16) (f : MqSt → MqSt) : (modMq s m f).flash = s.flash := rfl
@[simp] theorem modMq_fuses (s : State) (m : Fin 16) (f : MqSt → MqSt) : (modMq s m f).fuses = s.fuses := rfl
@[simp] theorem modMq_phase (s : State) (m : Fin 16) (f : MqSt → MqSt) : (modMq s m f).phase = s.phase := rfl
@[simp] theorem modMq_clock (s : State) (m : Fin 16) (f : MqSt → MqSt) : (modMq s m f).clock = s.clock := rfl
@[simp] theorem modMq_power (s : State) (m : Fin 16) (f : MqSt → MqSt) : (modMq s m f).power = s.power := rfl
@[simp] theorem modMq_cores (s : State) (m : Fin 16) (f : MqSt → MqSt) : (modMq s m f).cores = s.cores := rfl
@[simp] theorem modMq_clusters (s : State) (m : Fin 16) (f : MqSt → MqSt) : (modMq s m f).clusters = s.clusters := rfl
@[simp] theorem modMq_streams (s : State) (m : Fin 16) (f : MqSt → MqSt) : (modMq s m f).streams = s.streams := rfl
@[simp] theorem modMq_invalidates (s : State) (m : Fin 16) (f : MqSt → MqSt) : (modMq s m f).invalidates = s.invalidates := rfl
@[simp] theorem modMq_vds (s : State) (m : Fin 16) (f : MqSt → MqSt) : (modMq s m f).vds = s.vds := rfl
@[simp] theorem modMq_offers (s : State) (m : Fin 16) (f : MqSt → MqSt) : (modMq s m f).offers = s.offers := rfl
@[simp] theorem modMq_shs (s : State) (m : Fin 16) (f : MqSt → MqSt) : (modMq s m f).shs = s.shs := rfl
@[simp] theorem modMq_encReqs (s : State) (m : Fin 16) (f : MqSt → MqSt) : (modMq s m f).encReqs = s.encReqs := rfl
@[simp] theorem modMq_ves (s : State) (m : Fin 16) (f : MqSt → MqSt) : (modMq s m f).ves = s.ves := rfl
@[simp] theorem modMq_veWait (s : State) (m : Fin 16) (f : MqSt → MqSt) : (modMq s m f).veWait = s.veWait := rfl
@[simp] theorem modMq_veGot (s : State) (m : Fin 16) (f : MqSt → MqSt) : (modMq s m f).veGot = s.veGot := rfl
@[simp] theorem modMq_rings (s : State) (m : Fin 16) (f : MqSt → MqSt) : (modMq s m f).rings = s.rings := rfl
@[simp] theorem modMq_mgmt (s : State) (m : Fin 16) (f : MqSt → MqSt) : (modMq s m f).mgmt = s.mgmt := rfl
@[simp] theorem modMq_mqs (s : State) (m : Fin 16) (f : MqSt → MqSt) : (modMq s m f).mqs = s.mqs.set m (f s.mqs[m]) := rfl
@[simp] theorem modMq_pools (s : State) (m : Fin 16) (f : MqSt → MqSt) : (modMq s m f).pools = s.pools := rfl
@[simp] theorem modMq_hostOps (s : State) (m : Fin 16) (f : MqSt → MqSt) : (modMq s m f).hostOps = s.hostOps := rfl
@[simp] theorem modMq_allocOut (s : State) (m : Fin 16) (f : MqSt → MqSt) : (modMq s m f).allocOut = s.allocOut := rfl
@[simp] theorem modMq_dma (s : State) (m : Fin 16) (f : MqSt → MqSt) : (modMq s m f).dma = s.dma := rfl
@[simp] theorem modMq_tags (s : State) (m : Fin 16) (f : MqSt → MqSt) : (modMq s m f).tags = s.tags := rfl
@[simp] theorem modMq_arb (s : State) (m : Fin 16) (f : MqSt → MqSt) : (modMq s m f).arb = s.arb := rfl
@[simp] theorem modMq_grants (s : State) (m : Fin 16) (f : MqSt → MqSt) : (modMq s m f).grants = s.grants := rfl
@[simp] theorem modMq_dramChs (s : State) (m : Fin 16) (f : MqSt → MqSt) : (modMq s m f).dramChs = s.dramChs := rfl
@[simp] theorem modMq_scrubAt (s : State) (m : Fin 16) (f : MqSt → MqSt) : (modMq s m f).scrubAt = s.scrubAt := rfl
@[simp] theorem modMq_writeback (s : State) (m : Fin 16) (f : MqSt → MqSt) : (modMq s m f).writeback = s.writeback := rfl
@[simp] theorem modMq_recordDue (s : State) (m : Fin 16) (f : MqSt → MqSt) : (modMq s m f).recordDue = s.recordDue := rfl
@[simp] theorem modMq_pci (s : State) (m : Fin 16) (f : MqSt → MqSt) : (modMq s m f).pci = s.pci := rfl
@[simp] theorem modMq_msix (s : State) (m : Fin 16) (f : MqSt → MqSt) : (modMq s m f).msix = s.msix := rfl
@[simp] theorem modMq_pba (s : State) (m : Fin 16) (f : MqSt → MqSt) : (modMq s m f).pba = s.pba := rfl
@[simp] theorem modMq_cpl (s : State) (m : Fin 16) (f : MqSt → MqSt) : (modMq s m f).cpl = s.cpl := rfl
@[simp] theorem modMq_posted (s : State) (m : Fin 16) (f : MqSt → MqSt) : (modMq s m f).posted = s.posted := rfl
@[simp] theorem modMq_linkAt (s : State) (m : Fin 16) (f : MqSt → MqSt) : (modMq s m f).linkAt = s.linkAt := rfl
@[simp] theorem modMq_ltr (s : State) (m : Fin 16) (f : MqSt → MqSt) : (modMq s m f).ltr = s.ltr := rfl
@[simp] theorem modMq_log (s : State) (m : Fin 16) (f : MqSt → MqSt) : (modMq s m f).log = s.log := rfl
@[simp] theorem modMq_logQ (s : State) (m : Fin 16) (f : MqSt → MqSt) : (modMq s m f).logQ = s.logQ := rfl
@[simp] theorem modMq_logLost (s : State) (m : Fin 16) (f : MqSt → MqSt) : (modMq s m f).logLost = s.logLost := rfl
@[simp] theorem modMq_smbNack (s : State) (m : Fin 16) (f : MqSt → MqSt) : (modMq s m f).smbNack = s.smbNack := rfl
@[simp] theorem modMq_smbOut (s : State) (m : Fin 16) (f : MqSt → MqSt) : (modMq s m f).smbOut = s.smbOut := rfl
@[simp] theorem modMq_smbPec (s : State) (m : Fin 16) (f : MqSt → MqSt) : (modMq s m f).smbPec = s.smbPec := rfl
@[simp] theorem modMq_smbWrote (s : State) (m : Fin 16) (f : MqSt → MqSt) : (modMq s m f).smbWrote = s.smbWrote := rfl
@[simp] theorem modMq_bistDone (s : State) (m : Fin 16) (f : MqSt → MqSt) : (modMq s m f).bistDone = s.bistDone := rfl
@[simp] theorem modMq_bistDue (s : State) (m : Fin 16) (f : MqSt → MqSt) : (modMq s m f).bistDue = s.bistDue := rfl
@[simp] theorem modMq_bistAt (s : State) (m : Fin 16) (f : MqSt → MqSt) : (modMq s m f).bistAt = s.bistAt := rfl
@[simp] theorem modMq_bistEdge (s : State) (m : Fin 16) (f : MqSt → MqSt) : (modMq s m f).bistEdge = s.bistEdge := rfl
@[simp] theorem modMq_ddbGen (s : State) (m : Fin 16) (f : MqSt → MqSt) : (modMq s m f).ddbGen = s.ddbGen := rfl
@[simp] theorem modMq_ddbValid (s : State) (m : Fin 16) (f : MqSt → MqSt) : (modMq s m f).ddbValid = s.ddbValid := rfl
@[simp] theorem modMq_fwVersion (s : State) (m : Fin 16) (f : MqSt → MqSt) : (modMq s m f).fwVersion = s.fwVersion := rfl
@[simp] theorem modMq_missing (s : State) (m : Fin 16) (f : MqSt → MqSt) : (modMq s m f).missing = s.missing := rfl
@[simp] theorem modMq_tap (s : State) (m : Fin 16) (f : MqSt → MqSt) : (modMq s m f).tap = s.tap := rfl
@[simp] theorem modMq_order (s : State) (m : Fin 16) (f : MqSt → MqSt) : (modMq s m f).order = s.order := rfl
@[simp] theorem modMq_freeCtr (s : State) (m : Fin 16) (f : MqSt → MqSt) : (modMq s m f).freeCtr = s.freeCtr := rfl
@[simp] theorem modMq_pending (s : State) (m : Fin 16) (f : MqSt → MqSt) : (modMq s m f).pending = s.pending := rfl
@[simp] theorem rd_modMq (s : State) (m : Fin 16) (f : MqSt → MqSt) (g : RegField) (j : Nat) : rd (modMq s m f) g j = rd s g j := rfl

/-! ## `modDram` -/

@[simp] theorem modDram_regs (s : State) (k : Fin 16) (f : DramCh → DramCh) : (modDram s k f).regs = s.regs := rfl
@[simp] theorem modDram_halfW (s : State) (k : Fin 16) (f : DramCh → DramCh) : (modDram s k f).halfW = s.halfW := rfl
@[simp] theorem modDram_halfR (s : State) (k : Fin 16) (f : DramCh → DramCh) : (modDram s k f).halfR = s.halfR := rfl
@[simp] theorem modDram_mem (s : State) (k : Fin 16) (f : DramCh → DramCh) : (modDram s k f).mem = s.mem := rfl
@[simp] theorem modDram_ecc (s : State) (k : Fin 16) (f : DramCh → DramCh) : (modDram s k f).ecc = s.ecc := rfl
@[simp] theorem modDram_hostMem (s : State) (k : Fin 16) (f : DramCh → DramCh) : (modDram s k f).hostMem = s.hostMem := rfl
@[simp] theorem modDram_hidden (s : State) (k : Fin 16) (f : DramCh → DramCh) : (modDram s k f).hidden = s.hidden := rfl
@[simp] theorem modDram_hiddenCe (s : State) (k : Fin 16) (f : DramCh → DramCh) : (modDram s k f).hiddenCe = s.hiddenCe := rfl
@[simp] theorem modDram_stallSeen (s : State) (k : Fin 16) (f : DramCh → DramCh) : (modDram s k f).stallSeen = s.stallSeen := rfl
@[simp] theorem modDram_flash (s : State) (k : Fin 16) (f : DramCh → DramCh) : (modDram s k f).flash = s.flash := rfl
@[simp] theorem modDram_fuses (s : State) (k : Fin 16) (f : DramCh → DramCh) : (modDram s k f).fuses = s.fuses := rfl
@[simp] theorem modDram_phase (s : State) (k : Fin 16) (f : DramCh → DramCh) : (modDram s k f).phase = s.phase := rfl
@[simp] theorem modDram_clock (s : State) (k : Fin 16) (f : DramCh → DramCh) : (modDram s k f).clock = s.clock := rfl
@[simp] theorem modDram_power (s : State) (k : Fin 16) (f : DramCh → DramCh) : (modDram s k f).power = s.power := rfl
@[simp] theorem modDram_cores (s : State) (k : Fin 16) (f : DramCh → DramCh) : (modDram s k f).cores = s.cores := rfl
@[simp] theorem modDram_clusters (s : State) (k : Fin 16) (f : DramCh → DramCh) : (modDram s k f).clusters = s.clusters := rfl
@[simp] theorem modDram_streams (s : State) (k : Fin 16) (f : DramCh → DramCh) : (modDram s k f).streams = s.streams := rfl
@[simp] theorem modDram_invalidates (s : State) (k : Fin 16) (f : DramCh → DramCh) : (modDram s k f).invalidates = s.invalidates := rfl
@[simp] theorem modDram_vds (s : State) (k : Fin 16) (f : DramCh → DramCh) : (modDram s k f).vds = s.vds := rfl
@[simp] theorem modDram_offers (s : State) (k : Fin 16) (f : DramCh → DramCh) : (modDram s k f).offers = s.offers := rfl
@[simp] theorem modDram_shs (s : State) (k : Fin 16) (f : DramCh → DramCh) : (modDram s k f).shs = s.shs := rfl
@[simp] theorem modDram_encReqs (s : State) (k : Fin 16) (f : DramCh → DramCh) : (modDram s k f).encReqs = s.encReqs := rfl
@[simp] theorem modDram_ves (s : State) (k : Fin 16) (f : DramCh → DramCh) : (modDram s k f).ves = s.ves := rfl
@[simp] theorem modDram_veWait (s : State) (k : Fin 16) (f : DramCh → DramCh) : (modDram s k f).veWait = s.veWait := rfl
@[simp] theorem modDram_veGot (s : State) (k : Fin 16) (f : DramCh → DramCh) : (modDram s k f).veGot = s.veGot := rfl
@[simp] theorem modDram_rings (s : State) (k : Fin 16) (f : DramCh → DramCh) : (modDram s k f).rings = s.rings := rfl
@[simp] theorem modDram_mgmt (s : State) (k : Fin 16) (f : DramCh → DramCh) : (modDram s k f).mgmt = s.mgmt := rfl
@[simp] theorem modDram_mqs (s : State) (k : Fin 16) (f : DramCh → DramCh) : (modDram s k f).mqs = s.mqs := rfl
@[simp] theorem modDram_pools (s : State) (k : Fin 16) (f : DramCh → DramCh) : (modDram s k f).pools = s.pools := rfl
@[simp] theorem modDram_hostOps (s : State) (k : Fin 16) (f : DramCh → DramCh) : (modDram s k f).hostOps = s.hostOps := rfl
@[simp] theorem modDram_allocOut (s : State) (k : Fin 16) (f : DramCh → DramCh) : (modDram s k f).allocOut = s.allocOut := rfl
@[simp] theorem modDram_dma (s : State) (k : Fin 16) (f : DramCh → DramCh) : (modDram s k f).dma = s.dma := rfl
@[simp] theorem modDram_tags (s : State) (k : Fin 16) (f : DramCh → DramCh) : (modDram s k f).tags = s.tags := rfl
@[simp] theorem modDram_arb (s : State) (k : Fin 16) (f : DramCh → DramCh) : (modDram s k f).arb = s.arb := rfl
@[simp] theorem modDram_grants (s : State) (k : Fin 16) (f : DramCh → DramCh) : (modDram s k f).grants = s.grants := rfl
@[simp] theorem modDram_dramChs (s : State) (k : Fin 16) (f : DramCh → DramCh) : (modDram s k f).dramChs = s.dramChs.set k (f s.dramChs[k]) := rfl
@[simp] theorem modDram_scrubAt (s : State) (k : Fin 16) (f : DramCh → DramCh) : (modDram s k f).scrubAt = s.scrubAt := rfl
@[simp] theorem modDram_writeback (s : State) (k : Fin 16) (f : DramCh → DramCh) : (modDram s k f).writeback = s.writeback := rfl
@[simp] theorem modDram_recordDue (s : State) (k : Fin 16) (f : DramCh → DramCh) : (modDram s k f).recordDue = s.recordDue := rfl
@[simp] theorem modDram_pci (s : State) (k : Fin 16) (f : DramCh → DramCh) : (modDram s k f).pci = s.pci := rfl
@[simp] theorem modDram_msix (s : State) (k : Fin 16) (f : DramCh → DramCh) : (modDram s k f).msix = s.msix := rfl
@[simp] theorem modDram_pba (s : State) (k : Fin 16) (f : DramCh → DramCh) : (modDram s k f).pba = s.pba := rfl
@[simp] theorem modDram_cpl (s : State) (k : Fin 16) (f : DramCh → DramCh) : (modDram s k f).cpl = s.cpl := rfl
@[simp] theorem modDram_posted (s : State) (k : Fin 16) (f : DramCh → DramCh) : (modDram s k f).posted = s.posted := rfl
@[simp] theorem modDram_linkAt (s : State) (k : Fin 16) (f : DramCh → DramCh) : (modDram s k f).linkAt = s.linkAt := rfl
@[simp] theorem modDram_ltr (s : State) (k : Fin 16) (f : DramCh → DramCh) : (modDram s k f).ltr = s.ltr := rfl
@[simp] theorem modDram_log (s : State) (k : Fin 16) (f : DramCh → DramCh) : (modDram s k f).log = s.log := rfl
@[simp] theorem modDram_logQ (s : State) (k : Fin 16) (f : DramCh → DramCh) : (modDram s k f).logQ = s.logQ := rfl
@[simp] theorem modDram_logLost (s : State) (k : Fin 16) (f : DramCh → DramCh) : (modDram s k f).logLost = s.logLost := rfl
@[simp] theorem modDram_smbNack (s : State) (k : Fin 16) (f : DramCh → DramCh) : (modDram s k f).smbNack = s.smbNack := rfl
@[simp] theorem modDram_smbOut (s : State) (k : Fin 16) (f : DramCh → DramCh) : (modDram s k f).smbOut = s.smbOut := rfl
@[simp] theorem modDram_smbPec (s : State) (k : Fin 16) (f : DramCh → DramCh) : (modDram s k f).smbPec = s.smbPec := rfl
@[simp] theorem modDram_smbWrote (s : State) (k : Fin 16) (f : DramCh → DramCh) : (modDram s k f).smbWrote = s.smbWrote := rfl
@[simp] theorem modDram_bistDone (s : State) (k : Fin 16) (f : DramCh → DramCh) : (modDram s k f).bistDone = s.bistDone := rfl
@[simp] theorem modDram_bistDue (s : State) (k : Fin 16) (f : DramCh → DramCh) : (modDram s k f).bistDue = s.bistDue := rfl
@[simp] theorem modDram_bistAt (s : State) (k : Fin 16) (f : DramCh → DramCh) : (modDram s k f).bistAt = s.bistAt := rfl
@[simp] theorem modDram_bistEdge (s : State) (k : Fin 16) (f : DramCh → DramCh) : (modDram s k f).bistEdge = s.bistEdge := rfl
@[simp] theorem modDram_ddbGen (s : State) (k : Fin 16) (f : DramCh → DramCh) : (modDram s k f).ddbGen = s.ddbGen := rfl
@[simp] theorem modDram_ddbValid (s : State) (k : Fin 16) (f : DramCh → DramCh) : (modDram s k f).ddbValid = s.ddbValid := rfl
@[simp] theorem modDram_fwVersion (s : State) (k : Fin 16) (f : DramCh → DramCh) : (modDram s k f).fwVersion = s.fwVersion := rfl
@[simp] theorem modDram_missing (s : State) (k : Fin 16) (f : DramCh → DramCh) : (modDram s k f).missing = s.missing := rfl
@[simp] theorem modDram_tap (s : State) (k : Fin 16) (f : DramCh → DramCh) : (modDram s k f).tap = s.tap := rfl
@[simp] theorem modDram_order (s : State) (k : Fin 16) (f : DramCh → DramCh) : (modDram s k f).order = s.order := rfl
@[simp] theorem modDram_freeCtr (s : State) (k : Fin 16) (f : DramCh → DramCh) : (modDram s k f).freeCtr = s.freeCtr := rfl
@[simp] theorem modDram_pending (s : State) (k : Fin 16) (f : DramCh → DramCh) : (modDram s k f).pending = s.pending := rfl
@[simp] theorem rd_modDram (s : State) (k : Fin 16) (f : DramCh → DramCh) (g : RegField) (j : Nat) : rd (modDram s k f) g j = rd s g j := rfl

/-! ## `modStream` -/

@[simp] theorem modStream_regs (s : State) (n : Fin 1024) (f : Stream → Stream) : (modStream s n f).regs = s.regs := rfl
@[simp] theorem modStream_halfW (s : State) (n : Fin 1024) (f : Stream → Stream) : (modStream s n f).halfW = s.halfW := rfl
@[simp] theorem modStream_halfR (s : State) (n : Fin 1024) (f : Stream → Stream) : (modStream s n f).halfR = s.halfR := rfl
@[simp] theorem modStream_mem (s : State) (n : Fin 1024) (f : Stream → Stream) : (modStream s n f).mem = s.mem := rfl
@[simp] theorem modStream_ecc (s : State) (n : Fin 1024) (f : Stream → Stream) : (modStream s n f).ecc = s.ecc := rfl
@[simp] theorem modStream_hostMem (s : State) (n : Fin 1024) (f : Stream → Stream) : (modStream s n f).hostMem = s.hostMem := rfl
@[simp] theorem modStream_hidden (s : State) (n : Fin 1024) (f : Stream → Stream) : (modStream s n f).hidden = s.hidden := rfl
@[simp] theorem modStream_hiddenCe (s : State) (n : Fin 1024) (f : Stream → Stream) : (modStream s n f).hiddenCe = s.hiddenCe := rfl
@[simp] theorem modStream_stallSeen (s : State) (n : Fin 1024) (f : Stream → Stream) : (modStream s n f).stallSeen = s.stallSeen := rfl
@[simp] theorem modStream_flash (s : State) (n : Fin 1024) (f : Stream → Stream) : (modStream s n f).flash = s.flash := rfl
@[simp] theorem modStream_fuses (s : State) (n : Fin 1024) (f : Stream → Stream) : (modStream s n f).fuses = s.fuses := rfl
@[simp] theorem modStream_phase (s : State) (n : Fin 1024) (f : Stream → Stream) : (modStream s n f).phase = s.phase := rfl
@[simp] theorem modStream_clock (s : State) (n : Fin 1024) (f : Stream → Stream) : (modStream s n f).clock = s.clock := rfl
@[simp] theorem modStream_power (s : State) (n : Fin 1024) (f : Stream → Stream) : (modStream s n f).power = s.power := rfl
@[simp] theorem modStream_cores (s : State) (n : Fin 1024) (f : Stream → Stream) : (modStream s n f).cores = s.cores := rfl
@[simp] theorem modStream_clusters (s : State) (n : Fin 1024) (f : Stream → Stream) : (modStream s n f).clusters = s.clusters := rfl
@[simp] theorem modStream_streams (s : State) (n : Fin 1024) (f : Stream → Stream) : (modStream s n f).streams = storeSet Stream.init s.streams n.val (f (streamOf s n)) := rfl
@[simp] theorem modStream_invalidates (s : State) (n : Fin 1024) (f : Stream → Stream) : (modStream s n f).invalidates = s.invalidates := rfl
@[simp] theorem modStream_vds (s : State) (n : Fin 1024) (f : Stream → Stream) : (modStream s n f).vds = s.vds := rfl
@[simp] theorem modStream_offers (s : State) (n : Fin 1024) (f : Stream → Stream) : (modStream s n f).offers = s.offers := rfl
@[simp] theorem modStream_shs (s : State) (n : Fin 1024) (f : Stream → Stream) : (modStream s n f).shs = s.shs := rfl
@[simp] theorem modStream_encReqs (s : State) (n : Fin 1024) (f : Stream → Stream) : (modStream s n f).encReqs = s.encReqs := rfl
@[simp] theorem modStream_ves (s : State) (n : Fin 1024) (f : Stream → Stream) : (modStream s n f).ves = s.ves := rfl
@[simp] theorem modStream_veWait (s : State) (n : Fin 1024) (f : Stream → Stream) : (modStream s n f).veWait = s.veWait := rfl
@[simp] theorem modStream_veGot (s : State) (n : Fin 1024) (f : Stream → Stream) : (modStream s n f).veGot = s.veGot := rfl
@[simp] theorem modStream_rings (s : State) (n : Fin 1024) (f : Stream → Stream) : (modStream s n f).rings = s.rings := rfl
@[simp] theorem modStream_mgmt (s : State) (n : Fin 1024) (f : Stream → Stream) : (modStream s n f).mgmt = s.mgmt := rfl
@[simp] theorem modStream_mqs (s : State) (n : Fin 1024) (f : Stream → Stream) : (modStream s n f).mqs = s.mqs := rfl
@[simp] theorem modStream_pools (s : State) (n : Fin 1024) (f : Stream → Stream) : (modStream s n f).pools = s.pools := rfl
@[simp] theorem modStream_hostOps (s : State) (n : Fin 1024) (f : Stream → Stream) : (modStream s n f).hostOps = s.hostOps := rfl
@[simp] theorem modStream_allocOut (s : State) (n : Fin 1024) (f : Stream → Stream) : (modStream s n f).allocOut = s.allocOut := rfl
@[simp] theorem modStream_dma (s : State) (n : Fin 1024) (f : Stream → Stream) : (modStream s n f).dma = s.dma := rfl
@[simp] theorem modStream_tags (s : State) (n : Fin 1024) (f : Stream → Stream) : (modStream s n f).tags = s.tags := rfl
@[simp] theorem modStream_arb (s : State) (n : Fin 1024) (f : Stream → Stream) : (modStream s n f).arb = s.arb := rfl
@[simp] theorem modStream_grants (s : State) (n : Fin 1024) (f : Stream → Stream) : (modStream s n f).grants = s.grants := rfl
@[simp] theorem modStream_dramChs (s : State) (n : Fin 1024) (f : Stream → Stream) : (modStream s n f).dramChs = s.dramChs := rfl
@[simp] theorem modStream_scrubAt (s : State) (n : Fin 1024) (f : Stream → Stream) : (modStream s n f).scrubAt = s.scrubAt := rfl
@[simp] theorem modStream_writeback (s : State) (n : Fin 1024) (f : Stream → Stream) : (modStream s n f).writeback = s.writeback := rfl
@[simp] theorem modStream_recordDue (s : State) (n : Fin 1024) (f : Stream → Stream) : (modStream s n f).recordDue = s.recordDue := rfl
@[simp] theorem modStream_pci (s : State) (n : Fin 1024) (f : Stream → Stream) : (modStream s n f).pci = s.pci := rfl
@[simp] theorem modStream_msix (s : State) (n : Fin 1024) (f : Stream → Stream) : (modStream s n f).msix = s.msix := rfl
@[simp] theorem modStream_pba (s : State) (n : Fin 1024) (f : Stream → Stream) : (modStream s n f).pba = s.pba := rfl
@[simp] theorem modStream_cpl (s : State) (n : Fin 1024) (f : Stream → Stream) : (modStream s n f).cpl = s.cpl := rfl
@[simp] theorem modStream_posted (s : State) (n : Fin 1024) (f : Stream → Stream) : (modStream s n f).posted = s.posted := rfl
@[simp] theorem modStream_linkAt (s : State) (n : Fin 1024) (f : Stream → Stream) : (modStream s n f).linkAt = s.linkAt := rfl
@[simp] theorem modStream_ltr (s : State) (n : Fin 1024) (f : Stream → Stream) : (modStream s n f).ltr = s.ltr := rfl
@[simp] theorem modStream_log (s : State) (n : Fin 1024) (f : Stream → Stream) : (modStream s n f).log = s.log := rfl
@[simp] theorem modStream_logQ (s : State) (n : Fin 1024) (f : Stream → Stream) : (modStream s n f).logQ = s.logQ := rfl
@[simp] theorem modStream_logLost (s : State) (n : Fin 1024) (f : Stream → Stream) : (modStream s n f).logLost = s.logLost := rfl
@[simp] theorem modStream_smbNack (s : State) (n : Fin 1024) (f : Stream → Stream) : (modStream s n f).smbNack = s.smbNack := rfl
@[simp] theorem modStream_smbOut (s : State) (n : Fin 1024) (f : Stream → Stream) : (modStream s n f).smbOut = s.smbOut := rfl
@[simp] theorem modStream_smbPec (s : State) (n : Fin 1024) (f : Stream → Stream) : (modStream s n f).smbPec = s.smbPec := rfl
@[simp] theorem modStream_smbWrote (s : State) (n : Fin 1024) (f : Stream → Stream) : (modStream s n f).smbWrote = s.smbWrote := rfl
@[simp] theorem modStream_bistDone (s : State) (n : Fin 1024) (f : Stream → Stream) : (modStream s n f).bistDone = s.bistDone := rfl
@[simp] theorem modStream_bistDue (s : State) (n : Fin 1024) (f : Stream → Stream) : (modStream s n f).bistDue = s.bistDue := rfl
@[simp] theorem modStream_bistAt (s : State) (n : Fin 1024) (f : Stream → Stream) : (modStream s n f).bistAt = s.bistAt := rfl
@[simp] theorem modStream_bistEdge (s : State) (n : Fin 1024) (f : Stream → Stream) : (modStream s n f).bistEdge = s.bistEdge := rfl
@[simp] theorem modStream_ddbGen (s : State) (n : Fin 1024) (f : Stream → Stream) : (modStream s n f).ddbGen = s.ddbGen := rfl
@[simp] theorem modStream_ddbValid (s : State) (n : Fin 1024) (f : Stream → Stream) : (modStream s n f).ddbValid = s.ddbValid := rfl
@[simp] theorem modStream_fwVersion (s : State) (n : Fin 1024) (f : Stream → Stream) : (modStream s n f).fwVersion = s.fwVersion := rfl
@[simp] theorem modStream_missing (s : State) (n : Fin 1024) (f : Stream → Stream) : (modStream s n f).missing = s.missing := rfl
@[simp] theorem modStream_tap (s : State) (n : Fin 1024) (f : Stream → Stream) : (modStream s n f).tap = s.tap := rfl
@[simp] theorem modStream_order (s : State) (n : Fin 1024) (f : Stream → Stream) : (modStream s n f).order = s.order := rfl
@[simp] theorem modStream_freeCtr (s : State) (n : Fin 1024) (f : Stream → Stream) : (modStream s n f).freeCtr = s.freeCtr := rfl
@[simp] theorem modStream_pending (s : State) (n : Fin 1024) (f : Stream → Stream) : (modStream s n f).pending = s.pending := rfl
@[simp] theorem rd_modStream (s : State) (n : Fin 1024) (f : Stream → Stream) (g : RegField) (j : Nat) : rd (modStream s n f) g j = rd s g j := rfl

/-! ## `setEcc` -/

@[simp] theorem setEcc_regs (s : State) (a : Nat) (e : EccState) : (setEcc s a e).regs = s.regs := rfl
@[simp] theorem setEcc_halfW (s : State) (a : Nat) (e : EccState) : (setEcc s a e).halfW = s.halfW := rfl
@[simp] theorem setEcc_halfR (s : State) (a : Nat) (e : EccState) : (setEcc s a e).halfR = s.halfR := rfl
@[simp] theorem setEcc_mem (s : State) (a : Nat) (e : EccState) : (setEcc s a e).mem = s.mem := rfl
@[simp] theorem setEcc_ecc (s : State) (a : Nat) (e : EccState) : (setEcc s a e).ecc = storeSet EccState.ok s.ecc a e := rfl
@[simp] theorem setEcc_hostMem (s : State) (a : Nat) (e : EccState) : (setEcc s a e).hostMem = s.hostMem := rfl
@[simp] theorem setEcc_hidden (s : State) (a : Nat) (e : EccState) : (setEcc s a e).hidden = s.hidden := rfl
@[simp] theorem setEcc_hiddenCe (s : State) (a : Nat) (e : EccState) : (setEcc s a e).hiddenCe = s.hiddenCe := rfl
@[simp] theorem setEcc_stallSeen (s : State) (a : Nat) (e : EccState) : (setEcc s a e).stallSeen = s.stallSeen := rfl
@[simp] theorem setEcc_flash (s : State) (a : Nat) (e : EccState) : (setEcc s a e).flash = s.flash := rfl
@[simp] theorem setEcc_fuses (s : State) (a : Nat) (e : EccState) : (setEcc s a e).fuses = s.fuses := rfl
@[simp] theorem setEcc_phase (s : State) (a : Nat) (e : EccState) : (setEcc s a e).phase = s.phase := rfl
@[simp] theorem setEcc_clock (s : State) (a : Nat) (e : EccState) : (setEcc s a e).clock = s.clock := rfl
@[simp] theorem setEcc_power (s : State) (a : Nat) (e : EccState) : (setEcc s a e).power = s.power := rfl
@[simp] theorem setEcc_cores (s : State) (a : Nat) (e : EccState) : (setEcc s a e).cores = s.cores := rfl
@[simp] theorem setEcc_clusters (s : State) (a : Nat) (e : EccState) : (setEcc s a e).clusters = s.clusters := rfl
@[simp] theorem setEcc_streams (s : State) (a : Nat) (e : EccState) : (setEcc s a e).streams = s.streams := rfl
@[simp] theorem setEcc_invalidates (s : State) (a : Nat) (e : EccState) : (setEcc s a e).invalidates = s.invalidates := rfl
@[simp] theorem setEcc_vds (s : State) (a : Nat) (e : EccState) : (setEcc s a e).vds = s.vds := rfl
@[simp] theorem setEcc_offers (s : State) (a : Nat) (e : EccState) : (setEcc s a e).offers = s.offers := rfl
@[simp] theorem setEcc_shs (s : State) (a : Nat) (e : EccState) : (setEcc s a e).shs = s.shs := rfl
@[simp] theorem setEcc_encReqs (s : State) (a : Nat) (e : EccState) : (setEcc s a e).encReqs = s.encReqs := rfl
@[simp] theorem setEcc_ves (s : State) (a : Nat) (e : EccState) : (setEcc s a e).ves = s.ves := rfl
@[simp] theorem setEcc_veWait (s : State) (a : Nat) (e : EccState) : (setEcc s a e).veWait = s.veWait := rfl
@[simp] theorem setEcc_veGot (s : State) (a : Nat) (e : EccState) : (setEcc s a e).veGot = s.veGot := rfl
@[simp] theorem setEcc_rings (s : State) (a : Nat) (e : EccState) : (setEcc s a e).rings = s.rings := rfl
@[simp] theorem setEcc_mgmt (s : State) (a : Nat) (e : EccState) : (setEcc s a e).mgmt = s.mgmt := rfl
@[simp] theorem setEcc_mqs (s : State) (a : Nat) (e : EccState) : (setEcc s a e).mqs = s.mqs := rfl
@[simp] theorem setEcc_pools (s : State) (a : Nat) (e : EccState) : (setEcc s a e).pools = s.pools := rfl
@[simp] theorem setEcc_hostOps (s : State) (a : Nat) (e : EccState) : (setEcc s a e).hostOps = s.hostOps := rfl
@[simp] theorem setEcc_allocOut (s : State) (a : Nat) (e : EccState) : (setEcc s a e).allocOut = s.allocOut := rfl
@[simp] theorem setEcc_dma (s : State) (a : Nat) (e : EccState) : (setEcc s a e).dma = s.dma := rfl
@[simp] theorem setEcc_tags (s : State) (a : Nat) (e : EccState) : (setEcc s a e).tags = s.tags := rfl
@[simp] theorem setEcc_arb (s : State) (a : Nat) (e : EccState) : (setEcc s a e).arb = s.arb := rfl
@[simp] theorem setEcc_grants (s : State) (a : Nat) (e : EccState) : (setEcc s a e).grants = s.grants := rfl
@[simp] theorem setEcc_dramChs (s : State) (a : Nat) (e : EccState) : (setEcc s a e).dramChs = s.dramChs := rfl
@[simp] theorem setEcc_scrubAt (s : State) (a : Nat) (e : EccState) : (setEcc s a e).scrubAt = s.scrubAt := rfl
@[simp] theorem setEcc_writeback (s : State) (a : Nat) (e : EccState) : (setEcc s a e).writeback = s.writeback := rfl
@[simp] theorem setEcc_recordDue (s : State) (a : Nat) (e : EccState) : (setEcc s a e).recordDue = s.recordDue := rfl
@[simp] theorem setEcc_pci (s : State) (a : Nat) (e : EccState) : (setEcc s a e).pci = s.pci := rfl
@[simp] theorem setEcc_msix (s : State) (a : Nat) (e : EccState) : (setEcc s a e).msix = s.msix := rfl
@[simp] theorem setEcc_pba (s : State) (a : Nat) (e : EccState) : (setEcc s a e).pba = s.pba := rfl
@[simp] theorem setEcc_cpl (s : State) (a : Nat) (e : EccState) : (setEcc s a e).cpl = s.cpl := rfl
@[simp] theorem setEcc_posted (s : State) (a : Nat) (e : EccState) : (setEcc s a e).posted = s.posted := rfl
@[simp] theorem setEcc_linkAt (s : State) (a : Nat) (e : EccState) : (setEcc s a e).linkAt = s.linkAt := rfl
@[simp] theorem setEcc_ltr (s : State) (a : Nat) (e : EccState) : (setEcc s a e).ltr = s.ltr := rfl
@[simp] theorem setEcc_log (s : State) (a : Nat) (e : EccState) : (setEcc s a e).log = s.log := rfl
@[simp] theorem setEcc_logQ (s : State) (a : Nat) (e : EccState) : (setEcc s a e).logQ = s.logQ := rfl
@[simp] theorem setEcc_logLost (s : State) (a : Nat) (e : EccState) : (setEcc s a e).logLost = s.logLost := rfl
@[simp] theorem setEcc_smbNack (s : State) (a : Nat) (e : EccState) : (setEcc s a e).smbNack = s.smbNack := rfl
@[simp] theorem setEcc_smbOut (s : State) (a : Nat) (e : EccState) : (setEcc s a e).smbOut = s.smbOut := rfl
@[simp] theorem setEcc_smbPec (s : State) (a : Nat) (e : EccState) : (setEcc s a e).smbPec = s.smbPec := rfl
@[simp] theorem setEcc_smbWrote (s : State) (a : Nat) (e : EccState) : (setEcc s a e).smbWrote = s.smbWrote := rfl
@[simp] theorem setEcc_bistDone (s : State) (a : Nat) (e : EccState) : (setEcc s a e).bistDone = s.bistDone := rfl
@[simp] theorem setEcc_bistDue (s : State) (a : Nat) (e : EccState) : (setEcc s a e).bistDue = s.bistDue := rfl
@[simp] theorem setEcc_bistAt (s : State) (a : Nat) (e : EccState) : (setEcc s a e).bistAt = s.bistAt := rfl
@[simp] theorem setEcc_bistEdge (s : State) (a : Nat) (e : EccState) : (setEcc s a e).bistEdge = s.bistEdge := rfl
@[simp] theorem setEcc_ddbGen (s : State) (a : Nat) (e : EccState) : (setEcc s a e).ddbGen = s.ddbGen := rfl
@[simp] theorem setEcc_ddbValid (s : State) (a : Nat) (e : EccState) : (setEcc s a e).ddbValid = s.ddbValid := rfl
@[simp] theorem setEcc_fwVersion (s : State) (a : Nat) (e : EccState) : (setEcc s a e).fwVersion = s.fwVersion := rfl
@[simp] theorem setEcc_missing (s : State) (a : Nat) (e : EccState) : (setEcc s a e).missing = s.missing := rfl
@[simp] theorem setEcc_tap (s : State) (a : Nat) (e : EccState) : (setEcc s a e).tap = s.tap := rfl
@[simp] theorem setEcc_order (s : State) (a : Nat) (e : EccState) : (setEcc s a e).order = s.order := rfl
@[simp] theorem setEcc_freeCtr (s : State) (a : Nat) (e : EccState) : (setEcc s a e).freeCtr = s.freeCtr := rfl
@[simp] theorem setEcc_pending (s : State) (a : Nat) (e : EccState) : (setEcc s a e).pending = s.pending := rfl
@[simp] theorem rd_setEcc (s : State) (a : Nat) (e : EccState) (g : RegField) (j : Nat) : rd (setEcc s a e) g j = rd s g j := rfl

/-! ## `cleanEcc` -/

@[simp] theorem cleanEcc_regs (s : State) (a : Nat) : (cleanEcc s a).regs = s.regs := rfl
@[simp] theorem cleanEcc_halfW (s : State) (a : Nat) : (cleanEcc s a).halfW = s.halfW := rfl
@[simp] theorem cleanEcc_halfR (s : State) (a : Nat) : (cleanEcc s a).halfR = s.halfR := rfl
@[simp] theorem cleanEcc_mem (s : State) (a : Nat) : (cleanEcc s a).mem = s.mem := rfl
@[simp] theorem cleanEcc_ecc (s : State) (a : Nat) : (cleanEcc s a).ecc = storeClear s.ecc (eccBase s a) (eccSpan s a) := rfl
@[simp] theorem cleanEcc_hostMem (s : State) (a : Nat) : (cleanEcc s a).hostMem = s.hostMem := rfl
@[simp] theorem cleanEcc_hidden (s : State) (a : Nat) : (cleanEcc s a).hidden = s.hidden := rfl
@[simp] theorem cleanEcc_hiddenCe (s : State) (a : Nat) : (cleanEcc s a).hiddenCe = s.hiddenCe := rfl
@[simp] theorem cleanEcc_stallSeen (s : State) (a : Nat) : (cleanEcc s a).stallSeen = s.stallSeen := rfl
@[simp] theorem cleanEcc_flash (s : State) (a : Nat) : (cleanEcc s a).flash = s.flash := rfl
@[simp] theorem cleanEcc_fuses (s : State) (a : Nat) : (cleanEcc s a).fuses = s.fuses := rfl
@[simp] theorem cleanEcc_phase (s : State) (a : Nat) : (cleanEcc s a).phase = s.phase := rfl
@[simp] theorem cleanEcc_clock (s : State) (a : Nat) : (cleanEcc s a).clock = s.clock := rfl
@[simp] theorem cleanEcc_power (s : State) (a : Nat) : (cleanEcc s a).power = s.power := rfl
@[simp] theorem cleanEcc_cores (s : State) (a : Nat) : (cleanEcc s a).cores = s.cores := rfl
@[simp] theorem cleanEcc_clusters (s : State) (a : Nat) : (cleanEcc s a).clusters = s.clusters := rfl
@[simp] theorem cleanEcc_streams (s : State) (a : Nat) : (cleanEcc s a).streams = s.streams := rfl
@[simp] theorem cleanEcc_invalidates (s : State) (a : Nat) : (cleanEcc s a).invalidates = s.invalidates := rfl
@[simp] theorem cleanEcc_vds (s : State) (a : Nat) : (cleanEcc s a).vds = s.vds := rfl
@[simp] theorem cleanEcc_offers (s : State) (a : Nat) : (cleanEcc s a).offers = s.offers := rfl
@[simp] theorem cleanEcc_shs (s : State) (a : Nat) : (cleanEcc s a).shs = s.shs := rfl
@[simp] theorem cleanEcc_encReqs (s : State) (a : Nat) : (cleanEcc s a).encReqs = s.encReqs := rfl
@[simp] theorem cleanEcc_ves (s : State) (a : Nat) : (cleanEcc s a).ves = s.ves := rfl
@[simp] theorem cleanEcc_veWait (s : State) (a : Nat) : (cleanEcc s a).veWait = s.veWait := rfl
@[simp] theorem cleanEcc_veGot (s : State) (a : Nat) : (cleanEcc s a).veGot = s.veGot := rfl
@[simp] theorem cleanEcc_rings (s : State) (a : Nat) : (cleanEcc s a).rings = s.rings := rfl
@[simp] theorem cleanEcc_mgmt (s : State) (a : Nat) : (cleanEcc s a).mgmt = s.mgmt := rfl
@[simp] theorem cleanEcc_mqs (s : State) (a : Nat) : (cleanEcc s a).mqs = s.mqs := rfl
@[simp] theorem cleanEcc_pools (s : State) (a : Nat) : (cleanEcc s a).pools = s.pools := rfl
@[simp] theorem cleanEcc_hostOps (s : State) (a : Nat) : (cleanEcc s a).hostOps = s.hostOps := rfl
@[simp] theorem cleanEcc_allocOut (s : State) (a : Nat) : (cleanEcc s a).allocOut = s.allocOut := rfl
@[simp] theorem cleanEcc_dma (s : State) (a : Nat) : (cleanEcc s a).dma = s.dma := rfl
@[simp] theorem cleanEcc_tags (s : State) (a : Nat) : (cleanEcc s a).tags = s.tags := rfl
@[simp] theorem cleanEcc_arb (s : State) (a : Nat) : (cleanEcc s a).arb = s.arb := rfl
@[simp] theorem cleanEcc_grants (s : State) (a : Nat) : (cleanEcc s a).grants = s.grants := rfl
@[simp] theorem cleanEcc_dramChs (s : State) (a : Nat) : (cleanEcc s a).dramChs = s.dramChs := rfl
@[simp] theorem cleanEcc_scrubAt (s : State) (a : Nat) : (cleanEcc s a).scrubAt = s.scrubAt := rfl
@[simp] theorem cleanEcc_writeback (s : State) (a : Nat) : (cleanEcc s a).writeback = s.writeback := rfl
@[simp] theorem cleanEcc_recordDue (s : State) (a : Nat) : (cleanEcc s a).recordDue = s.recordDue := rfl
@[simp] theorem cleanEcc_pci (s : State) (a : Nat) : (cleanEcc s a).pci = s.pci := rfl
@[simp] theorem cleanEcc_msix (s : State) (a : Nat) : (cleanEcc s a).msix = s.msix := rfl
@[simp] theorem cleanEcc_pba (s : State) (a : Nat) : (cleanEcc s a).pba = s.pba := rfl
@[simp] theorem cleanEcc_cpl (s : State) (a : Nat) : (cleanEcc s a).cpl = s.cpl := rfl
@[simp] theorem cleanEcc_posted (s : State) (a : Nat) : (cleanEcc s a).posted = s.posted := rfl
@[simp] theorem cleanEcc_linkAt (s : State) (a : Nat) : (cleanEcc s a).linkAt = s.linkAt := rfl
@[simp] theorem cleanEcc_ltr (s : State) (a : Nat) : (cleanEcc s a).ltr = s.ltr := rfl
@[simp] theorem cleanEcc_log (s : State) (a : Nat) : (cleanEcc s a).log = s.log := rfl
@[simp] theorem cleanEcc_logQ (s : State) (a : Nat) : (cleanEcc s a).logQ = s.logQ := rfl
@[simp] theorem cleanEcc_logLost (s : State) (a : Nat) : (cleanEcc s a).logLost = s.logLost := rfl
@[simp] theorem cleanEcc_smbNack (s : State) (a : Nat) : (cleanEcc s a).smbNack = s.smbNack := rfl
@[simp] theorem cleanEcc_smbOut (s : State) (a : Nat) : (cleanEcc s a).smbOut = s.smbOut := rfl
@[simp] theorem cleanEcc_smbPec (s : State) (a : Nat) : (cleanEcc s a).smbPec = s.smbPec := rfl
@[simp] theorem cleanEcc_smbWrote (s : State) (a : Nat) : (cleanEcc s a).smbWrote = s.smbWrote := rfl
@[simp] theorem cleanEcc_bistDone (s : State) (a : Nat) : (cleanEcc s a).bistDone = s.bistDone := rfl
@[simp] theorem cleanEcc_bistDue (s : State) (a : Nat) : (cleanEcc s a).bistDue = s.bistDue := rfl
@[simp] theorem cleanEcc_bistAt (s : State) (a : Nat) : (cleanEcc s a).bistAt = s.bistAt := rfl
@[simp] theorem cleanEcc_bistEdge (s : State) (a : Nat) : (cleanEcc s a).bistEdge = s.bistEdge := rfl
@[simp] theorem cleanEcc_ddbGen (s : State) (a : Nat) : (cleanEcc s a).ddbGen = s.ddbGen := rfl
@[simp] theorem cleanEcc_ddbValid (s : State) (a : Nat) : (cleanEcc s a).ddbValid = s.ddbValid := rfl
@[simp] theorem cleanEcc_fwVersion (s : State) (a : Nat) : (cleanEcc s a).fwVersion = s.fwVersion := rfl
@[simp] theorem cleanEcc_missing (s : State) (a : Nat) : (cleanEcc s a).missing = s.missing := rfl
@[simp] theorem cleanEcc_tap (s : State) (a : Nat) : (cleanEcc s a).tap = s.tap := rfl
@[simp] theorem cleanEcc_order (s : State) (a : Nat) : (cleanEcc s a).order = s.order := rfl
@[simp] theorem cleanEcc_freeCtr (s : State) (a : Nat) : (cleanEcc s a).freeCtr = s.freeCtr := rfl
@[simp] theorem cleanEcc_pending (s : State) (a : Nat) : (cleanEcc s a).pending = s.pending := rfl
@[simp] theorem rd_cleanEcc (s : State) (a : Nat) (g : RegField) (j : Nat) : rd (cleanEcc s a) g j = rd s g j := rfl

/-! ## `zeroRange` -/

@[simp] theorem zeroRange_regs (s : State) (a n : Nat) : (zeroRange s a n).regs = s.regs := rfl
@[simp] theorem zeroRange_halfW (s : State) (a n : Nat) : (zeroRange s a n).halfW = s.halfW := rfl
@[simp] theorem zeroRange_halfR (s : State) (a n : Nat) : (zeroRange s a n).halfR = s.halfR := rfl
@[simp] theorem zeroRange_mem (s : State) (a n : Nat) : (zeroRange s a n).mem = storeClear s.mem a n := rfl
@[simp] theorem zeroRange_ecc (s : State) (a n : Nat) : (zeroRange s a n).ecc = storeClear s.ecc a n := rfl
@[simp] theorem zeroRange_hostMem (s : State) (a n : Nat) : (zeroRange s a n).hostMem = s.hostMem := rfl
@[simp] theorem zeroRange_hidden (s : State) (a n : Nat) : (zeroRange s a n).hidden = s.hidden := rfl
@[simp] theorem zeroRange_hiddenCe (s : State) (a n : Nat) : (zeroRange s a n).hiddenCe = s.hiddenCe := rfl
@[simp] theorem zeroRange_stallSeen (s : State) (a n : Nat) : (zeroRange s a n).stallSeen = s.stallSeen := rfl
@[simp] theorem zeroRange_flash (s : State) (a n : Nat) : (zeroRange s a n).flash = s.flash := rfl
@[simp] theorem zeroRange_fuses (s : State) (a n : Nat) : (zeroRange s a n).fuses = s.fuses := rfl
@[simp] theorem zeroRange_phase (s : State) (a n : Nat) : (zeroRange s a n).phase = s.phase := rfl
@[simp] theorem zeroRange_clock (s : State) (a n : Nat) : (zeroRange s a n).clock = s.clock := rfl
@[simp] theorem zeroRange_power (s : State) (a n : Nat) : (zeroRange s a n).power = s.power := rfl
@[simp] theorem zeroRange_cores (s : State) (a n : Nat) : (zeroRange s a n).cores = s.cores := rfl
@[simp] theorem zeroRange_clusters (s : State) (a n : Nat) : (zeroRange s a n).clusters = s.clusters := rfl
@[simp] theorem zeroRange_streams (s : State) (a n : Nat) : (zeroRange s a n).streams = s.streams := rfl
@[simp] theorem zeroRange_invalidates (s : State) (a n : Nat) : (zeroRange s a n).invalidates = s.invalidates := rfl
@[simp] theorem zeroRange_vds (s : State) (a n : Nat) : (zeroRange s a n).vds = s.vds := rfl
@[simp] theorem zeroRange_offers (s : State) (a n : Nat) : (zeroRange s a n).offers = s.offers := rfl
@[simp] theorem zeroRange_shs (s : State) (a n : Nat) : (zeroRange s a n).shs = s.shs := rfl
@[simp] theorem zeroRange_encReqs (s : State) (a n : Nat) : (zeroRange s a n).encReqs = s.encReqs := rfl
@[simp] theorem zeroRange_ves (s : State) (a n : Nat) : (zeroRange s a n).ves = s.ves := rfl
@[simp] theorem zeroRange_veWait (s : State) (a n : Nat) : (zeroRange s a n).veWait = s.veWait := rfl
@[simp] theorem zeroRange_veGot (s : State) (a n : Nat) : (zeroRange s a n).veGot = s.veGot := rfl
@[simp] theorem zeroRange_rings (s : State) (a n : Nat) : (zeroRange s a n).rings = s.rings := rfl
@[simp] theorem zeroRange_mgmt (s : State) (a n : Nat) : (zeroRange s a n).mgmt = s.mgmt := rfl
@[simp] theorem zeroRange_mqs (s : State) (a n : Nat) : (zeroRange s a n).mqs = s.mqs := rfl
@[simp] theorem zeroRange_pools (s : State) (a n : Nat) : (zeroRange s a n).pools = s.pools := rfl
@[simp] theorem zeroRange_hostOps (s : State) (a n : Nat) : (zeroRange s a n).hostOps = s.hostOps := rfl
@[simp] theorem zeroRange_allocOut (s : State) (a n : Nat) : (zeroRange s a n).allocOut = s.allocOut := rfl
@[simp] theorem zeroRange_dma (s : State) (a n : Nat) : (zeroRange s a n).dma = s.dma := rfl
@[simp] theorem zeroRange_tags (s : State) (a n : Nat) : (zeroRange s a n).tags = s.tags := rfl
@[simp] theorem zeroRange_arb (s : State) (a n : Nat) : (zeroRange s a n).arb = s.arb := rfl
@[simp] theorem zeroRange_grants (s : State) (a n : Nat) : (zeroRange s a n).grants = s.grants := rfl
@[simp] theorem zeroRange_dramChs (s : State) (a n : Nat) : (zeroRange s a n).dramChs = s.dramChs := rfl
@[simp] theorem zeroRange_scrubAt (s : State) (a n : Nat) : (zeroRange s a n).scrubAt = s.scrubAt := rfl
@[simp] theorem zeroRange_writeback (s : State) (a n : Nat) : (zeroRange s a n).writeback = s.writeback := rfl
@[simp] theorem zeroRange_recordDue (s : State) (a n : Nat) : (zeroRange s a n).recordDue = s.recordDue := rfl
@[simp] theorem zeroRange_pci (s : State) (a n : Nat) : (zeroRange s a n).pci = s.pci := rfl
@[simp] theorem zeroRange_msix (s : State) (a n : Nat) : (zeroRange s a n).msix = s.msix := rfl
@[simp] theorem zeroRange_pba (s : State) (a n : Nat) : (zeroRange s a n).pba = s.pba := rfl
@[simp] theorem zeroRange_cpl (s : State) (a n : Nat) : (zeroRange s a n).cpl = s.cpl := rfl
@[simp] theorem zeroRange_posted (s : State) (a n : Nat) : (zeroRange s a n).posted = s.posted := rfl
@[simp] theorem zeroRange_linkAt (s : State) (a n : Nat) : (zeroRange s a n).linkAt = s.linkAt := rfl
@[simp] theorem zeroRange_ltr (s : State) (a n : Nat) : (zeroRange s a n).ltr = s.ltr := rfl
@[simp] theorem zeroRange_log (s : State) (a n : Nat) : (zeroRange s a n).log = s.log := rfl
@[simp] theorem zeroRange_logQ (s : State) (a n : Nat) : (zeroRange s a n).logQ = s.logQ := rfl
@[simp] theorem zeroRange_logLost (s : State) (a n : Nat) : (zeroRange s a n).logLost = s.logLost := rfl
@[simp] theorem zeroRange_smbNack (s : State) (a n : Nat) : (zeroRange s a n).smbNack = s.smbNack := rfl
@[simp] theorem zeroRange_smbOut (s : State) (a n : Nat) : (zeroRange s a n).smbOut = s.smbOut := rfl
@[simp] theorem zeroRange_smbPec (s : State) (a n : Nat) : (zeroRange s a n).smbPec = s.smbPec := rfl
@[simp] theorem zeroRange_smbWrote (s : State) (a n : Nat) : (zeroRange s a n).smbWrote = s.smbWrote := rfl
@[simp] theorem zeroRange_bistDone (s : State) (a n : Nat) : (zeroRange s a n).bistDone = s.bistDone := rfl
@[simp] theorem zeroRange_bistDue (s : State) (a n : Nat) : (zeroRange s a n).bistDue = s.bistDue := rfl
@[simp] theorem zeroRange_bistAt (s : State) (a n : Nat) : (zeroRange s a n).bistAt = s.bistAt := rfl
@[simp] theorem zeroRange_bistEdge (s : State) (a n : Nat) : (zeroRange s a n).bistEdge = s.bistEdge := rfl
@[simp] theorem zeroRange_ddbGen (s : State) (a n : Nat) : (zeroRange s a n).ddbGen = s.ddbGen := rfl
@[simp] theorem zeroRange_ddbValid (s : State) (a n : Nat) : (zeroRange s a n).ddbValid = s.ddbValid := rfl
@[simp] theorem zeroRange_fwVersion (s : State) (a n : Nat) : (zeroRange s a n).fwVersion = s.fwVersion := rfl
@[simp] theorem zeroRange_missing (s : State) (a n : Nat) : (zeroRange s a n).missing = s.missing := rfl
@[simp] theorem zeroRange_tap (s : State) (a n : Nat) : (zeroRange s a n).tap = s.tap := rfl
@[simp] theorem zeroRange_order (s : State) (a n : Nat) : (zeroRange s a n).order = s.order := rfl
@[simp] theorem zeroRange_freeCtr (s : State) (a n : Nat) : (zeroRange s a n).freeCtr = s.freeCtr := rfl
@[simp] theorem zeroRange_pending (s : State) (a n : Nat) : (zeroRange s a n).pending = s.pending := rfl
@[simp] theorem rd_zeroRange (s : State) (a n : Nat) (g : RegField) (j : Nat) : rd (zeroRange s a n) g j = rd s g j := rfl

/-! ## `hostWrite` -/

@[simp] theorem hostWrite_regs (s : State) (a : Nat) (bs : List Byte) : (hostWrite s a bs).regs = s.regs := rfl
@[simp] theorem hostWrite_halfW (s : State) (a : Nat) (bs : List Byte) : (hostWrite s a bs).halfW = s.halfW := rfl
@[simp] theorem hostWrite_halfR (s : State) (a : Nat) (bs : List Byte) : (hostWrite s a bs).halfR = s.halfR := rfl
@[simp] theorem hostWrite_mem (s : State) (a : Nat) (bs : List Byte) : (hostWrite s a bs).mem = s.mem := rfl
@[simp] theorem hostWrite_ecc (s : State) (a : Nat) (bs : List Byte) : (hostWrite s a bs).ecc = s.ecc := rfl
@[simp] theorem hostWrite_hostMem (s : State) (a : Nat) (bs : List Byte) : (hostWrite s a bs).hostMem = storeSetMany 0 s.hostMem a bs := rfl
@[simp] theorem hostWrite_hidden (s : State) (a : Nat) (bs : List Byte) : (hostWrite s a bs).hidden = s.hidden := rfl
@[simp] theorem hostWrite_hiddenCe (s : State) (a : Nat) (bs : List Byte) : (hostWrite s a bs).hiddenCe = s.hiddenCe := rfl
@[simp] theorem hostWrite_stallSeen (s : State) (a : Nat) (bs : List Byte) : (hostWrite s a bs).stallSeen = s.stallSeen := rfl
@[simp] theorem hostWrite_flash (s : State) (a : Nat) (bs : List Byte) : (hostWrite s a bs).flash = s.flash := rfl
@[simp] theorem hostWrite_fuses (s : State) (a : Nat) (bs : List Byte) : (hostWrite s a bs).fuses = s.fuses := rfl
@[simp] theorem hostWrite_phase (s : State) (a : Nat) (bs : List Byte) : (hostWrite s a bs).phase = s.phase := rfl
@[simp] theorem hostWrite_clock (s : State) (a : Nat) (bs : List Byte) : (hostWrite s a bs).clock = s.clock := rfl
@[simp] theorem hostWrite_power (s : State) (a : Nat) (bs : List Byte) : (hostWrite s a bs).power = s.power := rfl
@[simp] theorem hostWrite_cores (s : State) (a : Nat) (bs : List Byte) : (hostWrite s a bs).cores = s.cores := rfl
@[simp] theorem hostWrite_clusters (s : State) (a : Nat) (bs : List Byte) : (hostWrite s a bs).clusters = s.clusters := rfl
@[simp] theorem hostWrite_streams (s : State) (a : Nat) (bs : List Byte) : (hostWrite s a bs).streams = s.streams := rfl
@[simp] theorem hostWrite_invalidates (s : State) (a : Nat) (bs : List Byte) : (hostWrite s a bs).invalidates = s.invalidates := rfl
@[simp] theorem hostWrite_vds (s : State) (a : Nat) (bs : List Byte) : (hostWrite s a bs).vds = s.vds := rfl
@[simp] theorem hostWrite_offers (s : State) (a : Nat) (bs : List Byte) : (hostWrite s a bs).offers = s.offers := rfl
@[simp] theorem hostWrite_shs (s : State) (a : Nat) (bs : List Byte) : (hostWrite s a bs).shs = s.shs := rfl
@[simp] theorem hostWrite_encReqs (s : State) (a : Nat) (bs : List Byte) : (hostWrite s a bs).encReqs = s.encReqs := rfl
@[simp] theorem hostWrite_ves (s : State) (a : Nat) (bs : List Byte) : (hostWrite s a bs).ves = s.ves := rfl
@[simp] theorem hostWrite_veWait (s : State) (a : Nat) (bs : List Byte) : (hostWrite s a bs).veWait = s.veWait := rfl
@[simp] theorem hostWrite_veGot (s : State) (a : Nat) (bs : List Byte) : (hostWrite s a bs).veGot = s.veGot := rfl
@[simp] theorem hostWrite_rings (s : State) (a : Nat) (bs : List Byte) : (hostWrite s a bs).rings = s.rings := rfl
@[simp] theorem hostWrite_mgmt (s : State) (a : Nat) (bs : List Byte) : (hostWrite s a bs).mgmt = s.mgmt := rfl
@[simp] theorem hostWrite_mqs (s : State) (a : Nat) (bs : List Byte) : (hostWrite s a bs).mqs = s.mqs := rfl
@[simp] theorem hostWrite_pools (s : State) (a : Nat) (bs : List Byte) : (hostWrite s a bs).pools = s.pools := rfl
@[simp] theorem hostWrite_hostOps (s : State) (a : Nat) (bs : List Byte) : (hostWrite s a bs).hostOps = s.hostOps := rfl
@[simp] theorem hostWrite_allocOut (s : State) (a : Nat) (bs : List Byte) : (hostWrite s a bs).allocOut = s.allocOut := rfl
@[simp] theorem hostWrite_dma (s : State) (a : Nat) (bs : List Byte) : (hostWrite s a bs).dma = s.dma := rfl
@[simp] theorem hostWrite_tags (s : State) (a : Nat) (bs : List Byte) : (hostWrite s a bs).tags = s.tags := rfl
@[simp] theorem hostWrite_arb (s : State) (a : Nat) (bs : List Byte) : (hostWrite s a bs).arb = s.arb := rfl
@[simp] theorem hostWrite_grants (s : State) (a : Nat) (bs : List Byte) : (hostWrite s a bs).grants = s.grants := rfl
@[simp] theorem hostWrite_dramChs (s : State) (a : Nat) (bs : List Byte) : (hostWrite s a bs).dramChs = s.dramChs := rfl
@[simp] theorem hostWrite_scrubAt (s : State) (a : Nat) (bs : List Byte) : (hostWrite s a bs).scrubAt = s.scrubAt := rfl
@[simp] theorem hostWrite_writeback (s : State) (a : Nat) (bs : List Byte) : (hostWrite s a bs).writeback = s.writeback := rfl
@[simp] theorem hostWrite_recordDue (s : State) (a : Nat) (bs : List Byte) : (hostWrite s a bs).recordDue = s.recordDue := rfl
@[simp] theorem hostWrite_pci (s : State) (a : Nat) (bs : List Byte) : (hostWrite s a bs).pci = s.pci := rfl
@[simp] theorem hostWrite_msix (s : State) (a : Nat) (bs : List Byte) : (hostWrite s a bs).msix = s.msix := rfl
@[simp] theorem hostWrite_pba (s : State) (a : Nat) (bs : List Byte) : (hostWrite s a bs).pba = s.pba := rfl
@[simp] theorem hostWrite_cpl (s : State) (a : Nat) (bs : List Byte) : (hostWrite s a bs).cpl = s.cpl := rfl
@[simp] theorem hostWrite_posted (s : State) (a : Nat) (bs : List Byte) : (hostWrite s a bs).posted = s.posted := rfl
@[simp] theorem hostWrite_linkAt (s : State) (a : Nat) (bs : List Byte) : (hostWrite s a bs).linkAt = s.linkAt := rfl
@[simp] theorem hostWrite_ltr (s : State) (a : Nat) (bs : List Byte) : (hostWrite s a bs).ltr = s.ltr := rfl
@[simp] theorem hostWrite_log (s : State) (a : Nat) (bs : List Byte) : (hostWrite s a bs).log = s.log := rfl
@[simp] theorem hostWrite_logQ (s : State) (a : Nat) (bs : List Byte) : (hostWrite s a bs).logQ = s.logQ := rfl
@[simp] theorem hostWrite_logLost (s : State) (a : Nat) (bs : List Byte) : (hostWrite s a bs).logLost = s.logLost := rfl
@[simp] theorem hostWrite_smbNack (s : State) (a : Nat) (bs : List Byte) : (hostWrite s a bs).smbNack = s.smbNack := rfl
@[simp] theorem hostWrite_smbOut (s : State) (a : Nat) (bs : List Byte) : (hostWrite s a bs).smbOut = s.smbOut := rfl
@[simp] theorem hostWrite_smbPec (s : State) (a : Nat) (bs : List Byte) : (hostWrite s a bs).smbPec = s.smbPec := rfl
@[simp] theorem hostWrite_smbWrote (s : State) (a : Nat) (bs : List Byte) : (hostWrite s a bs).smbWrote = s.smbWrote := rfl
@[simp] theorem hostWrite_bistDone (s : State) (a : Nat) (bs : List Byte) : (hostWrite s a bs).bistDone = s.bistDone := rfl
@[simp] theorem hostWrite_bistDue (s : State) (a : Nat) (bs : List Byte) : (hostWrite s a bs).bistDue = s.bistDue := rfl
@[simp] theorem hostWrite_bistAt (s : State) (a : Nat) (bs : List Byte) : (hostWrite s a bs).bistAt = s.bistAt := rfl
@[simp] theorem hostWrite_bistEdge (s : State) (a : Nat) (bs : List Byte) : (hostWrite s a bs).bistEdge = s.bistEdge := rfl
@[simp] theorem hostWrite_ddbGen (s : State) (a : Nat) (bs : List Byte) : (hostWrite s a bs).ddbGen = s.ddbGen := rfl
@[simp] theorem hostWrite_ddbValid (s : State) (a : Nat) (bs : List Byte) : (hostWrite s a bs).ddbValid = s.ddbValid := rfl
@[simp] theorem hostWrite_fwVersion (s : State) (a : Nat) (bs : List Byte) : (hostWrite s a bs).fwVersion = s.fwVersion := rfl
@[simp] theorem hostWrite_missing (s : State) (a : Nat) (bs : List Byte) : (hostWrite s a bs).missing = s.missing := rfl
@[simp] theorem hostWrite_tap (s : State) (a : Nat) (bs : List Byte) : (hostWrite s a bs).tap = s.tap := rfl
@[simp] theorem hostWrite_order (s : State) (a : Nat) (bs : List Byte) : (hostWrite s a bs).order = s.order := rfl
@[simp] theorem hostWrite_freeCtr (s : State) (a : Nat) (bs : List Byte) : (hostWrite s a bs).freeCtr = s.freeCtr := rfl
@[simp] theorem hostWrite_pending (s : State) (a : Nat) (bs : List Byte) : (hostWrite s a bs).pending = s.pending := rfl
@[simp] theorem rd_hostWrite (s : State) (a : Nat) (bs : List Byte) (g : RegField) (j : Nat) : rd (hostWrite s a bs) g j = rd s g j := rfl

/-! ## `raiseVector` -/

@[simp] theorem raiseVector_regs (s : State) (v : Nat) : (raiseVector s v).regs = s.regs := rfl
@[simp] theorem raiseVector_halfW (s : State) (v : Nat) : (raiseVector s v).halfW = s.halfW := rfl
@[simp] theorem raiseVector_halfR (s : State) (v : Nat) : (raiseVector s v).halfR = s.halfR := rfl
@[simp] theorem raiseVector_mem (s : State) (v : Nat) : (raiseVector s v).mem = s.mem := rfl
@[simp] theorem raiseVector_ecc (s : State) (v : Nat) : (raiseVector s v).ecc = s.ecc := rfl
@[simp] theorem raiseVector_hostMem (s : State) (v : Nat) : (raiseVector s v).hostMem = s.hostMem := rfl
@[simp] theorem raiseVector_hidden (s : State) (v : Nat) : (raiseVector s v).hidden = s.hidden := rfl
@[simp] theorem raiseVector_hiddenCe (s : State) (v : Nat) : (raiseVector s v).hiddenCe = s.hiddenCe := rfl
@[simp] theorem raiseVector_stallSeen (s : State) (v : Nat) : (raiseVector s v).stallSeen = s.stallSeen := rfl
@[simp] theorem raiseVector_flash (s : State) (v : Nat) : (raiseVector s v).flash = s.flash := rfl
@[simp] theorem raiseVector_fuses (s : State) (v : Nat) : (raiseVector s v).fuses = s.fuses := rfl
@[simp] theorem raiseVector_phase (s : State) (v : Nat) : (raiseVector s v).phase = s.phase := rfl
@[simp] theorem raiseVector_clock (s : State) (v : Nat) : (raiseVector s v).clock = s.clock := rfl
@[simp] theorem raiseVector_power (s : State) (v : Nat) : (raiseVector s v).power = s.power := rfl
@[simp] theorem raiseVector_cores (s : State) (v : Nat) : (raiseVector s v).cores = s.cores := rfl
@[simp] theorem raiseVector_clusters (s : State) (v : Nat) : (raiseVector s v).clusters = s.clusters := rfl
@[simp] theorem raiseVector_streams (s : State) (v : Nat) : (raiseVector s v).streams = s.streams := rfl
@[simp] theorem raiseVector_invalidates (s : State) (v : Nat) : (raiseVector s v).invalidates = s.invalidates := rfl
@[simp] theorem raiseVector_vds (s : State) (v : Nat) : (raiseVector s v).vds = s.vds := rfl
@[simp] theorem raiseVector_offers (s : State) (v : Nat) : (raiseVector s v).offers = s.offers := rfl
@[simp] theorem raiseVector_shs (s : State) (v : Nat) : (raiseVector s v).shs = s.shs := rfl
@[simp] theorem raiseVector_encReqs (s : State) (v : Nat) : (raiseVector s v).encReqs = s.encReqs := rfl
@[simp] theorem raiseVector_ves (s : State) (v : Nat) : (raiseVector s v).ves = s.ves := rfl
@[simp] theorem raiseVector_veWait (s : State) (v : Nat) : (raiseVector s v).veWait = s.veWait := rfl
@[simp] theorem raiseVector_veGot (s : State) (v : Nat) : (raiseVector s v).veGot = s.veGot := rfl
@[simp] theorem raiseVector_rings (s : State) (v : Nat) : (raiseVector s v).rings = s.rings := rfl
@[simp] theorem raiseVector_mgmt (s : State) (v : Nat) : (raiseVector s v).mgmt = s.mgmt := rfl
@[simp] theorem raiseVector_mqs (s : State) (v : Nat) : (raiseVector s v).mqs = s.mqs := rfl
@[simp] theorem raiseVector_pools (s : State) (v : Nat) : (raiseVector s v).pools = s.pools := rfl
@[simp] theorem raiseVector_hostOps (s : State) (v : Nat) : (raiseVector s v).hostOps = s.hostOps := rfl
@[simp] theorem raiseVector_allocOut (s : State) (v : Nat) : (raiseVector s v).allocOut = s.allocOut := rfl
@[simp] theorem raiseVector_dma (s : State) (v : Nat) : (raiseVector s v).dma = s.dma := rfl
@[simp] theorem raiseVector_tags (s : State) (v : Nat) : (raiseVector s v).tags = s.tags := rfl
@[simp] theorem raiseVector_arb (s : State) (v : Nat) : (raiseVector s v).arb = s.arb := rfl
@[simp] theorem raiseVector_grants (s : State) (v : Nat) : (raiseVector s v).grants = s.grants := rfl
@[simp] theorem raiseVector_dramChs (s : State) (v : Nat) : (raiseVector s v).dramChs = s.dramChs := rfl
@[simp] theorem raiseVector_scrubAt (s : State) (v : Nat) : (raiseVector s v).scrubAt = s.scrubAt := rfl
@[simp] theorem raiseVector_writeback (s : State) (v : Nat) : (raiseVector s v).writeback = s.writeback := rfl
@[simp] theorem raiseVector_recordDue (s : State) (v : Nat) : (raiseVector s v).recordDue = s.recordDue := rfl
@[simp] theorem raiseVector_pci (s : State) (v : Nat) : (raiseVector s v).pci = s.pci := rfl
@[simp] theorem raiseVector_msix (s : State) (v : Nat) : (raiseVector s v).msix = s.msix := rfl
@[simp] theorem raiseVector_cpl (s : State) (v : Nat) : (raiseVector s v).cpl = s.cpl := rfl
@[simp] theorem raiseVector_posted (s : State) (v : Nat) : (raiseVector s v).posted = s.posted := rfl
@[simp] theorem raiseVector_linkAt (s : State) (v : Nat) : (raiseVector s v).linkAt = s.linkAt := rfl
@[simp] theorem raiseVector_ltr (s : State) (v : Nat) : (raiseVector s v).ltr = s.ltr := rfl
@[simp] theorem raiseVector_log (s : State) (v : Nat) : (raiseVector s v).log = s.log := rfl
@[simp] theorem raiseVector_logQ (s : State) (v : Nat) : (raiseVector s v).logQ = s.logQ := rfl
@[simp] theorem raiseVector_logLost (s : State) (v : Nat) : (raiseVector s v).logLost = s.logLost := rfl
@[simp] theorem raiseVector_smbNack (s : State) (v : Nat) : (raiseVector s v).smbNack = s.smbNack := rfl
@[simp] theorem raiseVector_smbOut (s : State) (v : Nat) : (raiseVector s v).smbOut = s.smbOut := rfl
@[simp] theorem raiseVector_smbPec (s : State) (v : Nat) : (raiseVector s v).smbPec = s.smbPec := rfl
@[simp] theorem raiseVector_smbWrote (s : State) (v : Nat) : (raiseVector s v).smbWrote = s.smbWrote := rfl
@[simp] theorem raiseVector_bistDone (s : State) (v : Nat) : (raiseVector s v).bistDone = s.bistDone := rfl
@[simp] theorem raiseVector_bistDue (s : State) (v : Nat) : (raiseVector s v).bistDue = s.bistDue := rfl
@[simp] theorem raiseVector_bistAt (s : State) (v : Nat) : (raiseVector s v).bistAt = s.bistAt := rfl
@[simp] theorem raiseVector_bistEdge (s : State) (v : Nat) : (raiseVector s v).bistEdge = s.bistEdge := rfl
@[simp] theorem raiseVector_ddbGen (s : State) (v : Nat) : (raiseVector s v).ddbGen = s.ddbGen := rfl
@[simp] theorem raiseVector_ddbValid (s : State) (v : Nat) : (raiseVector s v).ddbValid = s.ddbValid := rfl
@[simp] theorem raiseVector_fwVersion (s : State) (v : Nat) : (raiseVector s v).fwVersion = s.fwVersion := rfl
@[simp] theorem raiseVector_missing (s : State) (v : Nat) : (raiseVector s v).missing = s.missing := rfl
@[simp] theorem raiseVector_tap (s : State) (v : Nat) : (raiseVector s v).tap = s.tap := rfl
@[simp] theorem raiseVector_order (s : State) (v : Nat) : (raiseVector s v).order = s.order := rfl
@[simp] theorem raiseVector_freeCtr (s : State) (v : Nat) : (raiseVector s v).freeCtr = s.freeCtr := rfl
@[simp] theorem raiseVector_pending (s : State) (v : Nat) : (raiseVector s v).pending = s.pending := rfl
@[simp] theorem rd_raiseVector (s : State) (v : Nat) (g : RegField) (j : Nat) : rd (raiseVector s v) g j = rd s g j := rfl

/-! ## `bump` -/

@[simp] theorem bump_halfW (s : State) (f : RegField) (i n : Nat) : (bump s f i n).halfW = s.halfW := by rcases bump_cases s f i n with ⟨v, h⟩ | ⟨v, h⟩ <;> rw [h] <;> rfl
@[simp] theorem bump_halfR (s : State) (f : RegField) (i n : Nat) : (bump s f i n).halfR = s.halfR := by rcases bump_cases s f i n with ⟨v, h⟩ | ⟨v, h⟩ <;> rw [h] <;> rfl
@[simp] theorem bump_mem (s : State) (f : RegField) (i n : Nat) : (bump s f i n).mem = s.mem := by rcases bump_cases s f i n with ⟨v, h⟩ | ⟨v, h⟩ <;> rw [h] <;> rfl
@[simp] theorem bump_ecc (s : State) (f : RegField) (i n : Nat) : (bump s f i n).ecc = s.ecc := by rcases bump_cases s f i n with ⟨v, h⟩ | ⟨v, h⟩ <;> rw [h] <;> rfl
@[simp] theorem bump_hostMem (s : State) (f : RegField) (i n : Nat) : (bump s f i n).hostMem = s.hostMem := by rcases bump_cases s f i n with ⟨v, h⟩ | ⟨v, h⟩ <;> rw [h] <;> rfl
@[simp] theorem bump_hidden (s : State) (f : RegField) (i n : Nat) : (bump s f i n).hidden = s.hidden := by rcases bump_cases s f i n with ⟨v, h⟩ | ⟨v, h⟩ <;> rw [h] <;> rfl
@[simp] theorem bump_hiddenCe (s : State) (f : RegField) (i n : Nat) : (bump s f i n).hiddenCe = s.hiddenCe := by rcases bump_cases s f i n with ⟨v, h⟩ | ⟨v, h⟩ <;> rw [h] <;> rfl
@[simp] theorem bump_stallSeen (s : State) (f : RegField) (i n : Nat) : (bump s f i n).stallSeen = s.stallSeen := by rcases bump_cases s f i n with ⟨v, h⟩ | ⟨v, h⟩ <;> rw [h] <;> rfl
@[simp] theorem bump_flash (s : State) (f : RegField) (i n : Nat) : (bump s f i n).flash = s.flash := by rcases bump_cases s f i n with ⟨v, h⟩ | ⟨v, h⟩ <;> rw [h] <;> rfl
@[simp] theorem bump_fuses (s : State) (f : RegField) (i n : Nat) : (bump s f i n).fuses = s.fuses := by rcases bump_cases s f i n with ⟨v, h⟩ | ⟨v, h⟩ <;> rw [h] <;> rfl
@[simp] theorem bump_phase (s : State) (f : RegField) (i n : Nat) : (bump s f i n).phase = s.phase := by rcases bump_cases s f i n with ⟨v, h⟩ | ⟨v, h⟩ <;> rw [h] <;> rfl
@[simp] theorem bump_clock (s : State) (f : RegField) (i n : Nat) : (bump s f i n).clock = s.clock := by rcases bump_cases s f i n with ⟨v, h⟩ | ⟨v, h⟩ <;> rw [h] <;> rfl
@[simp] theorem bump_power (s : State) (f : RegField) (i n : Nat) : (bump s f i n).power = s.power := by rcases bump_cases s f i n with ⟨v, h⟩ | ⟨v, h⟩ <;> rw [h] <;> rfl
@[simp] theorem bump_cores (s : State) (f : RegField) (i n : Nat) : (bump s f i n).cores = s.cores := by rcases bump_cases s f i n with ⟨v, h⟩ | ⟨v, h⟩ <;> rw [h] <;> rfl
@[simp] theorem bump_clusters (s : State) (f : RegField) (i n : Nat) : (bump s f i n).clusters = s.clusters := by rcases bump_cases s f i n with ⟨v, h⟩ | ⟨v, h⟩ <;> rw [h] <;> rfl
@[simp] theorem bump_streams (s : State) (f : RegField) (i n : Nat) : (bump s f i n).streams = s.streams := by rcases bump_cases s f i n with ⟨v, h⟩ | ⟨v, h⟩ <;> rw [h] <;> rfl
@[simp] theorem bump_invalidates (s : State) (f : RegField) (i n : Nat) : (bump s f i n).invalidates = s.invalidates := by rcases bump_cases s f i n with ⟨v, h⟩ | ⟨v, h⟩ <;> rw [h] <;> rfl
@[simp] theorem bump_vds (s : State) (f : RegField) (i n : Nat) : (bump s f i n).vds = s.vds := by rcases bump_cases s f i n with ⟨v, h⟩ | ⟨v, h⟩ <;> rw [h] <;> rfl
@[simp] theorem bump_offers (s : State) (f : RegField) (i n : Nat) : (bump s f i n).offers = s.offers := by rcases bump_cases s f i n with ⟨v, h⟩ | ⟨v, h⟩ <;> rw [h] <;> rfl
@[simp] theorem bump_shs (s : State) (f : RegField) (i n : Nat) : (bump s f i n).shs = s.shs := by rcases bump_cases s f i n with ⟨v, h⟩ | ⟨v, h⟩ <;> rw [h] <;> rfl
@[simp] theorem bump_encReqs (s : State) (f : RegField) (i n : Nat) : (bump s f i n).encReqs = s.encReqs := by rcases bump_cases s f i n with ⟨v, h⟩ | ⟨v, h⟩ <;> rw [h] <;> rfl
@[simp] theorem bump_ves (s : State) (f : RegField) (i n : Nat) : (bump s f i n).ves = s.ves := by rcases bump_cases s f i n with ⟨v, h⟩ | ⟨v, h⟩ <;> rw [h] <;> rfl
@[simp] theorem bump_veWait (s : State) (f : RegField) (i n : Nat) : (bump s f i n).veWait = s.veWait := by rcases bump_cases s f i n with ⟨v, h⟩ | ⟨v, h⟩ <;> rw [h] <;> rfl
@[simp] theorem bump_veGot (s : State) (f : RegField) (i n : Nat) : (bump s f i n).veGot = s.veGot := by rcases bump_cases s f i n with ⟨v, h⟩ | ⟨v, h⟩ <;> rw [h] <;> rfl
@[simp] theorem bump_rings (s : State) (f : RegField) (i n : Nat) : (bump s f i n).rings = s.rings := by rcases bump_cases s f i n with ⟨v, h⟩ | ⟨v, h⟩ <;> rw [h] <;> rfl
@[simp] theorem bump_mgmt (s : State) (f : RegField) (i n : Nat) : (bump s f i n).mgmt = s.mgmt := by rcases bump_cases s f i n with ⟨v, h⟩ | ⟨v, h⟩ <;> rw [h] <;> rfl
@[simp] theorem bump_mqs (s : State) (f : RegField) (i n : Nat) : (bump s f i n).mqs = s.mqs := by rcases bump_cases s f i n with ⟨v, h⟩ | ⟨v, h⟩ <;> rw [h] <;> rfl
@[simp] theorem bump_pools (s : State) (f : RegField) (i n : Nat) : (bump s f i n).pools = s.pools := by rcases bump_cases s f i n with ⟨v, h⟩ | ⟨v, h⟩ <;> rw [h] <;> rfl
@[simp] theorem bump_hostOps (s : State) (f : RegField) (i n : Nat) : (bump s f i n).hostOps = s.hostOps := by rcases bump_cases s f i n with ⟨v, h⟩ | ⟨v, h⟩ <;> rw [h] <;> rfl
@[simp] theorem bump_allocOut (s : State) (f : RegField) (i n : Nat) : (bump s f i n).allocOut = s.allocOut := by rcases bump_cases s f i n with ⟨v, h⟩ | ⟨v, h⟩ <;> rw [h] <;> rfl
@[simp] theorem bump_dma (s : State) (f : RegField) (i n : Nat) : (bump s f i n).dma = s.dma := by rcases bump_cases s f i n with ⟨v, h⟩ | ⟨v, h⟩ <;> rw [h] <;> rfl
@[simp] theorem bump_tags (s : State) (f : RegField) (i n : Nat) : (bump s f i n).tags = s.tags := by rcases bump_cases s f i n with ⟨v, h⟩ | ⟨v, h⟩ <;> rw [h] <;> rfl
@[simp] theorem bump_arb (s : State) (f : RegField) (i n : Nat) : (bump s f i n).arb = s.arb := by rcases bump_cases s f i n with ⟨v, h⟩ | ⟨v, h⟩ <;> rw [h] <;> rfl
@[simp] theorem bump_grants (s : State) (f : RegField) (i n : Nat) : (bump s f i n).grants = s.grants := by rcases bump_cases s f i n with ⟨v, h⟩ | ⟨v, h⟩ <;> rw [h] <;> rfl
@[simp] theorem bump_dramChs (s : State) (f : RegField) (i n : Nat) : (bump s f i n).dramChs = s.dramChs := by rcases bump_cases s f i n with ⟨v, h⟩ | ⟨v, h⟩ <;> rw [h] <;> rfl
@[simp] theorem bump_scrubAt (s : State) (f : RegField) (i n : Nat) : (bump s f i n).scrubAt = s.scrubAt := by rcases bump_cases s f i n with ⟨v, h⟩ | ⟨v, h⟩ <;> rw [h] <;> rfl
@[simp] theorem bump_writeback (s : State) (f : RegField) (i n : Nat) : (bump s f i n).writeback = s.writeback := by rcases bump_cases s f i n with ⟨v, h⟩ | ⟨v, h⟩ <;> rw [h] <;> rfl
@[simp] theorem bump_recordDue (s : State) (f : RegField) (i n : Nat) : (bump s f i n).recordDue = s.recordDue := by rcases bump_cases s f i n with ⟨v, h⟩ | ⟨v, h⟩ <;> rw [h] <;> rfl
@[simp] theorem bump_pci (s : State) (f : RegField) (i n : Nat) : (bump s f i n).pci = s.pci := by rcases bump_cases s f i n with ⟨v, h⟩ | ⟨v, h⟩ <;> rw [h] <;> rfl
@[simp] theorem bump_msix (s : State) (f : RegField) (i n : Nat) : (bump s f i n).msix = s.msix := by rcases bump_cases s f i n with ⟨v, h⟩ | ⟨v, h⟩ <;> rw [h] <;> rfl
@[simp] theorem bump_pba (s : State) (f : RegField) (i n : Nat) : (bump s f i n).pba = s.pba := by rcases bump_cases s f i n with ⟨v, h⟩ | ⟨v, h⟩ <;> rw [h] <;> rfl
@[simp] theorem bump_cpl (s : State) (f : RegField) (i n : Nat) : (bump s f i n).cpl = s.cpl := by rcases bump_cases s f i n with ⟨v, h⟩ | ⟨v, h⟩ <;> rw [h] <;> rfl
@[simp] theorem bump_posted (s : State) (f : RegField) (i n : Nat) : (bump s f i n).posted = s.posted := by rcases bump_cases s f i n with ⟨v, h⟩ | ⟨v, h⟩ <;> rw [h] <;> rfl
@[simp] theorem bump_linkAt (s : State) (f : RegField) (i n : Nat) : (bump s f i n).linkAt = s.linkAt := by rcases bump_cases s f i n with ⟨v, h⟩ | ⟨v, h⟩ <;> rw [h] <;> rfl
@[simp] theorem bump_ltr (s : State) (f : RegField) (i n : Nat) : (bump s f i n).ltr = s.ltr := by rcases bump_cases s f i n with ⟨v, h⟩ | ⟨v, h⟩ <;> rw [h] <;> rfl
@[simp] theorem bump_log (s : State) (f : RegField) (i n : Nat) : (bump s f i n).log = s.log := by rcases bump_cases s f i n with ⟨v, h⟩ | ⟨v, h⟩ <;> rw [h] <;> rfl
@[simp] theorem bump_logQ (s : State) (f : RegField) (i n : Nat) : (bump s f i n).logQ = s.logQ := by rcases bump_cases s f i n with ⟨v, h⟩ | ⟨v, h⟩ <;> rw [h] <;> rfl
@[simp] theorem bump_logLost (s : State) (f : RegField) (i n : Nat) : (bump s f i n).logLost = s.logLost := by rcases bump_cases s f i n with ⟨v, h⟩ | ⟨v, h⟩ <;> rw [h] <;> rfl
@[simp] theorem bump_smbNack (s : State) (f : RegField) (i n : Nat) : (bump s f i n).smbNack = s.smbNack := by rcases bump_cases s f i n with ⟨v, h⟩ | ⟨v, h⟩ <;> rw [h] <;> rfl
@[simp] theorem bump_smbOut (s : State) (f : RegField) (i n : Nat) : (bump s f i n).smbOut = s.smbOut := by rcases bump_cases s f i n with ⟨v, h⟩ | ⟨v, h⟩ <;> rw [h] <;> rfl
@[simp] theorem bump_smbPec (s : State) (f : RegField) (i n : Nat) : (bump s f i n).smbPec = s.smbPec := by rcases bump_cases s f i n with ⟨v, h⟩ | ⟨v, h⟩ <;> rw [h] <;> rfl
@[simp] theorem bump_smbWrote (s : State) (f : RegField) (i n : Nat) : (bump s f i n).smbWrote = s.smbWrote := by rcases bump_cases s f i n with ⟨v, h⟩ | ⟨v, h⟩ <;> rw [h] <;> rfl
@[simp] theorem bump_bistDone (s : State) (f : RegField) (i n : Nat) : (bump s f i n).bistDone = s.bistDone := by rcases bump_cases s f i n with ⟨v, h⟩ | ⟨v, h⟩ <;> rw [h] <;> rfl
@[simp] theorem bump_bistDue (s : State) (f : RegField) (i n : Nat) : (bump s f i n).bistDue = s.bistDue := by rcases bump_cases s f i n with ⟨v, h⟩ | ⟨v, h⟩ <;> rw [h] <;> rfl
@[simp] theorem bump_bistAt (s : State) (f : RegField) (i n : Nat) : (bump s f i n).bistAt = s.bistAt := by rcases bump_cases s f i n with ⟨v, h⟩ | ⟨v, h⟩ <;> rw [h] <;> rfl
@[simp] theorem bump_bistEdge (s : State) (f : RegField) (i n : Nat) : (bump s f i n).bistEdge = s.bistEdge := by rcases bump_cases s f i n with ⟨v, h⟩ | ⟨v, h⟩ <;> rw [h] <;> rfl
@[simp] theorem bump_ddbGen (s : State) (f : RegField) (i n : Nat) : (bump s f i n).ddbGen = s.ddbGen := by rcases bump_cases s f i n with ⟨v, h⟩ | ⟨v, h⟩ <;> rw [h] <;> rfl
@[simp] theorem bump_ddbValid (s : State) (f : RegField) (i n : Nat) : (bump s f i n).ddbValid = s.ddbValid := by rcases bump_cases s f i n with ⟨v, h⟩ | ⟨v, h⟩ <;> rw [h] <;> rfl
@[simp] theorem bump_fwVersion (s : State) (f : RegField) (i n : Nat) : (bump s f i n).fwVersion = s.fwVersion := by rcases bump_cases s f i n with ⟨v, h⟩ | ⟨v, h⟩ <;> rw [h] <;> rfl
@[simp] theorem bump_missing (s : State) (f : RegField) (i n : Nat) : (bump s f i n).missing = s.missing := by rcases bump_cases s f i n with ⟨v, h⟩ | ⟨v, h⟩ <;> rw [h] <;> rfl
@[simp] theorem bump_tap (s : State) (f : RegField) (i n : Nat) : (bump s f i n).tap = s.tap := by rcases bump_cases s f i n with ⟨v, h⟩ | ⟨v, h⟩ <;> rw [h] <;> rfl
@[simp] theorem bump_order (s : State) (f : RegField) (i n : Nat) : (bump s f i n).order = s.order := by rcases bump_cases s f i n with ⟨v, h⟩ | ⟨v, h⟩ <;> rw [h] <;> rfl
@[simp] theorem bump_pending (s : State) (f : RegField) (i n : Nat) : (bump s f i n).pending = s.pending := by rcases bump_cases s f i n with ⟨v, h⟩ | ⟨v, h⟩ <;> rw [h] <;> rfl

/-! ## `logPush` -/

@[simp] theorem logPush_halfW (s : State) (p : Fin 3) (e : LogEntry) : (logPush s p e).halfW = s.halfW := by unfold logPush; split <;> simp
@[simp] theorem logPush_halfR (s : State) (p : Fin 3) (e : LogEntry) : (logPush s p e).halfR = s.halfR := by unfold logPush; split <;> simp
@[simp] theorem logPush_mem (s : State) (p : Fin 3) (e : LogEntry) : (logPush s p e).mem = s.mem := by unfold logPush; split <;> simp
@[simp] theorem logPush_ecc (s : State) (p : Fin 3) (e : LogEntry) : (logPush s p e).ecc = s.ecc := by unfold logPush; split <;> simp
@[simp] theorem logPush_hostMem (s : State) (p : Fin 3) (e : LogEntry) : (logPush s p e).hostMem = s.hostMem := by unfold logPush; split <;> simp
@[simp] theorem logPush_hidden (s : State) (p : Fin 3) (e : LogEntry) : (logPush s p e).hidden = s.hidden := by unfold logPush; split <;> simp
@[simp] theorem logPush_hiddenCe (s : State) (p : Fin 3) (e : LogEntry) : (logPush s p e).hiddenCe = s.hiddenCe := by unfold logPush; split <;> simp
@[simp] theorem logPush_stallSeen (s : State) (p : Fin 3) (e : LogEntry) : (logPush s p e).stallSeen = s.stallSeen := by unfold logPush; split <;> simp
@[simp] theorem logPush_flash (s : State) (p : Fin 3) (e : LogEntry) : (logPush s p e).flash = s.flash := by unfold logPush; split <;> simp
@[simp] theorem logPush_fuses (s : State) (p : Fin 3) (e : LogEntry) : (logPush s p e).fuses = s.fuses := by unfold logPush; split <;> simp
@[simp] theorem logPush_phase (s : State) (p : Fin 3) (e : LogEntry) : (logPush s p e).phase = s.phase := by unfold logPush; split <;> simp
@[simp] theorem logPush_clock (s : State) (p : Fin 3) (e : LogEntry) : (logPush s p e).clock = s.clock := by unfold logPush; split <;> simp
@[simp] theorem logPush_power (s : State) (p : Fin 3) (e : LogEntry) : (logPush s p e).power = s.power := by unfold logPush; split <;> simp
@[simp] theorem logPush_cores (s : State) (p : Fin 3) (e : LogEntry) : (logPush s p e).cores = s.cores := by unfold logPush; split <;> simp
@[simp] theorem logPush_clusters (s : State) (p : Fin 3) (e : LogEntry) : (logPush s p e).clusters = s.clusters := by unfold logPush; split <;> simp
@[simp] theorem logPush_streams (s : State) (p : Fin 3) (e : LogEntry) : (logPush s p e).streams = s.streams := by unfold logPush; split <;> simp
@[simp] theorem logPush_invalidates (s : State) (p : Fin 3) (e : LogEntry) : (logPush s p e).invalidates = s.invalidates := by unfold logPush; split <;> simp
@[simp] theorem logPush_vds (s : State) (p : Fin 3) (e : LogEntry) : (logPush s p e).vds = s.vds := by unfold logPush; split <;> simp
@[simp] theorem logPush_offers (s : State) (p : Fin 3) (e : LogEntry) : (logPush s p e).offers = s.offers := by unfold logPush; split <;> simp
@[simp] theorem logPush_shs (s : State) (p : Fin 3) (e : LogEntry) : (logPush s p e).shs = s.shs := by unfold logPush; split <;> simp
@[simp] theorem logPush_encReqs (s : State) (p : Fin 3) (e : LogEntry) : (logPush s p e).encReqs = s.encReqs := by unfold logPush; split <;> simp
@[simp] theorem logPush_ves (s : State) (p : Fin 3) (e : LogEntry) : (logPush s p e).ves = s.ves := by unfold logPush; split <;> simp
@[simp] theorem logPush_veWait (s : State) (p : Fin 3) (e : LogEntry) : (logPush s p e).veWait = s.veWait := by unfold logPush; split <;> simp
@[simp] theorem logPush_veGot (s : State) (p : Fin 3) (e : LogEntry) : (logPush s p e).veGot = s.veGot := by unfold logPush; split <;> simp
@[simp] theorem logPush_rings (s : State) (p : Fin 3) (e : LogEntry) : (logPush s p e).rings = s.rings := by unfold logPush; split <;> simp
@[simp] theorem logPush_mgmt (s : State) (p : Fin 3) (e : LogEntry) : (logPush s p e).mgmt = s.mgmt := by unfold logPush; split <;> simp
@[simp] theorem logPush_mqs (s : State) (p : Fin 3) (e : LogEntry) : (logPush s p e).mqs = s.mqs := by unfold logPush; split <;> simp
@[simp] theorem logPush_pools (s : State) (p : Fin 3) (e : LogEntry) : (logPush s p e).pools = s.pools := by unfold logPush; split <;> simp
@[simp] theorem logPush_hostOps (s : State) (p : Fin 3) (e : LogEntry) : (logPush s p e).hostOps = s.hostOps := by unfold logPush; split <;> simp
@[simp] theorem logPush_allocOut (s : State) (p : Fin 3) (e : LogEntry) : (logPush s p e).allocOut = s.allocOut := by unfold logPush; split <;> simp
@[simp] theorem logPush_dma (s : State) (p : Fin 3) (e : LogEntry) : (logPush s p e).dma = s.dma := by unfold logPush; split <;> simp
@[simp] theorem logPush_tags (s : State) (p : Fin 3) (e : LogEntry) : (logPush s p e).tags = s.tags := by unfold logPush; split <;> simp
@[simp] theorem logPush_arb (s : State) (p : Fin 3) (e : LogEntry) : (logPush s p e).arb = s.arb := by unfold logPush; split <;> simp
@[simp] theorem logPush_grants (s : State) (p : Fin 3) (e : LogEntry) : (logPush s p e).grants = s.grants := by unfold logPush; split <;> simp
@[simp] theorem logPush_dramChs (s : State) (p : Fin 3) (e : LogEntry) : (logPush s p e).dramChs = s.dramChs := by unfold logPush; split <;> simp
@[simp] theorem logPush_scrubAt (s : State) (p : Fin 3) (e : LogEntry) : (logPush s p e).scrubAt = s.scrubAt := by unfold logPush; split <;> simp
@[simp] theorem logPush_writeback (s : State) (p : Fin 3) (e : LogEntry) : (logPush s p e).writeback = s.writeback := by unfold logPush; split <;> simp
@[simp] theorem logPush_recordDue (s : State) (p : Fin 3) (e : LogEntry) : (logPush s p e).recordDue = s.recordDue := by unfold logPush; split <;> simp
@[simp] theorem logPush_pci (s : State) (p : Fin 3) (e : LogEntry) : (logPush s p e).pci = s.pci := by unfold logPush; split <;> simp
@[simp] theorem logPush_msix (s : State) (p : Fin 3) (e : LogEntry) : (logPush s p e).msix = s.msix := by unfold logPush; split <;> simp
@[simp] theorem logPush_pba (s : State) (p : Fin 3) (e : LogEntry) : (logPush s p e).pba = s.pba := by unfold logPush; split <;> simp
@[simp] theorem logPush_cpl (s : State) (p : Fin 3) (e : LogEntry) : (logPush s p e).cpl = s.cpl := by unfold logPush; split <;> simp
@[simp] theorem logPush_posted (s : State) (p : Fin 3) (e : LogEntry) : (logPush s p e).posted = s.posted := by unfold logPush; split <;> simp
@[simp] theorem logPush_linkAt (s : State) (p : Fin 3) (e : LogEntry) : (logPush s p e).linkAt = s.linkAt := by unfold logPush; split <;> simp
@[simp] theorem logPush_ltr (s : State) (p : Fin 3) (e : LogEntry) : (logPush s p e).ltr = s.ltr := by unfold logPush; split <;> simp
@[simp] theorem logPush_log (s : State) (p : Fin 3) (e : LogEntry) : (logPush s p e).log = s.log := by unfold logPush; split <;> simp
@[simp] theorem logPush_smbNack (s : State) (p : Fin 3) (e : LogEntry) : (logPush s p e).smbNack = s.smbNack := by unfold logPush; split <;> simp
@[simp] theorem logPush_smbOut (s : State) (p : Fin 3) (e : LogEntry) : (logPush s p e).smbOut = s.smbOut := by unfold logPush; split <;> simp
@[simp] theorem logPush_smbPec (s : State) (p : Fin 3) (e : LogEntry) : (logPush s p e).smbPec = s.smbPec := by unfold logPush; split <;> simp
@[simp] theorem logPush_smbWrote (s : State) (p : Fin 3) (e : LogEntry) : (logPush s p e).smbWrote = s.smbWrote := by unfold logPush; split <;> simp
@[simp] theorem logPush_bistDone (s : State) (p : Fin 3) (e : LogEntry) : (logPush s p e).bistDone = s.bistDone := by unfold logPush; split <;> simp
@[simp] theorem logPush_bistDue (s : State) (p : Fin 3) (e : LogEntry) : (logPush s p e).bistDue = s.bistDue := by unfold logPush; split <;> simp
@[simp] theorem logPush_bistAt (s : State) (p : Fin 3) (e : LogEntry) : (logPush s p e).bistAt = s.bistAt := by unfold logPush; split <;> simp
@[simp] theorem logPush_bistEdge (s : State) (p : Fin 3) (e : LogEntry) : (logPush s p e).bistEdge = s.bistEdge := by unfold logPush; split <;> simp
@[simp] theorem logPush_ddbGen (s : State) (p : Fin 3) (e : LogEntry) : (logPush s p e).ddbGen = s.ddbGen := by unfold logPush; split <;> simp
@[simp] theorem logPush_ddbValid (s : State) (p : Fin 3) (e : LogEntry) : (logPush s p e).ddbValid = s.ddbValid := by unfold logPush; split <;> simp
@[simp] theorem logPush_fwVersion (s : State) (p : Fin 3) (e : LogEntry) : (logPush s p e).fwVersion = s.fwVersion := by unfold logPush; split <;> simp
@[simp] theorem logPush_missing (s : State) (p : Fin 3) (e : LogEntry) : (logPush s p e).missing = s.missing := by unfold logPush; split <;> simp
@[simp] theorem logPush_tap (s : State) (p : Fin 3) (e : LogEntry) : (logPush s p e).tap = s.tap := by unfold logPush; split <;> simp
@[simp] theorem logPush_order (s : State) (p : Fin 3) (e : LogEntry) : (logPush s p e).order = s.order := by unfold logPush; split <;> simp
@[simp] theorem logPush_pending (s : State) (p : Fin 3) (e : LogEntry) : (logPush s p e).pending = s.pending := by unfold logPush; split <;> simp

/-! ## `logIt` -/

@[simp] theorem logIt_halfW (s : State) (p : Fin 3) (cls d sev u x y : Nat) : (logIt s p cls d sev u x y).halfW = s.halfW := by simp [logIt]
@[simp] theorem logIt_halfR (s : State) (p : Fin 3) (cls d sev u x y : Nat) : (logIt s p cls d sev u x y).halfR = s.halfR := by simp [logIt]
@[simp] theorem logIt_mem (s : State) (p : Fin 3) (cls d sev u x y : Nat) : (logIt s p cls d sev u x y).mem = s.mem := by simp [logIt]
@[simp] theorem logIt_ecc (s : State) (p : Fin 3) (cls d sev u x y : Nat) : (logIt s p cls d sev u x y).ecc = s.ecc := by simp [logIt]
@[simp] theorem logIt_hostMem (s : State) (p : Fin 3) (cls d sev u x y : Nat) : (logIt s p cls d sev u x y).hostMem = s.hostMem := by simp [logIt]
@[simp] theorem logIt_hidden (s : State) (p : Fin 3) (cls d sev u x y : Nat) : (logIt s p cls d sev u x y).hidden = s.hidden := by simp [logIt]
@[simp] theorem logIt_hiddenCe (s : State) (p : Fin 3) (cls d sev u x y : Nat) : (logIt s p cls d sev u x y).hiddenCe = s.hiddenCe := by simp [logIt]
@[simp] theorem logIt_stallSeen (s : State) (p : Fin 3) (cls d sev u x y : Nat) : (logIt s p cls d sev u x y).stallSeen = s.stallSeen := by simp [logIt]
@[simp] theorem logIt_flash (s : State) (p : Fin 3) (cls d sev u x y : Nat) : (logIt s p cls d sev u x y).flash = s.flash := by simp [logIt]
@[simp] theorem logIt_fuses (s : State) (p : Fin 3) (cls d sev u x y : Nat) : (logIt s p cls d sev u x y).fuses = s.fuses := by simp [logIt]
@[simp] theorem logIt_phase (s : State) (p : Fin 3) (cls d sev u x y : Nat) : (logIt s p cls d sev u x y).phase = s.phase := by simp [logIt]
@[simp] theorem logIt_clock (s : State) (p : Fin 3) (cls d sev u x y : Nat) : (logIt s p cls d sev u x y).clock = s.clock := by simp [logIt]
@[simp] theorem logIt_power (s : State) (p : Fin 3) (cls d sev u x y : Nat) : (logIt s p cls d sev u x y).power = s.power := by simp [logIt]
@[simp] theorem logIt_cores (s : State) (p : Fin 3) (cls d sev u x y : Nat) : (logIt s p cls d sev u x y).cores = s.cores := by simp [logIt]
@[simp] theorem logIt_clusters (s : State) (p : Fin 3) (cls d sev u x y : Nat) : (logIt s p cls d sev u x y).clusters = s.clusters := by simp [logIt]
@[simp] theorem logIt_streams (s : State) (p : Fin 3) (cls d sev u x y : Nat) : (logIt s p cls d sev u x y).streams = s.streams := by simp [logIt]
@[simp] theorem logIt_invalidates (s : State) (p : Fin 3) (cls d sev u x y : Nat) : (logIt s p cls d sev u x y).invalidates = s.invalidates := by simp [logIt]
@[simp] theorem logIt_vds (s : State) (p : Fin 3) (cls d sev u x y : Nat) : (logIt s p cls d sev u x y).vds = s.vds := by simp [logIt]
@[simp] theorem logIt_offers (s : State) (p : Fin 3) (cls d sev u x y : Nat) : (logIt s p cls d sev u x y).offers = s.offers := by simp [logIt]
@[simp] theorem logIt_shs (s : State) (p : Fin 3) (cls d sev u x y : Nat) : (logIt s p cls d sev u x y).shs = s.shs := by simp [logIt]
@[simp] theorem logIt_encReqs (s : State) (p : Fin 3) (cls d sev u x y : Nat) : (logIt s p cls d sev u x y).encReqs = s.encReqs := by simp [logIt]
@[simp] theorem logIt_ves (s : State) (p : Fin 3) (cls d sev u x y : Nat) : (logIt s p cls d sev u x y).ves = s.ves := by simp [logIt]
@[simp] theorem logIt_veWait (s : State) (p : Fin 3) (cls d sev u x y : Nat) : (logIt s p cls d sev u x y).veWait = s.veWait := by simp [logIt]
@[simp] theorem logIt_veGot (s : State) (p : Fin 3) (cls d sev u x y : Nat) : (logIt s p cls d sev u x y).veGot = s.veGot := by simp [logIt]
@[simp] theorem logIt_rings (s : State) (p : Fin 3) (cls d sev u x y : Nat) : (logIt s p cls d sev u x y).rings = s.rings := by simp [logIt]
@[simp] theorem logIt_mgmt (s : State) (p : Fin 3) (cls d sev u x y : Nat) : (logIt s p cls d sev u x y).mgmt = s.mgmt := by simp [logIt]
@[simp] theorem logIt_mqs (s : State) (p : Fin 3) (cls d sev u x y : Nat) : (logIt s p cls d sev u x y).mqs = s.mqs := by simp [logIt]
@[simp] theorem logIt_pools (s : State) (p : Fin 3) (cls d sev u x y : Nat) : (logIt s p cls d sev u x y).pools = s.pools := by simp [logIt]
@[simp] theorem logIt_hostOps (s : State) (p : Fin 3) (cls d sev u x y : Nat) : (logIt s p cls d sev u x y).hostOps = s.hostOps := by simp [logIt]
@[simp] theorem logIt_allocOut (s : State) (p : Fin 3) (cls d sev u x y : Nat) : (logIt s p cls d sev u x y).allocOut = s.allocOut := by simp [logIt]
@[simp] theorem logIt_dma (s : State) (p : Fin 3) (cls d sev u x y : Nat) : (logIt s p cls d sev u x y).dma = s.dma := by simp [logIt]
@[simp] theorem logIt_tags (s : State) (p : Fin 3) (cls d sev u x y : Nat) : (logIt s p cls d sev u x y).tags = s.tags := by simp [logIt]
@[simp] theorem logIt_arb (s : State) (p : Fin 3) (cls d sev u x y : Nat) : (logIt s p cls d sev u x y).arb = s.arb := by simp [logIt]
@[simp] theorem logIt_grants (s : State) (p : Fin 3) (cls d sev u x y : Nat) : (logIt s p cls d sev u x y).grants = s.grants := by simp [logIt]
@[simp] theorem logIt_dramChs (s : State) (p : Fin 3) (cls d sev u x y : Nat) : (logIt s p cls d sev u x y).dramChs = s.dramChs := by simp [logIt]
@[simp] theorem logIt_scrubAt (s : State) (p : Fin 3) (cls d sev u x y : Nat) : (logIt s p cls d sev u x y).scrubAt = s.scrubAt := by simp [logIt]
@[simp] theorem logIt_writeback (s : State) (p : Fin 3) (cls d sev u x y : Nat) : (logIt s p cls d sev u x y).writeback = s.writeback := by simp [logIt]
@[simp] theorem logIt_recordDue (s : State) (p : Fin 3) (cls d sev u x y : Nat) : (logIt s p cls d sev u x y).recordDue = s.recordDue := by simp [logIt]
@[simp] theorem logIt_pci (s : State) (p : Fin 3) (cls d sev u x y : Nat) : (logIt s p cls d sev u x y).pci = s.pci := by simp [logIt]
@[simp] theorem logIt_msix (s : State) (p : Fin 3) (cls d sev u x y : Nat) : (logIt s p cls d sev u x y).msix = s.msix := by simp [logIt]
@[simp] theorem logIt_pba (s : State) (p : Fin 3) (cls d sev u x y : Nat) : (logIt s p cls d sev u x y).pba = s.pba := by simp [logIt]
@[simp] theorem logIt_cpl (s : State) (p : Fin 3) (cls d sev u x y : Nat) : (logIt s p cls d sev u x y).cpl = s.cpl := by simp [logIt]
@[simp] theorem logIt_posted (s : State) (p : Fin 3) (cls d sev u x y : Nat) : (logIt s p cls d sev u x y).posted = s.posted := by simp [logIt]
@[simp] theorem logIt_linkAt (s : State) (p : Fin 3) (cls d sev u x y : Nat) : (logIt s p cls d sev u x y).linkAt = s.linkAt := by simp [logIt]
@[simp] theorem logIt_ltr (s : State) (p : Fin 3) (cls d sev u x y : Nat) : (logIt s p cls d sev u x y).ltr = s.ltr := by simp [logIt]
@[simp] theorem logIt_log (s : State) (p : Fin 3) (cls d sev u x y : Nat) : (logIt s p cls d sev u x y).log = s.log := by simp [logIt]
@[simp] theorem logIt_smbNack (s : State) (p : Fin 3) (cls d sev u x y : Nat) : (logIt s p cls d sev u x y).smbNack = s.smbNack := by simp [logIt]
@[simp] theorem logIt_smbOut (s : State) (p : Fin 3) (cls d sev u x y : Nat) : (logIt s p cls d sev u x y).smbOut = s.smbOut := by simp [logIt]
@[simp] theorem logIt_smbPec (s : State) (p : Fin 3) (cls d sev u x y : Nat) : (logIt s p cls d sev u x y).smbPec = s.smbPec := by simp [logIt]
@[simp] theorem logIt_smbWrote (s : State) (p : Fin 3) (cls d sev u x y : Nat) : (logIt s p cls d sev u x y).smbWrote = s.smbWrote := by simp [logIt]
@[simp] theorem logIt_bistDone (s : State) (p : Fin 3) (cls d sev u x y : Nat) : (logIt s p cls d sev u x y).bistDone = s.bistDone := by simp [logIt]
@[simp] theorem logIt_bistDue (s : State) (p : Fin 3) (cls d sev u x y : Nat) : (logIt s p cls d sev u x y).bistDue = s.bistDue := by simp [logIt]
@[simp] theorem logIt_bistAt (s : State) (p : Fin 3) (cls d sev u x y : Nat) : (logIt s p cls d sev u x y).bistAt = s.bistAt := by simp [logIt]
@[simp] theorem logIt_bistEdge (s : State) (p : Fin 3) (cls d sev u x y : Nat) : (logIt s p cls d sev u x y).bistEdge = s.bistEdge := by simp [logIt]
@[simp] theorem logIt_ddbGen (s : State) (p : Fin 3) (cls d sev u x y : Nat) : (logIt s p cls d sev u x y).ddbGen = s.ddbGen := by simp [logIt]
@[simp] theorem logIt_ddbValid (s : State) (p : Fin 3) (cls d sev u x y : Nat) : (logIt s p cls d sev u x y).ddbValid = s.ddbValid := by simp [logIt]
@[simp] theorem logIt_fwVersion (s : State) (p : Fin 3) (cls d sev u x y : Nat) : (logIt s p cls d sev u x y).fwVersion = s.fwVersion := by simp [logIt]
@[simp] theorem logIt_missing (s : State) (p : Fin 3) (cls d sev u x y : Nat) : (logIt s p cls d sev u x y).missing = s.missing := by simp [logIt]
@[simp] theorem logIt_tap (s : State) (p : Fin 3) (cls d sev u x y : Nat) : (logIt s p cls d sev u x y).tap = s.tap := by simp [logIt]
@[simp] theorem logIt_order (s : State) (p : Fin 3) (cls d sev u x y : Nat) : (logIt s p cls d sev u x y).order = s.order := by simp [logIt]
@[simp] theorem logIt_pending (s : State) (p : Fin 3) (cls d sev u x y : Nat) : (logIt s p cls d sev u x y).pending = s.pending := by simp [logIt]

end Sys2Proof.Laws
end

