-- ==== Sys2Proof/Laws/Issue.lean ====
section
/-! SUPPORT. What the issue of an instruction and its completion do, for every instruction. -/

namespace Sys2Proof.Laws

open Sys2Proof.Machine

/-- Retirement moves the PC of the core and counts, and does nothing else. -/
theorem retire_eq (s : State) (n : Fin 16) (len : Nat) :
    retire s n len = wr (modCore s n (fun c => { c with pc := c.pc + BitVec.ofNat 48 len })) R.CORE_INSNS n.val
      (rd s R.CORE_INSNS n.val + 1) := rfl

theorem modCore_modCore (s : State) (n : Fin 16) (f g : Core → Core) :
    modCore (modCore s n f) n g = modCore s n (fun c => g (f c)) := by
  simp [modCore]

/-- An instruction that changes the registers of its core, once issued, and registers `also` of the register maps. -/
theorem retire_completes (s : State) (n : Fin 16) (f : Core → Core) (hf : ∀ c, (f c).pc = c.pc) :
    Completes n s (retire (modCore s n f) n 8) (f s.cores[n]) [] := by
  rw [retire_eq, modCore_modCore]
  refine ⟨?_, ?_, ?_⟩
  · simp [wr, modCore, hf]
  · intro g j h
    rw [rd_wr_other]
    · rfl
    · simpa using h
  · exact rd_wr_same _ _ _ _

/-- A ready core's instruction: a false guard completes it, an unused field that is not 0 traps. -/
theorem issue_ready (n : Fin 16) (op : Nat) (w : Insn) (ok g : Bool) (b : State → State) (s : State) (h : Ready s n) :
    issue n op w ok g b s =
      if g = false then retire s n 8 else if ok = false then trapInsn s n op w .illegal 0 0 else b s := by
  have h1 := h.running
  have h2 := h.fetch
  simp [issue, canIssue, h.up] at *
  simp [h1, h2]

/-- An instruction whose guard holds and whose unused fields are 0 does its own work. -/
theorem issueScalar_body (n : Fin 16) (op : Nat) (w : Insn) (ok : Bool) (b : State → State) (s : State) (h : Issues s n w)
    (hok : ok = true) : issueScalar n op w ok b s = b s := by
  rw [issueScalar, issue_ready _ _ _ _ _ _ _ h.toReady, h.guard, hok]
  rfl

/-- A vector instruction of a ready core does its own work whatever its guard. -/
theorem issueVector_body (n : Fin 16) (op : Nat) (w : Insn) (ok : Bool) (b : State → State) (s : State) (h : Ready s n)
    (hok : ok = true) : issueVector n op w ok b s = b s := by
  rw [issueVector, issue_ready _ _ _ _ _ _ _ h, hok]
  rfl

theorem issueRegs_completes (n : Fin 16) (op : Nat) (w : Insn) (ok : Bool) (f : Core → Core) (s : State) (h : Issues s n w)
    (hok : ok = true) (hf : ∀ c, (f c).pc = c.pc) : Completes n s (issueRegs n op w ok f s) (f s.cores[n]) [] := by
  rw [issueRegs, issueScalar_body _ _ _ _ _ _ h hok]
  exact retire_completes s n f hf

/-- A write to a register leaves the PC. -/
@[simp] theorem sSet_pc (c : Core) (i : BitVec 5) (v : W64) : (sSet c i v).pc = c.pc := by
  unfold sSet
  split <;> rfl

@[simp] theorem pSet_pc (c : Core) (i : BitVec 5) (v : BitVec 128) : (pSet c i v).pc = c.pc := by
  unfold pSet
  split <;> rfl

@[simp] theorem aSet_pc (c : Core) (i : BitVec 5) (v : Addr) : (aSet c i v).pc = c.pc := rfl
@[simp] theorem bSet_pc (c : Core) (i : BitVec 5) (v : W32) : (bSet c i v).pc = c.pc := rfl
@[simp] theorem tSet_pc (c : Core) (i : BitVec 5) (v : BitVec 512) : (tSet c i v).pc = c.pc := rfl
@[simp] theorem vSet_pc (c : Core) (i : BitVec 5) (v : BitVec 4096) : (vSet c i v).pc = c.pc := rfl

end Sys2Proof.Laws
end

