-- ==== Sys2Proof/Tests/Slice0.lean ====
section
/-! SUPPORT. Tests: the checks of well-formedness, the worked examples of the spec, single steps, and for each statement with
hypotheses a concrete state and operands that meet them. They are checked one after another, which keeps the memory of the
check small. -/

namespace Sys2Proof.Tests

open Sys2Proof.Machine

set_option Elab.async false

/-! ## States the tests start from -/

/-- Fuses of a part with every unit present. -/
def fuses : Fuses :=
  { stepMajor := 1, stepMinor := 0, core := 0xFFFF, cluster := 0xF, vd := 0xFFF, sh := 0xFF, ve := 0xF, dramCh := 0xFFFF,
    repairA := Vector.replicate 16 0, repairB := Vector.replicate 16 0, serial := 7, keyHash := 0, svnMin := 0,
    signatures := [], voltages := Vector.replicate 31 750 }

/-- Registers given values. -/
def set (s : State) (l : List (RegField × Nat × Nat)) : State := l.foldl (fun s x => wr s x.1 x.2.1 x.2.2) s

/-- A device in service, its link up and its memory space on. -/
def up : State :=
  set { State.reset with phase := .up, fuses := fuses, pci := { State.reset.pci with memSpace := true, busMaster := true } }
    [(R.GLB_SVC_STATE_STATE, 0, 2), (R.HIF_LINK_STATUS_LINK_UP, 0, 1)]

/-- Core 0 as given. -/
def withCore (c : Core) : State := { up with cores := up.cores.set 0 c }

/-- Core 0 runs, at the start of its core memory. -/
def running : Core := { Core.init with pc := 0x210000000000, mode := .running }

/-- s1 = 5, s2 = 7, a1 = an address in core memory 0, a2 = one below it, p1 = 0. -/
def loaded : Core :=
  aSet (aSet (sSet (sSet running 1 5) 2 7) 1 0x210000001000) 2 0x1000
def ex : State := withCore loaded

def insn (d a b c : Nat) (x : Int) : Insn :=
  { D := .ofNat 5 d, A := .ofNat 5 a, B := .ofNat 5 b, C := .ofNat 5 c, PG := 0, PN := false, X := .ofInt 32 x }

/-- The state that a command answers. -/
def after (i : Instr) (s : State) : Option State :=
  match exec i s with
  | .next t => some t
  | .fault _ => none
  | .refused _ => none

/-- A value of the state that a command answers. -/
def shows {α : Type} (i : Instr) (s : State) (f : State → α) : Option α := (after i s).map f

def s3 (i : Instr) (s : State) : Option W64 := shows i s (fun t => sGet t.cores[(0 : Fin 16)] 3)

/-! ## Witnesses: each statement's hypotheses hold of a concrete state and concrete operands -/

theorem issues_ex (d a b c : Nat) (x : Int) : Issues ex 0 (insn d a b c x) :=
  ⟨⟨by decide, by decide, by decide⟩, (by decide : guardTrue ex.cores[(0 : Fin 16)] 0 false = true)⟩

theorem witness_ScalarResults :
    (Issues ex 0 (insn 3 1 2 0 0) ∧ usesDAB (insn 3 1 2 0 0) = true) ∧
    (Issues ex 0 (insn 3 1 0 0 63) ∧ usesDAX (insn 3 1 0 0 63) = true ∧ (insn 3 1 0 0 63).X.toNat < 64) ∧
    (Issues ex 0 (insn 3 1 0 0 (-1)) ∧ usesDAX (insn 3 1 0 0 (-1)) = true) :=
  ⟨⟨issues_ex .., by decide⟩, ⟨issues_ex .., by decide, by decide⟩, issues_ex .., by decide⟩

theorem witness_ConditionsAndPredicates :
    (Issues ex 0 (insn 0 0 0 0 0) ∧ noFields (insn 0 0 0 0 0) = true) ∧
    (Issues ex 0 (insn 3 1 2 7 0) ∧ (insn 3 1 2 7 0).X = 0 ∧ (insn 3 1 2 7 0).C.toNat < 8) ∧
    (Issues ex 0 (insn 7 1 2 5 0) ∧ (insn 7 1 2 5 0).X = 0 ∧ (insn 7 1 2 5 0).D.toNat < 8 ∧ (insn 7 1 2 5 0).C.toNat < 6) ∧
    (Issues ex 0 (insn 7 1 0 5 9) ∧ (insn 7 1 0 5 9).B = 0 ∧ (insn 7 1 0 5 9).D.toNat < 8 ∧ (insn 7 1 0 5 9).C.toNat < 6) ∧
    (Issues ex 0 (insn 7 7 7 0 0) ∧ usesDAB (insn 7 7 7 0 0) = true ∧ (insn 7 7 7 0 0).D.toNat < 8 ∧
      (insn 7 7 7 0 0).A.toNat < 8 ∧ (insn 7 7 7 0 0).B.toNat < 8) ∧
    (Issues ex 0 (insn 7 7 0 0 0) ∧ usesDA (insn 7 7 0 0 0) = true ∧ (insn 7 7 0 0 0).D.toNat < 8 ∧
      (insn 7 7 0 0 0).A.toNat < 8) :=
  ⟨⟨issues_ex .., by decide⟩, ⟨issues_ex .., by decide⟩, ⟨issues_ex .., by decide⟩, ⟨issues_ex .., by decide⟩,
    ⟨issues_ex .., by decide⟩, issues_ex .., by decide⟩

theorem witness_AddressBoundAndSpecialRegisters :
    (Issues ex 0 (insn 15 15 2 0 0) ∧ usesDAB (insn 15 15 2 0 0) = true ∧ (insn 15 15 2 0 0).D.toNat < 16 ∧
      (insn 15 15 2 0 0).A.toNat < 16) ∧
    (Issues ex 0 (insn 15 15 0 0 (-8)) ∧ usesDAX (insn 15 15 0 0 (-8)) = true ∧ (insn 15 15 0 0 (-8)).D.toNat < 16 ∧
      (insn 15 15 0 0 (-8)).A.toNat < 16) ∧
    (Issues ex 0 (insn 15 31 0 0 0) ∧ usesDA (insn 15 31 0 0 0) = true ∧ (insn 15 31 0 0 0).D.toNat < 16) ∧
    (Issues ex 0 (insn 31 15 0 0 0) ∧ usesDA (insn 31 15 0 0 0) = true ∧ (insn 31 15 0 0 0).A.toNat < 16) ∧
    (Issues ex 0 (insn 15 0 0 0 9) ∧ usesDX (insn 15 0 0 0 9) = true ∧ (insn 15 0 0 0 9).D.toNat < 16) ∧
    (∀ k : Fin 9, Issues ex 0 (insn 3 0 0 0 (k.val : Int)) ∧ usesDX (insn 3 0 0 0 (k.val : Int)) = true ∧
      (insn 3 0 0 0 (k.val : Int)).X = BitVec.ofNat 32 k.val) :=
  ⟨⟨issues_ex .., by decide⟩, ⟨issues_ex .., by decide⟩, ⟨issues_ex .., by decide⟩, ⟨issues_ex .., by decide⟩,
    ⟨issues_ex .., by decide⟩, fun k => ⟨issues_ex .., by decide +revert, by decide +revert⟩⟩

/-- An address outside the core's memories (a2), and a misaligned one inside them (a1 + 1); a PC outside core memory. -/
theorem witness_ChecksBeforeAnInstruction :
    (let s := withCore { loaded with pc := 0x200000 }
     s.phase = .up ∧ s.cores[(0 : Fin 16)].mode = .running ∧ ownCoreMem 0 s.cores[(0 : Fin 16)].pc.toNat = false) ∧
    ((otherForms 0 (insn 31 31 31 31 0x10000)).all (fun p => !p.2.2) = true ∧
      (vectorForms 0 (insn 31 31 31 31 0x10000)).any (fun p => !p.2.2) = true ∧
      (vectorAccessForms 0 (insn 31 31 31 31 0x10000)).all (fun p => !p.2.2) = true) ∧
    (Ready ex 0 ∧ guardTrue ex.cores[(0 : Fin 16)] 1 false = false) ∧
    (Issues ex 0 (insn 3 1 2 9 1) ∧ (scalarForms 0 (insn 3 1 2 9 1)).all (fun p => !p.2.2) = true ∧
      (usesDAX (insn 3 1 2 9 1) && regIn (insn 3 1 2 9 1).A 16) = false) ∧
    (Issues ex 0 (insn 3 2 0 0 0) ∧ usesDAX (insn 3 2 0 0 0) = true ∧
      (accessForms 0 (insn 3 2 0 0 0)).all (fun p => !ownMem ex 0 (effAddr loaded (insn 3 2 0 0 0)).toNat p.2.2) = true) ∧
    (Issues ex 0 (insn 3 1 0 0 1) ∧ usesDAX (insn 3 1 0 0 1) = true ∧
      (accessForms 0 (insn 3 1 0 0 1)).all (fun p => ownMem ex 0 (effAddr loaded (insn 3 1 0 0 1)).toNat p.2.2 &&
        (p.2.2 == 1 || (effAddr loaded (insn 3 1 0 0 1)).toNat % p.2.2 != 0)) = true) :=
  ⟨by decide, by decide +kernel, ⟨⟨by decide, by decide, by decide⟩, by decide⟩, ⟨issues_ex .., by decide⟩, ⟨issues_ex .., by decide⟩,
    issues_ex .., by decide⟩

theorem accessible_ex (len : Nat) (h : len ∈ [1, 2, 4, 8, 64]) :
    Accessible ex 0 (effAddr ex.cores[(0 : Fin 16)] (insn 15 1 0 0 0)).toNat len := by
  simp only [List.mem_cons, List.not_mem_nil, or_false] at h
  rcases h with rfl | rfl | rfl | rfl | rfl <;> exact ⟨by decide, by decide, by decide⟩

theorem witness_LoadAndStoreResults :
    Issues ex 0 (insn 15 1 0 0 0) ∧ usesDAX (insn 15 1 0 0 0) = true ∧ (insn 15 1 0 0 0).A.toNat < 16 ∧
      (insn 15 1 0 0 0).D.toNat < 16 ∧ tInUse ex.cores[(0 : Fin 16)] 15 = false ∧
      ∀ len ∈ [1, 2, 4, 8, 64], Accessible ex 0 (effAddr ex.cores[(0 : Fin 16)] (insn 15 1 0 0 0)).toNat len :=
  ⟨issues_ex .., by decide, by decide, by decide, by decide, accessible_ex⟩

/-- The word that a1 names is poison, in error, or has a single-bit error. -/
def exWord (e : EccState) : State := { ex with ecc := [(0x210000001000, e)] }
theorem issues_exWord (e : EccState) : Issues (exWord e) 0 (insn 15 1 0 0 0) :=
  ⟨⟨(by decide : ex.phase = .up), (by decide : ex.cores[(0 : Fin 16)].mode = .running),
    (by decide : ownCoreMem 0 ex.cores[(0 : Fin 16)].pc.toNat = true)⟩, (by decide : guardTrue ex.cores[(0 : Fin 16)] 0 false = true)⟩
theorem witness_LoadAndStoreResults_errors :
    ∀ e ∈ [(EccState.poison, true), (.double, true), (.single, false)], Issues (exWord e.1) 0 (insn 15 1 0 0 0) ∧
      (effAddr (exWord e.1).cores[(0 : Fin 16)] (insn 15 1 0 0 0)).toNat = 0x210000001000 ∧
      ∀ len ∈ [1, 2, 4, 8], ownMem (exWord e.1) 0 0x210000001000 len = true ∧ 0x210000001000 % len = 0 ∧
        (memRead (exWord e.1) reqDma 0x210000001000 len).poison = e.2 :=
  fun e h => ⟨issues_exWord e.1, by revert e; decide +kernel⟩

theorem witness_ControlResults :
    (Issues ex 0 (insn 0 0 0 0 (-1)) ∧ usesX (insn 0 0 0 0 (-1)) = true ∧ usesDX (insn 0 0 0 0 (-1)) = true) ∧
    (BitVec.ofInt 48 ((loaded.pc.toNat : Int) + 8 * (insn 0 0 0 0 1).X.toInt)).toNat % 8 = 0 ∧
    insideTensor ex 0 0x210000000008 = false ∧
    (Issues ex 0 (insn 0 1 0 0 0) ∧ (insn 0 1 0 0 0).D = 0 ∧ (insn 0 1 0 0 0).B = 0 ∧ (insn 0 1 0 0 0).C = 0 ∧
      (insn 0 1 0 0 0).X = 0 ∧ ¬ (BitVec.ofNat 48 (sGet loaded 1).toNat).toNat % 8 = 0) ∧
    (Issues ex 0 (insn 0 0 0 0 0) ∧ noFields (insn 0 0 0 0 0) = true) :=
  ⟨⟨issues_ex .., by decide⟩, by decide, by decide, ⟨issues_ex .., by decide⟩, issues_ex .., by decide⟩

theorem ready_ex : Ready ex 0 := ⟨by decide, by decide, by decide⟩

theorem witness_IntegerLanesAndReductions :
    Ready ex 0 ∧ ((insn 3 1 2 0 0).C = 0 ∧ (insn 3 1 2 0 0).X = 0 ∧ (insn 3 1 2 0 2).C = 0 ∧ (insn 3 1 2 0 2).X = 2) ∧
    (∀ x ∈ [0, 4, 10], (insn 3 1 0 0 x).B = 0 ∧ (insn 3 1 0 0 x).C = 0 ∧ (insn 3 1 0 0 x).X.toNat < 16 ∧
      (insn 3 1 0 0 x).X.getLsbD 0 = false) ∧
    (insn 3 1 0 0 0).X.toNat / 4 % 4 = 0 ∧ (insn 3 1 0 0 4).X.toNat / 4 % 4 = 1 ∧ (insn 3 1 0 0 10).X.toNat / 4 % 4 = 2 ∧
    guardedLanes ex.cores[(0 : Fin 16)] (insn 3 1 0 0 4) ≠ [] :=
  ⟨ready_ex, by decide, by decide, by decide, by decide, by decide, by decide⟩

theorem witness_FloatLanesAndConversions :
    Ready ex 0 ∧ ((insn 3 1 2 0 1).C = 0 ∧ (insn 3 1 2 0 1).X = 1 ∧ (insn 3 1 2 0 3).C = 0 ∧ (insn 3 1 2 0 3).X = 3) ∧
    ∀ k : Fin 8, usesDAX (insn 3 1 0 0 (k.val : Int)) = true ∧ (insn 3 1 0 0 (k.val : Int)).X = BitVec.ofNat 32 k.val :=
  ⟨ready_ex, by decide, by decide⟩

/-- Values in the normal range, beyond it, just below the smallest normal one, and far below it; comparable values. -/
theorem witness_FloatLanesAndConversions_rounding :
    (let k := (0 : Int).natAbs + 200
     let x := (fvUnits false 3 0 (-(k : Int))).natAbs
     2 ^ (k - 126) ≤ x ∧ x < 2 ^ (k + 128) - 2 ^ (k + 103)) ∧
    (let k := (130 : Int).natAbs + 200
     2 ^ (k + 128) - 2 ^ (k + 103) ≤ (fvUnits false 1 130 (-(k : Int))).natAbs) ∧
    (let k := (-151 : Int).natAbs + 200
     let x := (fvUnits true (2 ^ 25 - 1) (-151) (-(k : Int))).natAbs
     2 ^ (k - 126) - 2 ^ (k - 151) ≤ x ∧ x < 2 ^ (k - 126)) ∧
    (let k := (-140 : Int).natAbs + 200
     (fvUnits true 1 (-140) (-(k : Int))).natAbs < 2 ^ (k - 126) - 2 ^ (k - 151)) ∧
    (fpDecode fp32 0x40400000).isFinite = true ∧ (Fv.nan).isNan = true ∧ (fvOf 0x40400000).isNan = false ∧ (fvOf 0).isNan = false := by
  decide +kernel

theorem witness_LaneMovesAndComparisons :
    Ready ex 0 ∧ ((insn 3 1 7 2 0).X = 0 ∧ (insn 3 1 7 2 0).B.toNat < 8) ∧ usesDA (insn 3 1 0 0 0) = true ∧
    ((insn 3 0 0 0 0).A = 0 ∧ (insn 3 0 0 0 0).B = 0 ∧ (insn 3 0 0 0 0).C = 0 ∧ (insn 3 0 0 0 0).X = 0) ∧
    usesDAB (insn 3 1 2 0 0) = true ∧
    (∀ x ∈ [0, 2], (insn 7 1 2 5 x).X.toNat < 4 ∧ (insn 7 1 2 5 x).D.toNat < 8 ∧ (insn 7 1 2 5 x).C.toNat < 6 ∧
      guarded ex.cores[(0 : Fin 16)] (insn 7 1 2 5 x) 127 = true ∧ (insn 7 1 2 5 x).X.getLsbD 0 = false) ∧
    ((insn 7 1 2 3 2).C.toNat ∈ [2, 3] ∧ (insn 7 1 2 5 2).C.toNat ∉ [2, 3]) ∧
    ((insn 7 1 2 3 1).X.getLsbD 0 = true ∧ (insn 7 1 2 3 1).X.toNat < 4 ∧ (insn 7 1 2 3 1).C.toNat < 4 ∧ (fvOf 0x7FC00000).isNan = true ∧
      (∀ c : Fin 4, (insn 7 1 2 c.val 1).C.toNat = c.val) ∧ (fvOf (laneOf (vGet ex.cores[(0 : Fin 16)] 1) 5)).isNan = false) :=
  ⟨ready_ex, by decide, by decide, by decide, by decide, by decide, by decide, by decide +kernel⟩

theorem laneAddr_ex (i : Nat) : laneAddr ex.cores[(0 : Fin 16)] (insn 3 1 2 0 0) i = 0x210000001000 := by
  have h0 : vGet ex.cores[(0 : Fin 16)] (insn 3 1 2 0 0).B = 0 := rfl
  have h1 : (effAddr ex.cores[(0 : Fin 16)] (insn 3 1 2 0 0)).toNat = 0x210000001000 := by decide
  simp only [laneAddr, laneOf, h0]
  simpa using h1

theorem witness_VectorMemoryResults :
    Ready ex 0 ∧ (insn 3 1 0 0 0).A.toNat < 16 ∧ usesDAX (insn 3 1 0 0 0) = true ∧
    guardedLanes ex.cores[(0 : Fin 16)] (insn 3 1 0 0 0) ≠ [] ∧ ownMem ex 0 0x210000001000 512 = true ∧
    (effAddr ex.cores[(0 : Fin 16)] (insn 3 1 0 0 0)).toNat = 0x210000001000 ∧ badWords ex 0x210000001000 512 = [] ∧
    storeWf EccState.ok ex.ecc ∧
    ∀ i, i < 128 → Accessible ex 0 (laneAddr ex.cores[(0 : Fin 16)] (insn 3 1 2 0 0) i) 4 :=
  ⟨ready_ex, by decide, by decide, by decide, by decide, by decide, by decide, by decide,
    fun i _ => laneAddr_ex i ▸ ⟨by decide, by decide, by decide⟩⟩

/-! ## Well-formedness: each check refuses an ill-formed command, and a well-formed one passes -/

theorem test_wf_doorbell : (Instr.jobRingDoorbell 0 ⟨1, true, 0⟩).wf = false ∧ (Instr.completionRingDoorbell 0 ⟨1, true, 0⟩).wf = false ∧
    (Instr.mqHeadDoorbell 0 ⟨1, true, 0⟩).wf = false ∧ (Instr.chunkDoorbell 0 ⟨1, true, 0⟩).wf = false ∧
    (Instr.contextInvalidate ⟨1, true, 0⟩).wf = false ∧ (Instr.jobRingDoorbell 0 ⟨1, true, 1⟩).wf = true := by decide
theorem test_wf_hostRead : (Instr.jobDescriptorFetch 0 (.data [0])).wf = false ∧ (Instr.dmaDescriptorFetch 0 (.data [0])).wf = false ∧
    (Instr.jobDescriptorFetch 0 .poisoned).wf = true ∧ (Instr.dmaDescriptorFetch 0 .timeout).wf = true := by decide

/-- A decoded frame of 16 × 16 pixels, one map block. -/
def frame16 : DecodeResult :=
  { width := 16, height := 16, rap := true, rasl := false, grain := false, bitDepth10 := false, cycles := 100, refs := []
    selfRef := true, blocks := [⟨[], []⟩] }

theorem test_wf_decode : (Instr.frameOk 0 frame16).wf = true ∧ (Instr.frameOk 0 { frame16 with width := 0 }).wf = false ∧
    (Instr.frameOk 0 { frame16 with height := 0 }).wf = false ∧ (Instr.frameOk 0 { frame16 with blocks := [] }).wf = false ∧
    (Instr.frameOk 0 { frame16 with refs := [1, 1] }).wf = false := by decide
theorem test_wf_arb : (Instr.arbDecision .hostDma 0 [⟨1, 0, 0, 0, 1⟩, ⟨1, 0, 0, 0, 1⟩]).wf = false ∧
    (Instr.arbDecision .hostDma 0 [⟨1, 0, 0, 0, 0⟩]).wf = false ∧ (Instr.arbDecision .hostDma 0 [⟨1, 0, 0, 0, 1⟩]).wf = true := by decide
theorem test_wf_training : (Instr.dramTraining [] []).wf = false ∧
    (Instr.dramTraining (List.replicate 16 ⟨true, 9⟩) (List.replicate 16 ⟨0, 0, 0, 0⟩)).wf = false ∧
    (Instr.dramTraining (List.replicate 16 ⟨true, 0⟩) (List.replicate 16 ⟨0, 0, 0, 0⟩)).wf = true := by decide
theorem test_wf_bars : (Instr.bar0Write ⟨.bar0, 0⟩ 0 0 true).wf = false ∧ (Instr.bar0Read ⟨.bar4, 0⟩ 0).wf = false ∧ (Instr.bar2Write 0 [] false).wf = false ∧
    (Instr.bar2Read 0 0).wf = false ∧ (Instr.romRead 0 0).wf = false ∧ (Instr.bar0Read ⟨.bar0, 0⟩ 1).wf = true := by decide
theorem test_wf_link : (Instr.configRequest 2 none).wf = false ∧ (Instr.outboundCompletion 0 .abort [1] false).wf = false ∧
    (Instr.linkUp 6 16).wf = false ∧ (Instr.linkUp 5 2).wf = false ∧ (Instr.linkUp 5 16).wf = true := by decide
theorem test_wf_samplePreload : (Instr.samplePreload [] (List.replicate 695 true)).wf = false ∧
    (Instr.samplePreload (List.replicate 695 true) (List.replicate 695 false)).wf = true := by decide +kernel

/-! ## The worked examples of the spec -/

/-- "Two encodings": LD.W s5, 0x40(a2) under p3, and BR −3. -/
theorem test_encodings :
    encodeInsn 0x34 { D := 5, A := 2, B := 0, C := 0, PG := 3, PN := false, X := 0x40 } = 0x3428800600000040 ∧
    encodeInsn 0x40 { D := 0, A := 0, B := 0, C := 0, PG := 0, PN := false, X := 0xFFFFFFFD } = 0x40000000FFFFFFFD := by decide

/-- "One address on a 64 GiB device": P = 64 MiB, 16 channels, ranks of 16 Gb with ECC. -/
theorem test_dramAddress : dramChannel (2 ^ 26) 16 0x123456780 = (7, 305419904) := by decide

/-- "Three frames under a 2,000 kbit/s cap": CQ_QP 28, QP_INIT 32, CAP_KBPS 2,000, CAP_WIN_MS 1,000. -/
theorem test_rateControl :
    let v : BitVec 256 := BitVec.ofNat 256 (32 * 2 ^ 160 + 28 * 2 ^ 168 + 2000 * 2 ^ 192 + 1000 * 2 ^ 224)
    rateControl v 0 32 900000 0 = (900000, 30) ∧ rateControl v 900000 30 500000 33333333 = (1333334, 29) ∧
    rateControl v 1333334 29 120000 33333333 = (1386668, 29) := by decide

/-- R420: IDCODE of a part with STEP_MAJOR 1. -/
theorem test_idcode : shows .idcode up (fun t => t.tap.shiftOut) = some 0x104169AB := by decide

/-! ## Single steps -/

theorem test_add_mulh :
    s3 (.add 0 (insn 3 1 2 0 0)) ex = some 12 ∧ s3 (.sub 0 (insn 3 1 2 0 0)) ex = some (BitVec.ofInt 64 (-2)) ∧
    s3 (.mulh 0 (insn 3 3 2 0 0)) (withCore (sSet loaded 3 (BitVec.ofInt 64 (-1)))) = some (BitVec.ofInt 64 (-1)) ∧
    s3 (.addi 0 (insn 3 1 0 0 (-8))) ex = some (BitVec.ofInt 64 (-3)) := by decide

/-- The queue is taken first in, first out. -/
theorem test_step_takes_the_front :
    step { ex with pending := [.add 0 (insn 3 1 2 0 0), .nop 0 (insn 0 0 0 0 0)] } =
      exec (.add 0 (insn 3 1 2 0 0)) { ex with pending := [.nop 0 (insn 0 0 0 0 0)] } := rfl

/-! ### DMA, semaphores, posts and waits -/

/-- A core whose plan covers semaphores 0 to 37, the DMA channels but 0 and the message queues but 0. -/
def planned : Core :=
  { loaded with plan := { Plan.init with dmaMask := 0xFFFFFFFFFFFFFFFE, mqMask := 0xFFFE, sems := 38 } }
def exP : State := withCore planned
def exFull : State := { exP with dma := exP.dma.set 3 { exP.dma[(3 : Fin 64)] with queue := List.replicate 16 0x40 } }

theorem issues_exP (d a b c : Nat) (x : Int) : Issues exP 0 (insn d a b c x) :=
  ⟨⟨by decide, by decide, by decide⟩, (by decide : guardTrue exP.cores[(0 : Fin 16)] 0 false = true)⟩
theorem issues_exFull (d a b c : Nat) (x : Int) : Issues exFull 0 (insn d a b c x) :=
  ⟨⟨by decide, by decide, by decide⟩, (by decide : guardTrue exFull.cores[(0 : Fin 16)] 0 false = true)⟩

theorem witness_DmaInstructionResults :
    (∀ w ∈ [insn 3 1 0 0 0, insn 3 15 0 0 3, insn 0 1 0 0 63],
      (Issues exP 0 w ∧ Issues exFull 0 w) ∧ w.X.toNat < 64 ∧ w.B = 0 ∧ w.C = 0 ∧ w.A.toNat < 16) ∧
    planned.plan.dmaMask.getLsbD (insnChannel (insn 3 1 0 0 0)).val = false ∧
    (planned.plan.dmaMask.getLsbD (insnChannel (insn 3 15 0 0 3)).val = true ∧
      exP.dma[insnChannel (insn 3 15 0 0 3)].queue.length < 16 ∧ 16 ≤ exFull.dma[insnChannel (insn 3 15 0 0 3)].queue.length) ∧
    (insn 0 1 0 0 63).D = 0 ∧ planned.plan.dmaMask.getLsbD (insnChannel (insn 0 1 0 0 63)).val = true := by
  refine ⟨fun w h => ?_, by decide, by decide, by decide⟩
  simp only [List.mem_cons, List.not_mem_nil, or_false] at h
  rcases h with rfl | rfl | rfl <;> exact ⟨⟨issues_exP .., issues_exFull ..⟩, by decide⟩

/-- Semaphore 5 at its greatest value, semaphore 2 with a waiter. -/
def exSem : State :=
  { exP with clusters := exP.clusters.set 0 { exP.clusters[(0 : Fin 4)] with
      sems := (exP.clusters[(0 : Fin 4)].sems.set 5 65535).set 2 1, waiters := [{ sem := 2, core := 0, n := 1 }] } }
theorem issues_exSem (d a b c : Nat) (x : Int) : Issues exSem 0 (insn d a b c x) :=
  ⟨⟨by decide, by decide, by decide⟩, (by decide : guardTrue exSem.cores[(0 : Fin 16)] 0 false = true)⟩

/-- A record of type 0x10 at the address in a1, and message queue 5 enabled. -/
def exPost : State :=
  set (memWrite exP 0 0x210000001000 (0x10 :: List.replicate 63 7) false) [(R.MQ_CFG_EN, 5, 1), (R.MQ_CFG_LOG2, 5, 6)]
theorem issues_exPost (d a b c : Nat) (x : Int) : Issues exPost 0 (insn d a b c x) :=
  ⟨⟨by decide, by decide, by decide⟩, (by decide : guardTrue exPost.cores[(0 : Fin 16)] 0 false = true)⟩

theorem witness_SemaphoresFencesAndPosts :
    (∀ d, Issues exSem 0 (insn d 0 0 0 63) ∧ Issues exSem 0 (insn d 0 0 0 0x105) ∧ Issues exSem 0 (insn d 0 0 0 0x102)) ∧
    (∀ x ∈ [63, 0x105, 0x102, 0xFFFF25], semX (insn 7 0 0 0 x) = true ∧ (insn 7 0 0 0 x).D.toNat < 8 ∧ (insn 0 0 0 0 x).D = 0) ∧
    planned.plan.sems ≤ (insnSem (insn 0 0 0 0 63)).val ∧
    ((insnSem (insn 0 0 0 0 0x105)).val < planned.plan.sems ∧
      65535 < (exSem.clusters[clusterOf 0].sems[insnSem (insn 0 0 0 0 0x105)]).toNat + 0x105 / 256 % 65536 ∧
      exSem.clusters[clusterOf 0].waiters.all (fun x => x.sem != insnSem (insn 0 0 0 0 0x105)) = true) ∧
    ((insnSem (insn 0 0 0 0 0x102)).val < planned.plan.sems ∧
      (exSem.clusters[clusterOf 0].sems[insnSem (insn 0 0 0 0 0x102)]).toNat + 0x102 / 256 % 65536 ≤ 65535 ∧
      exSem.clusters[clusterOf 0].waiters.all (fun x => x.sem != insnSem (insn 0 0 0 0 0x102)) = false) ∧
    (Issues exSem 0 (insn 0 0 0 0 15) ∧ usesX (insn 0 0 0 0 15) = true ∧ (insn 0 0 0 0 15).X.toNat < 16) ∧
    (Issues exPost 0 (insn 0 1 0 0 0x501) ∧ usesAX (insn 0 1 0 0 0x501) = true ∧
      (insn 0 1 0 0 0x501).X.toNat / 32 % 8 = 0 ∧ (insn 0 1 0 0 0x501).X.toNat < 2 ^ 12 ∧ (insn 0 1 0 0 0x501).A.toNat < 16 ∧
      (insn 0 1 0 0 0x501).X.toNat % 32 = 1 ∧ planned.plan.mqMask.getLsbD (insnMq (insn 0 1 0 0 0x501)).val = true ∧
      rd exPost R.MQ_CFG_EN (insnMq (insn 0 1 0 0 0x501)).val ≠ 0 ∧ ownMem exPost 0 0x210000001000 64 = true ∧
      badWords exPost 0x210000001000 64 = [] ∧ peek exPost 0x210000001000 1 = [0x10]) ∧
    (Issues exPost 0 (insn 0 1 0 0 0x500) ∧ usesAX (insn 0 1 0 0 0x500) = true ∧ (insn 0 1 0 0 0x500).X.toNat % 32 = 0) :=
  ⟨fun _ => ⟨issues_exSem .., issues_exSem .., issues_exSem ..⟩, by decide, by decide, by decide, by decide,
    ⟨issues_exSem .., by decide⟩, ⟨issues_exPost .., by decide⟩, issues_exPost .., by decide⟩

/-- Core 0 in a mode of waiting, since time 0. -/
def waits (m : CoreMode) (s : State) : State := { s with cores := s.cores.set 0 { s.cores[(0 : Fin 16)] with mode := m } }
def exFence : State :=
  { waits (.waitFence 15) exP with cores := exP.cores.set 0 { planned with mode := .waitFence 15, chains := [(3, 1)], posts := 1 } }
def exMq : State :=
  set { waits (.waitPost 5 1) exP with mqs := exP.mqs.set 5 { exP.mqs[(5 : Fin 16)] with waiting := [⟨none, [1], 1, 0⟩, ⟨some 0, [], 1, 1⟩] } }
    [(R.MQ_CFG_EN, 5, 1), (R.MQ_CFG_LOG2, 5, 6)]

theorem witness_HowWaitsEnd :
    (∀ t : Fin 2, (waits (.waitDma 3 (BitVec.ofNat 32 t.val)) exP).cores[(0 : Fin 16)].mode = .waitDma 3 (BitVec.ofNat 32 t.val) ∧
      (t.val = 0 → 0 ≤ (BitVec.ofNat 32 (rd exP R.DMA_CH_COUNT 3) - BitVec.ofNat 32 t.val).toInt) ∧
      (t.val = 1 → (BitVec.ofNat 32 (rd exP R.DMA_CH_COUNT 3) - BitVec.ofNat 32 t.val).toInt < 0)) ∧
    (exFence.cores[(0 : Fin 16)].mode = .waitFence 15 ∧ exFence.cores[(0 : Fin 16)].posts ≠ 0 ∧
      (waits (.waitFence 15) exP).cores[(0 : Fin 16)].posts = 0 ∧ (waits (.waitFence 15) exP).cores[(0 : Fin 16)].chains = []) ∧
    ((∀ x ∈ exSem.clusters[(0 : Fin 4)].waiters, x.sem ≠ 3) ∧
      exSem.clusters[(0 : Fin 4)].waiters = [] ++ { sem := 2, core := 0, n := 1 } :: [] ∧ clusterOf 0 = 0 ∧
      exSem.clusters[(0 : Fin 4)].sems[(2 : Fin 64)].toNat = 1) ∧
    (exMq.cores[(0 : Fin 16)].mode = .waitPost 5 1 ∧ recordsAhead 0 exMq.mqs[(5 : Fin 16)].waiting = some 1 ∧
      mqUsed exMq 5 + 1 + 1 ≤ mqSize exMq 5 ∧ mqSize (set exMq [(R.MQ_CFG_LOG2, 5, 0)]) 5 < mqUsed exMq 5 + 1 + 1) ∧
    ((waits (.waitSem 2 1) exSem).cores[(0 : Fin 16)].mode = .waitSem 2 1 ∧
      firstWaiter (waits (.waitSem 2 1) exSem) (clusterOf 0) 2 = some { sem := 2, core := 0, n := 1 } ∧
      semCount (waits (.waitSem 2 1) exSem) (clusterOf 0) 2 = 1) :=
  ⟨by decide, by decide, by decide, by decide, by decide⟩

/-- A job for one core of cluster 0, from ring 3. -/
def job : Job :=
  { tag := 0x77, cluster := 0, cores := 3, live := false, noPreempt := false, prio := 0, image := 0x100000, crc := none, entry := 0,
    arg0 := 5, arg1 := 6, arg2 := 7, arg3 := 8, trapAddr := 0x210000004000, ring := some 3, batch := none, header := 0 }
def exJob : State := withCore { loaded with job := some job }

theorem witness_TrapEntry :
    trapAddrOk exJob 0 job.trapAddr.toNat = true ∧ trapAddrOk exJob 0 8 = false ∧ rd exJob R.CORE_TRAPS 0 + 1 < 2 ^ 32 ∧
    canTrap exJob.cores[(0 : Fin 16)] = true ∧ canTrap (waits (.trapped 3) exJob).cores[(0 : Fin 16)] = false := by decide


/-! ### Rings and queues of the host -/

/-- Ring 3, its completion ring and metadata queue 3 enabled, with an entry and a record waiting. -/
def exRing : State :=
  set { up with
      rings := up.rings.set 3 { up.rings[(3 : Fin 31)] with prod := 9, waiting := [⟨5, 0x22, 0xFF, 1234⟩], unsignalled := 2, firstAt := 77 }
      mqs := up.mqs.set 3 { up.mqs[(3 : Fin 16)] with waiting := [⟨some 4, List.replicate 64 0x93, 1, 7⟩], unsignalled := 1 } }
    [(R.JR_EN, 3, 1), (R.CR_EN, 3, 1), (R.MQ_CFG_EN, 3, 1), (R.CR_TAIL, 3, 7), (R.CR_HEAD, 3, 2), (R.CR_LOG2, 3, 4),
     (R.JR_LOG2, 3, 4), (R.JR_HEAD, 3, 6), (R.MQ_TAIL, 3, 9), (R.MQ_HEAD, 3, 8), (R.MQ_CFG_LOG2, 3, 3),
     (R.CR_IRQ_EN, 3, 1), (R.CR_COUNT_THR, 3, 3), (R.CR_TIME_THR, 3, 10), (R.MQ_IRQ_TIME_THR, 3, 100), (R.MQ_IRQ_IRQ_EN, 3, 1)]
/-- The same with the rings disabled. -/
def exOff : State := set exRing [(R.JR_EN, 3, 0), (R.CR_EN, 3, 0), (R.MQ_CFG_EN, 3, 0)]

/-- Values of a doorbell: 10 is newer and in range, 9 and 6 are not newer, 23 and 8 pass what was written or fetched. -/
theorem witness_DoorbellsAndJobRings :
    (∀ d ∈ [(⟨5, false, 1⟩ : DbWrite), ⟨5, true, 0⟩, ⟨5, true, 3⟩], ¬ (d.beFull = true ∧ (d.dws = 1 ∨ d.dws = 2))) ∧
    ((⟨5, true, 2⟩ : DbWrite).beFull = true ∧ serving up = true ∧ serving { State.reset with fuses := fuses } = false) ∧
    (rd exOff R.JR_EN 3 = 0 ∧ rd exOff R.CR_EN 3 = 0 ∧ rd exOff R.MQ_CFG_EN 3 = 0) ∧
    (rd exRing R.JR_EN 3 ≠ 0 ∧ exRing.rings[(3 : Fin 31)].prod.toNat = 9 ∧ (1 ≤ subW 22 9 ∧ subW 22 9 < 2 ^ 31) ∧
      subW 22 (rd exRing R.JR_HEAD 3) ≤ 2 ^ rd exRing R.JR_LOG2 3 ∧ ¬ (1 ≤ subW 9 9 ∧ subW 9 9 < 2 ^ 31) ∧
      (1 ≤ subW 23 9 ∧ subW 23 9 < 2 ^ 31) ∧ 2 ^ rd exRing R.JR_LOG2 3 < subW 23 (rd exRing R.JR_HEAD 3)) ∧
    (rd exRing R.CR_EN 3 ≠ 0 ∧ (1 ≤ subW 7 2 ∧ subW 7 2 < 2 ^ 31) ∧ subW 7 (rd exRing R.CR_HEAD 3) ≤ subW (rd exRing R.CR_TAIL 3) 2 ∧
      ¬ (1 ≤ subW 2 (rd exRing R.CR_HEAD 3) ∧ subW 2 (rd exRing R.CR_HEAD 3) < 2 ^ 31) ∧
      (1 ≤ subW 8 2 ∧ subW 8 2 < 2 ^ 31) ∧ subW (rd exRing R.CR_TAIL 3) (rd exRing R.CR_HEAD 3) < subW 8 (rd exRing R.CR_HEAD 3)) ∧
    (rd exRing R.MQ_CFG_EN 3 ≠ 0 ∧ (1 ≤ subW 9 (rd exRing R.MQ_HEAD 3) ∧ subW 9 (rd exRing R.MQ_HEAD 3) < 2 ^ 31) ∧
      subW 9 (rd exRing R.MQ_HEAD 3) ≤ subW (rd exRing R.MQ_TAIL 3) (rd exRing R.MQ_HEAD 3)) ∧
    canFetchJob exRing 3 = true ∧ canFetchJob exOff 3 = false := by decide

/-- The first 32 tags of a requester with no extended tags are in use. -/
def noTag (s : State) : State :=
  { s with pci := { s.pci with extTag := false, tag10 := false },
           tags := (List.range 32).map (fun i => ⟨BitVec.ofNat 10 i, 7, 0, 64, 0, 0, 0, false, none⟩) }

theorem witness_DoorbellsAndJobRings_fetch :
    freeTag (noTag exRing) 0 = none ∧ canFetchJob (noTag exRing) 3 = true ∧
    (∀ got ∈ [HostRead.data (List.replicate 64 0), .poisoned, .errorStatus, .timeout],
      (hostFetch exRing 0 (rd exRing R.JR_BASE 3 * 2 ^ 12 + rd exRing R.JR_HEAD 3 % 2 ^ rd exRing R.JR_LOG2 3 * 64) 64 got).isSome = true) ∧
    clusterUsable exRing (parseJob (List.replicate 64 0) (some 3) none 0).cluster = true ∧
    clusterUsable (set exRing [(R.ST_FAILED, 0, 0xFFFFF)]) (parseJob (List.replicate 64 0) (some 3) none 0).cluster = false := by
  decide +kernel

theorem witness_EntriesAndInterrupts :
    (exRing.rings[(3 : Fin 31)].waiting = ⟨5, 0x22, 0xFF, 1234⟩ :: [] ∧
      ¬ 2 ^ rd exRing R.CR_LOG2 3 ≤ subW (rd exRing R.CR_TAIL 3) (rd exRing R.CR_HEAD 3) ∧ rd exRing R.CR_EN 3 ≠ 0 ∧
      max 1 (rd exRing R.CR_COUNT_THR 3) ≤ exRing.rings[(3 : Fin 31)].unsignalled + 1) ∧
    (rd exOff R.CR_EN 3 = 0 ∧ exOff.rings[(3 : Fin 31)].waiting ≠ []) ∧
    2 ^ rd (set exRing [(R.CR_LOG2, 3, 2)]) R.CR_LOG2 3 ≤ subW (rd exRing R.CR_TAIL 3) (rd exRing R.CR_HEAD 3) ∧
    (exRing.mqs[(3 : Fin 16)].waiting = ⟨some 4, List.replicate 64 0x93, 1, 7⟩ :: [] ∧ List.replicate 64 (0x93 : Byte) ≠ [] ∧
      ¬ 2 ^ rd exRing R.MQ_CFG_LOG2 3 ≤ subW (rd exRing R.MQ_TAIL 3) (rd exRing R.MQ_HEAD 3) ∧ rd exRing R.MQ_CFG_EN 3 ≠ 0) ∧
    (let earlier : State := set { exRing with mqs := exRing.mqs.set 4 { exRing.mqs[(4 : Fin 16)] with waiting := [⟨none, [1], 1, 6⟩] } }
       [(R.MQ_CFG_EN, 4, 1), (R.MQ_CFG_LOG2, 4, 3)]
     (∀ q : Fin 16, q ≠ 3 → exRing.mqs[q].waiting = []) ∧ earlier.mqs[(4 : Fin 16)].waiting = ⟨none, [1], 1, 6⟩ :: [] ∧
      rd earlier R.MQ_CFG_EN 4 ≠ 0 ∧ subW (rd earlier R.MQ_TAIL 4) (rd earlier R.MQ_HEAD 4) < 2 ^ rd earlier R.MQ_CFG_LOG2 4 ∧
      ¬ (7 : Nat) ≤ 6) ∧
    (rd exRing R.CR_TIME_THR 3 ≠ 0 ∧ exRing.rings[(3 : Fin 31)].unsignalled ≠ 0 ∧ rd exRing R.CR_IRQ_EN 3 ≠ 0) ∧
    (rd exRing R.MQ_IRQ_TIME_THR 3 ≠ 0 ∧ exRing.mqs[(3 : Fin 16)].unsignalled ≠ 0 ∧ rd exRing R.MQ_IRQ_IRQ_EN 3 ≠ 0) := by
  decide

/-! ### The buffer pools -/

/-- Pool 1: 100 buffers of 4 KB at 0x10000, its bitmap at 0x400; buffer 1 is in the ready list and buffer 0 allocated. -/
def exPool : State :=
  set { up with pools := up.pools.set 1 { up.pools[(1 : Fin 8)] with ready := [1], summary := BitVec.ofNat 4096 1 } }
    [(R.DRC_WINDOW, 0, 0x100000), (R.DRC_STATUS_NCH, 0, 2), (R.BPM_POOL_COUNT, 1, 100), (R.BPM_POOL_BASE, 1, 0x10),
     (R.BPM_POOL_MAP, 1, 0x10), (R.BPM_POOL_WARN, 1, 40), (R.BPM_POOL_THROTTLE, 1, 20), (R.BPM_POOL_STOP, 1, 5),
     (R.BPM_POOL_BP_HYST, 1, 3), (R.BPM_POOL_CFG_SIZE_LOG2, 1, 12), (R.BPM_POOL_CFG_EN, 1, 1), (R.BPM_POOL_CFG_INIT_DONE, 1, 1),
     (R.BPM_POOL_STATUS_FREE, 1, 99)]
/-- The same with HOLD_EN and two holds on buffer 0. -/
def exHold : State := memWrite (set exPool [(R.BPM_POOL_CFG_HOLD_EN, 1, 1)]) 0 0x10003 [2] false

theorem witness_PoolAllocationsAndLevels :
    (rd exPool R.BPM_POOL_CFG_EN 1 ≠ 0 ∧ rd exPool R.BPM_POOL_CFG_INIT_DONE 1 ≠ 0 ∧ 0 < rd exPool R.BPM_POOL_STATUS_FREE 1 ∧
      exPool.pools[(1 : Fin 8)].ready = 1 :: [] ∧ rd exPool R.BPM_POOL_STATUS_LEVEL 1 ≠ 3 ∧ rd exPool R.BPM_POOL_STATUS_LEVEL 1 ≠ 2) ∧
    (rd up R.BPM_POOL_CFG_EN 1 = 0 ∧ planesRun up = true ∧ planesRun exPool = true ∧ up.pools[(1 : Fin 8)].waiting = [] ∧
      exPool.pools[(1 : Fin 8)].waiting = []) ∧
    (rd exPool R.BPM_POOL_CFG_HOLD_EN 1 = 0 ∧ rd exHold R.BPM_POOL_CFG_HOLD_EN 1 ≠ 0) ∧
    (rd exPool R.BPM_POOL_STATUS_LEVEL 1 ≤ 3 ∧ exPool.phase ≠ .tripped ∧ ({ exPool with phase := .tripped } : State).phase = .tripped) ∧
    (∀ k, rd exPool R.BPM_POOL_STATUS_LEVEL 1 < k → k ≤ 3 → levelThreshold exPool 1 k < rd exPool R.BPM_POOL_STATUS_FREE 1) ∧
    (∃ k, rd exPool R.BPM_POOL_STATUS_LEVEL 1 < k ∧ k ≤ 3 ∧
      rd (set exPool [(R.BPM_POOL_STATUS_FREE, 1, 40)]) R.BPM_POOL_STATUS_FREE 1 ≤ levelThreshold exPool 1 k) := by
  refine ⟨by decide, by decide, by decide, by decide, fun k h₁ h₂ => ?_, 1, by decide⟩
  have h : ∀ k : Fin 4, levelThreshold exPool 1 k.val < rd exPool R.BPM_POOL_STATUS_FREE 1 ∨ k.val = 0 := by decide
  have h0 : rd exPool R.BPM_POOL_STATUS_LEVEL 1 = 0 := by decide
  rcases h ⟨k, by omega⟩ with h | h
  · exact h
  · exact absurd h (by show k ≠ 0; omega)

theorem witness_BuffersAndBadPointers :
    (poolOf exPool (0x10000 : Addr).toNat = some 1 ∧ exPool.pools[(1 : Fin 8)].waiting = [] ∧
      bpmCheck exPool .free 1 0x10000 = 0 ∧ poolHolds exPool 1 = false) ∧
    (poolOf exHold (0x10000 : Addr).toNat = some 1 ∧ exHold.pools[(1 : Fin 8)].waiting = [] ∧
      bpmCheck exHold .hold 1 0x10000 = 0 ∧ bpmCheck exHold .release 1 0x10000 = 0 ∧
      peek exHold (bufAddr exHold 1 0 + 3) 1 = [BitVec.ofNat 8 2]) ∧
    (bpmCheck (memWrite exHold 0 0x10003 [1] false) .release 1 0x10000 = 0 ∧
      peek (memWrite exHold 0 0x10003 [1] false) (bufAddr exHold 1 0 + 3) 1 = [BitVec.ofNat 8 1]) ∧
    (poolOf exPool (0 : Addr).toNat = none ∧ poolOf exPool (0x10001 : Addr).toNat = some 1 ∧ bpmCheck exPool .free 1 0x10001 = 2 ∧
      bpmCheck exPool .free 1 0x11000 = 3 ∧ bpmCheck exPool .hold 1 0x10000 = 6 ∧ bpmCheck exHold .release 1 0x11000 = 4) ∧
    exPool.hostOps.length < 256 ∧ 256 ≤ ({ exPool with hostOps := List.replicate 256 (.free, 0) } : State).hostOps.length :=
  ⟨by decide, by decide, by decide, by decide, by decide, Nat.le_of_eq (List.length_replicate ..).symm⟩

/-- Pool 1 at level 2 in the gap after an allocation, and a channel that waits for a buffer. -/
def exGap : State :=
  let s := set exPool [(R.BPM_POOL_STATUS_LEVEL, 1, 2), (R.BPM_POOL_BP_THR_GAP, 1, 100), (R.MC_CLK_STATUS_CORE_MHZ, 0, 1000)]
  { s with pools := s.pools.set 1 { s.pools[(1 : Fin 8)] with lastOther := some 0, waiting := [⟨false, .channel 5⟩] } }

theorem exPool_summary : exPool.pools[(1 : Fin 8)].summary.getLsbD 0 = true := by
  have h : exPool.pools[(1 : Fin 8)].summary = BitVec.ofNat 4096 1 := rfl
  rw [h, BitVec.getLsbD_ofNat]
  rfl

theorem witness_PoolLifeCycle :
    (poolEn exPool 1 = true ∧ planesRun exPool = true ∧
      poolConfigOk (wr exPool R.BPM_POOL_CFG_SIZE_LOG2 1 (bitsOf 0xB00 8 5)) 1 = false ∧
      poolConfigOk (wr exPool R.BPM_POOL_CFG_SIZE_LOG2 1 (bitsOf 0xC00 8 5)) 1 = true) ∧
    (let s := set exPool [(R.BPM_POOL_CFG_EN, 1, 0)]
     poolEn s 1 = false ∧ planesRun s = true ∧
      poolConfigOk (wrb (wr s R.BPM_POOL_CFG_SIZE_LOG2 1 (bitsOf 0xB00 8 5)) R.BPM_POOL_CFG_HOLD_EN 1 (bitOf 0xB00 1)) 1 = false ∧
      poolConfigOk (wrb (wr s R.BPM_POOL_CFG_SIZE_LOG2 1 (bitsOf 0xC00 8 5)) R.BPM_POOL_CFG_HOLD_EN 1 (bitOf 0xC00 1)) 1 = true) ∧
    ({ exPool with pools := exPool.pools.set 1 { exPool.pools[(1 : Fin 8)] with initialising := true } } : State).pools[(1 : Fin 8)].initialising = true ∧
    (rd exPool R.MC_CLK_STATUS_CORE_MHZ 0 = 0 ∧ rd exGap R.MC_CLK_STATUS_CORE_MHZ 0 ≠ 0 ∧ inGap exGap 1 = true ∧
      exGap.pools[(1 : Fin 8)].ready = 1 :: [] ∧ exGap.pools[(1 : Fin 8)].waiting = ⟨false, .channel 5⟩ :: [] ∧
      canAlloc (passTime exGap (gapNs exGap 1)) 1 false = true) ∧
    rd exPool R.BPM_POOL_STATUS_FREE 1 ≠ rd exPool R.BPM_POOL_COUNT 1 ∧
    rd (set exPool [(R.BPM_POOL_STATUS_FREE, 1, 100)]) R.BPM_POOL_STATUS_FREE 1 = rd exPool R.BPM_POOL_COUNT 1 ∧
    (rd exPool R.BPM_POOL_CFG_INIT_DONE 1 ≠ 0 ∧ exPool.pools[(1 : Fin 8)].ready.length ≤ 16 ∧
      exPool.pools[(1 : Fin 8)].waiting = [] ∧ exPool.pools[(1 : Fin 8)].summary.getLsbD 0 = true) :=
  ⟨by decide, by decide, by decide, by decide +kernel, by decide, by decide, by decide, by decide, by decide, exPool_summary⟩

/-! ### The DMA subsystem -/

/-- A descriptor in host memory: 100 bytes from core memory 0 to another place in it. -/
def dsc : Desc :=
  { at_ := 0x400000010000, next := 0x400000010040, src := 0x210000000000, dst := 0x210000001000, lineLen := 100, lines := 1,
    ctl := 0, srcStride := 0, dstStride := 0, fill := 5 }
/-- Channels 5 and 40 enabled; channel 5 in a phase, with a queue. -/
def exDma (p : ChPhase) (q : List Addr) : State :=
  set (modDma (modDma up 5 (fun c => { c with phase := p, queue := q, lastHost := some 0x400000000100, flushDue := true })) 40
      (fun c => { c with phase := p, queue := q }))
    [(R.DMA_CH_CFG_EN, 5, 1), (R.DMA_CH_CFG_EN, 40, 1), (R.DRC_WINDOW, 0, 0x100000), (R.DRC_STATUS_NCH, 0, 2)]
def paced (m g : Nat) (s : State) : State := set s [(R.DMA_CH_CFG_PACE, 5, m), (R.DMA_CH_PACE_STAT_GRANTS, 5, g)]

theorem witness_DmaChains :
    ((exDma .idle [0x80]).dma[(5 : Fin 64)].queue = 0x80 :: [] ∧ (exDma .idle [0x80]).dma[(5 : Fin 64)].phase = .idle ∧
      rd (exDma .idle [0x80]) R.DMA_CH_CFG_EN 5 ≠ 0 ∧ (exDma .idle [0x80]).dma[(5 : Fin 64)].queue.length < 16) ∧
    16 ≤ (exDma .idle (List.replicate 16 0x80)).dma[(5 : Fin 64)].queue.length ∧
    (paceMode (exDma .idle [0x80]) 5 = 0 ∧ paceMode (paced 1 0 (exDma .idle [0x80])) 5 = 1 ∧
      paceMode (paced 2 3 (exDma .idle [0x80])) 5 = 2 ∧ rd (paced 2 3 (exDma .idle [0x80])) R.DMA_CH_PACE_STAT_GRANTS 5 = 3 ∧
      rd (paced 2 0 (exDma .idle [0x80])) R.DMA_CH_PACE_STAT_GRANTS 5 = 0 ∧
      rd (paced 2 255 (exDma .idle [0x80])) R.DMA_CH_PACE_STAT_GRANTS 5 = 255) ∧
    ((exDma (.fetch 0x80) []).dma[(5 : Fin 64)].phase ≠ .idle ∧ paceMode (paced 1 0 (exDma (.fetch 0x80) [])) 5 = 1) ∧
    (exDma (.done true) []).dma[(5 : Fin 64)].phase = .done true ∧
    (bitOf (0x521 : BitVec 32).toNat 16 = false ∧ bitOf (0x521 : BitVec 32).toNat 16 = false ∧ bitsOf (0x521 : BitVec 32).toNat 4 2 = 2) := by
  decide

/-- The bytes of a descriptor. -/
def dscBytes (ctl : Nat) : List Byte :=
  bytesOf 8 0x400000010040 ++ bytesOf 8 0x210000000000 ++ bytesOf 8 0x210000001000 ++ bytesOf 4 100 ++ bytesOf 2 1 ++
    bytesOf 2 ctl ++ bytesOf 32 0
/-- Channel 5 waits for a buffer of pool 1. -/
def exAlloc : State :=
  { exPool with
    dma := up.dma.set 5 { up.dma[(5 : Fin 64)] with phase := .alloc { dsc with ctl := 0x108 } }
    pools := exPool.pools.set 1 { exPool.pools[(1 : Fin 8)] with waiting := [⟨false, .channel 5⟩] } }
/-- Channel 5 has its buffer already. -/
def exGiven : State :=
  { exPool with dma := up.dma.set 5 { up.dma[(5 : Fin 64)] with phase := .alloc { dsc with ctl := 0x108 }, buf := some 0x11000 } }

/-- Channel 5 in a phase, with no host write that waits to be proved. -/
def exPure (p : ChPhase) : State := modDma up 5 (fun c => { c with phase := p })

theorem witness_DmaDescriptors :
    (∀ k : Fin 2, let c : Fin 64 := if k = 0 then 5 else 40
      (exDma (.fetch 0x400000010000) []).dma[c].phase = .fetch 0x400000010000 ∧
      rd (exDma (.fetch 0x400000010000) []) R.DMA_CH_CFG_EN c.val ≠ 0) ∧
    (regionOf (exDma .idle []) (0x400000010000 : Addr).toNat = .host 0x10000 ∧
      regionOf (exDma .idle []) ((0x400000010000 : Addr).toNat + 56) = .host (0x10000 + 56)) ∧
    (descFormatOk (dscBytes 0) = true ∧ descFormatOk (dscBytes 4) = true ∧ descFormatOk (dscBytes 8) = true ∧
      descFormatOk (dscBytes 0x80) = false ∧ descFormatOk (dscBytes 0x81) = false) ∧
    (ctlWaitPrev (parseDesc 0x400000010000 (dscBytes 4)) = true ∧ moves (parseDesc 0x400000010000 (dscBytes 4)) = true ∧
      ctlFill (parseDesc 0x400000010000 (dscBytes 4)) = false ∧
      ctlAlloc (parseDesc 0x400000010000 (dscBytes 8)) = true ∧ ctlWaitPrev (parseDesc 0x400000010000 (dscBytes 8)) = false ∧
      ctlAlloc (parseDesc 0x400000010000 (dscBytes 0)) = false) ∧
    (exAlloc.dma[(5 : Fin 64)].phase = .alloc { dsc with ctl := 0x108 } ∧
      ctlPool { dsc with ctl := 0x108 } = 1 ∧ ctlLive { dsc with ctl := 0x108 } = false ∧ exAlloc.dma[(5 : Fin 64)].buf = none ∧
      exAlloc.pools[(1 : Fin 8)].ready = 1 :: [] ∧ exAlloc.pools[(1 : Fin 8)].waiting = [⟨false, .channel 5⟩] ∧
      canAlloc exAlloc 1 false = true ∧
      exGiven.dma[(5 : Fin 64)].buf = some 0x11000 ∧ exGiven.pools[(1 : Fin 8)].waiting = []) ∧
    (planesRun exAlloc = true ∧
      (∀ got ∈ [HostRead.data (dscBytes 0), .poisoned, .errorStatus, .timeout],
        (hostFetch (exDma (.fetch 0x400000010000) []) 5 0x10000 64 got).isSome = true) ∧
      (exDma (.waitPrev dsc) []).dma[(5 : Fin 64)].lastHost = some 0x400000000100 ∧
      flushTag (exDma (.waitPrev dsc) []) 5 = none ∧ freeTag (exDma (.waitPrev dsc) []) 5 ≠ none ∧
      freeTag { exDma (.waitPrev dsc) [] with tags := (List.range 256).map (fun i => ⟨BitVec.ofNat 10 i, 5, 0, 64, 0, 0, 0, false, none⟩) } 5 =
        none) ∧
    (exDma (.waitPrev dsc) []).dma[(5 : Fin 64)].phase = .waitPrev dsc ∧
    ((exDma (.arrive dsc 1) []).dma[(5 : Fin 64)].phase = .arrive dsc 1 ∧
      ∀ j : Fin 64, (exPure (.arrive dsc 1)).dma[j].unsent = [] ∧ (exPure (.arrive dsc 1)).dma[j].flushDue = false) := by
  refine ⟨by decide, by decide, by decide, by decide, by decide, ?_, by decide, by decide⟩
  decide +kernel


/-- Channels 5 and 40 fetch a descriptor in core memory 0. -/
def inCore (ctl : Nat) (e : EccState) : State :=
  let s := memWrite (exDma (.fetch 0x210000003000) []) 0 0x210000003000 (dscBytes ctl) false
  if e = .ok then s else { s with ecc := [(0x210000003000, e)] }

theorem witness_DmaDescriptors_memory :
    (let s := inCore 0 .ok
     s.dma[(5 : Fin 64)].phase = .fetch 0x210000003000 ∧ rd s R.DMA_CH_CFG_EN 5 ≠ 0 ∧ planesRun s = true ∧
      regionOf s 0x210000003000 = .core 0 0x3000 ∧ inMemory s 0x210000003000 64 = true ∧
      (memRead s reqDma 0x210000003000 64).poison = false ∧ badWords s 0x210000003000 64 = []) ∧
    (let s := inCore 0 .poison
     (memRead s reqDma 0x210000003000 64).poison = true ∧ eccCovers s 0x210000003000 = true ∧ storeWf EccState.ok s.ecc ∧
      ∃ e ∈ badWords s 0x210000003000 64, e.2 = .poison) ∧
    (regionOf (exDma .idle []) 0x280000000000 ≠ .host 0 ∧ inMemory (exDma .idle []) 0x280000000000 64 = false) ∧
    (let d : Desc := { dsc with dst := 0x400000000000 }
     32 ≤ (40 : Fin 64).val ∧ moves d = true ∧ 0 < d.lines ∧ ctlAlloc d = false ∧ inHost (inCore 0 .ok) (lineDst d none 0) = true) ∧
    (exPool.pools[(1 : Fin 8)].ready = 1 :: [] ∧ exPool.pools[(1 : Fin 8)].waiting = [] ∧ canAlloc exPool 1 false = true ∧
      canAlloc (modPool exPool 1 (fun x => { x with ready := [] })) 1 false = false) ∧
    (let s := modPool exAlloc 1 (fun x => { x with ready := [] })
     s.dma[(5 : Fin 64)].buf = none ∧ canAlloc (passUntil s (0 + max 1 (rd s R.DMA_ALLOC_WAIT 0) * 1000)) 1 false = false ∧
      canAlloc (passUntil exAlloc (0 + max 1 (rd s R.DMA_ALLOC_WAIT 0) * 1000)) 1 false = true) ∧
    (let s := noTag (exDma (.waitPrev dsc) [])
     s.dma[(5 : Fin 64)].lastHost ≠ none ∧ flushTag s 5 = none ∧ freeTag s 5 = none) := by
  refine ⟨?_, ?_, ?_, ?_, ?_, ?_, ?_⟩ <;> decide +kernel


/-- Channel `k` moves the lines of `d`, with what has come from the host. -/
def exMove (k : Fin 64) (d : Desc) (l : List Staged) : State := modDma (exDma (.move d) [0x40]) k (fun c => { c with staged := l })
/-- A descriptor of one line of 4 bytes between two places. -/
def dword (src dst : Addr) (ctl : BitVec 16) : Desc := { dsc with src := src, dst := dst, ctl := ctl, lineLen := 4 }
/-- The code of the first thing wrong with a line that meets no poison (R296). -/
def lineStop (s : State) (k : Fin 64) (d : Desc) (l : Nat) : Nat :=
  let dst := lineDst d s.dma[k].buf
  if (ctlFill d = false ∧ mapped s (lineSrc d l) d.lineLen = false) ∨ mapped s (dst l) d.lineLen = false then 1
  else if (ctlFill d = false ∧ regLineOk s (lineSrc d l) d.lineLen = false) ∨ regLineOk s (dst l) d.lineLen = false then 5
  else if .error ∈ stagedLine s k d l then 3 else 0
/-- Two lines of core memory 0, and a place in host memory. -/
def two : Desc := { dsc with lines := 2, srcStride := 128, dstStride := 128 }
def hostAt : Addr := 0x400000020000
/-- Channel 5 has buffer 0 of a pool with holds for the lines of an ALLOC_DST descriptor. -/
def exBuf (d : Desc) : State := { exHold with dma := up.dma.set 5 { up.dma[(5 : Fin 64)] with phase := .move d, buf := some 0x10000 } }

theorem witness_DmaLinesAndAborts_lines :
    (let s := exMove 5 two []
     s.dma[(5 : Fin 64)].phase = .move two ∧ planesRun s = true ∧ reading s 5 = false ∧ moves two = true ∧ s.hidden = [] ∧
      s.dma[(5 : Fin 64)].buf = none ∧ (∀ l, l < 2 → lineStop s 5 two l = 0 ∧ badWords s (lineSrc two l) two.lineLen = [] ∧
        inHost s (lineSrc two l) = false ∧ inRegs s (lineSrc two l) = false ∧ inRegs s (lineDst two none l) = false)) ∧
    (reading (modDma (exMove 5 two []) 5 (fun c => { c with unsent := [(0, 64, 0)] })) 5 = true ∧ moves { dsc with lines := 0 } = false) ∧
    (let d : Desc := { dsc with dst := hostAt }
     32 ≤ (40 : Fin 64).val ∧ 0 < d.lines ∧ inHost (exMove 40 d []) (lineDst d none 0) = true) ∧
    (let d : Desc := { dsc with ctl := 0x108, dst := 0 }
     let s := exBuf d
     s.dma[(5 : Fin 64)].buf = some 0x10000 ∧ poolHolds s (ctlPool d) = true ∧ lineDst d (some 0x10000) 0 ≤ 0x10003 ∧
      0x10003 < lineDst d (some 0x10000) 0 + d.lineLen ∧ poolOf s 0x10000 = some 1 ∧ bpmCheck s .free 1 0x10000 = 0 ∧
      (∀ p : Fin 8, s.pools[p].waiting = []) ∧ holdCount (memWrite s 0 0x10003 [1] false) 1 0 = 1) ∧
    (lineStop (exMove 5 { two with src := 0x280000000000 } []) 5 { two with src := 0x280000000000 } 0 = 1 ∧
      (let d : Desc := { dsc with src := hostAt, lineLen := 4 }
       let s := exMove 5 d [.data 1, .error, .data 3, .data 4]
       lineStop s 5 d 0 = 3 ∧ inHost s (lineSrc d 0) = true ∧ reading s 5 = false)) ∧
    (let s : State := { exMove 5 two [] with ecc := [(0x210000000080, .poison)] }
     lineStop s 5 two 1 = 0 ∧ eccCovers s (lineSrc two 1) = true ∧ storeWf EccState.ok s.ecc ∧
      ∃ e ∈ badWords s (lineSrc two 1) two.lineLen, e.2 = .poison) ∧
    (ctlFreeSrc { dsc with ctl := 0x10 } = true ∧ ctlFill { dsc with ctl := 0x10 } = false ∧ poolOf exPool dsc.src.toNat = none) := by
  refine ⟨?_, ?_, ?_, ?_, ?_, ?_, ?_⟩ <;> decide +kernel


/-- Lines from and to a register at 0x300000000000. -/
theorem witness_DmaLinesAndAborts_registers :
    (∀ d ∈ [dword 0x210000000000 0x300000000000 0, dword 0x210000000000 0x300000000000 1, dword hostAt 0x300000000000 0,
        dword 0x300000000008 0x300000000000 0],
      let s := exMove 5 d (if d.src = hostAt then [.data 1, .data 2, .data 3, .data 4] else [])
      s.dma[(5 : Fin 64)].phase = .move d ∧ reading s 5 = false ∧ s.hidden = [] ∧ d.lines = 1 ∧ 0 < d.lineLen ∧ ctlFreeSrc d = false ∧
      lineStop s 5 d 0 = 0 ∧ regionOf s (lineDst d s.dma[(5 : Fin 64)].buf 0) = .regs 0) ∧
    (let d := dword 0x210000000000 0x300000000000 0
     let s := exMove 5 d []
     inMemory s (lineSrc d 0) d.lineLen = true ∧ inRegs s (lineSrc d 0) = false ∧ badWords s (lineSrc d 0) d.lineLen = [] ∧
      (∃ e ∈ badWords { s with ecc := [(0x210000000000, .poison)] } (lineSrc d 0) d.lineLen, e.2 = .poison)) ∧
    (let d := dword hostAt 0x300000000000 0
     let s := exMove 5 d [.data 1, .data 2, .data 3, .data 4]
     inHost s (lineSrc d 0) = true ∧ (stagedLine s 5 d 0).length = d.lineLen ∧ Staged.poison ∉ stagedLine s 5 d 0) ∧
    (let d := dword 0x300000000008 0x210000001000 0
     let s := exMove 5 d []
     regionOf s (lineSrc d 0) = .regs 8 ∧ lineStop s 5 d 0 = 0) ∧
    (let d := dword 0x300000000008 hostAt 0
     let s := exMove 5 d []
     regionOf s (lineSrc d 0) = .regs 8 ∧ lineStop s 5 d 0 = 0) ∧
    (0x210000001000 + 4 ≤ dsc.at_.toNat ∧ dsc.at_.toNat + 64 ≤ hostAt.toNat) ∧
    (let d := dword 0x210000000000 0x210000001000 0
     let s : State := { exMove 5 d [] with ecc := [(0x210000000000, .poison)] }
     lineStop s 5 d 0 = 0 ∧ inMemory s (lineDst d none 0) d.lineLen = true ∧ eccCovers s (lineDst d none 0) = true ∧
      d.at_.toNat % 64 = 0 ∧ lineDst d none 0 + d.lineLen ≤ d.at_.toNat) := by
  refine ⟨?_, ?_, ?_, ?_, ?_, ?_, ?_⟩ <;> decide +kernel


theorem witness_DmaLinesAndAborts :
    (∀ p ∈ [ChPhase.waitPrev dsc, .arrive dsc 1, .alloc dsc], ∀ d, (exDma p [0x40]).dma[(5 : Fin 64)].phase ≠ .move d) ∧
    (inProgress (exDma (.waitPrev dsc) []) 5 = some (dsc, 0) ∧ inProgress (exDma (.arrive dsc 1) []) 5 = some (dsc, 1) ∧
      inProgress (exDma (.alloc dsc) []) 5 = some (dsc, 0)) ∧
    (∀ d, (exDma (.fetch 0x80) [0x40]).dma[(5 : Fin 64)].phase ≠ .move d) ∧
    (rd (exDma (.fetch 0x80) [0x40]) R.DMA_CH_COUNT 5 < 2 ^ 32 ∧ inProgress (exDma (.fetch 0x80) [0x40]) 5 = none) ∧
    ((exMove 5 two []).dma[(5 : Fin 64)].phase = .move two ∧ NoRegLine (exMove 5 two []) 5 two ∧ issuable (exMove 5 two []) 5 two = 2) := by
  refine ⟨fun p h d e => ?_, by decide +kernel, fun d h => ChPhase.noConfusion (show ChPhase.fetch 0x80 = .move d from h), by decide +kernel,
    rfl, ?_, by decide +kernel⟩
  · have e' : p = .move d := e
    subst e'
    simp at h
  · unfold Sys2Proof.NoRegLine
    decide +kernel

/-! ### The tracking and tensor instructions -/

theorem lane_ex (i : Nat) : laneOf (vGet ex.cores[(0 : Fin 16)] (insn 3 1 0 0 0).A) i = 0 := by
  have h0 : vGet ex.cores[(0 : Fin 16)] (insn 3 1 0 0 0).A = 0 := rfl
  rw [h0]
  simp [laneOf]

/-- Every lane holds 0: lane 0 is the first of the least; with p3 as the guard no lane is present. -/
theorem witness_TrackingResults :
    Ready ex 0 ∧ (insn 3 1 0 0 0).C = 0 ∧ (insn 3 1 0 0 0).X.toNat < 2 ∧ (insn 3 1 0 0 0).B = 0 ∧
    (insn 3 1 0 0 0).D.toNat < 31 ∧ (insn 3 1 0 0 0).A.toNat < 29 ∧ isFp (insn 3 1 0 0 0) = false ∧
    guarded ex.cores[(0 : Fin 16)] (insn 3 1 0 0 0) 0 = true ∧
    (∀ j, ¬ (laneOf (vGet ex.cores[(0 : Fin 16)] (insn 3 1 0 0 0).A) j).toInt <
      (laneOf (vGet ex.cores[(0 : Fin 16)] (insn 3 1 0 0 0).A) 0).toInt) ∧
    (∀ i : Fin 128, guarded ex.cores[(0 : Fin 16)] { insn 3 1 0 0 0 with PG := 3 } i.val = false) :=
  ⟨ready_ex, by decide, by decide, by decide, by decide, by decide, by decide, by decide,
    fun j => by rw [lane_ex, lane_ex]; decide, by decide⟩

/-- A descriptor register from its bytes: offset, length, value. -/
def td (l : List (Nat × Nat × Nat)) : BitVec 512 := BitVec.ofNat 512 (l.foldl (fun a x => a + x.2.2 * 2 ^ (8 * x.1)) 0)
def dense (base : Nat) : BitVec 512 := td [(0, 1, 1), (8, 6, base), (16, 4, 0x1000), (24, 4, 0x3F800000)]
def epi : BitVec 512 := td [(0, 1, 4), (8, 6, 0x210000090000), (16, 4, 0xC1000000), (20, 4, 0x41000000), (24, 4, 0x3F000000)]
def tq : TensorInsn :=
  { TX := 0, TY := 1, TD := 2, TE := 3, TM := 0, PG := 0, PN := false, PLAN := 0, TAG_BASE := 0, FX := 0, FY := 0, FD := 8,
    SHAPE := 0, CX := false, CD := false, GATHER := false, GS := 0, CHK := false, MASK := 0, COPY := false, BIAS := false,
    ACT := 0, Z1a := 0, MSRC := 0, NSRC := 1, KSRC := 2, BSRC := 3, Z1b := 0, SX := 0, SY := 0, SD := 0, Z2 := 0, W3 := 0 }
def pe : PlanEntry :=
  { textOffset := 0, mMax := 300, nMax := 300, kMax := 300, batchMax := 4, actFmt := 0, wgtFmt := 0, compression := 0,
    gather := false, shape := 0, mExt := 16, nExt := 4, kExt := 4 }
/-- The bounds M, N, K, BATCH are 1, 1, 2, 1. -/
def tcore : Core :=
  { running with
    t := (((running.t.set 0 (dense 0x210000010000)).set 1 (dense 0x210000018000)).set 2 (dense 0x210000110000)).set 3 epi
    b := (((running.b.set 0 1).set 1 1).set 2 2).set 3 1
    plan := { Plan.init with tune := true, entries := [pe, { pe with actFmt := 6, wgtFmt := 6 }, { pe with kMax := 1 }, { pe with kExt := 1 }] } }
def exT : State := withCore tcore
def te (w : TensorInsn) : TEntry :=
  { op := .tqk, insn := w, addr := tcore.pc, M := tcore.b[(Fin.ofNat 16 w.MSRC.toNat : Fin 16)].toNat,
    N := tcore.b[(Fin.ofNat 16 w.NSRC.toNat : Fin 16)].toNat, K := tcore.b[(Fin.ofNat 16 w.KSRC.toNat : Fin 16)].toNat,
    BATCH := tcore.b[(Fin.ofNat 16 w.BSRC.toNat : Fin 16)].toNat }
def exTD (d : BitVec 512) : State := withCore { tcore with t := tcore.t.set 2 d }

/-- The same core with the descriptors that the nine forms name: streams at 4 and 7, window operands at 5 and 9, a
convolution's weights at 8. -/
def formCore : Core :=
  let stream := fun (base sb pk pn : Nat) => td [(0, 1, 2), (8, 6, base), (16, 6, sb), (24, 4, pk), (28, 4, pn)]
  let image := fun (pad : Nat) => td [(0, 1, 1), (8, 6, 0x210000010000), (16, 4, 0x400), (24, 4, 0x3F800000), (4, 2, 4), (32, 2, 3),
    (34, 1, pad), (35, 1, pad), (36, 1, pad), (37, 1, pad)]
  { tcore with
    t := (((((tcore.t.set 4 (stream 0x210000018000 0x210000050000 2 1)).set 5 (image 1)).set 6 (td [(0, 1, 4), (1, 1, 1)])).set 7
      (stream 0x210000018000 0 1 2)).set 8 (td [(0, 1, 1), (8, 6, 0x210000018000), (32, 6, 0x210000050000), (40, 4, 2),
        (44, 4, 1)])).set 9 (image 0) }
def exForms : State := withCore formCore
/-- Windows of 3 by 3 with strides and dilations of 1, and of 1 by 1 with an expansion of 2. -/
def win3 : BitVec 64 := BitVec.ofNat 64 (3 * 2 ^ 59 + 3 * 2 ^ 54 + 2 ^ 48 + 2 ^ 42 + 2 ^ 34 + 2 ^ 26)
def win1 : BitVec 64 := BitVec.ofNat 64 (2 ^ 59 + 2 ^ 54 + 2 ^ 49 + 2 ^ 43 + 2 ^ 34 + 2 ^ 26)
/-- One instruction of each form that passes every check. -/
def goodForms : List (TOp × TensorInsn) :=
  [(.tmm, { tq with TY := 4 }), (.tbd, { tq with TE := 0, TY := 7, FX := 6, FY := 6, PLAN := 1 }),
   (.twg, { tq with TE := 6, FX := 6, FY := 6, PLAN := 1 }), (.tqk, tq), (.tpv, tq), (.tconv, { tq with TX := 5, TY := 8, W3 := win3 }),
   (.tdw, { tq with TX := 5, W3 := win3 }), (.tpool, { tq with TX := 5, TY := 0, TE := 0, FD := 0, W3 := win3 }),
   (.trsz, { tq with TX := 9, TY := 0, TE := 0, FD := 0, W3 := win1 })]
def goodForm (x : TOp × TensorInsn) : Bool :=
  match formCore.plan.entries[x.2.PLAN.toNat]? with
  | some p =>
    match entryOf exForms 0 x.1 x.2 p with
    | some e => legal 0 formCore e p && decide (e.M ≤ p.mMax ∧ e.N ≤ p.nMax ∧ e.K ≤ p.kMax ∧ e.BATCH ≤ p.batchMax) &&
        (extentFault formCore e p).isNone && (regionFault exForms 0 e).isNone && (overlapFault exForms 0 e).isNone && !zeroShape formCore e
    | none => false
  | none => false

/-- The completion clause of the nine forms. -/
theorem witness_TensorIssue_completes_place :
    ownCoreMem 0 (formCore.pc.toNat + 31) = true ∧ formCore.pc.toNat % 32 = 0 ∧ formCore.tq.length < 4 := by decide +kernel
theorem witness_TensorIssue_completes_guards : ∀ x ∈ goodForms, guardTrue formCore x.2.PG x.2.PN = true := by decide +kernel
theorem witness_TensorIssue_completes : ∀ x ∈ goodForms, goodForm x = true := by decide +kernel
theorem witness_TensorIssue_completes_all :
    goodForms.map (fun x => x.1) = [.tmm, .tbd, .twg, .tqk, .tpv, .tconv, .tdw, .tpool, .trsz] := by
  simp only [goodForms, List.map_cons, List.map_nil]
theorem witness_TensorIssue_ready : Ready exForms 0 := by
  refine ⟨?_, ?_, ?_⟩ <;> decide +kernel

theorem witness_TensorIssue :
    Ready exT 0 ∧ ownCoreMem 0 (exT.cores[(0 : Fin 16)].pc.toNat + 31) = true ∧ tcore.pc.toNat % 32 = 0 ∧
    (Instr.tqk 0 tq, TOp.tqk) ∈ tensorForms 0 tq ∧
    ({ tcore with pc := 0x210000000008 } : Core).pc.toNat % 32 ≠ 0 ∧
    (guardTrue tcore 1 false = false ∧ guardTrue tcore 0 false = true ∧ tcore.tq.length < 4 ∧
      4 ≤ ({ tcore with tq := List.replicate 4 (te tq) } : Core).tq.length) ∧
    (tq.MSRC.toNat < 16 ∧ tq.NSRC.toNat < 16 ∧ tq.KSRC.toNat < 16 ∧ tq.BSRC.toNat < 16) ∧
    (tcore.plan.entries[({ tq with PLAN := 9 } : TensorInsn).PLAN.toNat]? = none ∧
      tcore.plan.entries[tq.PLAN.toNat]? = some pe) ∧
    (legal 0 tcore (te tq) pe = true ∧ legal 0 tcore (te { tq with FX := 6 }) pe = false) ∧
    ((te tq).M ≤ pe.mMax ∧ (te tq).N ≤ pe.nMax ∧ (te tq).K ≤ pe.kMax ∧ (te tq).BATCH ≤ pe.batchMax) ∧
    (legal 0 tcore (te { tq with PLAN := 2 }) { pe with kMax := 1 } = true ∧ ¬ (te { tq with PLAN := 2 }).K ≤ ({ pe with kMax := 1 } : PlanEntry).kMax) ∧
    (extentFault tcore (te tq) pe = none ∧ regionFault exT 0 (te tq) = none ∧ overlapFault exT 0 (te tq) = none) ∧
    (extentFault tcore (te tq) { pe with kExt := 1 } = some 0x210000010000 ∧
      regionFault (exTD (dense 0x5000)) 0 (te tq) = some 0x5000 ∧
      overlapFault (exTD (dense 0x210000010000)) 0 (te tq) = some 0x210000010000) ∧
    (zeroShape tcore (te tq) = false ∧ zeroShape tcore (te { tq with KSRC := 4 }) = true) := by
  refine ⟨⟨by decide, by decide, by decide⟩, by decide, by decide, ?_, by decide, by decide, by decide, by decide, ?_, by decide,
    ?_, ?_, ?_, by decide⟩
  · simp [tensorForms]
  all_goals decide +kernel

/-- A tensor instruction under way in core 0. -/
def exRun (f : TRun → TRun) : State := withCore { tcore with cur := some (f (freshRun (te tq) [true])) }
/-- The floating-point one, of plan entry 1. -/
def tf : TensorInsn := { tq with FX := 6, FY := 6, PLAN := 1, KSRC := 3 }

theorem clean_of_nil {s : State} (h : s.ecc = []) (l : List Span) : cleanSpans s l := by
  intro x hx
  rw [h] at hx
  cases hx

theorem witness_TensorRunsAndReductions :
    (({ tcore with tq := [te tq] } : Core).tq = te tq :: [] ∧ tcore.cur = none ∧ feeds tcore = true ∧ (te tq).insn.MASK = 0 ∧
      tcore.tq = []) ∧
    (totalTiles tcore (te tq) ≤ 1 ∧ (freshRun (te tq) [true]).closes = [] ∧ (freshRun (te tq) [true]).latchA = none ∧
      (freshRun (te tq) [true]).latchB = none ∧ (te tq).insn.COPY = false ∧ tcore.mode ≠ .stopping ∧
      (freshRun (te tq) [true]).tile < totalTiles tcore (te tq)) ∧
    rd (set exT [(R.ARRAY_STATUS_GATED, 0, 0)]) R.ARRAY_STATUS_GATED 0 = 0 ∧
    (∀ e ∈ [te tq, te tf], ∃ w, stepWork tcore e 0 = some w ∧ e.op.reducer = false ∧ 0 < totalTiles tcore e ∧
      0 < stepsOf tcore e ∧ (integerPath e = true ↔ e = te tq) ∧
      cleanSpans (exRun id) (stepSpans tcore e (tileAt tcore e 0).1 (tileAt tcore e 0).2.1 (tileAt tcore e 0).2.2 w true)) ∧
    (0 + 1 = stepsOf tcore (te tf) ∧ 0 + 1 < stepsOf tcore { te tq with K := 40 }) := by
  refine ⟨by decide, by decide, by decide, fun e h => ?_, by decide⟩
  simp only [List.mem_cons, List.not_mem_nil, or_false] at h
  rcases h with rfl | rfl
  · exact ⟨(stepWork tcore (te tq) 0).get (by decide), by decide, by decide, by decide, by decide, by decide, clean_of_nil rfl _⟩
  · exact ⟨(stepWork tcore (te tf) 0).get (by decide), by decide, by decide, by decide, by decide, by decide, clean_of_nil rfl _⟩

/-- When arrays ramp up and down: a second core of the cluster whose ramp has not begun, arrays that are up and idle,
steps under way, steps to come, and a stop between tiles. -/
theorem witness_TensorRunsAndReductions_ramps :
    (let waiting : Core := { running with ramp := { running.ramp with up := true, start := exT.clock.cyc + 2 } }
     let s : State := { exT with cores := exT.cores.set 1 waiting }
     s.cores[(0 : Fin 16)].ramp.up = false ∧ s.cores[(1 : Fin 16)].ramp.up = true ∧ s.clock.cyc ≤ s.cores[(1 : Fin 16)].ramp.start ∧
      clusterOf (1 : Fin 16) = clusterOf (0 : Fin 16) ∧ clusterOf (4 : Fin 16) ≠ clusterOf (0 : Fin 16)) ∧
    (let c : Core := { tcore with ramp := { tcore.ramp with up := true } }
     planesRun (withCore c) = true ∧ arrayBusy c 0 = false ∧ arrayBusy c 1 = false ∧ willFeed c = false ∧ c.cur = none) ∧
    (let c := fun (f : TRun → TRun) => (exRun f).cores[(0 : Fin 16)]
     willFeed (c id) = true ∧ arrayBusy (c id) 0 = false ∧ arrayBusy (c (fun r => { r with step := 1 })) 0 = true ∧
      arrayBusy (c (fun r => { r with latchA := some (0, 0) })) 0 = true ∧
      willFeed { c id with mode := .stopping } = false ∧
      willFeed (c (fun r => { r with e := { r.e with op := .tpool } })) = false) := by
  refine ⟨?_, ?_, ?_⟩ <;> decide +kernel

/-- A descriptor register is in use while an instruction that names it is queued. -/
theorem witness_LoadAndStoreResults_inUse :
    tInUse { tcore with tq := [te tq] } 0 = true ∧ tInUse tcore 0 = false := by decide +kernel

/-- The accumulators of array A with a checksum lane that differs from its row 0. -/
def wrongLane : Core := { tcore with arrA := { tcore.arrA with rowLane0 := [1] } }
/-- An instruction whose weights are streamed: the tag of its scale block is not the expected one. -/
def tmm : TEntry := { te { tq with TAG_BASE := 5 } with op := .tmm }

theorem witness_GroupsAndEpilogues :
    (let q : PendingClose := { tile := 0, group := 0, bank := false, last := true }
     ({ freshRun (te tq) [true] with closes := [q] } : TRun).closes = q :: [] ∧
      (freshRun (te tq) [true]).latchA = none ∧ (freshRun (te tq) [true]).latchB = none ∧
      ({ freshRun (te tq) [true] with latchA := some (0, 3) } : TRun).latchA ≠ none) ∧
    (tagWrong exT tcore tmm 0 0 0 0 = true ∧ ∀ a : Fin 2, tagWrong exT tcore (te tq) 0 0 0 a.val = false) ∧
    (checking exT 0 (te { tq with CHK := true }) = true ∧ checking exT 0 (te tq) = false ∧
      CheckRes.differs ∈ (checksOf (withCore wrongLane) 0 (te { tq with CHK := true }) 0 false).1 ∧
      ∀ a : Fin 2, CheckRes.differs ∉ (checksOf exT 0 (te { tq with CHK := true }) a.val false).1 ++
        (checksOf exT 0 (te { tq with CHK := true }) a.val false).2) ∧
    ((exRun (fun r => { r with latchA := some (0, 0) })).cores[(0 : Fin 16)].cur =
        some { freshRun (te tq) [true] with latchA := some (0, 0) } ∧
      rowsM tcore (te tq) ≤ (tileAt tcore (te tq) 0).2.1 * tileRows (te tq) + 127 / slices (te tq) ∧
      (tileAt tcore (te tq) 0).2.1 * tileRows (te tq) + 0 / slices (te tq) < rowsM tcore (te tq) ∧
      0 < min 128 ((te tq).N - ((tileAt tcore (te tq) 0).2.2 * tileCols tcore (te tq) + 0)) ∧
      (te tq).insn.CD = false ∧ (te tq).op.reducer = false ∧ 8 ≤ fmtBits (fdOf (te tq)) ∧ dLayout (dD tcore (te tq)) ≤ 1 ∧
      accumulates tcore (te tq) = false ∧ fdOf (te tq) = 8) ∧
    (∀ l, cleanSpans (exRun id) l) ∧
    OnChip (exRun (fun r => { r with latchA := some (0, 0) })) 0
      (baseD tcore (te tq) 0 + (denseOff (dD tcore (te tq)) 8 0 0).1) 4 :=
  ⟨by decide +kernel, by decide +kernel, by decide +kernel, by decide +kernel, clean_of_nil rfl, by decide +kernel, by decide +kernel, by decide +kernel, by decide +kernel⟩

/-- The map of a masked instruction; its history lies at 0x210000210000. -/
def mtd : BitVec 512 := td [(0, 1, 3), (4, 2, 1), (6, 2, 1), (8, 6, 0x210000060000), (24, 6, 0x210000210000)]
/-- A pooling of 3 by 3 elements of an image of 4 by 3. -/
def xtd : BitVec 512 :=
  td [(0, 1, 1), (8, 6, 0x210000010000), (16, 4, 0x400), (24, 4, 0x3F800000), (4, 2, 4), (32, 2, 3), (34, 1, 1), (35, 1, 1),
    (36, 1, 1), (37, 1, 1)]
def mcore : Core := { tcore with t := (tcore.t.set 8 mtd).set 5 xtd }
def copying : TRun := { freshRun (te { tq with TM := 8, MASK := 1, COPY := true }) [false] with tile := 1 }
def pooling : TEntry :=
  { te { tq with TX := 5, TY := 0, TE := 0, FD := 0, W3 := BitVec.ofNat 64 (3 * 2 ^ 59 + 3 * 2 ^ 54 + 2 ^ 48 + 2 ^ 42 + 2 ^ 34 + 2 ^ 26) }
    with op := .tpool }
def exCopy : State := withCore { mcore with cur := some copying }
def exPooling : State := withCore { mcore with cur := some (freshRun pooling [true]) }

theorem witness_TileCopiesAndReducerTiles :
    (exCopy.cores[(0 : Fin 16)].cur = some copying ∧ feeds mcore = true ∧ computed mcore copying = true ∧
      nextCopy mcore copying = some 0 ∧
      tileSpans mcore copying.e 0 ≠ [] ∧
      (∀ p ∈ tileSpans mcore copying.e 0,
        OnChip exCopy 0 (baseH mcore copying.e 0 + p.1) p.2 ∧ OnChip exCopy 0 (baseD mcore copying.e 0 + p.1) p.2) ∧
      (tileSpans mcore copying.e 0).Pairwise (fun p p' => baseD mcore copying.e 0 + p.1 + p.2 ≤ baseD mcore copying.e 0 + p'.1 ∨
        baseD mcore copying.e 0 + p'.1 + p'.2 ≤ baseD mcore copying.e 0 + p.1) ∧
      ∀ p ∈ tileSpans mcore copying.e 0, ∀ p' ∈ tileSpans mcore copying.e 0,
        baseD mcore copying.e 0 + p.1 + p.2 ≤ baseH mcore copying.e 0 + p'.1 ∨
        baseH mcore copying.e 0 + p'.1 + p'.2 ≤ baseD mcore copying.e 0 + p.1) ∧
    (exPooling.cores[(0 : Fin 16)].cur = some (freshRun pooling [true]) ∧ pooling.op.reducer = true ∧
      0 < totalTiles mcore pooling ∧ pooling.insn.CD = false ∧ fmtBits (fdOf pooling) = 8 ∧ dLayout (dD mcore pooling) ≤ 1 ∧
      min 128 (rowsM mcore pooling) = 1 ∧ min (blockWidth (dD mcore pooling)) pooling.N = 1 ∧
      (∀ l, cleanSpans exPooling l) ∧
      OnChip exPooling 0 (baseD mcore pooling 0 + (denseOff (dD mcore pooling) (fdOf pooling) 0 0).1) 1) := by
  have h : tileSpans mcore copying.e 0 = [(0, 4)] := by decide +kernel
  rw [h]
  refine ⟨⟨by decide +kernel, by decide +kernel, by decide +kernel, by decide +kernel, by decide +kernel, ?_, by decide +kernel, by decide +kernel⟩, by decide +kernel, by decide +kernel, by decide +kernel,
    by decide +kernel, by decide +kernel, by decide +kernel, by decide +kernel, by decide +kernel, clean_of_nil rfl, by decide +kernel, by decide +kernel, by decide +kernel, by decide +kernel⟩
  intro p hp
  rw [List.mem_singleton] at hp
  subst hp
  exact ⟨⟨by decide +kernel, by decide +kernel, by decide +kernel, by decide +kernel⟩, by decide +kernel, by decide +kernel, by decide +kernel, by decide +kernel⟩

/-! ### Pre-emption and checkpoints -/

/-- A job runs on core 0; the checkpoint area is inside the core's memory. -/
def exCkpt (f : Core → Core) : State :=
  set (modCluster (withCore (f { running with job := some job })) 0 (fun c => { c with cur := some (job, .running), busy := 1, sent := 1 }))
    [(R.ARRAY_CKPT_BASE_BASE, 0, 0x210000400), (R.ARRAY_CTL_PREEMPT_EN, 0, 1), (R.CORE_JOB_TAG, 0, 0x77)]
/-- The job held, its checkpoint of version 1. -/
def exHeld : State :=
  memWrite (exCkpt (fun c => { c with mode := .held, job := none, held := some (holdOf (exCkpt id) 0 job) })) 0 0x210000400000 [1] false

theorem witness_StopsAndCheckpoints :
    (stoppable Core.init = false ∧ stoppable (exCkpt id).cores[(0 : Fin 16)] = true) ∧
    (rd (exCkpt id) R.ARRAY_CTL_PREEMPT_EN 0 ≠ 0 ∧ rd (exCkpt id) R.ARRAY_STATUS_CKPT_VALID 0 = 0 ∧
      (exCkpt id).cores[(0 : Fin 16)].job = some job ∧ job.noPreempt = false ∧
      (exCkpt id).clusters[clusterOf 0].busy = (exCkpt id).clusters[clusterOf 0].sent) ∧
    rd (set (exCkpt id) [(R.ARRAY_CTL_PREEMPT_EN, 0, 0)]) R.ARRAY_CTL_PREEMPT_EN 0 = 0 ∧
    ((exCkpt id).cores[(0 : Fin 16)].mode ≠ .stopping ∧
      (exCkpt (fun c => { c with mode := .stopping })).cores[(0 : Fin 16)].mode = .stopping ∧
      bitOf (1 : BitVec 32).toNat 0 = true ∧ ckptAreaOk up 0 = false) ∧
    (let s := exCkpt (fun c => { c with mode := .stopping })
     s.cores[(0 : Fin 16)].job = some job ∧ drained s.cores[(0 : Fin 16)] = true ∧ ckptAreaOk s 0 = true ∧
      rd s R.DRC_WINDOW 0 ≤ 0x200000000000 ∧ accSaved s.cores[(0 : Fin 16)] = false ∧ savedEntry s.cores[(0 : Fin 16)] = none) ∧
    (accSaved { tcore with cur := some { freshRun (te tq) [true] with step := 1 } } = true ∧
      drained { tcore with cur := some { freshRun (te tq) [true] with step := 1 } } = true) ∧
    (exHeld.cores[(0 : Fin 16)].held = some (holdOf (exCkpt id) 0 job) ∧ mayResume exHeld 0 = true ∧ ckptAreaOk exHeld 0 = true ∧
      rd exHeld R.DRC_WINDOW 0 ≤ 0x200000000000 ∧ badWords exHeld (ckptBase exHeld 0) (428 * 1024) = [] ∧
      peekNat exHeld (ckptBase exHeld 0) 2 = 1 ∧ peekNat exHeld (ckptBase exHeld 0 + 2) 1 = 0 ∧
      peekNat (memWrite exHeld 0 0x210000400002 [2] false) (ckptBase exHeld 0 + 2) 1 ≠ 0 ∧
      (holdOf (exCkpt id) 0 job).started = false ∧ (holdOf (exCkpt id) 0 job).insns = []) := by
  refine ⟨by decide, by decide, by decide, by decide, by decide, by decide, ?_⟩
  exact ⟨rfl, by decide, by decide, by decide, by decide, by decide, by decide, by decide, by decide, by decide⟩

/-- A write of PREEMPT_EN on running planes, a checkpoint that is not due, and a hold of a tensor instruction that had started. -/
theorem witness_StopsAndCheckpoints_more :
    (planesRun (exCkpt id) = true ∧ (exCkpt (fun c => { c with mode := .stopping })).phase = .up) ∧
    ((withCore { running with mode := .stopping, chains := [] }).phase = .up ∧ (exCkpt id).cores[(0 : Fin 16)].mode ≠ .stopping ∧
      (({ exCkpt (fun c => { c with mode := .stopping }) with phase := .halted }) : State).phase ≠ .up) ∧
    (let busyCore : Core := { tcore with cur := some { freshRun (te tq) [true] with step := 1 }, mode := .stopping }
     drained busyCore = true ∧ drained { busyCore with cur := some { freshRun (te tq) [true] with latchA := some (0, 0) } } = false) ∧
    (let s := withCore { tcore with cur := some (freshRun (te tq) [true]) }
     (holdOf s 0 job).insns ≠ [] ∧ (holdOf s 0 job).started = true ∧ ∀ x ∈ (holdOf s 0 job).insns, x.2.MASK = 0) ∧
    clusterOf (4 : Fin 16) ≠ clusterOf (0 : Fin 16) := by
  refine ⟨?_, ?_, ?_, ?_, ?_⟩ <;> decide +kernel

/-! ### The chanter, images and jobs -/

/-- A job of cluster 1 from ring 3, and one of batch class 1. -/
def cjob : Job := { job with cluster := 1 }
def bjob : Job := { cjob with ring := none, batch := some (1, 0) }
/-- Cluster 1 with class 1 enabled (areas of 4 slots of 256 bytes in its bag), and the jobs given waiting from ring 3. -/
def chant (jobs : List (Nat × Job)) (f : Cluster → Cluster) : State :=
  modCluster (set up [(R.DRC_WINDOW, 0, 0x1000000), (R.DRC_STATUS_NCH, 0, 2), (R.CR_EN, 3, 1), (R.CR_LOG2, 3, 4),
      (R.BQ_EN, 5, 1), (R.BQ_SIZE, 5, 4), (R.BQ_NAREA, 5, 3), (R.BQ_TIMEOUT, 5, 50), (R.BQ_AREA, 5, bagBase 1 / 4096),
      (R.BQ_SLOT_STRIDE, 5, 1), (R.BQ_FILL_MAP_OFF, 5, 1), (R.BQ_PAD, 5, 0xA5), (R.BQ_JOB_ADDR, 5, 0x4000), (R.BQ_CORES, 5, 3)]) 1
    (fun c => f { c with jobs := jobs })
/-- Area 0 of class 1 as given. -/
def areaIn (st : AreaState) (l : List Slot) (c : Cluster) : Cluster :=
  let b := c.bq[(1 : Fin 4)]
  { c with bq := c.bq.set 1 { b with areas := b.areas.set 0 { b.areas[(0 : Fin 4)] with st := st, slots := l } } }
def taken : Slot := { emptySlot with valid := true, complete := true, sampleId := 77 }
/-- A job runs on cores 4 and 5, which hold checkpoints. -/
def heldUnit (jobs : List (Nat × Job)) (f : Cluster → Cluster) : State :=
  let s := chant jobs (fun c => f { c with cur := some (cjob, .running), busy := 3, sent := 3 })
  { s with cores := (s.cores.set 4 { s.cores[(4 : Fin 16)] with mode := .held }).set 5 { s.cores[(5 : Fin 16)] with mode := .held } }

/-- The unit of cluster 1 in a phase. -/
def unitIn0 (p : UnitPhase) : State := chant [] (fun c => { c with cur := some (cjob, p) })
/-- Ring 3 with as many entries waiting as it holds. -/
def crammed (s : State) : State :=
  { s with rings := s.rings.set 3 { s.rings[(3 : Fin 32)] with waiting := List.replicate 16 { tag := 0, status := 0, core := 0, time := 0 } } }

/-- A boundary that takes a ring job, a batch, what was pre-empted, or nothing; a held unit gives way to a live job and does
not where another than a live one waits; a unit that is over, with room for its entry and without. -/
theorem witness_BoundariesAndBatches_boundary :
    (chanterRuns State.reset 1 = false ∧ chanterRuns (chant [] id) 1 = true ∧ planesRun (chant [] id) = true ∧
      planesRun (set (chant [] id) [(R.GLB_SVC_STATE_STATE, 0, 4)]) = false ∧
      nextUnit (chant [] id) 1 = none ∧ (chant [] id).clusters[(1 : Fin 4)].cur = none ∧
      (chant [] id).clusters[(1 : Fin 4)].preempted = none) ∧
    (chant [] (fun c => { c with preempted := some (cjob, 3, 3) })).clusters[(1 : Fin 4)].preempted = some (cjob, 3, 3) ∧
    ((nextUnit (chant [(8, cjob)] id) 1).map (fun w => w.ref) = some (.ring 8) ∧
      (chant [(8, cjob)] id).clusters[(1 : Fin 4)].jobs.find? (fun e => e.1 == 8) = some (8, cjob)) ∧
    (let s := chant [] (areaIn .ready [taken, taken])
     (nextUnit s 1).map (fun w => w.ref) = some (.batch 1 0) ∧
      inMemory s (rd s R.BQ_JOB_ADDR (bqIx 1 1) * 64) 64 = true ∧ badWords s (rd s R.BQ_JOB_ADDR (bqIx 1 1) * 64) 64 = []) ∧
    (let s := heldUnit [(8, { cjob with live := true })] id
     s.clusters[(1 : Fin 4)].cur = some (cjob, .running) ∧ s.clusters[(1 : Fin 4)].preempted = none ∧ cjob.live = false ∧
      draining s 1 = false ∧ allHeld s 1 = true ∧ (nextLiveJob s 1).map (fun w => w.ref) = some (.ring 8)) ∧
    (nextLiveJob (heldUnit [(8, cjob)] id) 1).isNone = true ∧
    (let s := unitIn0 (.over 0x20)
     chanterRuns s 1 = true ∧ s.clusters[(1 : Fin 4)].cur = some (cjob, .over 0x20) ∧ cplRoom s cjob = true ∧
      cplRoom (crammed s) cjob = false ∧ chanterRuns (crammed s) 1 = true) ∧
    (chant [] (fun c => { c with cur := some (cjob, .loading) })).clusters[(1 : Fin 4)].cur = some (cjob, .loading) := by
  refine ⟨?_, ?_, ?_, ?_, ?_, ?_, ?_, ?_⟩ <;> decide +kernel

theorem witness_BoundariesAndBatches_classes :
    (let s := chant [] (areaIn .opened [taken])
     openArea s 1 1 = some 0 ∧ rd s R.BQ_TIMEOUT (bqIx 1 1) ≠ 0 ∧ rd s R.BQ_TUNE (bqIx 1 1) = 0) ∧
    openArea (chant [] id) 1 1 = none ∧
    (let s := chant [] (areaIn .closed [taken, emptySlot, emptySlot, emptySlot])
     let b := s.clusters[(1 : Fin 4)].bq[(1 : Fin 4)]
     b.areas[(0 : Fin 4)].st = .closed ∧ unfilled b.areas[(0 : Fin 4)] = [1, 2, 3] ∧ bqSize s 1 1 = 4 ∧
      (∀ d : Fin 4, b.areas[d].slots.length ≤ 64) ∧ ∀ d : Fin 4, d ≠ 0 → b.areas[d].st = .free) ∧
    (bitOf (0x03040301 : BitVec 32).toNat 0 = true ∧ rd (chant [] id) R.BQ_EN (bqIx 1 1) ≠ 0 ∧
      rd (set (chant [] id) [(R.BQ_EN, 5, 0)]) R.BQ_EN (bqIx 1 1) = 0 ∧
      classIdle (set (chant [] id) [(R.BQ_EN, 5, 0)]) 1 1 = true ∧ areasFit (chant [] id) 1 1 = true ∧
      areasFit (set (chant [] id) [(R.BQ_AREA, 5, 5)]) 1 1 = false) ∧
    (chant [] id).clusters[(1 : Fin 4)].bq[(1 : Fin 4)].repl = [] := by
  refine ⟨?_, ?_, ?_, ?_, ?_⟩ <;> decide +kernel

/-- A program image: a header of 64 bytes, one section that copies 64 bytes of text, and a plan of 64 bytes. -/
def imgHeader (crc : Nat) : List Byte :=
  bytesOf 4 0x4E4B4344 ++ bytesOf 2 1 ++ bytesOf 2 (rd up R.GLB_ID_PART 0) ++ bytesOf 1 1 ++ bytesOf 1 0 ++ bytesOf 2 1 ++
    bytesOf 4 256 ++ bytesOf 4 crc ++ bytesOf 4 128 ++ bytesOf 4 64 ++ List.replicate 36 0
def imgBody (typ : Nat) : List Byte :=
  bytesOf 1 typ ++ bytesOf 3 0 ++ bytesOf 4 192 ++ bytesOf 4 64 ++ List.replicate (20 + 32 + 64) 0 ++
    bytesOf 8 (encodeInsn 0x43 (insn 0 0 0 0 0)) ++ List.replicate 56 0
def imgBytes (typ crc : Nat) : List Byte := imgHeader crc ++ imgBody typ
/-- The CRC of the image with a section of type 1. -/
def imgCrc : Nat := 1958638498

/-- CRC-32 over a list, each step evaluated before the next. -/
def crcList : List Byte → Nat → Nat
  | [], c => c
  | b :: bs, c =>
    match (crcByte (BitVec.ofNat 32 c) b).toNat with
    | 0 => crcList bs 0
    | n + 1 => crcList bs (n + 1)
theorem crcList_eq (bs : List Byte) (c : W32) : crcList bs c.toNat = (bs.foldl crcByte c).toNat := by
  induction bs generalizing c with
  | nil => rfl
  | cons b bs ih =>
    have h : crcList (b :: bs) c.toNat = crcList bs (crcByte c b).toNat := by
      rw [crcList, BitVec.ofNat_toNat, BitVec.setWidth_eq]
      split <;> simp [*]
    rw [h, ih, List.foldl_cons]
theorem crc32_eq (bs : List Byte) : (crc32 bs).toNat = 2 ^ 32 - 1 - crcList bs 0xFFFFFFFF := by
  rw [crc32, BitVec.toNat_not, ← crcList_eq]
  rfl

/-- The unit of cluster 1 in a phase, with bytes at the address of its image. -/
def unitIn (p : UnitPhase) (bs : List Byte) (f : Cluster → Cluster) : State :=
  memWrite (chant [] (fun c => f { c with cur := some (cjob, p) })) 0 0x100000 bs false
/-- What the loader reads at the image's address. -/
def headerIn (s : State) : ImgHeader := parseHeader (peek s 0x100000 64)
def imageIn (s : State) : Resident :=
  let h := headerIn s
  let bs := peek s 0x100000 h.bytes
  { image := 0x100000, crc := BitVec.ofNat 32 h.crc, plan := parsePlan bs h.planOff, sections := parseSections h bs, lastUse := 0, flushed := false }
/-- A resident image whose plan gives semaphore 0 the count 5. -/
def res : Resident :=
  { image := 0x100000, crc := 9, plan := { Plan.init with semInit := [5] }, lastUse := 0, flushed := false
    sections := [{ typ := 1, dest := 0, src := 192, bytes := 64, destOff := 0 }, { typ := 3, dest := 1, src := 0, bytes := 64, destOff := 0x17FFFC0 }] }

theorem img_crcOk : crcOk (headerIn (unitIn .loading (imgBytes 1 imgCrc) id))
    (peek (unitIn .loading (imgBytes 1 imgCrc) id) 0x100000 256) = true := by
  have h : peek (unitIn .loading (imgBytes 1 imgCrc) id) 0x100000 256 = imgBytes 1 imgCrc := by decide +kernel
  have e : putBytes (imgBytes 1 imgCrc) 16 [0, 0, 0, 0] = imgBytes 1 0 := by decide +kernel
  rw [crcOk, h, e, crc32_eq]
  decide +kernel

theorem witness_ImageLoading_checked :
    let s := unitIn .loading (imgBytes 1 imgCrc) id
    s.clusters[(1 : Fin 4)].cur = some (cjob, .loading) ∧ badWords s 0x100000 (max 64 (headerIn s).bytes) = [] ∧
      (headerIn s).bytes = 256 ∧ headerCode s (headerIn s) = 0 ∧ imageCode s 1 cjob (headerIn s) (peek s 0x100000 256) = 0 ∧
      s.clusters[(1 : Fin 4)].residents = [] ∧ imageBlocked s.clusters[(1 : Fin 4)] (imageIn s) = false := by
  refine ⟨by decide +kernel, by decide +kernel, by decide +kernel, by decide +kernel, ?_, by decide +kernel, by decide +kernel⟩
  rw [imageCode, img_crcOk]
  decide +kernel

theorem witness_ImageLoading :
    (let s := unitIn .loading (imgBytes 1 imgCrc) id
     loaderRuns s 1 = true ∧ loaderRuns (modCluster s 1 (fun c => { c with gated := true })) 1 = false ∧
      cplRoom s cjob = true ∧ cplRoom (crammed s) cjob = false) ∧
    (let s := unitIn .loading (0 :: (imgBytes 1 imgCrc).tail) id
     (headerIn s).bytes = 256 ∧ badWords s 0x100000 (max 64 (headerIn s).bytes) = [] ∧ headerCode s (headerIn s) ≠ 0) ∧
    (let s := unitIn .loading (imgBytes 9 imgCrc) id
     headerCode s (headerIn s) = 0 ∧ imageCode s 1 cjob (headerIn s) (peek s 0x100000 256) ≠ 0) ∧
    (let s := unitIn .loading (imgBytes 1 imgCrc) (fun c => { c with residents := [{ res with crc := BitVec.ofNat 32 imgCrc }] })
     (s.clusters[(1 : Fin 4)].residents.find? (fun r => r.image == cjob.image && r.crc.toNat == (headerIn s).crc && !r.flushed)).isSome = true ∧
      jobCode res cjob = 0 ∧ jobCode res { cjob with entry := 4 } ≠ 0) ∧
    (let s := unitIn (.copying res) (imgBytes 1 imgCrc) id
     s.clusters[(1 : Fin 4)].cur = some (cjob, .copying res) ∧ rd s R.DRC_WINDOW 0 ≤ 0x200000000000 ∧
      (∀ y ∈ res.sections,
        (y.typ ≠ 3 → badWords s (0x100000 + y.src) y.bytes = [] ∧ 0x100000 + y.src + y.bytes ≤ rd s R.DRC_WINDOW 0) ∧
        y.destOff + y.bytes ≤ (if y.dest = 0 then 0x800000 else 0x1800000)) ∧
      res.sections.Pairwise (fun y z => sectionsMeet y z = false)) := by
  refine ⟨by decide +kernel, by decide +kernel, ⟨by decide +kernel, ?_⟩, by decide +kernel, by decide +kernel⟩
  have h : sectionsOk (headerIn (unitIn .loading (imgBytes 9 imgCrc) id))
      (peek (unitIn .loading (imgBytes 9 imgCrc) id) 0x100000 256) = false := by decide +kernel
  simp only [imageCode, h]
  split <;> simp

/-- The unit is loaded, its image resident. -/
def ljob : Job := { cjob with crc := some 9 }
def exLoaded (r : Resident) : State :=
  set (chant [] (fun c => { c with residents := [r], cur := some (ljob, .loaded) })) [(R.CORE_CTL_EN, 4, 1), (R.CORE_CTL_EN, 5, 1)]
/-- Cores 4 and 5 of the unit in a mode. -/
def exEnding (m : CoreMode) : State :=
  let s := chant [] (fun c => { c with cur := some (cjob, .running), busy := 3, sent := 3 })
  { s with cores := s.cores.set 4 { running with mode := m, job := some cjob } }

theorem witness_JobLifeCycle :
    (residentOf (exLoaded res).clusters[(1 : Fin 4)] ljob = some res ∧ (exLoaded res).clusters[(1 : Fin 4)].cur = some (ljob, .loaded) ∧
      chanterRuns (exLoaded res) 1 = true ∧ res.plan.tune = false ∧ ringMayRun (exLoaded res) ljob = true ∧
      dispatchCores (exLoaded res) 1 ljob = [0, 1] ∧ (exLoaded res).clusters[(1 : Fin 4)].preempted = none) ∧
    (dispatchCores (set (exLoaded res) [(R.CORE_CTL_EN, 4, 0), (R.CORE_CTL_EN, 5, 0)]) 1 ljob = [] ∧
      ringMayRun (set (exLoaded res) [(R.CR_EN, 3, 0)]) ljob = false ∧
      cplRoom (exLoaded res) ljob = true ∧ cplRoom (crammed (exLoaded res)) ljob = false ∧
      planesRun (exLoaded res) = true) ∧
    (let r : Resident := { res with plan := { res.plan with tune := true } }
     let s := set (exLoaded r) [(R.GLB_SVC_STATE_SHED_STAGE, 0, 2)]
     residentOf s.clusters[(1 : Fin 4)] ljob = some r ∧ r.plan.tune = true ∧ stage s = 2 ∧ stage (exLoaded r) < 2) ∧
    (let s := set (exLoaded res) [(R.GLB_SVC_STATE_SHED_STAGE, 0, 2), (R.BQ_TUNE, 5, 1)]
     bjob.batch = some (1, 0) ∧ rd s R.BQ_TUNE (bqIx 1 1) ≠ 0 ∧ stage s = 2) ∧
    (clusterOf 4 = 1 ∧ (exEnding .ending).cores[(4 : Fin 16)].job = some cjob ∧ (exEnding .ending).cores[(4 : Fin 16)].posts = 0 ∧
      chainsDone (exEnding .ending) 4 = true ∧ cplRoom (exEnding .ending) cjob = true ∧ tensorFenced (exEnding .ending) 4 = true ∧
      (exEnding .ending).cores[(4 : Fin 16)].mode = .ending ∧ (exEnding (.trapped 5)).cores[(4 : Fin 16)].mode = .trapped 5) ∧
    (3 : BitVec 4) &&& ~~~BitVec.ofNat 4 (2 ^ ((4 : Fin 16).val % 4)) ≠ 0 ∧ (1 : BitVec 4) &&& ~~~BitVec.ofNat 4 (2 ^ ((4 : Fin 16).val % 4)) = 0 := by
  refine ⟨?_, ?_, ?_, ?_, ?_, ?_, ?_⟩ <;> decide +kernel

/-! ### Streams and decoders -/

/-- A context entry: stream of pool 1 and message queue 3, pictures to 64 by 64, 16 chunks at 0x50000. -/
def sEntry (valid live codec : Nat) : BitVec 2048 :=
  BitVec.ofNat 2048 ((valid + 2 * live + 16 * codec + 2 ^ 12 + 2 ^ 17 + 3 * 2 ^ 20) + 64 * 2 ^ 32 + 64 * 2 ^ 48 +
    0x50000 * 2 ^ 64 + 4 * 2 ^ 128)
/-- A chunk that ends an access unit of 100 bytes at 0x60000. -/
def unitChunk : Chunk :=
  { addr := 0x60000, auEnd := true, eos := false, discont := false, poolFree := false, len := 100, tag := 1, bad := false }
def unitBytes : List Byte := bytesOf 6 0x60000 ++ bytesOf 2 1 ++ bytesOf 4 100 ++ bytesOf 4 1
/-- Contexts, pool 1 with a ready buffer, decoders 0 and 1 and one chunk entry; the entry of stream 3 as given. -/
def vid (e : BitVec 2048) : State :=
  memWrite (memWrite (set { up with pools := up.pools.set 1 { up.pools[(1 : Fin 8)] with ready := [1] } }
    [(R.DRC_WINDOW, 0, 0x1000000), (R.DRC_STATUS_NCH, 0, 2), (R.BPM_POOL_COUNT, 1, 8), (R.BPM_POOL_BASE, 1, 0x100),
     (R.BPM_POOL_MAP, 1, 0x10), (R.BPM_POOL_CFG_SIZE_LOG2, 1, 15), (R.BPM_POOL_CFG_EN, 1, 1), (R.BPM_POOL_CFG_INIT_DONE, 1, 1),
     (R.BPM_POOL_CFG_HOLD_EN, 1, 1), (R.BPM_POOL_STATUS_FREE, 1, 8), (R.VID_CTX_BASE_BASE, 0, 0x40), (R.VID_CTX_CFG_ENABLE, 0, 1),
     (R.VID_CTX_CFG_COUNT, 0, 1024), (R.VD_CTL_EN, 0, 1), (R.VD_CTL_EN, 1, 1)]) 0 0x40300 (bytesOf 256 e.toNat) false) 0
    0x50000 unitBytes false
/-- Stream 3 cached, with one chunk produced; fields of it as given. -/
def streamIn (e : BitVec 2048) (f : Stream → Stream) : State :=
  modStream (vid e) 3 (fun x => f { x with prod := 1, arrivals := [(1, 5)], ctx := some { ctxOfEntry e with treatedLive := ctlLiveBit e }
                                           fmt := some (ctxFormat e), readyAt := some 7 })
def s3e : BitVec 2048 := sEntry 1 0 0
def liveE : BitVec 2048 := sEntry 1 1 1

theorem witness_StreamContexts :
    (claimed State.reset = false ∧ claimed (vid s3e) = true ∧ serving (vid s3e) = true ∧
      (⟨2, true, 1⟩ : DbWrite).beFull = true) ∧
    (¬ 3 < rd (set (vid s3e) [(R.VID_CTX_CFG_COUNT, 0, 2)]) R.VID_CTX_CFG_COUNT 0 ∧ 3 < rd (vid s3e) R.VID_CTX_CFG_COUNT 0 ∧
      rd (vid s3e) R.VID_CTX_CFG_ENABLE 0 ≠ 0 ∧ rd (set (vid s3e) [(R.VID_CTX_CFG_ENABLE, 0, 0)]) R.VID_CTX_CFG_ENABLE 0 = 0) ∧
    ((streamOf (vid s3e) 3).ctx = none ∧ (1 ≤ subW 2 0 ∧ subW 2 0 < 2 ^ 31) ∧ ¬ (1 ≤ subW 0 0 ∧ subW 0 0 < 2 ^ 31)) ∧
    (let s := streamIn s3e id
     (streamOf s 3).ctx = some { ctxOfEntry s3e with treatedLive := false } ∧ (ctxOfEntry s3e).error = false ∧
      (1 ≤ subW 2 (streamOf s 3).prod.toNat ∧ subW 2 (ctxOfEntry s3e).chunkCons.toNat ≤ 2 ^ ctxRingLog2 s3e) ∧
      2 ^ ctxRingLog2 s3e < subW 17 (ctxOfEntry s3e).chunkCons.toNat) ∧
    (Fin.ofNat 1024 ((0x1230003 : W32).toNat % 1024) = 3 ∧ (vid s3e).invalidates.length < 64 ∧
      64 ≤ ({ vid s3e with invalidates := List.replicate 64 (5, 9) } : State).invalidates.length ∧ (vid s3e).invalidates = []) ∧
    ((streamOf (streamIn s3e (fun x => { x with inDecode := true })) 3).inDecode = true ∧
      (streamOf (streamIn s3e id) 3).inDecode = false ∧ ({ streamIn s3e id with invalidates := [(3, 9)] } : State).invalidates = (3, 9) :: []) ∧
    (ctxAddr (vid s3e) 3 + 256 ≤ rd (vid s3e) R.DRC_WINDOW 0 ∧ badWords (vid s3e) (ctxAddr (vid s3e) 3) 256 = [] ∧
      entryOfBytes (peek (vid s3e) (ctxAddr (vid s3e) 3) 256) = s3e ∧ ctlValid s3e = true ∧
      entryOfBytes (peek (vid (sEntry 0 0 0)) (ctxAddr (vid s3e) 3) 256) = sEntry 0 0 0 ∧ ctlValid (sEntry 0 0 0) = false) ∧
    (planesRun (vid s3e) = true ∧ planesRun (set up [(R.GLB_SVC_STATE_STATE, 0, 4)]) = false ∧ ∀ e ∈ up.streams, e.2.ctx = none) ∧
    ((streamOf (vid s3e) 3).unread = false ∧ (cachedStreams (vid s3e)).length < 512 ∧
      rd (set (vid s3e) [(R.DRC_WINDOW, 0, 0x40300)]) R.DRC_WINDOW 0 < ctxAddr (vid s3e) 3 + 256) ∧
    ((restoreFields (ctxOfEntry s3e) (streamOf (vid s3e) 3).unsaved).error = false ∧ framePoolOk (vid s3e) s3e = true ∧
      ctxRangesOk s3e = true ∧ subW (streamOf (vid s3e) 3).prod.toNat (ctxOfEntry s3e).chunkCons.toNat ≤ 2 ^ ctxRingLog2 s3e ∧
      (streamOf (vid s3e) 3).fmt = none ∧ stage (vid s3e) < 4) := by
  refine ⟨?_, ?_, ?_, ?_, ?_, ?_, ?_, ?_, ?_, ?_⟩ <;> decide +kernel

theorem witness_DispatchAndFrames :
    (let s := streamIn s3e id
     serving s = true ∧ planesRun s = true ∧ vdUsable s 0 = true ∧ rd s R.VD_CTL_EN 0 ≠ 0 ∧ s.vds[(0 : Fin 12)] = none ∧
      inDroneSet s (vdUsable s) 2 0 = true ∧ nextStream s = some 3 ∧ nextChunks s (streamOf s 3) (ctxOfEntry s3e) = some [unitChunk] ∧
      formsUnit [unitChunk] = true ∧ unitChunk.discont = false ∧ .ctx 3 ∉ s.hidden ∧ stage s < 4 ∧
      badWords s (chunkAddr (ctxOfEntry s3e) 0) 16 = [] ∧ framePoolOk s s3e = true ∧ ctlFramePool s3e = 1 ∧
      s.pools[(1 : Fin 8)].waiting = [] ∧ canAlloc s 1 false = true) ∧
    (let s := set (streamIn s3e id) [(R.BPM_POOL_CFG_HOLD_EN, 1, 0)]
     nextStream s = some 3 ∧ framePoolOk s s3e = false) ∧
    (nextStream (streamIn liveE id) = some 3 ∧ isLive (streamOf (streamIn liveE id) 3) = true ∧
      isLive (streamOf (streamIn s3e id) 3) = false) ∧
    nextStream (vid s3e) = none ∧
    (let p := ((if ctlP010 s3e then 2 * 64 else 64) + 255) / 256 * 256
     p < 2 ^ 32 ∧ 256 + p * ((70 + 15) / 16 * 16) + p * ((70 + 15) / 16 * 16) / 2 < 2 ^ 32 ∧ ((64 + 15) / 16 + 63) / 64 * 64 < 2 ^ 16) := by
  refine ⟨?_, ?_, ?_, ?_, ?_⟩ <;> decide +kernel

/-- Decoder 0 at work on stream 3: a unit that started at time 0, within 1,000 v-cycles. -/
def decJob (l : List Chunk) (c : Option Conceal) : DecJob :=
  { stream := 3, live := false, startAt := 0, budget := 1000, frame := 0x108000, chunks := l, time := 5, conceal := c,
    spoiled := false }
def decoding (e : BitVec 2048) (l : List Chunk) (cc : Option Conceal) (f : Ctx → Ctx) : State :=
  { streamIn e (fun x => { x with inDecode := true, ctx := some (f { ctxOfEntry e with resync := false }) }) with
    vds := up.vds.set 0 (some (decJob l cc)) }
def frame64 : DecodeResult := { frame16 with width := 64, height := 64, blocks := List.replicate 16 ⟨[], []⟩ }

theorem witness_AccessUnitsEnd :
    (let s := decoding s3e [unitChunk] none id
     s.vds[(0 : Fin 12)] = some (decJob [unitChunk] none) ∧ (streamOf s 3).ctx = some { ctxOfEntry s3e with resync := false } ∧
      .decoder 0 ∉ s.hidden ∧ unreadable s [unitChunk] = false ∧ (decJob [unitChunk] none).spoiled = false ∧ poisonOnly (decJob [unitChunk] none) = false ∧
      poisonOnly { decJob [unitChunk] none with spoiled := true } = true ∧
      (vCycles (elapsed s - 0) ≤ 100 ∧ 100 ≤ (decJob [unitChunk] none).budget) ∧
      ¬ 1001 ≤ (decJob [unitChunk] none).budget ∧ ctlCodec s3e = 0 ∧ frame64.bitDepth10 = false ∧
      withinDevice s3e 64 64 = true ∧ withinStream s s3e 64 64 = true ∧ withinStream s s3e 128 64 = false ∧
      withinDevice s3e 128 64 = true ∧ withinDevice s3e 16 16 = false ∧ (ctxOfEntry s3e).lastGood = 0 ∧
      avgAfter { ctxOfEntry s3e with resync := false } 100 < 2 ^ 32) ∧
    (ctlCodec (sEntry 1 0 3) = 3 ∧ unreadable (decoding s3e [{ unitChunk with bad := true }] none id) [{ unitChunk with bad := true }] = true) ∧
    (let s := decoding s3e [unitChunk] none (fun c => { c with resync := true })
     (streamOf s 3).ctx = some { ctxOfEntry s3e with resync := true }) ∧
    (let c : Ctx := { ctxOfEntry s3e with resync := false }
     let s := decoding s3e [unitChunk] none id
     faultFits s (decJob [unitChunk] none) c .badSyntax = true ∧ faultFits s (decJob [unitChunk] none) c .unsupported = true ∧
      faultFits s (decJob [unitChunk] none) c (.tooLarge 128 64) = true ∧ faultFits s (decJob [unitChunk] none) c (.tooLarge 64 64) = false ∧
      badWords s 0x110000 64 = []) ∧
    (∀ code ∈ [(1 : Byte), 2],
      (decoding s3e [unitChunk] (some ⟨code, 0, ⟨1, 2, 3⟩, 99, 7, false⟩) id).vds[(0 : Fin 12)] =
        some (decJob [unitChunk] (some ⟨code, 0, ⟨1, 2, 3⟩, 99, 7, false⟩))) := by
  refine ⟨?_, ?_, ?_, ?_, ?_⟩ <;> decide +kernel

/-- Bytes that a unit's end leaves alone: those of the frame buffer and of LAST_GOOD but for their bytes 3. -/
theorem kept_frames : ∀ i < 24, i = 3 ∨ ((0x108000 + i < ctxAddr (vid s3e) 3 ∨ ctxAddr (vid s3e) 3 + 256 ≤ 0x108000 + i) ∧
    ∀ p : Fin 8, (0x108000 + i < poolMap (vid s3e) p ∨ poolMap (vid s3e) p + mapBytes (vid s3e) p ≤ 0x108000 + i) ∧
      ∀ b < 8, 0x108000 + i ≠ bufAddr (vid s3e) p b + 3) := by decide +kernel

/-- A frame of LAST_GOOD with planes of one row of 256 bytes. -/
theorem witness_AccessUnitsEnd_conceal :
    let c : Ctx := { ctxOfEntry s3e with resync := false, lastGood := 0x110000 }
    let s := memWrite (decoding s3e [unitChunk] (some ⟨1, 0, ⟨1, 2, 3⟩, 99, 7, true⟩) (fun c => { c with lastGood := 0x110000 })) 0 0x110014
      (bytesOf 2 64 ++ bytesOf 2 64 ++ bytesOf 4 256 ++ bytesOf 4 512 ++ bytesOf 4 1024 ++ bytesOf 2 64) false
    let g := parseFrame (peek s 0x110000 64)
    (streamOf s 3).ctx = some c ∧ c.lastGood.toNat = 0x110000 ∧ badWords s 0x110000 64 = [] ∧ 256 ≤ g.map ∧ g.map = 1024 ∧
      0x108000 + (g.map + (g.height + 15) / 16 * g.mapStride) ≤ 0x110000 := by decide +kernel

/-! ### Shapers -/

/-- A context entry with a shaper configuration: class 1 of cluster 1, output 16 by 16. -/
def shEntry (live ow : Nat) : BitVec 2048 :=
  sEntry 1 live 0 ||| BitVec.ofNat 2048 (0x50001 * 2 ^ 1024 + ow * 2 ^ 1120 + 16 * 2 ^ 1136)
/-- The header of a frame of 16 by 16 pixels of stream 3. -/
def frameHeader : List Byte :=
  bytesOf 2 3 ++ bytesOf 2 0 ++ bytesOf 4 9 ++ bytesOf 8 1234 ++ bytesOf 4 0x55 ++ bytesOf 2 16 ++ bytesOf 2 16 ++ bytesOf 4 256 ++
    bytesOf 4 4352 ++ bytesOf 4 6400 ++ bytesOf 2 64 ++ List.replicate 26 0
def offer : Offer := { stream := 3, frame := 0x108000, seq := 9, at_ := 4 }
/-- Stream 3 with the entry, a frame of it on offer, shaper 0 and class 1 of cluster 1 enabled. -/
def shaping (e : BitVec 2048) (f : State → State) : State :=
  f (memWrite { set (streamIn e (fun x => { x with live := ctlLiveBit e })) [(R.BQ_EN, 5, 1), (R.BQ_SIZE, 5, 4), (R.BQ_NAREA, 5, 3),
      (R.BQ_AREA, 5, bagBase 1 / 4096), (R.BQ_SLOT_STRIDE, 5, 40), (R.SH_CTL_EN, 0, 1)] with offers := [offer] } 0 0x108000 frameHeader false)
/-- Shaper 0 at work on the frame, in a slot of an open area. -/
def sample (e : BitVec 2048) : ShJob :=
  { stream := 3, frame := 0x108000, cluster := 1, cls := 1, area := 0, slot := 0, started := true, reason := 0, replacing := false
    startAt := 0, cfg := BitVec.ofNat 512 (entryField e 0x80 64), tune := none }
def sampling (e : BitVec 2048) : State :=
  shaping e (fun s => { modCluster s 1 (areaIn .opened [{ emptySlot with valid := true, sampleId := 77 }]) with
    shs := up.shs.set 0 (some (sample e)) })

theorem badWords_nil {s : State} (h : s.ecc = []) (a n : Nat) : badWords s a n = [] := by simp [badWords, h]

theorem witness_ShapedSamples :
    (let e := shEntry 0 16
     let s := shaping e id
     s.shs[(0 : Fin 8)] = none ∧ stage s < 4 ∧ shaperRuns s 0 = true ∧ nextOffer s = some offer ∧
      (streamOf s 3).ctx.isSome = true ∧ (parseSh (BitVec.ofNat 512 (entryField e 0x80 64))).cluster = 1 ∧
      (parseSh (BitVec.ofNat 512 (entryField e 0x80 64))).cls = 1 ∧ classOn s 1 1 = true ∧ rd s R.BQ_TUNE (bqIx 1 1) = 0 ∧
      nextArea s 1 1 = some 0 ∧ bqSize s 1 1 = 4 ∧ isLive (streamOf s 3) = false) ∧
    (isLive (streamOf (shaping (shEntry 1 16) id) 3) = true ∧ shaperRuns State.reset 0 = false ∧
      stage (set (shaping (shEntry 0 16) id) [(R.GLB_SVC_STATE_SHED_STAGE, 0, 4)]) = 4) ∧
    (let e := shEntry 0 16
     let s := sampling e
     s.shs[(0 : Fin 8)] = some (sample e) ∧ .shaper 0 ∉ s.hidden ∧ s.ecc = [] ∧
      shCfgOk (shotOf (jobCfg (sample e)) (parseFrame (peek s 0x108000 64)) 0x108000) = true ∧
      setupReason s (sample e) false (shotOf (jobCfg (sample e)) (parseFrame (peek s 0x108000 64)) 0x108000) = 0 ∧
      (s.clusters[(1 : Fin 4)].bq[(1 : Fin 4)].areas[(0 : Fin 4)].slots[0]?).isSome = true) ∧
    (let e := shEntry 0 15
     let s := sampling e
     setupReason s (sample e) false (shotOf (jobCfg (sample e)) (parseFrame (peek s 0x108000 64)) 0x108000) = 3 ∧
      rd s R.BQ_REPL (bqIx 1 1) = 0) := by
  refine ⟨?_, ?_, ?_, ?_⟩ <;> decide +kernel

/-- A slot that is the last of its area, planes that do not run, a re-shape that fails, and a failed sample for whose stream
the class has a replacement frame. -/
theorem witness_ShapedSamples_ends :
    (let e := shEntry 0 16
     let three := List.replicate 3 { emptySlot with valid := true }
     let s := shaping e (fun s => modCluster s 1 (areaIn .opened three))
     s.shs[(0 : Fin 8)] = none ∧ stage s < 4 ∧ shaperRuns s 0 = true ∧ nextOffer s = some offer ∧ classOn s 1 1 = true ∧
      rd s R.BQ_TUNE (bqIx 1 1) = 0 ∧ nextArea s 1 1 = some 0 ∧ .ctx 3 ∉ s.hidden ∧
      bqSize s 1 1 ≤ (s.clusters[(1 : Fin 4)].bq[(1 : Fin 4)].areas[(0 : Fin 4)]).slots.length + 1) ∧
    (planesRun (shaping (shEntry 0 16) id) = true ∧
      planesRun (set (shaping (shEntry 0 16) id) [(R.GLB_SVC_STATE_STATE, 0, 4)]) = false) ∧
    (let j : ShJob := { sample (shEntry 0 15) with replacing := true, reason := 3 }
     let s : State := { sampling (shEntry 0 15) with shs := up.shs.set 0 (some j) }
     s.shs[(0 : Fin 8)] = some j ∧ setupReason s j (j.tune.isSome && j.reason != 0)
       (shotOf (jobCfg j) (parseFrame (peek s 0x108000 64)) 0x108000) ≠ 0) ∧
    (let j := sample (shEntry 0 15)
     let s := set (modCluster (sampling (shEntry 0 15)) 1 (fun c => { c with
       bq := c.bq.set 1 { c.bq[(1 : Fin 4)] with repl := [(3, 0x120000)] } })) [(R.BQ_REPL, 5, 1)]
     s.shs[(0 : Fin 8)] = some j ∧ rd s R.BQ_REPL (bqIx 1 1) ≠ 0 ∧ j.tune = none ∧ replacementOf s j = some 0x120000 ∧
      (streamOf s 3).ctx.isSome = true ∧ .ctx 3 ∉ s.hidden ∧
      setupReason s j (j.tune.isSome && j.reason != 0) (shotOf (jobCfg j) (parseFrame (peek s 0x108000 64)) 0x108000) ≠ 0) ∧
    (let s := sampling (shEntry 0 16)
     let slot := slotAddr s 1 1 0 0
     (∀ p : Fin 8, slot < poolMap s p ∨ poolMap s p + mapBytes s p ≤ slot) ∧
      ∀ d : Fin 4, slot < areaAddr s 1 1 d ∨ areaAddr s 1 1 d + 4096 ≤ slot) := by
  refine ⟨?_, ?_, ?_, ?_, ?_⟩ <;> decide +kernel

/-- Class 1 of cluster 1 tunes on a list of 5 entries at 0x80000, each of stream 3; the position is the one given. -/
def tuning (pos : Nat) : State :=
  memWrite (set (shaping (shEntry 0 16) id) [(R.BQ_TUNE, 5, 1), (R.BQ_LIST, 5, 0x4000), (R.BQ_LIST_N, 5, 5), (R.BQ_SEED, 5, 99),
    (R.BQ_POS, 5, pos)]) 0 0x80000 ((List.replicate 5 (bytesOf 8 0x108000 ++ bytesOf 24 3)).flatten) false
theorem witness_SiteTunes :
    (∀ pos ∈ [0, 4], let s := tuning pos
     shaperRuns s 0 = true ∧ s.shs[(0 : Fin 8)] = none ∧ tuneRuns s 1 1 = true ∧ nextArea s 1 1 = some 0 ∧
      (let at_ := rd s R.BQ_LIST (bqIx 1 1) * 32 + 32 * perm pos 99 0 5
       badWords s at_ 32 = [] ∧ bitsOf (natOfBytes (peek s at_ 32)) 64 10 = 3) ∧ (streamOf s 3).ctx.isSome = true ∧
      rd s R.BQ_POS (bqIx 1 1) = pos) ∧
    (0 + 1 ≠ rd (tuning 0) R.BQ_LIST_N (bqIx 1 1) ∧ 4 + 1 = rd (tuning 4) R.BQ_LIST_N (bqIx 1 1) ∧ 0 < (0 + 1) % bqSize (tuning 0) 1 1 ∧
      tuneRuns (shaping (shEntry 0 16) id) 1 1 = false) := by decide +kernel

/-! ### Encoders -/

/-- The encoder fields of the requests: an output of 64 by 64 in buffers of pool 2. -/
def encEntry1 : BitVec 2048 := sEntry 1 0 0 ||| BitVec.ofNat 2048 (4 * 2 ^ 1536 + 64 * 2 ^ 1632 + 64 * 2 ^ 1648)
def reqBytes : List Byte := bytesOf 4 9 ++ bytesOf 2 3 ++ bytesOf 2 0 ++ bytesOf 4 0 ++ bytesOf 4 2 ++ List.replicate 16 0
/-- Stream 3, the request queue with one request, encoder 0 and pool 2 of 4 KB buffers. -/
def encoding (f : State → State) : State :=
  f (memWrite (memWrite (set (streamIn encEntry1 id) [(R.VE_REQ_EN, 0, 1), (R.VE_REQ_BASE, 0, 0x90000 / 32), (R.VE_REQ_LOG2, 0, 4),
    (R.VE_REQ_PROD, 0, 1), (R.VE_CTL_EN, 0, 1), (R.BPM_POOL_COUNT, 2, 8), (R.BPM_POOL_BASE, 2, 0x200), (R.BPM_POOL_CFG_SIZE_LOG2, 2, 12),
    (R.BPM_POOL_CFG_EN, 2, 1), (R.BPM_POOL_CFG_INIT_DONE, 2, 1)]) 0 0x90000 reqBytes false) 0 0x108000 frameHeader false)
/-- The request, accepted, with frames and buffers. -/
def encReq (fs : List EncFrame) (busy : Bool) (bufs : List Addr) : EncReq :=
  { parseReq up reqBytes encEntry1 with frames := fs, busy := busy, buffers := bufs }
def encFrame : EncFrame := { seq := 9, frame := 0x108000 }
def encJob (u : Option (List Byte)) : EncJob := { req := 0, stream := 3, live := false, frame := encFrame, startAt := 0, coded := u }

theorem witness_EncodeRequests :
    (let s := encoding (fun s => { s with order := 1 })
     serving s = true ∧ rd s R.VE_REQ_EN 0 ≠ 0 ∧ rd s R.VE_REQ_PROD 0 ≠ rd s R.VE_REQ_CONS 0 ∧ s.encReqs.length < 64 ∧
      badWords s 0x90000 32 = [] ∧ rd s R.VE_REQ_BASE 0 * 32 = 0x90000 ∧ Fin.ofNat 1024 (fieldOf (peek s 0x90000 32) 4 2) = 3 ∧
      ctlValid encEntry1 = true ∧ stage s = 0 ∧ (streamOf s 3).preroll = [] ∧ s.encReqs = [] ∧
      reqOk s (parseReq s (peek s 0x90000 32) (entryOfBytes (encEntry s 3).bytes)) = true ∧
      rangePassed (parseReq s (peek s 0x90000 32) (entryOfBytes (encEntry s 3).bytes)) = false) ∧
    (rd up R.VE_REQ_EN 0 = 0 ∧ 1 ≤ stage (set (encoding id) [(R.GLB_SVC_STATE_SHED_STAGE, 0, 1)])) ∧
    (let s := encoding (fun s => { s with encReqs := [encReq [encFrame] false []] })
     veUsable s 0 = true ∧ rd s R.VE_CTL_EN 0 ≠ 0 ∧ s.ves[(0 : Fin 4)] = none ∧ nextRequest s = some (encReq [encFrame] false []) ∧
      badWords s 0x108000 64 = [] ∧
      encScaleOk (encShot (encReq [encFrame] false []) (parseFrame (peek s 0x108000 64)) 0x108000) = true) ∧
    encScaleOk (encShot (encReq [encFrame] false []) { parseFrame frameHeader with width := 4096 } 0x108000) = false ∧
    (let r := encReq [encFrame] true [0x300000]
     let s := encoding (fun s => { s with encReqs := [r], ves := s.ves.set 0 (some (encJob (some [1, 2, 3]))) })
     s.ves[(0 : Fin 4)] = some (encJob (some [1, 2, 3])) ∧ reqOf s 0 = some r ∧ .encoder 0 ∉ s.hidden ∧ s.veGot[(0 : Fin 4)] = [] ∧
      r.bytes + 16 + 3 ≤ r.buffers.length * encCapacity s r) ∧
    (let r := encReq [encFrame] true []
     let s := encoding (fun s => { s with encReqs := [r], ves := s.ves.set 0 (some (encJob (some [1, 2, 3]))) })
     reqOf s 0 = some r ∧ encPool r.cfg = 2 ∧ r.buffers.length * encCapacity s r < r.bytes + 16 + 3 ∧ encWaits s 0 = false ∧
      s.pools[(2 : Fin 8)].ready = [] ∧ s.pools[(2 : Fin 8)].waiting = []) ∧
    (let s := encoding (fun s => { s with encReqs := [encReq [] false []] })
     s.encReqs[0]? = some (encReq [] false [])) ∧
    (let r := encReq [encFrame] true []
     let s := encoding (fun s => { s with
       encReqs := [r], ves := s.ves.set 0 (some (encJob (some [1, 2, 3]))), veWait := s.veWait.set 0 (some 5)
       pools := s.pools.set 2 { s.pools[(2 : Fin 8)] with waiting := [⟨false, .encoder 0⟩] } })
     s.veWait[(0 : Fin 4)] = some 5 ∧ reqOf s 0 = some r ∧ encWaits s 0 = true ∧ s.pools[encPool r.cfg].ready = []) := by
  refine ⟨?_, ?_, ?_, ?_, ?_, ?_, ?_, ?_⟩ <;> decide +kernel

/-- Planes that do not run, live requests and others, a frame that fills one buffer of its chain and begins the next, the
last frame of a range, and a buffer that comes free while an encoder waits. -/
theorem witness_EncodeRequests_ends :
    (planesRun (encoding id) = true ∧ planesRun (set (encoding id) [(R.GLB_SVC_STATE_STATE, 0, 4)]) = false) ∧
    (let r := encReq [encFrame] false []
     let l := { r with id := 1, liveFlag := true }
     let s := encoding (fun s => { s with encReqs := [r, l] })
     nextRequest s = some l ∧ reqLive s l = true ∧ reqLive s r = false ∧ hasFrame l = true) ∧
    (let r := { encReq [encFrame] true [0x300000, 0x301000] with bytes := 4030 }
     let s := encoding (fun s => { s with encReqs := [r], ves := s.ves.set 0 (some (encJob (some [1, 2, 3]))) })
     reqOf s 0 = some r ∧ encCapacity s r = 4032 ∧ r.bytes + 16 + 3 ≤ r.buffers.length * encCapacity s r ∧
      1 * encCapacity s r < r.bytes + 16 + 3 ∧
      r.buffers.Pairwise (fun b b' => b.toNat + poolSize s (encPool r.cfg) ≤ b'.toNat ∨ b'.toNat + poolSize s (encPool r.cfg) ≤ b.toNat) ∧
      (∀ i < 64, ∀ p : Fin 8, (0x301000 + i < poolMap s p ∨ poolMap s p + mapBytes s p ≤ 0x301000 + i) ∧ poolHolds s 2 = false ∧
        ∀ b < 8, poolHolds s p = true → 0x301000 + i ≠ bufAddr s p b + 3)) ∧
    (let r := { encReq [] true [0x300000] with next := 2 }
     let s := encoding (fun s => { s with encReqs := [r], ves := s.ves.set 0 (some (encJob (some [1, 2, 3]))) })
     reqOf s 0 = some r ∧ rangePassed r = true ∧ r.frames = [] ∧ r.bytes + 16 + 3 ≤ r.buffers.length * encCapacity s r ∧
      .encoder 0 ∉ s.hidden ∧ s.veGot[(0 : Fin 4)] = []) ∧
    (let r := encReq [encFrame] true []
     let w : PoolWait := ⟨false, .encoder 0⟩
     let s := set (encoding (fun s => { s with
       encReqs := [r], ves := s.ves.set 0 (some (encJob (some [1, 2, 3]))), veWait := s.veWait.set 0 (some 5)
       pools := s.pools.set 2 { s.pools[(2 : Fin 8)] with waiting := [w], ready := [1] } })) [(R.BPM_POOL_STATUS_FREE, 2, 8)]
     let u := passUntil s (5 + rd s R.VE_OUT_WAIT 0 * 1000)
     s.veWait[(0 : Fin 4)] = some 5 ∧ reqOf s 0 = some r ∧ encPool r.cfg = 2 ∧ encWaits s 0 = true ∧
      s.pools[(2 : Fin 8)].waiting = [w] ∧ w.user = .encoder 0 ∧ canAlloc (notePool u 2) 2 w.live = true ∧
      ∀ p : Fin 8, p ≠ 2 → s.pools[p].waiting = []) := by
  refine ⟨?_, ?_, ?_, ?_, ?_⟩ <;> decide +kernel

/-! ### Arbitration and memory -/

def arbReq (i c ready : Nat) : ArbReq := ⟨i, Fin.ofNat 8 c, ready, ready, 4⟩
/-- A grant of the host DMA engine to requester 0 is in force, with pre-emption on or off. -/
def granted (on : Nat) : State := setGrant (set up [(R.HDE_ARB_CTL_PREEMPT_EN, 0, on)]) .hostDma (some { req := arbReq 5 3 0, from_ := 1 })

theorem witness_ArbiterDecisions :
    ((∀ q ∈ [arbReq 5 3 0, arbReq 1 3 0], q.idx < arbUnits .hostDma ∧ 1 ≤ q.beats ∧ q.beats ≤ maxBeats .hostDma) ∧
      ([arbReq 5 3 0, arbReq 1 3 0].map (fun q => q.idx)).Nodup) ∧
    (planesRun up = true ∧ grantOf up .hostDma = none ∧ planesRun (set up [(R.GLB_SVC_STATE_STATE, 0, 4)]) = false) ∧
    (∀ on : Fin 2, let s := granted on.val
     let reqs := [arbReq 5 3 0, arbReq 1 3 0].map (classed s .hostDma)
     let g : Grant := { req := arbReq 5 3 0, from_ := 1 }
     grantOf s .hostDma = some g ∧ inForce .hostDma g reqs 2 = true ∧ holding .hostDma g reqs 2 = true ∧
      arbPreempts s .hostDma = (on == 1) ∧
      ∃ q ∈ reqs, q.idx ≠ g.req.idx ∧ (arbSt s .hostDma q.idx).until_ ≤ 2 ∧
        outranks s .hostDma q ((holderEntry g reqs).getD (classed s .hostDma g.req)) = true) ∧
    (0 < arbUnits .hostDma ∧ arbUnits .hostDma ≤ 64) := by
  refine ⟨?_, ?_, ?_, ?_⟩ <;> decide +kernel

/-- A word of core 5's memory in error. -/
def exEcc (e : EccState) : State := { up with ecc := [(0x210005001008, e)] }

theorem witness_OnChipErrors :
    (∀ e ∈ [EccState.single, .double, .poison],
      regionOf (exEcc e) 0x210005001000 = .core 5 0x1000 ∧ regionOf (exEcc e) 0x210005001008 = .core 5 0x1008 ∧
      0x210005001008 % 8 = 0 ∧ rd (exEcc e) R.DRC_WINDOW 0 ≤ 0x200000000000 ∧
      badWords (exEcc e) 0x210005001000 16 = [(0x210005001008, e)] ∧ rd (exEcc e) R.CMEM_ECC_ADDR_VALID 5 = 0) ∧
    (let b := MemBank.core 5 1
     let s : State := { exEcc .single with writeback := [0x210005001008] }
     s.writeback.find? (inBank s (.core 5 (Fin.ofNat 64 (0x1008 / 128)))) = some 0x210005001008 ∧ eccAt s 0x210005001008 = .single ∧
      eccAt { exEcc .double with writeback := [0x210005001008] } 0x210005001008 ≠ .single ∧
      up.writeback.find? (inBank up b) = none) ∧
    (let b := MemBank.core 5 1
     up.phase = .up ∧ planesRun up = true ∧ scrubs up b = true ∧ State.reset.phase ≠ .up ∧ badWords up (bankLine b (scrubbed up b (bankIx b) % bankRows b)) 128 = []) := by
  refine ⟨?_, ?_, ?_⟩ <;> decide +kernel

/-- Channel 0 in use; fields of it as given. -/
def exDram (sr : Nat) (f : DramCh → DramCh) : State :=
  let s := set up [(R.DRC_WINDOW, 0, 0x1000000), (R.DRC_STATUS_NCH, 0, 2), (R.DRC_STATUS_READY, 0, 1), (R.DRC_CH_STATUS_IN_USE, 0, 1),
    (R.DRC_ECC_CTL_SCRUB_EN, 0, 1), (R.DRC_SR_CTL_SR_EN, 0, 1), (R.DRC_CH_STATUS_SR, 0, sr)]
  { s with dramChs := s.dramChs.set 0 (f s.dramChs[(0 : Fin 16)]) }
/-- A training record with a sequence number, in copy B or A of the flash. -/
def trainRec (n : Nat) (modes : List Byte) (s : State) : TrainRecord :=
  { seq := BitVec.ofNat 32 n, stepping := stepping s, cfg := BitVec.ofNat 16 (drcCfg s), modes := modes, temp := 40
    values := List.replicate 8192 0 }
def copyIn (s : State) (b : Bool) (r : TrainRecord) : State :=
  { s with flash := storeSetMany 0xFF s.flash (copyBase b) (recordBytes r) }
def noModes : List Byte := List.replicate 48 0
theorem noCopy {u : State} (hu : u.flash = []) (b : Bool) : readCopy u b = none := by
  have h : (fieldOf (storeGetMany 0xFF [] (copyBase b) recordLen) 0 2 == 1) = false := by cases b <;> decide +kernel
  unfold readCopy recordOf flashRead
  rw [hu, h]
  rfl
theorem twoCopies (n m : Nat) : let s := copyIn (copyIn up false (trainRec n noModes up)) true (trainRec m noModes up)
    readCopy s false = some (trainRec n noModes up) ∧ readCopy s true = some (trainRec m noModes up) :=
  ⟨(Sys2Proof.Laws.readCopy_other _ true _ rfl List.length_replicate).trans
      (Sys2Proof.Laws.readCopy_written _ false _ rfl List.length_replicate),
    Sys2Proof.Laws.readCopy_written _ true _ rfl List.length_replicate⟩

theorem olderIsB_none {s : State} (h : readCopy s false = none) : olderIsB s = false := by
  rw [olderIsB, h]
theorem olderIsB_two {s : State} {a b : TrainRecord} (ha : readCopy s false = some a) (hb : readCopy s true = some b) :
    olderIsB s = decide (b.seq < a.seq) := by
  rw [olderIsB, ha, hb]

/-- A record is due, over the older copy of two valid ones, and over copy A where there is none. -/
theorem witness_DramChannels_records :
    up.recordDue = none ∧ olderIsB up = false ∧
    (let r := trainRec 9 noModes up
     (({ up with recordDue := some r } : State)).recordDue = some r ∧ r.modes.length = 48 ∧ r.values.length = 8192) ∧
    olderIsB (copyIn (copyIn up false (trainRec 5 noModes up)) true (trainRec 4 noModes up)) = true ∧
    olderIsB (copyIn (copyIn up false (trainRec 5 noModes up)) true (trainRec 7 noModes up)) = false := by
  refine ⟨by decide +kernel, ?_, ⟨rfl, by decide +kernel, List.length_replicate⟩, ?_, ?_⟩
  · exact olderIsB_none (noCopy rfl false)
  · exact (olderIsB_two (twoCopies 5 4).1 (twoCopies 5 4).2).trans (by decide +kernel)
  · exact (olderIsB_two (twoCopies 5 7).1 (twoCopies 5 7).2).trans (by decide +kernel)

theorem witness_DramChannels :
    (256 ∣ 2 ^ 26 ∧ 2 ≤ 16 ∧ 2048 ≤ 2 ^ 31) ∧
    (planesRun (exDram 0 id) = true ∧ rd (exDram 0 id) R.DRC_CH_STATUS_IN_USE 0 ≠ 0 ∧ rd (exDram 0 id) R.DRC_STATUS_READY 0 ≠ 0 ∧
      rd (exDram 0 id) R.DRC_CH_STATUS_SR 0 = 0 ∧ rd (exDram 1 id) R.DRC_CH_STATUS_SR 0 ≠ 0 ∧ rd (exDram 0 id) R.DRC_ECC_CTL_SCRUB_EN 0 ≠ 0 ∧
      rd (exDram 0 id) R.DRC_SR_CTL_SR_EN 0 ≠ 0 ∧ rd (set (exDram 0 id) [(R.DRC_REF_CTL_PER_BANK, 0, 0)]) R.DRC_REF_CTL_PER_BANK 0 = 0 ∧ rd up R.DRC_CH_STATUS_IN_USE 0 = 0 ∧
      planesRun (set up [(R.GLB_SVC_STATE_STATE, 0, 4)]) = false) ∧
    ((exDram 0 id).dramChs[(0 : Fin 16)].owed < 8 ∧ 8 ≤ (exDram 0 (fun d => { d with owed := 8 })).dramChs[(0 : Fin 16)].owed) ∧
    (let s := exDram 1 id
     elapsed s - s.dramChs[(0 : Fin 16)].srSince.toNat ≤ retrainNs s ∧ rd s R.DRC_CH_SR_US 0 + 0 < 2 ^ 32 ∧ rd s R.DRC_CH_RETRAINS 0 + 1 < 2 ^ 32) ∧
    (let s := exDram 0 (fun d => { d with openRows := [(1, 3, 77)] })
     (∃ r ∈ s.dramChs[(0 : Fin 16)].openRows, r.1 = (1 : Fin 2).val ∧ r.2.1 = (3 : Fin 16).val) ∧
      ¬ ∃ r ∈ s.dramChs[(0 : Fin 16)].openRows, r.1 = (0 : Fin 2).val ∧ r.2.1 = (3 : Fin 16).val) ∧
    (let at_ := dramAddr (pinBytes up) (rd (exDram 0 id) R.DRC_STATUS_NCH 0) 0 0
     badWords (exDram 0 id) at_ 256 = [] ∧ rd (set (exDram 0 id) [(R.DRC_ECC_CTL_SCRUB_EN, 0, 0)]) R.DRC_ECC_CTL_SCRUB_EN 0 = 0) := by
  refine ⟨?_, ?_, ?_, ?_, ?_, ?_⟩ <;> decide +kernel

/-! ### The host interface -/

/-- The offset of LOG_CTL, whose fields are RW, and of NUM_GSAT of core 0, which is cleared by a read. -/
def offRw : Nat := R.LOG_CTL_IRQ_EN.off
def offRc : Nat := R.NUM_GSAT.off

theorem witness_HostRegisterAccess :
    (claimed up = true ∧ claimed State.reset = false ∧ linkIsUp State.reset = false ∧ linkIsUp { up with pci := State.reset.pci } = true ∧
      claimed { up with pci := State.reset.pci } = false ∧ up.logQ[planeCtrl].length < 16) ∧
    (answers up offRw true = true ∧ offRw % 4 = 0 ∧ offRw < 0x8000 ∧ regHits offRw ≠ [] ∧ isWide (regHits offRw) = false ∧
      (∀ h ∈ regHits offRw, ∀ a ∈ writeActs h.2.1 0x1F, a.1.id ≠ h.1.id) ∧ answers { up with phase := .phase1 } offRc true = false) ∧
    (∀ o ∈ [offRw, offRc], answers up o false = true ∧ allocRead (regHits o) = none ∧ timingRead (regHits o) = none ∧
      isWide (regHits o) = false ∧ latches (regHits o) = false ∧ o % 4 = 0 ∧ (o < 0x8000 ∨ 0x10000 ≤ o)) ∧
    (answers up R.MC_HALT_TIME.off false = true ∧ isWide (regHits R.MC_HALT_TIME.off) = true ∧ R.MC_HALT_TIME.off % 8 = 0 ∧
      allocRead (regHits R.MC_HALT_TIME.off) = none ∧ timingRead (regHits R.MC_HALT_TIME.off) = none) ∧
    (bar0Sized offRw 1 = true ∧ bar0Sized offRw 3 = false ∧ alwaysOn offRc = false) ∧
    (∃ h ∈ regHits (R.JR_EN.off + 31 * R.JR_EN.st1), ring31 h.1 h.2.1 = true) ∧
    ((0x400 : BitVec 25).toNat % 2 ^ 20 = 0x400 ∧ (0x80004 + 16 * 2047 : BitVec 25).toNat % 2 ^ 20 = 0x80004 + 16 * 2047) := by
  refine ⟨?_, ?_, ?_, ?_, ?_, ?_, ?_⟩ <;> decide +kernel

/-- A write that follows one of SMBus at the same moment or at an earlier one, a counter of outstanding reads, and writes of
BAR4 that are misaligned, too long or partial. -/
theorem witness_HostRegisterAccess_more :
    (let at_ := fun (n : Nat) => ({ up with smbWrote := some (offRw, 0x15, elapsedW up + BitVec.ofNat 64 n) } : State)
     (at_ 0).smbWrote = some (offRw, 0x15, elapsedW (at_ 0)) ∧ (∀ h ∈ regHits offRw, ∀ a ∈ writeActs h.2.1 (0x15 % 2 ^ 32), a.1.id ≠ h.1.id) ∧
      (∀ e ∈ (at_ 7).smbWrote, e.2.2 ≠ elapsedW (at_ 7)) ∧ up.smbWrote = none ∧
      ∃ h ∈ regHits offRw, h.1.ty = .rw ∧ ring31 h.1 h.2.1 = false ∧ regKey h.1 h.2.1 ≠ regKey R.HIF_LINK_STATUS_PM 0) ∧
    (answers up 0x7FF0 true = true ∧ 0x7FF0 % 8 = 0 ∧ regHits 0x7FF0 = [] ∧ regHits 0x7FF4 = [] ∧ up.logQ[planeCtrl].length < 15) ∧
    (∃ h ∈ regHits R.DMA_OUTSTANDING_MAX.off, h.1.ty = .rc ∧ h.1.id = R.DMA_OUTSTANDING_MAX.id) ∧
    (∃ h ∈ regHits offRc, h.1.ty = .rc ∧ h.1.id ≠ R.DMA_OUTSTANDING_MAX.id) ∧
    ((0x5001 : BitVec 25).toNat % 4 ≠ 0 ∧ 0x4000 ≤ 0x5001 ∧ 0x5001 + 4 * 1 ≤ 0x80000 ∧ 2 < 3 ∧ 0x4000 ≤ 0x5000 ∧
      0x5000 + 4 * 3 ≤ 0x80000) := by
  refine ⟨?_, ?_, ?_, ?_, ?_⟩ <;> decide +kernel

theorem witness_UnassignedOffsets :
    up.smbWrote = none ∧ claimed up = true ∧ regHits 0x7FF0 = [] ∧ regHits 0x7FF4 = [] ∧ answers up 0x7FF0 false = true ∧ answers up 0x7FF0 true = true ∧
      0x7FF0 % 8 = 0 ∧ 0x7FF0 < 0x8000 ∧ up.logQ[planeCtrl].length < 15 := by
  refine ⟨?_, ?_, ?_, ?_, ?_, ?_, ?_, ?_, ?_⟩ <;> decide +kernel

/-- Window 0 maps 4 KB at 0x1000 of BAR2 to core 0's memory, reads and writes as given; its shadow is the same. -/
def windowed (rd wr : Nat) : State :=
  set up [(R.HIF_WACT_OFFSET, 0, 1), (R.HIF_WACT_TARGET, 0, 0x210000001), (R.HIF_WACT_CTL_EN, 0, 1), (R.HIF_WACT_CTL_RD, 0, rd),
    (R.HIF_WACT_CTL_WR, 0, wr), (R.HIF_WACT_CTL_SIZE_LOG2, 0, 12), (R.HIF_WIN_OFFSET, 0, 1), (R.HIF_WIN_TARGET, 0, 0x210000001),
    (R.HIF_WIN_CTL_EN, 0, 1), (R.HIF_WIN_CTL_SIZE_LOG2, 0, 12)]
def tagOf (t len got : Nat) (q : Bool) : Tag :=
  { tag := BitVec.ofNat 10 t, ch := 5, addr := 0x100, len := len, pos := 2, got := got, sentAt := 5, quarantined := q, flush := none }
def tagged : State :=
  { up with tags := [tagOf 3 8 0 false, tagOf 9 8 0 true], dma := up.dma.set 5 { up.dma[(5 : Fin 64)] with staged := List.replicate 20 (.data 0x55) } }

/-- Channel 0 with 256 reads outstanding. -/
def exTags : State := { up with tags := List.replicate 256 { tagOf 3 8 0 false with ch := 0 } }

theorem witness_WindowsAndOutboundReads_windows :
    (∀ x : Fin 2, ∀ y : Fin 2, let s := windowed x.val y.val
     claimed2 s 0x1008 16 = true ∧ windowFor s 0x1008 16 = some 0 ∧
      (let a := rd s R.HIF_WACT_TARGET 0 * 4096 + (0x1008 - actOffset s 0)
       unitUsableAt s a = true ∧ rd s R.DRC_WINDOW 0 ≤ a ∧ inMemory s a 16 = true ∧ badWords s a 16 = []) ∧
      (rd s R.HIF_WACT_CTL_WR 0 ≠ 0 ↔ y = 1) ∧ (rd s R.HIF_WACT_CTL_RD 0 ≠ 0 ↔ x = 1)) ∧
    (claimed2 State.reset 0x1008 16 = false ∧ planesRun (set up [(R.GLB_SVC_STATE_STATE, 0, 4)]) = false ∧ planesRun up = true) ∧
    (windowFor (windowed 1 1) 0x5000 16 = none ∧ touchesWindow (windowed 1 1) 0x5000 16 = false ∧
      windowFor (windowed 1 1) 0x1FF8 16 = none ∧ touchesWindow (windowed 1 1) 0x1FF8 16 = true) ∧
    (∀ w : Fin 16, winCode (windowed 1 1) w.val = 0) ∧
    winCode (set (windowed 1 1) [(R.HIF_WIN_CTL_SIZE_LOG2, 0, 11)]) 0 ≠ 0 := by
  refine ⟨?_, ?_, ?_, ?_, ?_⟩ <;> decide +kernel

theorem witness_WindowsAndOutboundReads_reads :
    (linkIsUp tagged = true ∧ linkIsUp { tagged with regs := State.reset.regs } = false) ∧ (∀ x ∈ tagged.tags, x.tag ≠ (4 : BitVec 10)) ∧
    tagged.tags.find? (fun y => y.tag == 3) = some (tagOf 3 8 0 false) ∧ tagged.tags.find? (fun y => y.tag == 9) = some (tagOf 9 8 0 true) ∧
    tagged.tags.find? (fun y => y.tag == 3 && !y.quarantined) = some (tagOf 3 8 0 false) ∧
    tagged.tags.find? (fun y => y.tag == 9 && y.quarantined) = some (tagOf 9 8 0 true) ∧
    (∀ k : Fin 64, tagged.dma[k].unsent = [] ∧ tagged.dma[k].flushDue = false) ∧ freeTag tagged 5 ≠ none ∧ freeTag exTags 0 = none ∧
    0 + [(1 : Byte)].length < (tagOf 3 8 0 false).len ∧ (tagOf 3 8 0 false).len ≤ 0 + (List.replicate 8 (1 : Byte)).length := by
  refine ⟨?_, ?_, ?_, ?_, ?_, ?_, ?_, ?_, ?_, ?_, ?_⟩ <;> decide +kernel

/-- MSI-X on with entry 0 unmasked and pending; ASPM L1 on; the expansion ROM enabled. -/
def messaging : State :=
  { up with msix := [(0, { addr := 0x1000, data := 0xABCD, masked := false })], pba := 1
            pci := { up.pci with msixEnable := true, rom := 1, aspm := 2, ready := true } }

theorem witness_ConfigurationAndLink :
    (romOpen messaging = true ∧ romOpen up = false ∧ messaging.logQ[planeCtrl].length < 16 ∧ ({ messaging with ddbValid := true } : State).ddbValid = true) ∧
    (linkIsUp State.reset = false ∧ linkIsUp messaging = true ∧ messaging.pci.ready = true ∧ up.pci.ready = false ∧ linkIsUp up = true) ∧
    (3 : W32).toNat % 4 = 3 ∧
    (deliverable messaging 0 = true ∧ deliverable messaging 1 = false) ∧
    (messaging.pci.aspm.getLsbD 1 = true ∧ rd messaging R.HIF_LINK_STATUS_PM 0 = 0 ∧ linkQuiet { messaging with pba := 0 } = true ∧
      linkQuiet messaging = false ∧ up.pci.aspm.getLsbD 1 = false) ∧
    ((∃ b, aerBit .badTlp = (b, true)) ∧ ∃ b, aerBit .malformedTlp = (b, false)) := by
  refine ⟨?_, ?_, ?_, ?_, ?_, ⟨⟨_, rfl⟩, _, rfl⟩⟩ <;> decide +kernel

/-! ### Resets and INIT -/

/-- The device in service with other values of what stands beside its registers. -/
def inPhase (p : Phase) : State := { up with phase := p }
def powered (f : Power → Power) : State := { up with power := f up.power }
def early3 : List Phase := [.phase1, .phase2, .phase3]
def allPhases : List Phase := [.powerOn, .held, .bist, .phase4, .phase5, .up, .halted, .tripped] ++ early3
/-- A device that has trained its channels. -/
def trained (d3 : Bool) (req : Nat) : State :=
  set { up with power := { up.power with perstN := true }, pci := { up.pci with d3hot := d3, ready := true } }
    [(R.DRC_CH_STATUS_TRAINED, 0, 1), (R.DRC_STATUS_NCH, 0, 2), (R.ST_CTL_BIST_REQ, 0, req)]

theorem witness_Resets :
    (∀ b : Bool, ∀ e : Bool, ∀ p ∈ allPhases,
      let s : State := { inPhase p with power := { up.power with perstN := b }, tap := { up.tap with inEffect := e } }
      s.phase = p ∧ s.power.perstN = b ∧ s.tap.inEffect = e ∧ s.logQ[planeMgmt].length < 16) ∧
    (∀ p ∈ early3, pastHeld (inPhase p) = true) ∧ pastHeld (inPhase .held) = false ∧
    (∀ d : Bool, ∀ req : Fin 2, let s := trained d req.val
      pastHeld s = true ∧ s.phase ∉ early3 ∧ s.missing.toNat / 1024 = 0 ∧ trainedOnce s = true ∧ rd s R.DRC_STATUS_NCH 0 ≠ 0 ∧
      s.pci.d3hot = d ∧ rd s R.ST_CTL_BIST_REQ 0 = req.val ∧ linkIsUp s = true ∧ s.power.perstN = true ∧ s.pci.ready = true ∧
      s.phase ≠ .tripped) ∧
    linkIsUp State.reset = false := by
  refine ⟨?_, ?_, ?_, ?_, ?_⟩ <;> decide +kernel

/-- Resets that come in phases 1 to 3, with the link up and in D3hot, and in a device whose channels were never trained. -/
theorem witness_Resets_early :
    ∀ d : Bool, (∀ p ∈ early3, let s : State := { inPhase p with pci := { up.pci with d3hot := d }, power := { up.power with perstN := true } }
      s.phase = p ∧ pastHeld s = true ∧ s.pci.d3hot = d ∧ linkIsUp s = true ∧ s.power.perstN = true) ∧
    (let s : State := { up with pci := { up.pci with d3hot := d } }
     pastHeld s = true ∧ s.phase ∉ early3 ∧ trainedOnce s = false ∧ s.pci.d3hot = d ∧ linkIsUp s = true) := by decide +kernel

theorem crcList_append (a b : List Byte) (c : Nat) : crcList (a ++ b) c = crcList b (crcList a c) := by
  induction a generalizing c with
  | nil => rfl
  | cons x a ih =>
    rw [List.cons_append, crcList, crcList]
    split <;> exact ih _

/-- A board configuration of format 1 (speed 2, capacity 1, one rank) in the first bytes of an erased area, the erased
bytes in pieces, and its CRC. -/
def boardCells : List Byte := bytesOf 2 1 ++ bytesOf 2 0x1234 ++ bytesOf 2 0x4169 ++ [2, 0x19, 1]
def ffs : List Byte := List.replicate 510 0xFF
def boardArea : List Byte := boardCells ++ (ffs ++ (ffs ++ (ffs ++ (ffs ++ (ffs ++ (ffs ++ (ffs ++ (ffs ++ [0xFF, 0xFF, 0xFF]))))))))
def boarded : State := { inPhase .phase2 with flash := storeSetMany 0xFF [] 0x200000 (boardArea ++ bytesOf 4 3570276220) }

theorem boardArea_length : boardArea.length = 4092 := by decide +kernel
theorem boarded_bytes : boardBytes boarded = boardArea ++ bytesOf 4 3570276220 := by
  have h : (boardArea ++ bytesOf 4 3570276220).length = 4096 := by rw [List.length_append, boardArea_length]; rfl
  rw [boardBytes, flashRead, ← h]
  exact Sys2Proof.Laws.storeGetMany_setMany ..
theorem boardArea_crc : (crc32 boardArea).toNat = 3570276220 := by
  have f : ∀ x ∈ [(1152825927, 3084970259), (3084970259, 1142834252), (1142834252, 730506268), (730506268, 2780661430),
      (2780661430, 248695988), (248695988, 4172496003), (4172496003, 4117261710), (4117261710, 743392030)],
      crcList ffs x.1 = x.2 := by decide +kernel
  simp only [List.forall_mem_cons] at f
  obtain ⟨a, b, c, d, e, f, g, h, -⟩ := f
  rw [crc32_eq, boardArea, crcList_append, (by decide +kernel : crcList boardCells 0xFFFFFFFF = 1152825927)]
  simp only [crcList_append, a, b, c, d, e, f, g, h]
  decide +kernel
theorem witness_InitSequence_board : boarded.phase = .phase2 ∧ boardOk (boardBytes boarded) = true := by
  refine ⟨rfl, ?_⟩
  rw [boarded_bytes, boardOk, List.take_append_of_le_length (Nat.le_of_eq boardArea_length.symm), List.take_of_length_le (Nat.le_of_eq boardArea_length),
    boardArea_crc]
  decide +kernel

theorem unboarded : boardOk (boardBytes (inPhase .phase2)) = false := by
  have h : (fieldOf (boardBytes (inPhase .phase2)) 0 2 == 1) = false := by decide +kernel
  rw [boardOk, h]
  simp only [Bool.and_false, Bool.false_and]

theorem witness_InitSequence_phases :
    (linkTrains (trained false 0) = true ∧ linkOk 5 16 = true ∧ linkOk 3 4 = true ∧ linkOk 6 16 = false ∧ linkTrains State.reset = false) ∧
    (boardOk (boardBytes (inPhase .phase2)) = false ∧ (inPhase .phase2).logQ[planeMgmt].length < 16) ∧
    (let s := inPhase .phase3
     s.phase = .phase3 ∧ s.bistDue = false ∧ ({ s with bistDue := true } : State).bistDue = true ∧ s.missing = 0 ∧ trainedOnce s = false ∧ slotOk s 0 = false ∧
      slotOk s 0x100000 = false) := by
  exact ⟨by decide +kernel, ⟨unboarded, by decide +kernel⟩, by decide +kernel⟩

/-- The modes that the dies show in phase 4, and a device in it with a training record in copy A, of its own or another
stepping, or with none. -/
def modes16 : List ModeRegs := List.replicate 16 { mfr := 1, rev := 2, density := 3, rfmAt := 80 }
def ids16 : List Byte := modes16.flatMap modeId
def record4 (stale : Bool) : TrainRecord :=
  let r := trainRec 5 ids16 up
  { r with stepping := r.stepping + BitVec.ofNat 16 (b2n stale) }
def phase4 (stale : Bool) : State := copyIn (inPhase .phase4) false (record4 stale)
theorem bestRecord_one {s : State} {r : TrainRecord} (ha : readCopy s false = some r) (hb : readCopy s true = none) :
    bestRecord s = some r := by
  unfold bestRecord
  rw [ha, hb]
theorem bestRecord_none {s : State} (ha : readCopy s false = none) (hb : readCopy s true = none) : bestRecord s = none := by
  unfold bestRecord
  rw [ha, hb]

theorem witness_InitSequence_training :
    (∀ stale : Bool, let s := phase4 stale
      s.phase = .phase4 ∧ (∀ k : Fin 16, rd s R.DRC_CH_STATUS_FAIL_STEP k.val = 0 ∧ s.fuses.dramCh.getLsbD k.val = true) ∧
      recordFits s modes16 (record4 stale) = !stale) ∧
    (let results := (List.replicate 16 (⟨true, 0⟩ : ChannelTrain)).set 9 ⟨false, 3⟩
     channelsInUse (fun k => chUsable (phase4 true) k && (trainOf results k).failStep == 0) = 8) := by
  refine ⟨?_, ?_⟩ <;> decide +kernel
theorem witness_InitSequence_record (stale : Bool) : bestRecord (phase4 stale) = some (record4 stale) :=
  bestRecord_one (Sys2Proof.Laws.readCopy_written _ false _ rfl List.length_replicate)
    ((Sys2Proof.Laws.readCopy_other _ false _ rfl List.length_replicate).trans (noCopy rfl true))
theorem witness_InitSequence_noRecord : bestRecord (inPhase .phase4) = none := bestRecord_none (noCopy rfl false) (noCopy rfl true)

theorem witness_InitSequence_two (n m : Nat) :
    readCopy (copyIn (copyIn up false (trainRec n noModes up)) true (trainRec m noModes up)) false = some (trainRec n noModes up) ∧
    readCopy (copyIn (copyIn up false (trainRec n noModes up)) true (trainRec m noModes up)) true = some (trainRec m noModes up) :=
  twoCopies n m

/-- Phase 5 with a window, with and without a unit that cannot be missing. -/
def phase5 (vd : BitVec 12) : State :=
  set { inPhase .phase5 with fuses := { fuses with vd := vd } }
    [(R.DRC_WINDOW, 0, 4096), (R.DRC_STATUS_NCH, 0, 2), (R.DRC_CH_STATUS_TRAINED, 0, 1), (R.DRC_CH_STATUS_TRAINED, 1, 1)]

theorem witness_InitSequence_service :
    (let s := phase5 0xFFF
     s.phase = .phase5 ∧ missingSet s = 0 ∧ requestedStage { s with power := { s.power with firstUse := true } } = 0 ∧ allUsable s = false) ∧
    (let s := phase5 0
     missingSet s ≠ 0 ∧ missingSet s < 4096 ∧ s.logQ[planeMgmt].length < 16) ∧
    planesRun (set up [(R.GLB_SVC_STATE_STATE, 0, 4)]) = false ∧
    (let s := powered (fun p => { p with firstUse := true })
     s.power.firstUse = true ∧ s.phase = .up ∧ requestedStage { s with power := { s.power with firstUse := false } } ≤ stage s ∧
      up.power.firstUse = false) := by
  refine ⟨?_, ?_, ?_, ?_⟩ <;> decide +kernel

/-- A run of logic BIST in which the blocks of `left` are still to come. -/
def bisting (left : List Nat) : State :=
  { inPhase .bist with bistDone := BitVec.ofNat _ (2 ^ 50 - 1 - (left.map (2 ^ ·)).sum) }

/-- At the end of a block. -/
def edged (s : State) : State := { s with bistEdge := some (elapsedW s) }

theorem witness_LogicBist :
    (∀ left ∈ [[3], [3, 49]], let s := bisting left
     underTest s 3 = true ∧ s.missing.toNat / 1024 = 0 ∧ trainedOnce s = false ∧ bistLeft s = left ∧
      s.fuses.signatures.getD 3 0 = 0 ∧ rd s R.ST_FAILED 0 = 0 ∧ s.logQ[planeMgmt].length < 16) ∧
    (rd (set (bisting [3]) [(R.ST_FAILED, 0, 16), (R.ST_FAIL_BLOCK, 0, 4)]) R.ST_FAIL_BLOCK 0 = 4) ∧
    (underTest up 3 = false ∧ up.phase ≠ .bist ∧ underTest (bisting [2, 3]) 3 = false) ∧
    (let s := edged (set (bisting [3]) [(R.MC_SHED_STATUS_REQ, 0, 3)])
     s.phase = .bist ∧ atBoundary s = true ∧ 3 ≤ rd s R.MC_SHED_STATUS_REQ 0 ∧ s.missing.toNat / 1024 = 0 ∧ trainedOnce s = false) ∧
    (let s := edged (set (bisting [3]) [(R.MC_THERM_TJ, 0, 100)])
     s.phase = .bist ∧ atBoundary s = true ∧ 100 ≤ tjOf s + tjOffset s) ∧
    atBoundary (set (bisting [3]) [(R.MC_THERM_TJ, 0, 100)]) = false := by
  refine ⟨?_, ?_, ?_, ?_, ?_, ?_⟩ <;> decide +kernel

/-! ### Clocks, power and temperature -/

/-- The core clock at 1000 MHz, with a target and an acknowledged voltage. -/
def clocked (target mv : Nat) (fail : Bool) : State :=
  set (powered (fun p => { p with targetMhz := target, avsMv := mv, avsFail := fail })) [(R.MC_CLK_STATUS_CORE_MHZ, 0, 1000)]
/-- A PPS in use, the counter at a time, and the discipline as given. -/
def timed (t : Nat) (lost : Nat) (f : Clock → Clock) : State :=
  set { up with clock := f { up.clock with ns := t } } [(R.MC_TS_CTL_PPS_EN, 0, 1), (R.GLB_TIMESTAMP_NS, 0, t), (R.MC_TS_STATUS_PPS_LOST, 0, lost)]

theorem witness_ClocksAndTime :
    (∀ x ∈ [(700, 0), (1100, 800)], let s := clocked x.1 x.2 false
     avsRuns s = true ∧ s.power.targetMhz ≠ coreMhz s ∧ (coreMhz s < s.power.targetMhz → targetMv s s.power.targetMhz ≤ s.power.avsMv)) ∧
    (let s := clocked 1100 600 true
     coreMhz s < s.power.targetMhz ∧ ¬ targetMv s s.power.targetMhz ≤ s.power.avsMv ∧ avsRuns s = true ∧ s.power.avsFail = true ∧
      s.logQ[planeMgmt].length < 16) ∧
    (avsRuns (inPhase .phase3) = false ∧ (clocked 700 0 false).power.avsFail = false) ∧
    (rd (timed 5 1 id) R.MC_TS_STATUS_PPS_LOST 0 ≠ 0 ∧ rd (set up [(R.MC_TS_CTL_PPS_EN, 0, 0)]) R.MC_TS_CTL_PPS_EN 0 = 0) := by
  refine ⟨?_, ?_, ?_, ?_⟩ <;> decide +kernel

/-- A time, where there is one. -/
def timeIf (b : Bool) (n : Nat) : Option W64 := if b then some (BitVec.ofNat 64 n) else none

/-- Edges at 2.0 s and 2.4 s, one within a millisecond of a second; the last edge at 1 s or none; a time to set, behind the
counter or ahead of it, or none. -/
theorem witness_ClocksAndTime_edges :
    ∀ b p : Bool, ∀ v ∈ [1, 9000000000], ∀ t ∈ [2000000100, 2400000000],
      let s := timed t 0 (fun c => { c with lastEdge := timeIf b 1000000000, setPending := timeIf p v, firstEdge := !b })
      s.phase = .up ∧ rd s R.MC_TS_CTL_PPS_EN 0 ≠ 0 ∧ s.clock.lastEdge.isSome = b ∧ now s = t ∧
      (s.clock.lastEdge.getD 0).toNat + 500000000 ≤ elapsed s ∧ s.clock.setPending.isSome = p ∧ s.clock.firstEdge = !b ∧
      rd s R.MC_TS_STATUS_PPS_LOST 0 = 0 ∧ s.logQ[planeMgmt].length < 16 := by decide +kernel

/-- Half a second after an even second and after an odd one, and an edge too soon after the last. -/
theorem witness_ClocksAndTime_halves :
    (now (timed 2500000000 0 id) % 1000000000 = 500000000 ∧ now (timed 2500000000 0 id) / 1000000000 % 2 = 0) ∧
    (now (timed 3500000000 0 id) % 1000000000 = 500000000 ∧ now (timed 3500000000 0 id) / 1000000000 % 2 ≠ 0) ∧
    (let s := timed 2000000000 0 (fun c => { c with lastEdge := some 1600000000 })
     ∃ e, s.clock.lastEdge = some e ∧ ¬ e.toNat + 500000000 ≤ elapsed s) := by
  exact ⟨by decide +kernel, by decide +kernel, 1600000000, by decide +kernel, by decide +kernel⟩

theorem witness_PowerAndTemperature :
    (∀ h : Bool, ∀ l ∈ [900, 1150], let s := powered (fun p => { p with throttleTherm := h, thermLimit := l })
     managed s = true ∧ s.power.throttleTherm = h ∧ s.power.thermLimit = l) ∧
    (let sensors : Vector (BitVec 8) 16 := (Vector.replicate 16 40).set 7 90
     (∃ i : Fin 16, sensors[i] = 90) ∧ ∀ i : Fin 16, sensors[i].toInt ≤ (90 : BitVec 8).toInt) ∧
    (managed (inPhase .tripped) = false ∧ (inPhase .tripped).phase = .tripped ∧ managed State.reset = false ∧ State.reset.phase ≠ .tripped) ∧
    (up.phase ≠ .powerOn ∧ up.phase ≠ .tripped ∧ up.logQ[planeMgmt].length < 16 ∧ serving up = true ∧ serving State.reset = false) ∧
    ((619 : BitVec 12).toNat < 620 ∧ (669 : BitVec 12).toNat < 670 ∧ 620 ≤ (620 : BitVec 12).toNat ∧ 670 ≤ (670 : BitVec 12).toNat) ∧
    ((∀ k : Fin 12, up.vds[k] = none) ∧ (∀ n : Fin 16, canTrap up.cores[n] = false) ∧ cachedStreams up = []) := by
  refine ⟨?_, ?_, ?_, ?_, ?_, ?_⟩ <;> decide +kernel

/-- A stage, whose exit hold runs since a time where one is given. -/
def shedding (st : Nat) (since : Option W64) (mgmt : List MgmtCmd) : State :=
  set { powered (fun p => { p with exitSince := since }) with mgmt := mgmt } [(R.GLB_SVC_STATE_SHED_STAGE, 0, st)]

theorem witness_SheddingStages :
    (∀ w : Bool, ∀ h : Bool, let s := powered (fun p => { p with pwrWarnN := w, warnHold := h })
     s.phase ≠ .powerOn ∧ s.power.pwrWarnN = w ∧ s.power.warnHold = h ∧ serving s = true ∧ managed s = true) ∧
    (∀ p ∈ [Phase.powerOn, .held], managed (inPhase p) = false) ∧
    (serving State.reset = false ∧ requestedStage up ≤ stage up ∧
      stage up < requestedStage (powered (fun p => { p with pwrWarnN := false })) ∧
      requestedStage (shedding 3 none []) < stage (shedding 3 none [])) ∧
    (∀ st ∈ [1, 4, 5], let s := shedding st (some 5) []
     s.power.exitSince = some 5 ∧ serving s = true ∧ s.phase ≠ .powerOn ∧ requestedStage s < stage s ∧ stage s ≤ 5 ∧ stage s = st ∧
      s.logQ[planeMgmt].length < 16) ∧
    up.power.exitSince = none ∧
    (∀ c ∈ [MgmtCmd.suspend, .resume, .withdraw 3 0x77], let s := shedding 4 none [c]
     s.mgmt = [c] ∧ serving s = true ∧ .mc ∉ s.hidden ∧ .mc ∉ s.hiddenCe) ∧
    (.mc ∉ up.hidden ∧ .mc ∉ up.hiddenCe ∧ up.mgmt = [] ∧ MgmtCmd.suspend ≠ .resume) ∧
    (∀ c ∈ [MgmtCmd.suspend, .withdraw 3 0x77], let s : State := { shedding 4 none [c] with hidden := [.mc] }
     s.mgmt = [c] ∧ .mc ∈ s.hidden ∧ serving s = true ∧ s.logQ[planeCtrl].length < 16) := by
  refine ⟨?_, ?_, ?_, ?_, ?_, ?_, ?_, ?_⟩ <;> decide +kernel

/-! ### The error log and the ports -/

def logEntry (time sev : Nat) (p : Fin 3) : LogEntry :=
  { time := BitVec.ofNat 64 time, code := 0x0107, sev := BitVec.ofNat 3 sev, plane := p, unit := 1, seq := 0, arg0 := 5, arg1 := 6 }

theorem witness_LogQueues :
    (∀ p : Fin 3, ∀ n ∈ [0, 15, 16],
      let s : State := { up with logQ := up.logQ.set p (List.replicate n (logEntry 5 5 p)), logLost := up.logLost.set p 3 }
      s.logQ[p].length = n ∧ s.logLost[p] ≠ 0) ∧ up.logLost[(0 : Fin 3)] = 0 := by decide +kernel

/-- A management entry and a control entry of one cycle, and a later one of the data plane; the ring as given. -/
def logging (sev wr_ : Nat) (irq : Nat) : State :=
  set { up with logQ := #v[[logEntry 100 sev 0], [logEntry 100 1 1], [logEntry 900 5 2]] }
    [(R.LOG_WR, 0, wr_), (R.LOG_CTL_IRQ_EN, 0, irq), (R.LOG_CTL_IRQ_SEV, 0, 3), (R.LOG_CTL_ALERT_SEV, 0, 3)]

theorem witness_LogRing :
    (∀ sev ∈ [2, 3], ∀ w ∈ [5, 1024], ∀ irq : Fin 2, let s := logging sev w irq.val
     let e := logEntry 100 sev 0
     s.logQ[(0 : Fin 3)] = e :: [] ∧ e.plane = 0 ∧
      (∀ q : Fin 3, ∀ f ∈ s.logQ[q].head?, f.plane = q ∧ (q ≠ 0 →
        e.time.toNat * 2 / 5 < f.time.toNat * 2 / 5 ∨ (e.time.toNat * 2 / 5 = f.time.toNat * 2 / 5 ∧ 0 < q.val))) ∧
      logFull s = (w == 1024) ∧ (e.sev.toNat ≤ 2 ↔ sev = 2) ∧ (rd s R.LOG_CTL_ALERT_SEV 0 ≤ e.sev.toNat ↔ sev = 3) ∧
      rd s R.LOG_CTL_IRQ_EN 0 = irq.val ∧ (rd s R.LOG_CTL_IRQ_SEV 0 ≤ e.sev.toNat ↔ sev = 3) ∧
      rd s R.LOG_ACK 0 < 2 ^ 32 ∧ rd s R.LOG_WR 0 = w) ∧
    (∀ p : Fin 3, up.logQ[p] = []) ∧
    ((5 + 2 ^ 32 - 0) % 2 ^ 32 ≤ (5 + 2 ^ 32 - 0) % 2 ^ 32 ∧ (5 + 2 ^ 32 - 0) % 2 ^ 32 < (6 + 2 ^ 32 - 0) % 2 ^ 32) := by
  refine ⟨?_, ?_, ?_⟩ <;> decide +kernel

def smbLog (cursor : Nat) : State := set up [(R.LOG_WR, 0, 10), (R.LOG_SMB_CURSOR, 0, cursor)]

theorem witness_SmbusCommands :
    (portRuns up = true ∧ portRuns (inPhase .powerOn) = false) ∧
    (rd up R.GLB_SVC_STATE_STATE 0 < 8 ∧ rd up R.GLB_SVC_STATE_SHED_STAGE 0 < 8 ∧ rd up R.MC_ALERT_STAT 0 < 64 ∧ rd up R.LOG_WR 0 < 2 ^ 32) ∧
    (logHolds (smbLog 9) (rd (smbLog 9) R.LOG_SMB_CURSOR 0) = true ∧ rd (smbLog 9) R.LOG_SMB_CURSOR 0 ≠ rd (smbLog 9) R.LOG_WR 0 ∧
      rd (smbLog 10) R.LOG_SMB_CURSOR 0 = rd (smbLog 10) R.LOG_WR 0) ∧
    (∀ x ∈ [offRw], x % 4 = 0 ∧ 0x1000 ≤ x ∧ x < 0x8000 ∧ isWide (regHits x) = false ∧ latches (regHits x) = false ∧
      allocRead (regHits x) = none ∧ timingRead (regHits x) = none ∧ regHits x ≠ []) ∧
    (∀ h ∈ regHits offRw, ∀ a ∈ writeActs h.2.1 0x1F, a.1.id ≠ h.1.id) ∧
    (0x1001 % 4 ≠ 0 ∧ 0x1000 ≤ 0x1001 ∧ 0x1001 < 0x8000) := by
  refine ⟨?_, ?_, ?_, ?_, ?_, ?_⟩ <;> decide +kernel

theorem witness_TapInstructions :
    (∀ w : Bool, ({ up with tap := { up.tap with phase1Waits := w } } : State).tap.phase1Waits = w ∧ up.phase ≠ .powerOn) ∧
    (∀ b : Bool, ({ up with tap := { up.tap with inEffect := b } } : State).tap.inEffect = b) ∧
    (∀ b : Bool, (powered (fun p => { p with perstN := b })).power.perstN = b) ∧
    scannedBall OutPin.alertN.ball = true ∧ (List.replicate scanCells true).length = scanCells ∧
    ∃ e ∈ knownLevels up, e.2 = some true := by
  refine ⟨?_, ?_, ?_, ?_, List.length_replicate, ?_⟩ <;> decide +kernel

/-! ### The whole block -/

theorem witness_StepRunsTheFrontCommand :
    ({ up with pending := [.tapReset, .hotReset] } : State).pending = .tapReset :: [.hotReset] ∧ up.pending = [] := ⟨rfl, by decide +kernel⟩

theorem witness_StepKeepsTheInvariant : Inv State.reset ∧ step State.reset = .next (passCycle State.reset) :=
  ⟨⟨by decide, by decide, by decide, by decide, by decide, by decide⟩, rfl⟩

theorem witness_ConstantRegistersStay :
    (∀ n : Fin 16, sGet ex.cores[n] 0 = 0 ∧ pGet ex.cores[n] 0 = BitVec.allOnes 128) ∧ step ex = .next (passCycle ex) :=
  ⟨by decide +kernel, rfl⟩

theorem witness_InstructionWords :
    0x34 < 256 ∧ 0x3428800600000040 < 2 ^ 64 ∧ 0x80 < 256 ∧ encodeTensor0 0x80 tq = encodeTensor0 0x80 tq :=
  ⟨by decide, by decide, by decide, rfl⟩

end Sys2Proof.Tests
end

/-! ## Which registers a change of the state leaves (R3), and what the error log takes (R391, R395) -/

namespace Sys2Proof.HostAccess

open Sys2Proof.Machine Sys2Proof.Laws

/-! ### Registers that keep their value -/

/-- A register reads by the fuses and the stored registers alone. -/
theorem rd_congr {s t : State} (hf : t.fuses = s.fuses) (hr : t.regs = s.regs) (f : RegField) (i : Nat) : rd t f i = rd s f i := by
  unfold rd regReset
  rw [hf, hr]

theorem regsKept_of_regs {s t : State} (but : List Nat) (hf : t.fuses = s.fuses) (hr : t.regs = s.regs) : RegsKept s t but :=
  fun f i _ => rd_congr hf hr f i

theorem regsKept_trans {s t u : State} {but : List Nat} (h : RegsKept s t but) (h' : RegsKept t u but) : RegsKept s u but := by
  intro f i hk
  rw [h' f i hk, h f i hk]

theorem regsKept_mono {s t : State} {but more : List Nat} (h : RegsKept s t but) (hm : but ⊆ more) : RegsKept s t more :=
  fun f i hk => h f i (fun hb => hk (hm hb))

theorem regsKept_wr (s : State) {f : RegField} {i : Nat} (v : Nat) {but : List Nat} (hm : regKey f i ∈ but) :
    RegsKept s (wr s f i v) but := by
  intro g j hk
  exact rd_wr_other s f g i j v (fun he => hk (by rwa [he]))

theorem regsKept_then_wr {s t : State} {f : RegField} {i v : Nat} {but : List Nat} (h : RegsKept s t but)
    (hm : regKey f i ∈ but) : RegsKept s (wr t f i v) but :=
  regsKept_trans h (regsKept_wr t v hm)

theorem regsKept_bump (s : State) {f : RegField} {i : Nat} (n : Nat) {but : List Nat} (hm : regKey f i ∈ but) :
    RegsKept s (bump s f i n) but := by
  intro g j hk
  exact rd_bump_other s f g i j n (fun he => hk (by rwa [he]))

/-- A counter that stops at its largest value draws no free value. -/
theorem bump_of_stops (s : State) (f : RegField) (i n : Nat) (h : f.atMax = .stops) :
    bump s f i n = wr s f i (min (rd s f i + n) (2 ^ f.width - 1)) := by
  simp only [bump, h]

/-! ### The queues into the error log -/

theorem qdropField_stops (p : Fin 3) : (qdropField p).atMax = .stops := by
  fin_cases p <;> rfl

/-- An arriving entry changes the queues, the losses and the registers of the losses alone. -/
theorem logPush_frame (s : State) (p : Fin 3) (e : LogEntry) :
    ∃ r q l, logPush s p e = { s with regs := r, logQ := q, logLost := l } := by
  unfold logPush
  split
  · exact ⟨_, _, _, rfl⟩
  · rw [bump_of_stops _ _ _ _ (qdropField_stops p)]
    exact ⟨_, _, _, rfl⟩

theorem logPush_regsKept (s : State) (p : Fin 3) (e : LogEntry) : RegsKept s (logPush s p e) [regKey (qdropField p) 0] := by
  unfold logPush
  split
  · exact regsKept_of_regs _ rfl rfl
  · exact regsKept_trans (regsKept_of_regs _ rfl rfl) (regsKept_bump _ _ (by simp))

theorem logPush_logQ_of_room (s : State) (p : Fin 3) (e : LogEntry) (h : s.logQ[p].length < 16) :
    (logPush s p e).logQ[p] = s.logQ[p] ++ [e] := by
  rw [logPush, if_pos h]
  exact Vector.getElem_set_self p.isLt

/-- A plane's queue keeps what it holds: an arriving entry comes behind it or is lost. -/
theorem logPush_logQ_extends (s : State) (p : Fin 3) (e : LogEntry) : ∃ l, (logPush s p e).logQ[p] = s.logQ[p] ++ l := by
  by_cases h : s.logQ[p].length < 16
  · exact ⟨_, logPush_logQ_of_room s p e h⟩
  · exact ⟨[], by rw [logPush, if_neg h, bump_logQ, List.append_nil]⟩

/-- A lost entry is counted in LOG_QDROP of its plane. -/
theorem regKey_qdropField_mem (p : Fin 3) :
    regKey (qdropField p) 0 ∈ [regKey R.LOG_QDROP_MGMT 0, regKey R.LOG_QDROP_CTRL 0, regKey R.LOG_QDROP_DATA 0] := by
  fin_cases p <;> simp [qdropField]

/-- The entry that `logIt` makes of an event. -/
def eventEntry (s : State) (p : Fin 3) (cls detail sev unit arg0 arg1 : Nat) : LogEntry :=
  { time := nowW s, code := BitVec.ofNat 16 (cls * 256 + detail % 256), sev := BitVec.ofNat 3 sev, plane := p,
    unit := BitVec.ofNat 8 unit, seq := 0, arg0 := BitVec.ofNat 64 arg0, arg1 := BitVec.ofNat 64 arg1 }

theorem logIt_eq (s : State) (p : Fin 3) (cls detail sev unit arg0 arg1 : Nat) :
    logIt s p cls detail sev unit arg0 arg1 = logPush s p (eventEntry s p cls detail sev unit arg0 arg1) := rfl

theorem logIt_regsKept (s : State) (p : Fin 3) (cls detail sev unit arg0 arg1 : Nat) :
    RegsKept s (logIt s p cls detail sev unit arg0 arg1) [regKey (qdropField p) 0] :=
  logPush_regsKept s p _

theorem logIt_regsAndLog (s : State) (p : Fin 3) (cls detail sev unit arg0 arg1 : Nat) :
    RegsAndLog s (logIt s p cls detail sev unit arg0 arg1) [] := by
  refine ⟨?_, regsKept_mono (logIt_regsKept s p _ _ _ _ _ _) (by simpa using regKey_qdropField_mem p)⟩
  obtain ⟨r, q, l, h⟩ := logPush_frame s p (eventEntry s p cls detail sev unit arg0 arg1)
  rw [logIt_eq, h]

theorem regsAndLog_trans {s t u : State} {keys : List Nat} (h : RegsAndLog s t keys) (h' : RegsAndLog t u keys) :
    RegsAndLog s u keys := by
  obtain ⟨ht, hk⟩ := h
  obtain ⟨hu, hk'⟩ := h'
  refine ⟨?_, regsKept_trans hk hk'⟩
  rw [hu, ht]

/-- An event for which its plane's queue has room is in that queue. -/
theorem logIt_logQ (s : State) (p : Fin 3) (cls detail sev unit arg0 arg1 : Nat) (h : s.logQ[p].length < 16) :
    (logIt s p cls detail sev unit arg0 arg1).logQ[p] = s.logQ[p] ++ [eventEntry s p cls detail sev unit arg0 arg1] :=
  logPush_logQ_of_room s p _ h

end Sys2Proof.HostAccess

/-! ## A TLP uses the link (R354), and the registers at an offset (R3) -/

namespace Sys2Proof.HostAccess

open Sys2Proof.Machine Sys2Proof.Laws

/-! ### The link leaves its low-power state -/

theorem rd_linkUsed (s : State) (f : RegField) (i : Nat) (h : regKey f i ≠ linkKey) : rd (linkUsed s) f i = rd s f i :=
  (rd_wr_other _ _ _ _ _ _ h).trans (rd_congr rfl rfl f i)

theorem linkUsed_regsKept (s : State) : RegsKept s (linkUsed s) [linkKey] := by
  intro f i h
  exact rd_linkUsed s f i (by simpa using h)


@[simp] theorem nowW_linkUsed (s : State) : nowW (linkUsed s) = nowW s := by
  unfold nowW now
  rw [rd_linkUsed s _ _ (by decide)]

/-- Which blocks answer does not hang on the link's power state. -/
@[simp] theorem answers_linkUsed (s : State) (off : Nat) (write : Bool) : answers (linkUsed s) off write = answers s off write := by
  unfold answers
  rw [rd_linkUsed s _ _ (by decide)]
  rfl

/-- An LTR message may go out; it uses the link (R355). -/
theorem ltrUpdate_cases (s : State) : ltrUpdate s = s ∨ ∃ l, ltrUpdate s = { linkUsed s with ltr := l } := by
  have either : ∀ (was : Bool) (l : Option (Bool × Nat)),
      (if ltrActive s = was then s else { linkUsed s with ltr := l }) = s ∨
        ∃ l', (if ltrActive s = was then s else { linkUsed s with ltr := l }) = { linkUsed s with ltr := l' } := by
    intro was l
    by_cases h : ltrActive s = was
    · rw [if_pos h]
      exact Or.inl rfl
    · rw [if_neg h]
      exact Or.inr ⟨l, rfl⟩
  exact either _ _

theorem ltrUpdate_regsKept (s : State) : RegsKept s (ltrUpdate s) [linkKey] := by
  rcases ltrUpdate_cases s with h | ⟨l, h⟩ <;> rw [h]
  · exact regsKept_of_regs _ rfl rfl
  · exact regsKept_trans (linkUsed_regsKept s) (regsKept_of_regs _ rfl rfl)

/-- `t` is `u` but for registers and the LTR state. -/
def RegsAndLtr (u t : State) : Prop := ∃ r l, t = { u with regs := r, ltr := l }

theorem regsAndLtr_eq {u t : State} (h : RegsAndLtr u t) : t = { u with regs := t.regs, ltr := t.ltr } := by
  obtain ⟨r, l, rfl⟩ := h
  rfl

/-- A message at the moment the link was last used leaves when that was. -/
theorem regsAndLtr_ltrUpdate {u t : State} (h : RegsAndLtr u t) (hu : u.linkAt = elapsedW u) : RegsAndLtr u (ltrUpdate t) := by
  obtain ⟨r, l, rfl⟩ := h
  rcases ltrUpdate_cases { u with regs := r, ltr := l } with h | ⟨l', h⟩ <;> rw [h]
  · exact ⟨_, _, rfl⟩
  · refine ⟨(linkUsed { u with regs := r, ltr := l }).regs, l', ?_⟩
    have : elapsedW { u with regs := r, ltr := l } = u.linkAt := hu.symm
    simp only [linkUsed, this]
    rfl

/-! ### The table of fields -/

/-- The fields stand in the table by their number. -/
theorem regTable_ids : regTable.map (fun f => f.id) = List.range 480 := by decide +kernel

theorem regTable_id_lt {f : RegField} (h : f ∈ regTable) : f.id < 480 := by
  have : f.id ∈ regTable.map (fun f => f.id) := List.mem_map_of_mem h
  rwa [regTable_ids, List.mem_range] at this

theorem regTable_ids_distinct : regTable.Pairwise (fun f g => f.id ≠ g.id) := by
  have : (regTable.map (fun f => f.id)).Nodup := by
    rw [regTable_ids]
    exact List.nodup_range
  exact List.pairwise_map.mp this

theorem field_eq_of_id {f g : RegField} (hf : f ∈ regTable) (hg : g ∈ regTable) (h : f.id = g.id) : f = g :=
  List.inj_on_of_nodup_map (f := fun f : RegField => f.id) (by rw [regTable_ids]; exact List.nodup_range) hf hg h

/-- The fields of different numbers have different keys, whatever units they belong to. -/
theorem regKey_ne {f g : RegField} (hf : f ∈ regTable) (hg : g ∈ regTable) (h : f.id ≠ g.id) (i j : Nat) :
    regKey f i ≠ regKey g j := by
  have := regTable_id_lt hf
  have := regTable_id_lt hg
  exact regKey_ne_of_id g f j i (by omega) (by omega) h

theorem linkPm_mem : R.HIF_LINK_STATUS_PM ∈ regTable := by decide +kernel

/-- The link power state is read-only (R354). -/
theorem ro_of_key_eq_linkKey {f : RegField} {i : Nat} (hf : f ∈ regTable) (h : regKey f i = linkKey) : f.ty = .ro := by
  have hid : f.id = R.HIF_LINK_STATUS_PM.id := by
    by_contra hne
    exact regKey_ne hf linkPm_mem hne i 0 h
  rw [field_eq_of_id hf linkPm_mem hid]
  rfl

/-- The fields of job ring 31 that are read-only to the host are RW for the other rings. -/
theorem rw_of_ring31 : ∀ f ∈ regTable, ∀ i, ring31 f i = true → f.ty = .rw := by
  have : ∀ f ∈ regTable, ring31 f 31 = true → f.ty = .rw := by decide +kernel
  intro f hf i h
  have hi : i = 31 := by
    simp only [ring31, Bool.and_eq_true, beq_iff_eq] at h
    exact h.1
  exact this f hf (hi ▸ h)

/-! ### The fields at an offset -/

theorem fieldHit_fst {off : Nat} {f : RegField} {h : RegField × Nat × Bool} (hf : fieldHit off f = some h) :
    h.1 = f ∧ (h.2.2 = true → f.wide = true) := by
  simp only [fieldHit, Option.ite_none_left_eq_some, Option.ite_none_right_eq_some, Option.some.injEq] at hf
  obtain ⟨_, ⟨_, _, hr⟩, rfl⟩ := hf
  refine ⟨rfl, fun h4 => ?_⟩
  rcases hr with h0 | ⟨hw, _⟩
  · exact absurd (h0.symm.trans (eq_of_beq h4)) (by decide)
  · exact hw

theorem mem_regTable_of_hit {off : Nat} {h : RegField × Nat × Bool} (hm : h ∈ regHits off) : h.1 ∈ regTable := by
  obtain ⟨f, hf, hh⟩ := List.mem_filterMap.mp hm
  rw [(fieldHit_fst hh).1]
  exact hf

/-- The fields of a register have different keys. -/
theorem regHits_keys_distinct (off : Nat) : (regHits off).Pairwise (fun a b => regKey a.1 a.2.1 ≠ regKey b.1 b.2.1) := by
  have hids : (regHits off).Pairwise (fun a b => a.1.id ≠ b.1.id) := by
    refine List.Pairwise.filterMap _ ?_ regTable_ids_distinct
    intro f g hne a ha b hb
    rwa [(fieldHit_fst ha).1, (fieldHit_fst hb).1]
  refine hids.imp_of_mem ?_
  intro a b ha hb hne
  exact regKey_ne (mem_regTable_of_hit ha) (mem_regTable_of_hit hb) hne _ _

/-- Only a register of 64 bits has a high half. -/
theorem isHigh_of_narrow {off : Nat} (h : isWide (regHits off) = false) : isHigh (regHits off) = false := by
  rw [isHigh, List.any_eq_false]
  intro x hx hhigh
  obtain ⟨f, hf, hh⟩ := List.mem_filterMap.mp hx
  obtain ⟨hxf, hw⟩ := fieldHit_fst hh
  have := List.any_eq_false.mp h x hx
  rw [hxf] at this
  exact this (hw hhigh)

end Sys2Proof.HostAccess

/-! ## Reads and writes of a register, field by field (R3, R6) -/

namespace Sys2Proof.HostAccess

open Sys2Proof.Machine Sys2Proof.Laws

/-- One field after another is given a new value, which hangs on the field's old value alone: each field has its new value,
every other register its old one, and what each step keeps (`K`) is kept. -/
theorem foldl_fields {g : State → RegField × Nat × Bool → State} {new : RegField × Nat × Bool → Nat → Nat} {K : State → Prop}
    (keeps : ∀ t h, K t → K (g t h)) (other : ∀ t h, RegsKept t (g t h) [regKey h.1 h.2.1])
    (same : ∀ t h, K t → rd (g t h) h.1 h.2.1 = new h (rd t h.1 h.2.1)) :
    ∀ (hs : List (RegField × Nat × Bool)) (s : State), hs.Pairwise (fun a b => regKey a.1 a.2.1 ≠ regKey b.1 b.2.1) → K s →
      K (hs.foldl g s) ∧ RegsKept s (hs.foldl g s) (hs.map (fun h => regKey h.1 h.2.1)) ∧
        ∀ h ∈ hs, rd (hs.foldl g s) h.1 h.2.1 = new h (rd s h.1 h.2.1) := by
  intro hs
  induction hs with
  | nil => exact fun s _ hK => ⟨hK, regsKept_of_regs _ rfl rfl, by simp⟩
  | cons a hs ih =>
    intro s hd hK
    obtain ⟨hne, hd⟩ := List.pairwise_cons.mp hd
    obtain ⟨hK', hkept, hnew⟩ := ih (g s a) hd (keeps s a hK)
    refine ⟨hK', ?_, ?_⟩
    · exact regsKept_trans (regsKept_mono (other s a) (by simp)) (regsKept_mono hkept (by simp))
    · intro h hm
      rcases List.mem_cons.mp hm with rfl | hm
      · have hlater : regKey h.1 h.2.1 ∉ hs.map (fun b => regKey b.1 b.2.1) := by
          intro hmem
          obtain ⟨b, hb, he⟩ := List.mem_map.mp hmem
          exact hne b hb he.symm
        rw [List.foldl_cons, hkept h.1 h.2.1 hlater, same s h hK]
      · rw [List.foldl_cons, hnew h hm, other s a h.1 h.2.1 (by simpa using (hne h hm).symm)]

/-! ### Writes -/

/-- What a field holds after a write of `v` to its register. -/
def writtenValue (v : Nat) (h : RegField × Nat × Bool) (old : Nat) : Nat :=
  let x := bitsOf v h.1.lo h.1.width
  if h.1.ty = .rw then (if ring31 h.1 h.2.1 then old else x)
  else if h.1.ty = .rws then x
  else if h.1.ty = .rw1c then (old - (old &&& x)) % 2 ^ h.1.width
  else old

/-- A field takes a value or stays as it is. -/
theorem writeField_cases (v : Nat) (s : State) (h : RegField × Nat × Bool) :
    writeField v s h = s ∨ ∃ x, writeField v s h = wr s h.1 h.2.1 x := by
  cases hty : h.1.ty <;> simp only [writeField, hty]
  case rw =>
    by_cases hr : ring31 h.1 h.2.1 = true
    · exact Or.inl (if_pos hr)
    · exact Or.inr ⟨_, if_neg hr⟩
  case rws | rw1c => exact Or.inr ⟨_, rfl⟩
  case ro | wo | rc => exact Or.inl trivial

theorem rd_writeField (v : Nat) (s : State) (h : RegField × Nat × Bool) :
    rd (writeField v s h) h.1 h.2.1 = writtenValue v h (rd s h.1 h.2.1) := by
  have hx : bitsOf v h.1.lo h.1.width % 2 ^ h.1.width = bitsOf v h.1.lo h.1.width := Nat.mod_mod _ _
  cases hty : h.1.ty <;> simp only [writeField, writtenValue, hty, reduceCtorEq, if_true, if_false]
  case rw =>
    by_cases hr : ring31 h.1 h.2.1 = true
    · rw [if_pos hr, if_pos hr]
    · rw [if_neg hr, if_neg hr, rd_wr_same, hx]
  case rws => rw [rd_wr_same, hx]
  case rw1c => rw [rd_wr_same]

theorem writeField_regsKept (v : Nat) (s : State) (h : RegField × Nat × Bool) :
    RegsKept s (writeField v s h) [regKey h.1 h.2.1] := by
  rcases writeField_cases v s h with he | ⟨x, he⟩ <;> rw [he]
  · exact regsKept_of_regs _ rfl rfl
  · exact regsKept_wr s x (by simp)

theorem writeField_regsAndLtr (v : Nat) {u t : State} (h : RegField × Nat × Bool) (hu : RegsAndLtr u t) :
    RegsAndLtr u (writeField v t h) := by
  obtain ⟨r, l, rfl⟩ := hu
  rcases writeField_cases v { u with regs := r, ltr := l } h with he | ⟨x, he⟩ <;> rw [he] <;> exact ⟨_, _, rfl⟩

/-- `t` is `u` after a write of `v` to the register at `off`, whose write does not act: its fields hold what they then hold,
and an LTR message may have gone out. -/
structure Wrote (off v : Nat) (u t : State) : Prop where
  kept : RegsKept u t (linkKey :: (regHits off).map (fun h => regKey h.1 h.2.1))
  fields : ∀ h ∈ regHits off, regKey h.1 h.2.1 ≠ linkKey → rd t h.1 h.2.1 = writtenValue v h (rd u h.1 h.2.1)

/-- No write of the register acts, whatever value is written. -/
theorem no_act {hs : List (RegField × Nat × Bool)} {v : Nat} (w : Nat)
    (h : ∀ h ∈ hs, ∀ a ∈ writeActs h.2.1 v, a.1.id ≠ h.1.id) :
    hs.findSome? (fun h => (writeActs h.2.1 w).find? (fun a => a.1.id == h.1.id)) = none := by
  rw [List.findSome?_eq_none_iff]
  intro x hx
  rw [List.find?_eq_none]
  intro a ha
  have same : (writeActs x.2.1 w).map (fun a => a.1) = (writeActs x.2.1 v).map (fun a => a.1) := rfl
  have hmem : a.1 ∈ (writeActs x.2.1 w).map (fun a => a.1) := List.mem_map_of_mem ha
  rw [same] at hmem
  obtain ⟨b, hb, hba⟩ := List.mem_map.mp hmem
  simpa [hba] using h x hx b hb

/-- R3: a write of a 32-bit register whose write does not act. -/
theorem write32_plain {off v : Nat} (w : Nat) (hwin : off < 0x8000 ∨ 0x10000 ≤ off) (hne : regHits off ≠ [])
    (hwide : isWide (regHits off) = false) (hact : ∀ h ∈ regHits off, ∀ a ∈ writeActs h.2.1 v, a.1.id ≠ h.1.id) (s : State) :
    write32 s off w = ltrUpdate ((regHits off).foldl (writeField w) s) := by
  have hempty : (regHits off).isEmpty = false := by simpa using hne
  rw [write32, if_neg (by omega)]
  simp only [hempty, hwide, writeWhole, no_act w hact, Bool.not_false, Bool.false_eq_true, if_false, if_true]

theorem write32_wrote {off v : Nat} (w : Nat) (hwin : off < 0x8000 ∨ 0x10000 ≤ off) (hne : regHits off ≠ [])
    (hwide : isWide (regHits off) = false) (hact : ∀ h ∈ regHits off, ∀ a ∈ writeActs h.2.1 v, a.1.id ≠ h.1.id)
    {u s : State} (hu : u.linkAt = elapsedW u) (hs : RegsAndLtr u s) :
    RegsAndLtr u (write32 s off w) ∧ Wrote off w s (write32 s off w) := by
  obtain ⟨hframe, hkept, hnew⟩ := foldl_fields (fun _ h => writeField_regsAndLtr w (u := u) h)
    (writeField_regsKept w) (fun t h _ => rd_writeField w t h) (regHits off) s (regHits_keys_distinct off) hs
  have hltr := ltrUpdate_regsKept ((regHits off).foldl (writeField w) s)
  rw [write32_plain w hwin hne hwide hact]
  refine ⟨regsAndLtr_ltrUpdate hframe hu, ⟨?_, ?_⟩⟩
  · exact regsKept_trans (regsKept_mono hkept (by simp)) (regsKept_mono hltr (by simp))
  · intro h hm hk
    rw [hltr h.1 h.2.1 (by simpa using hk), hnew h hm]

/-- R6: a write of an unassigned offset is logged, and does nothing else. -/
theorem write32_unassigned {off : Nat} (hwin : off < 0x8000 ∨ 0x10000 ≤ off) (he : regHits off = []) (s : State) (v : Nat) :
    write32 s off v = unassigned s 0 off := by
  rw [write32, if_neg (by omega)]
  simp [he]

/-! ### Reads -/

/-- What an RC field holds after a read of its register. -/
def clearedValue (s : State) (h : RegField × Nat × Bool) : Nat :=
  if h.1.id = R.DMA_OUTSTANDING_MAX.id then outstanding s % 2 ^ h.1.width else 0

/-- `t` is `u` but for registers and the largest temperature seen. -/
def RegsAndPower (u t : State) : Prop := ∃ r p, t = { u with regs := r, power := p }

/-- An RC field starts anew; that of the largest temperature seen forgets the sample too. -/
theorem clearRead_cases (s : State) (h : RegField × Nat × Bool) (hty : h.1.ty = .rc) :
    ∃ p, clearRead s h = { wr s h.1 h.2.1 0 with power := p } ∧ h.1.id ≠ R.DMA_OUTSTANDING_MAX.id ∨
      clearRead s h = wr (wr s h.1 h.2.1 0) h.1 h.2.1 (outstanding s) ∧ h.1.id = R.DMA_OUTSTANDING_MAX.id := by
  simp only [clearRead, hty, beq_self_eq_true, if_true]
  by_cases htj : h.1.id = R.MC_THERM_TJ_PEAK.id
  · exact ⟨_, Or.inl ⟨if_pos htj, by rw [htj]; decide⟩⟩
  · rw [if_neg htj]
    by_cases hmax : h.1.id = R.DMA_OUTSTANDING_MAX.id
    · exact ⟨s.power, Or.inr ⟨if_pos hmax, hmax⟩⟩
    · exact ⟨s.power, Or.inl ⟨if_neg hmax, hmax⟩⟩

theorem clearRead_of_not_rc (s : State) (h : RegField × Nat × Bool) (hty : h.1.ty ≠ .rc) : clearRead s h = s := by
  rw [clearRead, if_neg (by simpa using hty)]

theorem clearRead_regsKept (s : State) (h : RegField × Nat × Bool) : RegsKept s (clearRead s h) [regKey h.1 h.2.1] := by
  by_cases hty : h.1.ty = .rc
  · obtain ⟨p, ⟨he, _⟩ | ⟨he, _⟩⟩ := clearRead_cases s h hty <;> rw [he]
    · exact regsKept_trans (regsKept_wr s 0 (by simp)) (regsKept_of_regs _ rfl rfl)
    · exact regsKept_trans (regsKept_wr s 0 (by simp)) (regsKept_wr _ _ (by simp))
  · rw [clearRead_of_not_rc s h hty]
    exact regsKept_of_regs _ rfl rfl

theorem clearRead_regsAndPower {u t : State} (h : RegField × Nat × Bool) (hu : RegsAndPower u t) :
    RegsAndPower u (clearRead t h) := by
  by_cases hty : h.1.ty = .rc
  · obtain ⟨p, ⟨he, _⟩ | ⟨he, _⟩⟩ := clearRead_cases t h hty <;> rw [he] <;> obtain ⟨r, p', rfl⟩ := hu
    · exact ⟨_, _, rfl⟩
    · exact ⟨_, _, rfl⟩
  · rwa [clearRead_of_not_rc t h hty]

theorem rd_clearRead {u t : State} (h : RegField × Nat × Bool) (hu : RegsAndPower u t) :
    rd (clearRead t h) h.1 h.2.1 = if h.1.ty = .rc then clearedValue u h else rd t h.1 h.2.1 := by
  by_cases hty : h.1.ty = .rc
  · have htags : outstanding t = outstanding u := by
      obtain ⟨r, p, rfl⟩ := hu
      rfl
    rw [if_pos hty, clearedValue]
    obtain ⟨p, ⟨he, hid⟩ | ⟨he, hid⟩⟩ := clearRead_cases t h hty
    · rw [he, if_neg hid]
      exact (rd_wr_same t h.1 h.2.1 0).trans (Nat.zero_mod _)
    · rw [he, if_pos hid, rd_wr_same, htags]
  · rw [if_neg hty, clearRead_of_not_rc t h hty]

/-- Reading a register clears its RC fields and no other. -/
theorem foldl_clearRead_filter (hs : List (RegField × Nat × Bool)) (s : State) :
    hs.foldl clearRead s = (hs.filter (fun h => h.1.ty == .rc)).foldl clearRead s := by
  rw [List.foldl_filter]
  congr 1
  funext t h
  by_cases hty : h.1.ty = .rc
  · rw [if_pos (by simpa using hty)]
  · rw [if_neg (by simpa using hty), clearRead_of_not_rc t h hty]

/-- R3: what a read of a register leaves. -/
theorem foldl_clearRead (off : Nat) (u : State) :
    RegsAndPower u ((regHits off).foldl clearRead u) ∧
      RegsKept u ((regHits off).foldl clearRead u)
        (((regHits off).filter (fun h => h.1.ty == .rc)).map (fun h => regKey h.1 h.2.1)) ∧
      ∀ h ∈ regHits off, h.1.ty = .rc → rd ((regHits off).foldl clearRead u) h.1 h.2.1 = clearedValue u h := by
  rw [foldl_clearRead_filter]
  obtain ⟨hframe, hkept, hnew⟩ := foldl_fields (fun _ h => clearRead_regsAndPower (u := u) h) clearRead_regsKept
    (fun _ h => rd_clearRead h) ((regHits off).filter (fun h => h.1.ty == .rc)) u ((regHits_keys_distinct off).filter _) ⟨_, _, rfl⟩
  refine ⟨hframe, hkept, fun h hm hty => ?_⟩
  rw [hnew h (List.mem_filter.mpr ⟨hm, by simpa using hty⟩), if_pos hty]

theorem readWhole_plain {hs : List (RegField × Nat × Bool)} (halloc : allocRead hs = none) (htime : timingRead hs = none) (s : State) :
    readWhole s hs = (hs.foldl clearRead s, regValue s hs) := by
  simp only [readWhole, halloc, htime]

/-- R3, R6: a read of a 32-bit register, or of an unassigned offset. -/
theorem read32_plain {off : Nat} (hwin : off < 0x8000 ∨ 0x10000 ≤ off) (hwide : isWide (regHits off) = false)
    (hlatch : latches (regHits off) = false) (halloc : allocRead (regHits off) = none) (htime : timingRead (regHits off) = none)
    (s : State) : read32 s off = ((regHits off).foldl clearRead s, regValue s (regHits off) % 2 ^ 32) := by
  rw [read32, if_neg (by omega)]
  by_cases hne : regHits off = []
  · simp [hne, regValue]
  · have hempty : (regHits off).isEmpty = false := by simpa using hne
    simp only [hempty, isHigh_of_narrow hwide, hlatch, hwide, readWhole_plain halloc htime, Bool.false_eq_true, if_false]

theorem read32_unassigned {off : Nat} (hwin : off < 0x8000 ∨ 0x10000 ≤ off) (he : regHits off = []) (s : State) :
    read32 s off = (s, 0) := by
  rw [read32, if_neg (by omega)]
  simp [he]

end Sys2Proof.HostAccess

/-! ## BAR0 (R332 to R334) -/

namespace Sys2Proof.HostAccess

open Sys2Proof.Machine Sys2Proof.Laws

/-! ### Which of its answers an access gets -/

theorem exec_bar0Write (off : BitVec 25) (v : BitVec 64) (dws : Nat) (be : Bool) (s : State) :
    exec (.bar0Write ⟨.bar0, off⟩ v dws be) s = .next (bar0Write off.toNat v dws be s) := rfl

theorem exec_bar0Read (off : BitVec 25) (dws : Nat) (s : State) :
    exec (.bar0Read ⟨.bar0, off⟩ dws) s = .next (bar0Read off.toNat dws s) := rfl

theorem exec_lateReg (off : BitVec 25) (w : Bool) (s : State) : exec (.lateReg off w) s = .next (lateReg off.toNat w s) := rfl

theorem bar0Sized_one {o : Nat} (h : o % 4 = 0) : bar0Sized o 1 = true := by simp [bar0Sized, h]

theorem bar0Sized_two {o : Nat} (h : o % 8 = 0) : bar0Sized o 2 = true := by simp [bar0Sized, h]

/-- The state after a read that is late: it is counted, answered with 0 and logged. -/
def lateAnswered (u : State) (o : Nat) : State :=
  logIt (complete (bump u R.HIF_LATE_REG 0 1) .success false (bytesOf 4 0)) planeCtrl 0x50 0x20 3 0x41 o 0

section
variable {s : State} (hc : claimed s = true)
include hc

theorem bar0Write_served {o dws : Nat} (v : BitVec 64) (hz : bar0Sized o dws = true) (ha : answers s o true = true) :
    bar0Write o v dws true s = afterSmb o dws (regWrite (linkUsed s) o (4 * dws) v.toNat) := by
  simp [bar0Write, hc, hz, ha]

theorem bar0Write_partial {o : Nat} (v : BitVec 64) (hz : bar0Sized o 1 = true) :
    bar0Write o v 1 false s = logIt (linkUsed s) planeCtrl 0x50 0x21 3 0x41 o 0 := by
  simp [bar0Write, hc, hz]

theorem bar0Write_late {o : Nat} (v : BitVec 64) (hz : bar0Sized o 1 = true) (ha : answers s o true = false) :
    bar0Write o v 1 true s = logIt (linkUsed s) planeCtrl 0x50 0x20 3 0x41 o 0 := by
  simp [bar0Write, hc, hz, ha, late]

theorem bar0Write_badSize {o dws : Nat} (v : BitVec 64) (hz : bar0Sized o dws = false) :
    bar0Write o v dws true s = bar0Size (linkUsed s) o := by
  simp [bar0Write, hc, hz]

theorem bar0Read_badSize {o dws : Nat} (hz : bar0Sized o dws = false) :
    bar0Read o dws s = complete (bar0Size (linkUsed s) o) .abort false [] := by
  simp [bar0Read, hc, hz]

theorem bar0Read_served {o dws : Nat} (hz : bar0Sized o dws = true) (ha : answers s o false = true) :
    bar0Read o dws s = complete (regRead (linkUsed s) o (4 * dws)).1 .success false
      (bytesOf (4 * dws) (regRead (linkUsed s) o (4 * dws)).2) := by
  simp [bar0Read, hc, hz, ha]

theorem lateReg_write {o : Nat} (ha : alwaysOn o = false) :
    lateReg o true s = logIt (linkUsed s) planeCtrl 0x50 0x20 3 0x41 o 0 := by
  simp [lateReg, hc, ha, late]

theorem lateReg_read {o : Nat} (ha : alwaysOn o = false) : lateReg o false s = lateAnswered (linkUsed s) o := by
  simp [lateReg, hc, ha, late, lateAnswered]

end

/-! ### SMBus (R424) -/

/-- An SMBus write lies in the m-cycle of a BAR0 write at `o`, and its register reaches into the written bytes. -/
def smbMeets (s : State) (o : Nat) : Prop := ∃ e, s.smbWrote = some e ∧ e.2.2 = elapsedW s ∧ e.1 < o + 8 ∧ o < e.1 + 8

/-- Without an SMBus write in its m-cycle nothing follows a BAR0 write. -/
theorem afterSmb_apart {s : State} {o dws : Nat} (hd : dws ≤ 2) (h : ¬ smbMeets s o) : afterSmb o dws s = s := by
  rcases hs : s.smbWrote with _ | ⟨o', v, t⟩ <;> simp only [afterSmb, hs]
  refine if_neg fun hm => h ⟨_, hs, ?_⟩
  simp only [Bool.and_eq_true, beq_iff_eq, decide_eq_true_eq] at hm
  obtain ⟨⟨ht, hlo⟩, hhi⟩ := hm
  refine ⟨ht, by dsimp only; omega, ?_⟩
  dsimp only
  split at hlo <;> omega

/-- An SMBus write of the same 32-bit register in the same m-cycle comes second. -/
theorem afterSmb_same {s : State} {o v : Nat} (h : s.smbWrote = some (o, v, elapsedW s)) (hwide : isWide (regHits o) = false) :
    afterSmb o 1 s = write32 s o v := by
  simp [afterSmb, h, hwide]

/-! ### Accesses that are not served -/

theorem hifError_regsKept (s : State) (code space addr : Nat) :
    RegsKept s (hifError s planeCtrl code space addr)
      [regKey R.HIF_ERR_LAST_ADDR 0, regKey R.HIF_ERR_LAST_SPACE 0, regKey R.HIF_ERR_LAST_CODE 0, regKey R.HIF_ERR_LAST_VALID 0,
        regKey R.LOG_QDROP_CTRL 0] := by
  refine regsKept_trans ?_ (regsKept_mono (logIt_regsKept _ planeCtrl _ _ _ _ _ _) (by simp [qdropField, planeCtrl]))
  exact regsKept_then_wr (regsKept_then_wr (regsKept_then_wr (regsKept_wr s addr (by simp)) (by simp)) (by simp)) (by simp)

theorem hifError_frame (s : State) (p : Fin 3) (code space addr : Nat) :
    ∃ r q l, hifError s p code space addr = { s with regs := r, logQ := q, logLost := l } := by
  unfold hifError
  rw [logIt_eq]
  generalize eventEntry _ p _ _ _ _ _ _ = e
  obtain ⟨r, q, l, h⟩ := logPush_frame (wrb (wr (wr (wr s R.HIF_ERR_LAST_ADDR 0 addr) R.HIF_ERR_LAST_SPACE 0 space)
    R.HIF_ERR_LAST_CODE 0 code) R.HIF_ERR_LAST_VALID 0 true) p e
  exact ⟨r, q, l, h⟩

theorem hifError_logQ (s : State) (p : Fin 3) (code space addr : Nat) (h : s.logQ[p].length < 16) :
    ∃ e, (hifError s p code space addr).logQ[p] = s.logQ[p] ++ [e] ∧ e.code = BitVec.ofNat 16 (0x50 * 256 + code % 256) ∧ e.sev = 3 :=
  ⟨_, logIt_logQ _ p _ _ _ _ _ _ h, rfl, rfl⟩

/-- The registers that an access of a wrong size changes: its counter, the last error and the losses of the log. -/
def sizeKeys : List Nat :=
  [regKey R.HIF_CA 0, regKey R.HIF_ERR_LAST_ADDR 0, regKey R.HIF_ERR_LAST_SPACE 0, regKey R.HIF_ERR_LAST_CODE 0,
    regKey R.HIF_ERR_LAST_VALID 0, regKey R.LOG_QDROP_CTRL 0]

theorem bar0Size_regsKept (u : State) (o : Nat) : RegsKept u (bar0Size u o) sizeKeys := by
  refine regsKept_trans (t := bump (aerUnc u 15 true) R.HIF_CA 0 1) ?_ ?_
  · exact regsKept_trans (t := aerUnc u 15 true) (regsKept_of_regs _ rfl rfl) (regsKept_bump _ _ (by simp [sizeKeys]))
  · exact regsKept_mono (hifError_regsKept _ _ _ _) (by simp [sizeKeys])

theorem bar0Size_frame (u : State) (o : Nat) :
    ∃ r p q l, bar0Size u o = { u with regs := r, pci := p, logQ := q, logLost := l } := by
  obtain ⟨r, q, l, h⟩ := hifError_frame (bump (aerUnc u 15 true) R.HIF_CA 0 1) planeCtrl 4 0 o
  rw [bump_of_stops _ _ _ _ rfl] at h
  rw [bar0Size, bump_of_stops _ _ _ _ rfl, h]
  exact ⟨_, _, _, _, rfl⟩

theorem rd_bar0Size_ca (u : State) (o : Nat) : rd (bar0Size u o) R.HIF_CA 0 = min (rd u R.HIF_CA 0 + 1) (2 ^ 32 - 1) := by
  rw [bar0Size, hifError_regsKept _ _ _ _ _ _ (by decide), rd_bump_stops _ _ _ _ rfl]
  rfl

theorem bar0Size_logQ (u : State) (o : Nat) (h : u.logQ[planeCtrl].length < 16) :
    ∃ e, (bar0Size u o).logQ[planeCtrl] = u.logQ[planeCtrl] ++ [e] ∧ e.code = 0x5004 ∧ e.sev = 3 := by
  have hq : (bump (aerUnc u 15 true) R.HIF_CA 0 1).logQ = u.logQ := bump_logQ _ _ _ _
  obtain ⟨e, he, hcode, hsev⟩ := hifError_logQ (bump (aerUnc u 15 true) R.HIF_CA 0 1) planeCtrl 4 0 o (by rw [hq]; exact h)
  rw [hq] at he
  exact ⟨e, he, hcode, hsev⟩

/-! ### Unassigned offsets (R6) -/

theorem bytesOf_zero (n : Nat) : bytesOf n 0 = List.replicate n 0 := by
  simp [bytesOf, List.map_const']

theorem regWrite_dw (s : State) (o v : Nat) : regWrite s o 4 v = write32 s o (v % 2 ^ 32) := rfl

theorem regRead_dw (s : State) (o : Nat) : regRead s o 4 = read32 s o := rfl

theorem unassigned_regsAndLog (s : State) (space o : Nat) : RegsAndLog s (unassigned s space o) [] := logIt_regsAndLog s _ _ _ _ _ _ _

/-- The entry of a write of an unassigned offset. -/
def unassignedEntry (s : State) (space o : Nat) : LogEntry := eventEntry s planeCtrl 0x01 1 3 0xFF o space

theorem unassigned_logQ (s : State) (space o : Nat) (h : s.logQ[planeCtrl].length < 16) :
    (unassigned s space o).logQ[planeCtrl] = s.logQ[planeCtrl] ++ [unassignedEntry s space o] := logIt_logQ s planeCtrl _ _ _ _ _ _ h

theorem unassignedEntry_arg0 (s : State) (space : Nat) {o : Nat} (h : o < 2 ^ 25) : (unassignedEntry s space o).arg0.toNat = o := by
  show (BitVec.ofNat 64 o).toNat = o
  rw [BitVec.toNat_ofNat, Nat.mod_eq_of_lt (by omega)]

section
variable {o : Nat} (hwin : o < 0x8000 ∨ 0x10000 ≤ o) (hlow : regHits o = [])
include hwin hlow

theorem regRead_unassigned (s : State) : regRead s o 4 = (s, 0) := by
  rw [regRead_dw, read32_unassigned hwin hlow]

theorem regWrite_unassigned (s : State) (v : Nat) : regWrite s o 4 v = unassigned s 0 o := by
  rw [regWrite_dw, write32_unassigned hwin hlow]

variable (h8 : o % 8 = 0) (hhigh : regHits (o + 4) = [])
include h8 hhigh

theorem regRead_two_unassigned (s : State) : regRead s o 8 = (s, 0) := by
  simp [regRead, hlow, isWide, read32_unassigned hwin hlow, read32_unassigned (off := o + 4) (by omega) hhigh]

theorem regWrite_two_unassigned (s : State) (v : Nat) : regWrite s o 8 v = unassigned (unassigned s 0 o) 0 (o + 4) := by
  simp [regWrite, hlow, isWide, write32_unassigned hwin hlow, write32_unassigned (off := o + 4) (by omega) hhigh]

end

/-- An unassigned write leaves what an SMBus write of the same m-cycle is known by. -/
theorem smbMeets_unassigned (s : State) (space o x : Nat) : smbMeets (unassigned s space o) x ↔ smbMeets s x := by
  simp [smbMeets, unassigned, elapsedW, elapsed]

theorem smbMeets_linkUsed (s : State) (o : Nat) : smbMeets (linkUsed s) o ↔ smbMeets s o := Iff.rfl

end Sys2Proof.HostAccess

/-! ## O42: unassigned offsets of BAR0 (R6) -/

namespace Sys2Proof.HostAccess

open Sys2Proof.Machine Sys2Proof.Laws

theorem does_bar0Write {off : BitVec 25} {v : BitVec 64} {dws : Nat} {be : Bool} {s t : State} {P : State → Prop}
    (h : bar0Write off.toNat v dws be s = t) (hP : P t) : Does (.bar0Write ⟨.bar0, off⟩ v dws be) s P :=
  ⟨t, by rw [exec_bar0Write, h], hP⟩

theorem does_bar0Read {off : BitVec 25} {dws : Nat} {s t : State} {P : State → Prop} (h : bar0Read off.toNat dws s = t)
    (hP : P t) : Does (.bar0Read ⟨.bar0, off⟩ dws) s P :=
  ⟨t, by rw [exec_bar0Read, h], hP⟩

section
variable {s : State} (hc : claimed s = true) {o : Nat} (hwin : o < 0x8000 ∨ 0x10000 ≤ o) (hlow : regHits o = [])
include hc hwin hlow

theorem bar0Read_unassigned (ha : answers s o false = true) (h4 : o % 4 = 0) :
    bar0Read o 1 s = complete (linkUsed s) .success false [0, 0, 0, 0] := by
  rw [bar0Read_served hc (bar0Sized_one h4) ha, regRead_unassigned hwin hlow, bytesOf_zero]
  rfl

theorem bar0Read_two_unassigned (ha : answers s o false = true) (h8 : o % 8 = 0) (hhigh : regHits (o + 4) = []) :
    bar0Read o 2 s = complete (linkUsed s) .success false [0, 0, 0, 0, 0, 0, 0, 0] := by
  rw [bar0Read_served hc (bar0Sized_two h8) ha, regRead_two_unassigned hwin hlow h8 hhigh, bytesOf_zero]
  rfl

theorem bar0Write_unassigned (v : BitVec 64) (ha : answers s o true = true) (h4 : o % 4 = 0) (hsmb : ¬ smbMeets s o) :
    bar0Write o v 1 true s = unassigned (linkUsed s) 0 o := by
  rw [bar0Write_served hc v (bar0Sized_one h4) ha, regWrite_unassigned hwin hlow, afterSmb_apart (by omega)]
  rwa [smbMeets_unassigned, smbMeets_linkUsed]

theorem bar0Write_two_unassigned (v : BitVec 64) (ha : answers s o true = true) (h8 : o % 8 = 0) (hhigh : regHits (o + 4) = [])
    (hsmb : ¬ smbMeets s o) :
    bar0Write o v 2 true s = unassigned (unassigned (linkUsed s) 0 o) 0 (o + 4) := by
  rw [bar0Write_served hc v (bar0Sized_two h8) ha, regWrite_two_unassigned hwin hlow h8 hhigh, afterSmb_apart (by omega)]
  rwa [smbMeets_unassigned, smbMeets_unassigned, smbMeets_linkUsed]

end

/-- Two unassigned writes: the entry of the first is behind what the queue held. -/
theorem unassigned_twice_mem (s : State) (o o' : Nat) (h : s.logQ[planeCtrl].length < 16) :
    unassignedEntry s 0 o ∈ (unassigned (unassigned s 0 o) 0 o').logQ[planeCtrl].drop s.logQ[planeCtrl].length := by
  obtain ⟨l, hl⟩ := logPush_logQ_extends (unassigned s 0 o) planeCtrl (unassignedEntry (unassigned s 0 o) 0 o')
  have hq : (unassigned (unassigned s 0 o) 0 o').logQ[planeCtrl] = s.logQ[planeCtrl] ++ (unassignedEntry s 0 o :: l) := by
    rw [unassigned_logQ s 0 o h, List.append_assoc] at hl
    exact hl
  rw [hq, List.drop_left]
  exact List.mem_cons_self

/-- Two unassigned writes that the queue has room for: both entries, in order. -/
theorem unassigned_twice_logQ (s : State) (o o' : Nat) (h : s.logQ[planeCtrl].length < 15) :
    (unassigned (unassigned s 0 o) 0 o').logQ[planeCtrl] =
      s.logQ[planeCtrl] ++ [unassignedEntry s 0 o, unassignedEntry (unassigned s 0 o) 0 o'] := by
  have hfirst := unassigned_logQ s 0 o (Nat.lt_succ_of_lt h)
  have hroom : (unassigned s 0 o).logQ[planeCtrl].length < 16 := by
    rw [hfirst, List.length_append]
    exact Nat.succ_lt_succ h
  rw [unassigned_logQ _ 0 o' hroom, hfirst, List.append_assoc]
  rfl

/-- Settles O42: at an offset without fields the register space answers 0, and a write is its entry in the log and nothing else;
of two DWs written the entry of the first stands first. -/
theorem unassignedOffsets : Obligations.UnassignedOffsets := by
  unfold Obligations.UnassignedOffsets
  intro off v s o u apart hc hwin hlow
  have ho : o < 2 ^ 25 := off.isLt
  have hsmb : apart → ¬ smbMeets s o := by
    rintro hap ⟨e, he, ht, hlo, hhi⟩
    rcases hap e he with h | h | h
    · exact h ht
    · omega
    · omega
  refine ⟨?_, ?_, ?_, ?_⟩
  · intro ha h4
    exact congrArg _ (bar0Read_unassigned hc hwin hlow ha h4)
  · intro ha h8 hhigh
    exact congrArg _ (bar0Read_two_unassigned hc hwin hlow ha h8 hhigh)
  · intro ha h4 hap
    refine does_bar0Write (bar0Write_unassigned hc hwin hlow v ha h4 (hsmb hap)) ⟨unassigned_regsAndLog u 0 o, fun hroom => ?_⟩
    exact ⟨unassignedEntry u 0 o, unassigned_logQ u 0 o hroom, rfl, rfl, nowW_linkUsed s, unassignedEntry_arg0 u 0 ho⟩
  · intro ha h8 hhigh hap
    refine does_bar0Write (bar0Write_two_unassigned hc hwin hlow v ha h8 hhigh (hsmb hap)) ⟨?_, fun hroom => ?_⟩
    · exact regsAndLog_trans (unassigned_regsAndLog u 0 o) (unassigned_regsAndLog _ 0 (o + 4))
    · exact ⟨unassignedEntry u 0 o, unassigned_twice_mem u o (o + 4) hroom, rfl, rfl, nowW_linkUsed s, unassignedEntry_arg0 u 0 ho⟩

end Sys2Proof.HostAccess

/-! ## O41: BAR0 -/

namespace Sys2Proof.HostAccess

open Sys2Proof.Machine Sys2Proof.Laws

/-! ### What an access leaves in the log and in the registers -/

/-- The entry of an event of severity 3 of the control plane. -/
theorem logIt_ctrl (s : State) (cls detail unit arg0 arg1 : Nat) (h : s.logQ[planeCtrl].length < 16) :
    ∃ e, (logIt s planeCtrl cls detail 3 unit arg0 arg1).logQ[planeCtrl] = s.logQ[planeCtrl] ++ [e] ∧
      e.code = BitVec.ofNat 16 (cls * 256 + detail % 256) ∧ e.sev = 3 :=
  ⟨_, logIt_logQ s planeCtrl _ _ _ _ _ _ h, rfl, rfl⟩

theorem writtenValue_rw (v : Nat) (h : RegField × Nat × Bool) (old : Nat) (hty : h.1.ty = .rw ∨ h.1.ty = .rws)
    (hr : ring31 h.1 h.2.1 = false) : writtenValue v h old = bitsOf v h.1.lo h.1.width := by
  rcases hty with hty | hty <;> simp [writtenValue, hty, hr]

theorem writtenValue_ring31 (v : Nat) (h : RegField × Nat × Bool) (old : Nat) (hm : h.1 ∈ regTable) (hr : ring31 h.1 h.2.1 = true) :
    writtenValue v h old = old := by
  simp [writtenValue, rw_of_ring31 h.1 hm h.2.1 hr, hr]

theorem writtenValue_rw1c (v : Nat) (h : RegField × Nat × Bool) (old : Nat) (hty : h.1.ty = .rw1c) :
    writtenValue v h old = (old - (old &&& bitsOf v h.1.lo h.1.width)) % 2 ^ h.1.width := by
  simp [writtenValue, hty]

theorem writtenValue_readOnly (v : Nat) (h : RegField × Nat × Bool) (old : Nat) (hty : h.1.ty = .ro ∨ h.1.ty = .wo ∨ h.1.ty = .rc) :
    writtenValue v h old = old := by
  rcases hty with hty | hty | hty <;> simp [writtenValue, hty]

/-- R3: what a write leaves in the fields of a register, by their types. -/
theorem wrote_fields {o v : Nat} {s t : State} (hw : Wrote o v (linkUsed s) t) (h : RegField × Nat × Bool) (hm : h ∈ regHits o) :
    let x := bitsOf v h.1.lo h.1.width
    ((h.1.ty = .rw ∨ h.1.ty = .rws) → ring31 h.1 h.2.1 = false → rd t h.1 h.2.1 = x) ∧
    (ring31 h.1 h.2.1 = true → rd t h.1 h.2.1 = rd s h.1 h.2.1) ∧
    (h.1.ty = .rw1c → rd t h.1 h.2.1 = (rd s h.1 h.2.1 - (rd s h.1 h.2.1 &&& x)) % 2 ^ h.1.width) ∧
    ((h.1.ty = .ro ∨ h.1.ty = .wo ∨ h.1.ty = .rc) → regKey h.1 h.2.1 ≠ linkKey → rd t h.1 h.2.1 = rd s h.1 h.2.1) := by
  intro x
  have hmem := mem_regTable_of_hit hm
  have value : regKey h.1 h.2.1 ≠ linkKey → rd t h.1 h.2.1 = writtenValue v h (rd s h.1 h.2.1) := fun hk => by
    rw [hw.fields h hm hk, rd_linkUsed s _ _ hk]
  have writable : h.1.ty ≠ .ro → regKey h.1 h.2.1 ≠ linkKey := fun hro hk => hro (ro_of_key_eq_linkKey hmem hk)
  refine ⟨fun hty hr => ?_, fun hr => ?_, fun hty => ?_, fun hty hk => ?_⟩
  · rw [value (writable (by rcases hty with h | h <;> simp [h])), writtenValue_rw v h _ hty hr]
  · rw [value (writable (by simp [rw_of_ring31 h.1 hmem _ hr])), writtenValue_ring31 v h _ hmem hr]
  · rw [value (writable (by simp [hty])), writtenValue_rw1c v h _ hty]
  · rw [value hk, writtenValue_readOnly v h _ hty]

/-- R3, R332: a write of one DW of a 32-bit register whose write does not act, up to what SMBus adds to it. -/
theorem bar0Write_plain {s : State} (hc : claimed s = true) {o : Nat} (hwin : o < 0x8000 ∨ 0x10000 ≤ o) (v : BitVec 64) (ha : answers s o true = true) (h4 : o % 4 = 0) (hne : regHits o ≠ [])
    (hwide : isWide (regHits o) = false)
    (hact : ∀ h ∈ regHits o, ∀ a ∈ writeActs h.2.1 (v.toNat % 2 ^ 32), a.1.id ≠ h.1.id) :
    ∃ t, bar0Write o v 1 true s = afterSmb o 1 t ∧ RegsAndLtr (linkUsed s) t ∧ Wrote o (v.toNat % 2 ^ 32) (linkUsed s) t := by
  obtain ⟨hframe, hwrote⟩ := write32_wrote (v.toNat % 2 ^ 32) hwin hne hwide hact (u := linkUsed s) (s := linkUsed s) rfl ⟨_, _, rfl⟩
  exact ⟨_, by rw [bar0Write_served hc v (bar0Sized_one h4) ha, regWrite_dw], hframe, hwrote⟩

theorem smbMeets_of_regsAndLtr {s t : State} (h : RegsAndLtr (linkUsed s) t) (o : Nat) : smbMeets t o ↔ smbMeets s o := by
  obtain ⟨r, l, rfl⟩ := h
  exact Iff.rfl

/-- R424: an SMBus write of the register in the same m-cycle comes after the BAR0 write. -/
theorem afterSmb_wrote {o v w x : Nat} {s t : State} (hwin : o < 0x8000 ∨ 0x10000 ≤ o) (hframe : RegsAndLtr (linkUsed s) t) (hwrote : Wrote o v (linkUsed s) t)
    (hsmb : s.smbWrote = some (o, x, elapsedW s)) (hne : regHits o ≠ []) (hwide : isWide (regHits o) = false)
    (hact : ∀ h ∈ regHits o, ∀ a ∈ writeActs h.2.1 w, a.1.id ≠ h.1.id) :
    RegsKept (linkUsed s) (afterSmb o 1 t) (linkKey :: (regHits o).map (fun h => regKey h.1 h.2.1)) ∧
      ∀ h ∈ regHits o, (h.1.ty = .rw ∨ h.1.ty = .rws) → ring31 h.1 h.2.1 = false → regKey h.1 h.2.1 ≠ linkKey →
        rd (afterSmb o 1 t) h.1 h.2.1 = bitsOf x h.1.lo h.1.width := by
  have hsmb' : t.smbWrote = some (o, x, elapsedW t) := by
    obtain ⟨r, l, rfl⟩ := hframe
    exact hsmb
  obtain ⟨_, hsecond⟩ := write32_wrote x hwin hne hwide hact (u := linkUsed s) (s := t) rfl hframe
  rw [afterSmb_same hsmb' hwide]
  refine ⟨regsKept_trans hwrote.kept hsecond.kept, fun h hm hty hr hk => ?_⟩
  rw [hsecond.fields h hm hk, writtenValue_rw x h _ hty hr]

/-! ### Reads -/

/-- `t` is `u` after a read that clears the RC fields of the register at `off` and hands `n` bytes of `value` to the link. -/
structure WasRead (off n value : Nat) (u t : State) : Prop where
  frame : t = { u with regs := t.regs, power := t.power, cpl := t.cpl }
  answer : t.cpl = [{ status := .success, ep := false, bytes := bytesOf n value }]
  kept : RegsKept u t (((regHits off).filter (fun h => h.1.ty == .rc)).map (fun h => regKey h.1 h.2.1))
  cleared : ∀ h ∈ regHits off, h.1.ty = .rc → rd t h.1 h.2.1 = clearedValue u h

theorem wasRead_complete (off n value : Nat) (u : State) :
    WasRead off n value u (complete ((regHits off).foldl clearRead u) .success false (bytesOf n value)) := by
  obtain ⟨hframe, hkept, hcleared⟩ := foldl_clearRead off u
  refine ⟨?_, rfl, regsKept_trans hkept (regsKept_of_regs _ rfl rfl), hcleared⟩
  obtain ⟨r, p, h⟩ := hframe
  rw [h]
  rfl

section
variable {s : State} (hc : claimed s = true) {o : Nat} (halloc : allocRead (regHits o) = none) (htime : timingRead (regHits o) = none)
  (ha : answers s o false = true)
include hc halloc htime ha

theorem bar0Read_dw (hwin : o < 0x8000 ∨ 0x10000 ≤ o) (h4 : o % 4 = 0) (hwide : isWide (regHits o) = false)
    (hlatch : latches (regHits o) = false) :
    WasRead o 4 (regValue (linkUsed s) (regHits o) % 2 ^ 32) (linkUsed s) (bar0Read o 1 s) := by
  rw [bar0Read_served hc (bar0Sized_one h4) ha, regRead_dw, read32_plain hwin hwide hlatch halloc htime]
  exact wasRead_complete _ _ _ _

theorem bar0Read_wide (h8 : o % 8 = 0) (hwide : isWide (regHits o) = true) :
    WasRead o 8 (regValue (linkUsed s) (regHits o)) (linkUsed s) (bar0Read o 2 s) := by
  have h : regRead (linkUsed s) o 8 = readWhole (linkUsed s) (regHits o) := by simp [regRead, hwide]
  rw [bar0Read_served hc (bar0Sized_two h8) ha, h, readWhole_plain halloc htime]
  exact wasRead_complete _ _ _ _

end

/-! ### LATE_REG (R333) -/

theorem lateAnswered_cpl (u : State) (o : Nat) :
    (lateAnswered u o).cpl = [{ status := .success, ep := false, bytes := [0, 0, 0, 0] }] := by
  rw [lateAnswered, logIt_cpl, bytesOf_zero]
  rfl

theorem lateAnswered_kept (u : State) (o : Nat) :
    RegsKept u (lateAnswered u o) [regKey R.HIF_LATE_REG 0, regKey R.LOG_QDROP_CTRL 0] := by
  refine regsKept_trans (regsKept_bump u (f := R.HIF_LATE_REG) (i := 0) 1 (by simp)) (regsKept_trans (regsKept_of_regs _ rfl rfl) ?_)
  exact regsKept_mono (logIt_regsKept _ planeCtrl _ _ _ _ _ _) (by simp [qdropField, planeCtrl])

theorem rd_lateAnswered (u : State) (o : Nat) :
    rd (lateAnswered u o) R.HIF_LATE_REG 0 = min (rd u R.HIF_LATE_REG 0 + 1) (2 ^ 32 - 1) := by
  rw [lateAnswered, logIt_regsKept _ planeCtrl _ _ _ _ _ _ _ _ (by decide)]
  exact rd_bump_stops u R.HIF_LATE_REG 0 1 rfl

theorem lateAnswered_logQ (u : State) (o : Nat) (h : u.logQ[planeCtrl].length < 16) :
    ∃ e, (lateAnswered u o).logQ[planeCtrl] = u.logQ[planeCtrl] ++ [e] ∧ e.code = 0x5020 ∧ e.sev = 3 := by
  have hq : (complete (bump u R.HIF_LATE_REG 0 1) .success false (bytesOf 4 0)).logQ = u.logQ := bump_logQ u _ _ _
  obtain ⟨e, he, hcode, hsev⟩ := logIt_ctrl (complete (bump u R.HIF_LATE_REG 0 1) .success false (bytesOf 4 0)) 0x50 0x20 0x41 o 0
    (by rw [hq]; exact h)
  rw [hq] at he
  exact ⟨e, he, hcode, hsev⟩

/-! ### Requests that no BAR claims -/

theorem bar0Write_unclaimed {s : State} (hc : claimed s = false) (o : Nat) (v : BitVec 64) (dws : Nat) (be : Bool) :
    bar0Write o v dws be s = s := by
  simp [bar0Write, hc]

theorem bar0Read_noLink {s : State} (hc : claimed s = false) (hl : linkIsUp s = false) (o dws : Nat) : bar0Read o dws s = s := by
  simp [bar0Read, hc, unclaimedRead, hl]

theorem bar0Read_unclaimed {s : State} (hc : claimed s = false) (hl : linkIsUp s = true) (o dws : Nat) :
    bar0Read o dws s = complete (linkUsed s) .unsupported false [] := by
  simp [bar0Read, hc, unclaimedRead, hl]

end Sys2Proof.HostAccess

/-! ## BAR4 (R335, R336, R351) -/

namespace Sys2Proof.HostAccess

open Sys2Proof.Machine Sys2Proof.Laws

theorem exec_bar4Write (off : BitVec 25) (v : BitVec 64) (dws : Nat) (be : Bool) (s : State) :
    exec (.bar0Write ⟨.bar4, off⟩ v dws be) s = .next (bar4Write (off.toNat % 2 ^ 20) v dws be s) := rfl

theorem exec_bar4Read (off : BitVec 25) (dws : Nat) (s : State) :
    exec (.bar0Read ⟨.bar4, off⟩ dws) s = .next (bar4Read (off.toNat % 2 ^ 20) dws s) := rfl

/-! ### Doorbells -/

theorem bellAt_jobRing (r : Fin 31) : bellAt (8 * r.val) = some (jobRingBell r) := by
  have hr : Fin.ofNat 31 (8 * r.val / 8) = r := Fin.ext (by simp only [Fin.val_ofNat]; omega)
  rw [bellAt, if_neg (by omega), if_pos (by omega), hr]

theorem bellAt_completionRing (r : Fin 31) : bellAt (0x100 + 8 * r.val) = some (completionRingBell r) := by
  have hr : Fin.ofNat 31 ((0x100 + 8 * r.val - 0x100) / 8) = r := Fin.ext (by simp only [Fin.val_ofNat]; omega)
  rw [bellAt, if_neg (by omega), if_neg (by omega), if_pos (by omega), hr]

theorem bellAt_mqHead (m : Fin 16) : bellAt (0x200 + 8 * m.val) = some (mqHeadBell m) := by
  have hm : Fin.ofNat 16 ((0x200 + 8 * m.val - 0x200) / 8) = m := Fin.ext (by simp only [Fin.val_ofNat]; omega)
  rw [bellAt, if_neg (by omega), if_neg (by omega), if_neg (by omega), if_pos (by omega), hm]

theorem bellAt_invalidate : bellAt 0x400 = some invalidateBell := rfl

theorem bellAt_chunk (n : Fin 1024) : bellAt (0x2000 + 8 * n.val) = some (chunkBell n) := by
  have hn : Fin.ofNat 1024 ((0x2000 + 8 * n.val - 0x2000) / 8) = n := Fin.ext (by simp only [Fin.val_ofNat]; omega)
  rw [bellAt, if_neg (by omega), if_neg (by omega), if_neg (by omega), if_neg (by omega), if_neg (by omega), if_pos (by omega), hn]

/-- The doorbells end at 0x4000 (R335). -/
theorem bellAt_none {o : Nat} (h : 0x4000 ≤ o) : bellAt o = none := by
  rw [bellAt]
  by_cases h8 : o % 8 = 0
  · rw [if_neg (not_not_intro h8), if_neg (by omega), if_neg (by omega), if_neg (by omega), if_neg (by omega), if_neg (by omega)]
  · rw [if_pos h8]

theorem noBell {o : Nat} (dws : Nat) (h : 0x4000 ≤ o) :
    (List.range (4 * dws)).any (fun i => (bellAt (o + i)).isSome || (bellAt ((o + i) / 4 * 4)).isSome) = false := by
  rw [List.any_eq_false]
  intro i _
  simp [bellAt_none (o := o + i) (by omega), bellAt_none (o := (o + i) / 4 * 4) (by omega)]

section
variable {s : State} (hc : claimed s = true)
include hc

/-- R336: a write at a doorbell is that doorbell's. -/
theorem bar4Write_bell {o : Nat} {bell : DbWrite → State → State} (h : bellAt o = some bell) (v : BitVec 64) (dws : Nat) (be : Bool) :
    bar4Write o v dws be s = bell { value := v.setWidth 32, beFull := be, dws := dws } s := by
  simp [bar4Write, hc, h]

/-- A whole DW behind the doorbells. -/
theorem bar4Write_dw {o : Nat} (h : 0x4000 ≤ o) (h4 : o % 4 = 0) (v : BitVec 64) :
    bar4Write o v 1 true s = bar4Put (linkUsed s) o (v.toNat % 2 ^ 32) := by
  simp only [bar4Write, hc, bellAt_none h, noBell 1 h]
  simp [h4, bitsOf]

/-- A write behind the doorbells that is misaligned, partial or too long is discarded, with one entry (R6, R335). -/
theorem bar4Write_discarded {o dws : Nat} {be : Bool} (h : 0x4000 ≤ o) (hbad : o % 4 ≠ 0 ∨ be = false ∨ 2 < dws)
    (hres : ∀ i, i < 4 * dws → inTable (o + i) = false ∧ inPba (o + i) = false) (v : BitVec 64) :
    bar4Write o v dws be s = unassigned (linkUsed s) 2 o := by
  have hout : (List.range (4 * dws)).any (fun i => inTable (o + i) || inPba (o + i)) = false := by
    rw [List.any_eq_false]
    intro i hi
    simp [hres i (List.mem_range.mp hi)]
  have hbad' : o % 4 ≠ 0 ∨ (!be) = true ∨ dws > 2 := by simpa using hbad
  simp only [bar4Write, hc, bellAt_none h, noBell dws h, hout, if_pos hbad', Bool.not_true, Bool.false_eq_true, if_false]

/-- A read gives the DWs from the aligned offset on. -/
theorem bar4Read_aligned {o : Nat} (h4 : o % 4 = 0) (dws : Nat) :
    bar4Read o dws s = complete (linkUsed s) .success false ((List.range dws).flatMap (fun i => bytesOf 4 (bar4Word s (o + 4 * i)))) := by
  have : o / 4 * 4 = o := by omega
  simp [bar4Read, hc, this]

end

/-! ### The MSI-X table (R351) -/

theorem inTable_dw (n : Fin 2048) {i : Nat} (hi : i < 4) : inTable (0x80000 + 16 * n.val + 4 * i) = true := by
  simp only [inTable, Bool.and_eq_true, decide_eq_true_eq]
  omega

theorem inTable_reserved {o : Nat} (h : o < 0x80000 ∨ 0x88000 ≤ o) : inTable o = false := by
  simp only [inTable, Bool.and_eq_false_iff, decide_eq_false_iff_not]
  omega

theorem inPba_reserved {o : Nat} (h : o < 0x90000 ∨ 0x90100 ≤ o) : inPba o = false := by
  simp only [inPba, Bool.and_eq_false_iff, decide_eq_false_iff_not]
  omega

theorem inPba_dw {k : Nat} (hk : k < 64) : inPba (0x90000 + 4 * k) = true := by
  simp only [inPba, Bool.and_eq_true, decide_eq_true_eq]
  omega

/-- A DW of the table is DW `i` of entry `n`. -/
theorem bar4Word_table (s : State) (n : Fin 2048) {i : Nat} (hi : i < 4) :
    bar4Word s (0x80000 + 16 * n.val + 4 * i) = msixWord (msixEntry s n.val) i := by
  have hn : (0x80000 + 16 * n.val + 4 * i - 0x80000) / 16 = n.val := by omega
  have hd : (0x80000 + 16 * n.val + 4 * i - 0x80000) / 4 % 4 = i := by omega
  rw [bar4Word, if_pos (inTable_dw n hi), hn, hd]

/-- The state with entry `n` of the table replaced. -/
def withEntry (s : State) (n : Nat) (e : MsixEntry) : State :=
  { s with msix := storeSet { addr := 0, data := 0, masked := true } s.msix n e }

theorem msixEntry_withEntry_same (s : State) (n : Nat) (e : MsixEntry) : msixEntry (withEntry s n e) n = e :=
  storeGet_set_same _ _ _ _

theorem msixEntry_withEntry_other (s : State) (n : Nat) (e : MsixEntry) {m : Nat} (h : m ≠ n) :
    msixEntry (withEntry s n e) m = msixEntry s m :=
  storeGet_set_other _ _ _ _ _ h

theorem bar4Put_table (s : State) (n : Fin 2048) {i : Nat} (hi : i < 4) (v : Nat) :
    bar4Put s (0x80000 + 16 * n.val + 4 * i) v = withEntry s n.val (msixPut (msixEntry s n.val) i v) := by
  have hn : (0x80000 + 16 * n.val + 4 * i - 0x80000) / 16 = n.val := by omega
  have hd : (0x80000 + 16 * n.val + 4 * i - 0x80000) / 4 % 4 = i := by omega
  rw [bar4Put, if_pos (inTable_dw n hi), hn, hd]
  rfl

/-- A whole DW written to the table becomes DW `i` of its entry. -/
theorem bar4Write_table {s : State} (hc : claimed s = true) {o : Nat} (n : Fin 2048) {i : Nat} (hi : i < 4)
    (ho : o = 0x80000 + 16 * n.val + 4 * i) (v : BitVec 64) :
    bar4Write o v 1 true s = withEntry (linkUsed s) n.val (msixPut (msixEntry s n.val) i (v.toNat % 2 ^ 32)) := by
  rw [bar4Write_dw hc (by omega) (by omega), ho, bar4Put_table _ n hi]
  rfl

/-- A read inside an entry gives its DWs. -/
theorem bar4Read_table {s : State} (hc : claimed s = true) {o : Nat} (n : Fin 2048) {i dws : Nat} (hi : i + dws ≤ 4)
    (ho : o = 0x80000 + 16 * n.val + 4 * i) :
    bar4Read o dws s = complete (linkUsed s) .success false
      ((List.range dws).flatMap (fun j => bytesOf 4 (msixWord (msixEntry s n.val) (i + j)))) := by
  rw [bar4Read_aligned hc (by omega), List.flatMap_congr]
  intro j hj
  have hj := List.mem_range.mp hj
  have hoj : o + 4 * j = 0x80000 + 16 * n.val + 4 * (i + j) := by omega
  rw [hoj, bar4Word_table s n (by omega)]

theorem msixPut_data (e : MsixEntry) (v : BitVec 64) : msixPut e 2 (v.toNat % 2 ^ 32) = { e with data := v.setWidth 32 } := by
  have h : BitVec.ofNat 32 (v.toNat % 2 ^ 32) = v.setWidth 32 := BitVec.eq_of_toNat_eq (by simp)
  rw [← h]
  rfl

theorem msixPut_mask (e : MsixEntry) (v : BitVec 64) : msixPut e 3 (v.toNat % 2 ^ 32) = { e with masked := v.getLsbD 0 } := by
  have h : bitOf (v.toNat % 2 ^ 32) 0 = v.getLsbD 0 := by simp [bitOf, BitVec.getLsbD]
  rw [← h]
  rfl

/-! ### What reads return -/

/-- The bytes of a number, in two parts. -/
theorem bytesOf_add (m n v : Nat) : bytesOf (m + n) v = bytesOf m (v % 256 ^ m) ++ bytesOf n (v / 256 ^ m) := by
  induction m generalizing v with
  | zero => simp [bytesOf]
  | succ m ih =>
    have hlow : BitVec.ofNat 8 (v % 256 ^ (m + 1)) = BitVec.ofNat 8 v := by
      apply BitVec.eq_of_toNat_eq
      rw [BitVec.toNat_ofNat, BitVec.toNat_ofNat]
      exact Nat.mod_mod_of_dvd v (Dvd.intro_left (256 ^ m) rfl)
    rw [Nat.add_right_comm, bytesOf_succ, bytesOf_succ, ih, hlow, Nat.pow_succ', Nat.mod_mul_right_div_self, Nat.div_div_eq_div_mul]
    rfl

theorem bytesOf_addr (a : W64) : bytesOf 4 (a.toNat % 2 ^ 32) ++ bytesOf 4 (a.toNat / 2 ^ 32) = bytesOf 8 a.toNat :=
  (bytesOf_add 4 4 a.toNat).symm

/-- The first two DWs of an entry are its address. -/
theorem table_two_dws (e : MsixEntry) :
    (List.range 2).flatMap (fun j => bytesOf 4 (msixWord e (0 + j))) = bytesOf 8 e.addr.toNat := by
  rw [← bytesOf_addr]
  exact congrArg _ (List.append_nil _)

theorem table_four_dws (e : MsixEntry) :
    (List.range 4).flatMap (fun j => bytesOf 4 (msixWord e (0 + j))) =
      bytesOf 8 e.addr.toNat ++ bytesOf 4 e.data.toNat ++ bytesOf 4 (b2n e.masked) := by
  rw [← bytesOf_addr, List.append_assoc, List.append_assoc]
  exact congrArg (fun l => _ ++ (_ ++ (_ ++ l))) (List.append_nil _)

theorem bar4Word_pba (s : State) {k : Nat} (hk : k < 64) : bar4Word s (0x90000 + 4 * k) = s.pba.toNat / 2 ^ (32 * k) % 2 ^ 32 := by
  have hd : (0x90000 + 4 * k - 0x90000) / 4 * 32 = 32 * k := by omega
  rw [bar4Word, if_neg (by simp [inTable_reserved (o := 0x90000 + 4 * k) (by omega)]), if_pos (inPba_dw hk), hd]
  rfl

/-- The pending bits are read-only. -/
theorem bar4Put_pba (s : State) {o k : Nat} (hk : k < 64) (ho : o = 0x90000 + 4 * k) (v : Nat) : bar4Put s o v = s := by
  subst ho
  rw [bar4Put, if_neg (by simp [inTable_reserved (o := 0x90000 + 4 * k) (by omega)]), if_pos (inPba_dw hk)]

theorem bar4Put_reserved (s : State) {o : Nat} (ht : o < 0x80000 ∨ 0x88000 ≤ o) (hp : o < 0x90000 ∨ 0x90100 ≤ o) (v : Nat) :
    bar4Put s o v = unassigned s 2 o := by
  simp [bar4Put, inTable_reserved ht, inPba_reserved hp]

theorem bar4Word_below {o : Nat} (s : State) (h : o < 0x80000) : bar4Word s o = 0 := by
  simp [bar4Word, inTable_reserved (Or.inl h), inPba_reserved (o := o) (by omega)]

theorem flatMap_zero (dws : Nat) : (List.range dws).flatMap (fun _ => List.replicate 4 (0 : Byte)) = List.replicate (4 * dws) 0 := by
  induction dws with
  | zero => rfl
  | succ n ih => rw [List.range_succ, List.flatMap_append, ih, List.flatMap_singleton, List.replicate_append_replicate, Nat.mul_succ]

theorem bar4Read_below {s : State} (hc : claimed s = true) {o dws : Nat} (h4 : o % 4 = 0) (h : o + 4 * dws ≤ 0x80000) :
    bar4Read o dws s = complete (linkUsed s) .success false (List.replicate (4 * dws) 0) := by
  have hz : (List.range dws).flatMap (fun i => bytesOf 4 (bar4Word s (o + 4 * i))) = List.replicate (4 * dws) 0 := by
    rw [← flatMap_zero, List.flatMap_congr]
    intro i hi
    have := List.mem_range.mp hi
    rw [bar4Word_below s (by omega), bytesOf_zero]
  rw [bar4Read_aligned hc h4, hz]

end Sys2Proof.HostAccess

/-! ## O41: the clauses together -/

namespace Sys2Proof.HostAccess

open Sys2Proof.Machine Sys2Proof.Laws

theorem does_bar4Write {off : BitVec 25} {v : BitVec 64} {dws : Nat} {be : Bool} {s t : State} {P : State → Prop}
    (h : bar4Write (off.toNat % 2 ^ 20) v dws be s = t) (hP : P t) : Does (.bar0Write ⟨.bar4, off⟩ v dws be) s P :=
  ⟨t, by rw [exec_bar4Write, h], hP⟩

theorem shows_of {off : BitVec 25} {dws : Nat} {s u : State} {bs bs' : List Byte}
    (h : bar4Read (off.toNat % 2 ^ 20) dws s = complete u .success false bs) (hb : bs = bs') :
    exec (.bar0Read ⟨.bar4, off⟩ dws) s = .next { u with cpl := [{ status := .success, ep := false, bytes := bs' }] } := by
  rw [exec_bar4Read, h, hb]
  rfl

/-- What a write of DW `i` of a table entry does. -/
theorem does_bar4Write_table {s : State} (hc : claimed s = true) {off : BitVec 25} {v : BitVec 64} {n : Fin 2048} {i : Nat} {e : MsixEntry}
    (hi : i < 4) (ho : off.toNat % 2 ^ 20 = 0x80000 + 16 * n.val + 4 * i)
    (he : msixPut (msixEntry s n.val) i (v.toNat % 2 ^ 32) = e) :
    Does (.bar0Write ⟨.bar4, off⟩ v 1 true) s (fun t =>
      t = { linkUsed s with msix := t.msix } ∧ msixEntry t n.val = e ∧ ∀ m : Fin 2048, m ≠ n → msixEntry t m.val = msixEntry s m.val) := by
  refine does_bar4Write (bar4Write_table hc n hi ho v) ⟨rfl, ?_, fun m hm => ?_⟩
  · rw [msixEntry_withEntry_same, he]
  · rw [msixEntry_withEntry_other _ _ _ (fun h => hm (Fin.ext h))]
    rfl

/-- What a write of an unassigned offset of BAR4 does. -/
theorem does_unassigned_bar4 {s : State} {off : BitVec 25} {v : BitVec 64} {dws : Nat} {be : Bool}
    (h : bar4Write (off.toNat % 2 ^ 20) v dws be s = unassigned (linkUsed s) 2 (off.toNat % 2 ^ 20)) :
    Does (.bar0Write ⟨.bar4, off⟩ v dws be) s (fun t => RegsAndLog (linkUsed s) t [] ∧
      (s.logQ[planeCtrl].length < 16 → ∃ e, t.logQ[planeCtrl] = s.logQ[planeCtrl] ++ [e] ∧ e.code = 0x0101 ∧
        e.arg0.toNat = off.toNat % 2 ^ 20)) := by
  refine does_bar4Write h ⟨unassigned_regsAndLog _ _ _, fun hroom => ?_⟩
  exact ⟨_, unassigned_logQ (linkUsed s) 2 _ hroom, rfl, unassignedEntry_arg0 _ 2 (by omega)⟩

theorem does_lateReg {off : BitVec 25} {w : Bool} {s t : State} {P : State → Prop} (h : lateReg off.toNat w s = t) (hP : P t) :
    Does (.lateReg off w) s P :=
  ⟨t, by rw [exec_lateReg, h], hP⟩

/-- Settles O41: BAR0 goes through the fields of a register one by one, BAR4 through the places of its map. -/
theorem hostRegisterAccess : Obligations.HostRegisterAccess := by
  unfold Obligations.HostRegisterAccess
  refine ⟨?bar0, ?bar4⟩
  case bar0 =>
    intro off v s o u hs keys logs errs answered smbNow
    refine ⟨fun hc => ⟨?write, ?two, ?partly, ?late, ?size, ?read, ?lateReg⟩, fun hc => ?unclaimed⟩
    case write =>
      intro ha h4 hwin hne hwide hact
      obtain ⟨t, ht, hframe, hwrote⟩ := bar0Write_plain hc hwin v ha h4 hne hwide hact
      refine ⟨fun x at_ hsmb hnow _ => ?_, fun hapart => ?_⟩
      · obtain ⟨rfl, _, _⟩ := hnow
        exact does_bar0Write ht (afterSmb_wrote hwin hframe hwrote hsmb hne hwide hact)
      · have hsmb : ¬ smbMeets t o := by
          rw [smbMeets_of_regsAndLtr hframe]
          rintro ⟨e, he, hmeets⟩
          exact hapart e he hmeets
        rw [afterSmb_apart (by omega) hsmb] at ht
        exact does_bar0Write ht ⟨regsAndLtr_eq hframe, hwrote.kept, wrote_fields hwrote⟩
    case two =>
      intro ha h8 hlow hhigh hwin hapart hroom
      have hsmb : ¬ smbMeets s o := fun ⟨e, he, hmeets⟩ => hapart e he hmeets
      have ho : o < 2 ^ 25 := off.isLt
      refine does_bar0Write (bar0Write_two_unassigned hc hwin hlow v ha h8 hhigh hsmb)
        ⟨regsAndLog_trans (unassigned_regsAndLog u 0 o) (unassigned_regsAndLog _ 0 (o + 4)), ?_⟩
      exact ⟨_, _, unassigned_twice_logQ u o (o + 4) hroom, rfl, rfl, unassignedEntry_arg0 u 0 ho, unassignedEntry_arg0 _ 0 (by omega)⟩
    case partly =>
      intro h4
      exact does_bar0Write (bar0Write_partial hc v (bar0Sized_one h4)) ⟨logIt_regsAndLog .., logIt_ctrl u _ _ _ _ _⟩
    case late =>
      intro h4 ha
      exact does_bar0Write (bar0Write_late hc v (bar0Sized_one h4) ha) ⟨logIt_regsAndLog .., logIt_ctrl u _ _ _ _ _⟩
    case size =>
      intro dws hz
      refine ⟨does_bar0Write (bar0Write_badSize hc v hz) ⟨bar0Size_regsKept u o, bar0Size_logQ u o, ?_, ?_⟩,
        does_bar0Read (bar0Read_badSize hc hz)
          ⟨regsKept_trans (bar0Size_regsKept u o) (regsKept_of_regs _ rfl rfl), bar0Size_logQ u o, rfl⟩⟩
      · obtain ⟨r, p, q, l, h⟩ := bar0Size_frame u o
        rw [h]
      · rw [rd_bar0Size_ca, rd_linkUsed s _ _ (by decide)]
    case read =>
      intro ha h4 hwin halloc htime reads
      have given : ∀ {n value : Nat} {t : State}, WasRead o n value u t → reads n value t :=
        fun h => ⟨h.frame, h.answer, h.kept, h.cleared⟩
      exact ⟨fun hwide hlatch => does_bar0Read rfl (given (bar0Read_dw hc halloc htime ha hwin h4 hwide hlatch)),
        fun hwide h8 => does_bar0Read rfl (given (bar0Read_wide hc halloc htime ha h8 hwide))⟩
    case lateReg =>
      intro ha
      refine ⟨does_lateReg (lateReg_write hc ha) ⟨logIt_regsAndLog .., logIt_ctrl u _ _ _ _ _⟩,
        does_lateReg (lateReg_read hc ha) ⟨?_, ?_, ?_, ?_⟩⟩
      · exact lateAnswered_cpl u o
      · exact lateAnswered_logQ u o
      · exact lateAnswered_kept u o
      · rw [rd_lateAnswered, rd_linkUsed s _ _ (by decide)]
    case unclaimed =>
      intro dws be
      refine ⟨congrArg _ (bar0Write_unclaimed hc off.toNat v dws be), fun hdown => ?_, fun hup => ?_⟩
      · exact congrArg _ (bar0Read_noLink hc hdown off.toNat dws)
      · exact does_bar0Read (bar0Read_unclaimed hc hup off.toNat dws) ⟨rfl, rfl⟩
  case bar4 =>
    intro off v s hc o u wrote shows
    refine ⟨fun dws be => ?bells, fun n => ?table, fun k hk ho => ?pba, fun dws h4 hbelow => ?below, fun h4 hres => ?reserved,
      fun dws be hbad hres => ?discarded⟩
    case bells =>
      have rings : ∀ {bell : DbWrite → State → State}, bellAt o = some bell → exec (.bar0Write ⟨.bar4, off⟩ v dws be) s =
          .next (bell { value := v.setWidth 32, beFull := be, dws := dws } s) :=
        fun h => congrArg _ (bar4Write_bell hc h v dws be)
      refine ⟨fun r ho => ?_, fun r ho => ?_, fun m ho => ?_, fun ho => ?_, fun n ho => ?_⟩
      · exact rings (ho ▸ bellAt_jobRing r)
      · exact rings (ho ▸ bellAt_completionRing r)
      · exact rings (ho ▸ bellAt_mqHead m)
      · exact rings (ho ▸ bellAt_invalidate)
      · exact rings (ho ▸ bellAt_chunk n)
    case table =>
      intro e
      refine ⟨fun ho => ⟨?_, ?_, ?_⟩, fun ho => ?_, fun ho => ⟨?_, ?_⟩, fun ho => ⟨?_, ?_⟩⟩
      · exact does_bar4Write_table hc (i := 0) (by omega) ho rfl
      · exact shows_of (bar4Read_table hc n (i := 0) (dws := 2) (by omega) ho) (table_two_dws e)
      · exact shows_of (bar4Read_table hc n (i := 0) (dws := 4) (by omega) ho) (table_four_dws e)
      · exact does_bar4Write_table hc (i := 1) (by omega) (by omega) rfl
      · exact does_bar4Write_table hc (i := 2) (by omega) (by omega) (msixPut_data e v)
      · exact shows_of (bar4Read_table hc n (i := 2) (dws := 1) (by omega) (by omega)) (List.append_nil _)
      · exact does_bar4Write_table hc (i := 3) (by omega) (by omega) (msixPut_mask e v)
      · exact shows_of (bar4Read_table hc n (i := 3) (dws := 1) (by omega) (by omega)) (List.append_nil _)
    case pba =>
      refine ⟨shows_of (bar4Read_aligned hc (by omega) 1) ?_, ?_⟩
      · rw [← bar4Word_pba s hk, ← ho]
        exact List.append_nil _
      · rw [exec_bar4Write, bar4Write_dw hc (by omega) (by omega), bar4Put_pba _ hk ho]
    case below =>
      exact congrArg _ (bar4Read_below hc h4 hbelow)
    case reserved =>
      refine does_unassigned_bar4 ((bar4Write_dw hc (by omega) h4 v).trans (bar4Put_reserved u ?_ ?_ _))
      · omega
      · omega
    case discarded =>
      refine does_unassigned_bar4 (bar4Write_discarded hc (by omega) hbad (fun i hi => ⟨inTable_reserved ?_, inPba_reserved ?_⟩) v)
      · omega
      · omega

end Sys2Proof.HostAccess

/-! ## Reads of memory in which no error lies (R258, R276, R314) -/

namespace Sys2Proof.Traffic

open Sys2Proof.Machine Sys2Proof.Laws Sys2Proof.HostAccess

/-! ### Registers that keep their value, field by field -/

/-- The field is none of those in the list. -/
def besides (l : List RegField) (g : RegField) : Bool := decide (g.id < 512) && l.all (fun f => decide (f.id < 512) && f.id != g.id)

/-- Every field reads as before in every unit, but for those in the list. -/
def KeepsBut (l : List RegField) (s t : State) : Prop := ∀ g i, besides l g = true → rd t g i = rd s g i

theorem keepsBut_of_regs (l : List RegField) {s t : State} (hf : t.fuses = s.fuses) (hr : t.regs = s.regs) : KeepsBut l s t :=
  fun g i _ => rd_congr hf hr g i

theorem keepsBut_trans {l : List RegField} {s t u : State} (h : KeepsBut l s t) (h' : KeepsBut l t u) : KeepsBut l s u :=
  fun g i hg => (h' g i hg).trans (h g i hg)

theorem regKey_ne_of_besides {l : List RegField} {f g : RegField} (hg : besides l g = true) (hf : f ∈ l) (i j : Nat) :
    regKey g i ≠ regKey f j := by
  simp only [besides, Bool.and_eq_true, decide_eq_true_eq, List.all_eq_true, bne_iff_ne] at hg
  obtain ⟨hlt, hne⟩ := hg
  exact regKey_ne_of_id f g j i (hne f hf).1 hlt (fun h => (hne f hf).2 h.symm)

theorem keepsBut_wr {l : List RegField} (s : State) {f : RegField} (hf : f ∈ l) (i v : Nat) : KeepsBut l s (wr s f i v) :=
  fun g j hg => rd_wr_other s f g i j v (regKey_ne_of_besides hg hf j i)

theorem keepsBut_bump {l : List RegField} (s : State) {f : RegField} (hf : f ∈ l) (i n : Nat) : KeepsBut l s (bump s f i n) :=
  fun g j hg => rd_bump_other s f g i j n (regKey_ne_of_besides hg hf j i)

/-! ### Steps that follow one another -/

/-- A relation that every step of a fold keeps to, the fold keeps to. -/
theorem foldl_steps {α : Type} {R : State → State → Prop} (hrefl : ∀ s, R s s) (htrans : ∀ s t u, R s t → R t u → R s u)
    {f : State → α → State} (h : ∀ s a, R s (f s a)) (s : State) (l : List α) : R s (l.foldl f s) := by
  induction l generalizing s with
  | nil => exact hrefl s
  | cons a l ih => exact htrans s (f s a) _ (h s a) (ih (f s a))

/-! ### What an access counts -/

/-- The registers that count the beats of an access and say what a DRAM channel does for it. -/
def beatFields : List RegField :=
  [R.CMEM_BEATS_RD, R.CMEM_BEATS_WR, R.BAG_BEATS_RD, R.BAG_BEATS_WR, R.DRC_CH_STATUS_SR, R.DRC_CH_SR_US, R.DRC_CH_RETRAINS,
    R.DRC_CH_PAGE_HITS, R.DRC_CH_PAGE_MISSES]

/-- Nothing has changed but the registers of beats, the DRAM channels and the count of free values. -/
def Counted (s t : State) : Prop :=
  t = { s with regs := t.regs, dramChs := t.dramChs, freeCtr := t.freeCtr } ∧ KeepsBut beatFields s t

theorem counted_refl (s : State) : Counted s s := ⟨rfl, fun _ _ _ => rfl⟩

theorem counted_trans {s t u : State} (h : Counted s t) (h' : Counted t u) : Counted s u := by
  obtain ⟨ht, hk⟩ := h
  obtain ⟨hu, hk'⟩ := h'
  refine ⟨?_, keepsBut_trans hk hk'⟩
  rw [hu, ht]

theorem counted_foldl {α : Type} {f : State → α → State} (h : ∀ s a, Counted s (f s a)) (s : State) (l : List α) :
    Counted s (l.foldl f s) :=
  foldl_steps counted_refl (fun _ _ _ => counted_trans) h s l

theorem counted_wr (s : State) {f : RegField} (hf : f ∈ beatFields) (i v : Nat) : Counted s (wr s f i v) :=
  ⟨rfl, keepsBut_wr s hf i v⟩

theorem counted_bump (s : State) {f : RegField} (hf : f ∈ beatFields) (i n : Nat) : Counted s (bump s f i n) := by
  refine ⟨?_, keepsBut_bump s hf i n⟩
  rcases bump_cases s f i n with ⟨v, h⟩ | ⟨v, h⟩ <;> rw [h] <;> rfl

theorem counted_modDram (s : State) (k : Fin 16) (f : DramCh → DramCh) : Counted s (modDram s k f) :=
  ⟨rfl, keepsBut_of_regs _ rfl rfl⟩

theorem counted_oscCheck (s : State) (k : Fin 16) (drifted : Bool) : Counted s (oscCheck s k drifted) := by
  unfold oscCheck
  split
  · exact counted_trans (counted_modDram s k _) (counted_bump _ (by simp [beatFields]) _ _)
  · exact counted_modDram s k _

theorem counted_wakeDram (s : State) (k : Fin 16) : Counted s (wakeDram s k) := by
  have woken : ∀ v w, Counted s (bump (wrb s R.DRC_CH_STATUS_SR k.val v) R.DRC_CH_SR_US k.val w) := fun v w =>
    counted_trans (counted_wr s (by simp [beatFields]) _ _) (counted_bump _ (by simp [beatFields]) _ _)
  have drawn : ∀ u : State, Counted u (drawFree u).1 := fun u => ⟨rfl, keepsBut_of_regs _ rfl rfl⟩
  unfold wakeDram
  split
  · dsimp only
    split
    · exact counted_trans (woken _ _) (counted_trans (drawn _) (counted_oscCheck _ k _))
    · exact woken _ _
  · exact counted_refl s

theorem counted_dramBeat (s : State) (a : Nat) (stay : Bool) : Counted s (dramBeat s a stay) := by
  have hit : ∀ (u : State) (b : Bool) (i : Nat),
      Counted u (bump u (if b then R.DRC_CH_PAGE_HITS else R.DRC_CH_PAGE_MISSES) i 1) := by
    intro u b i
    cases b
    · exact counted_bump u (by simp [beatFields]) i 1
    · exact counted_bump u (by simp [beatFields]) i 1
  unfold dramBeat
  exact counted_trans (counted_wakeDram s _) (counted_trans (hit _ _ _) (counted_modDram _ _ _))

theorem counted_beats (s : State) (req a n : Nat) (write : Bool) : Counted s (beats s req a n write) := by
  unfold beats
  dsimp only
  split
  · cases write
    · exact counted_bump s (by simp [beatFields]) _ _
    · exact counted_bump s (by simp [beatFields]) _ _
  · cases write
    · exact counted_bump s (by simp [beatFields]) _ _
    · exact counted_bump s (by simp [beatFields]) _ _
  · exact counted_foldl (fun u j => counted_dramBeat u _ _) s _
  · exact counted_refl s

/-! ### Reads -/

/-- Where errors lie in memory is a matter of the check bits and of where DRAM ends. -/
theorem badWords_congr {s t : State} (he : t.ecc = s.ecc) (hw : rd t R.DRC_WINDOW 0 = rd s R.DRC_WINDOW 0) (a n : Nat) :
    badWords t a n = badWords s a n := by
  unfold badWords eccSpan
  rw [he, hw]

theorem counted_badWords {s t : State} (h : Counted s t) (a n : Nat) : badWords t a n = badWords s a n := by
  obtain ⟨ht, hk⟩ := h
  exact badWords_congr (by rw [ht]) (hk _ _ rfl) a n

/-- A read that meets no error counts its beats and returns what memory holds. -/
theorem memRead_clean {s : State} {a n : Nat} (req : Nat) (h : badWords s a n = []) :
    memRead s req a n = { s := beats s req a n false, bytes := peek s a n, poison := false } := by
  have counted := counted_beats s req a n false
  have hb : badWords (beats s req a n false) a n = [] := (counted_badWords counted a n).trans h
  have hm : (beats s req a n false).mem = s.mem := by rw [counted.1]
  simp only [memRead, hb, List.foldl_nil, ite_self, poisonedAt, List.any_nil, Bool.and_false, peek, hm]

/-- A read of the core's own memory that meets no error counts in one register of its own memories (R276). -/
theorem memRead_own {s : State} {n : Fin 16} {a len : Nat} (req : Nat) (ho : ownMem s n a len = true) (h : badWords s a len = []) :
    ∃ f ∈ [(R.CMEM_BEATS_RD, n.val), (R.BAG_BEATS_RD, (clusterOf n).val)], ∃ v,
      memRead s req a len = { s := wr s f.1 f.2 v, bytes := peek s a len, poison := false } := by
  rw [memRead_clean req h]
  simp only [ownMem, Bool.and_eq_true] at ho
  obtain ⟨-, ho⟩ := ho
  unfold beats
  cases hr : regionOf s a with
  | core m off =>
    rw [hr] at ho
    obtain rfl : m = n := by simpa using ho
    exact ⟨_, List.mem_cons_self, _, rfl⟩
  | bag c off =>
    rw [hr] at ho
    obtain rfl : c = clusterOf n := by simpa using ho
    exact ⟨_, List.mem_cons_of_mem _ List.mem_cons_self, _, rfl⟩
  | dram => simp [hr] at ho
  | regs off => simp [hr] at ho
  | host addr => simp [hr] at ho
  | unmapped => simp [hr] at ho

end Sys2Proof.Traffic

/-! ## O13: how the waits of a core end (R179, R198 to R203) -/

namespace Sys2Proof.Waits

open Sys2Proof.Machine Sys2Proof.Laws Sys2Proof.HostAccess Sys2Proof.Traffic

/-! ### Completing the instruction that waits -/

/-- The end of a wait completes the instruction of its core (R179). -/
theorem endWait_completes (s : State) (n : Fin 16) :
    Completes n s (endWait s n) { s.cores[n] with mode := .running } [] :=
  retire_completes s n _ (fun _ => rfl)

theorem countReached_iff (c t : W32) : countReached c t = true ↔ 0 ≤ (c - t).toInt := by
  simp [countReached]

theorem dmawSatisfied_wait {s : State} {n : Fin 16} {k : Fin 64} {target : W32} (hm : s.cores[n].mode = .waitDma k target) :
    dmawSatisfied n s = if reached s k target then endWait s n else s := by
  simp only [dmawSatisfied, hm]

theorem fenceDone_wait {s : State} {n : Fin 16} {m : BitVec 4} (hm : s.cores[n].mode = .waitFence m) :
    fenceDone n s = if fenced s n m then endWait s n else s := by
  simp only [fenceDone, hm]

/-- A fence of scopes TENSOR, DMA and POST, scope by scope (R200). -/
theorem fenced_iff (s : State) (n : Fin 16) (m : BitVec 4) :
    fenced s n m = true ↔
      (m.getLsbD 1 = true → s.cores[n].tq = [] ∧ s.cores[n].cur = none) ∧
      (m.getLsbD 2 = true → ∀ e ∈ s.cores[n].chains,
        0 ≤ (BitVec.ofNat 32 (rd s R.DMA_CH_COUNT e.1.val) - e.2).toInt → unflushed s e.1 = false) ∧
      (m.getLsbD 3 = true → s.cores[n].posts = 0) := by
  have tensor : tensorFenced s n = true ↔ s.cores[n].tq = [] ∧ s.cores[n].cur = none := by
    simp [tensorFenced]
  have dma : dmaFenced s n = true ↔ ∀ e ∈ s.cores[n].chains,
      0 ≤ (BitVec.ofNat 32 (rd s R.DMA_CH_COUNT e.1.val) - e.2).toInt → unflushed s e.1 = false := by
    simp only [dmaFenced, List.all_eq_true, Bool.or_eq_true, Bool.not_eq_true', ← countReached_iff, reached, 
      ← Bool.not_eq_true, imp_iff_not_or]
  have scope : ∀ b x : Bool, (!b || x) = true ↔ (b = true → x = true) := by decide
  simp only [fenced, Bool.and_eq_true, scope, tensor, dma, beq_iff_eq, and_assoc]

/-! ### Semaphores -/

theorem firstWaiter_none {s : State} {q : Fin 4} {k : Fin 64} (h : ∀ x ∈ s.clusters[q].waiters, x.sem ≠ k) :
    firstWaiter s q k = none := by
  simpa [firstWaiter] using h

theorem firstWaiter_split {s : State} {q : Fin 4} {k : Fin 64} {before after : List SemWaiter} {x : SemWaiter}
    (hw : s.clusters[q].waiters = before ++ x :: after) (hb : ∀ y ∈ before, y.sem ≠ k) (hx : x.sem = k) :
    firstWaiter s q k = some x := by
  have : before.find? (fun w => w.sem == k) = none := by simpa using hb
  rw [firstWaiter, hw, List.find?_append, this]
  simp [hx]

theorem semwaitGrant_first {s : State} {q : Fin 4} {k : Fin 64} {x : SemWaiter} (h : firstWaiter s q k = some x) :
    semwaitGrant q k s = if x.n ≤ semCount s q k then serveWaiter s q x else s := by
  simp only [semwaitGrant, h]


section
variable (s : State) (n : Fin 16) (x : SemWaiter)

/-- Serving a waiter: its core goes on, the semaphore gives its amount and no wait of the core is left. -/
theorem serveWaiter_frame (hn : x.core = n) :
    let t := serveWaiter s (clusterOf n) x
    t = { s with
      cores := s.cores.set n { s.cores[n] with mode := .running, pc := s.cores[n].pc + 8 }
      clusters := s.clusters.set (clusterOf n) { s.clusters[clusterOf n] with
        sems := s.clusters[clusterOf n].sems.set x.sem (s.clusters[clusterOf n].sems[x.sem] - x.n)
        waiters := s.clusters[clusterOf n].waiters.filter (fun y => y.core ≠ n) }
      mqs := t.mqs, regs := t.regs } := by
  subst hn
  simp [serveWaiter, endWait, retire_eq, modCore, leaveQueue, modCluster, noteSemWait, raiseTo, wr, setSem, semCount]

/-- A record that a program's POST does not wait for stays with the writer (R179). -/
theorem serveWaiter_records (q : Fin 4) (m : Fin 16) (e : Record) (he : e ∈ s.mqs[m].waiting)
    (hk : e.core ≠ some x.core ∨ e.bytes ≠ []) : e ∈ (serveWaiter s q x).mqs[m].waiting := by
  have : (serveWaiter s q x).mqs[m].waiting =
      s.mqs[m].waiting.filter (fun e => !(e.core == some x.core && e.bytes.isEmpty)) := by
    simp [serveWaiter, endWait, retire_eq, leaveQueue, noteSemWait, raiseTo, setSem]
  rw [this, List.mem_filter]
  refine ⟨he, ?_⟩
  simpa [imp_iff_not_or] using hk

/-- Of the registers, serving a waiter counts its wait and its instruction. -/
theorem serveWaiter_regs (q : Fin 4) : ∃ u : State,
    u.fuses = s.fuses ∧ u.regs = (noteSemWait s x.core).regs ∧
      serveWaiter s q x = wr u R.CORE_INSNS x.core.val (rd s R.CORE_INSNS x.core.val + 1) := by
  refine ⟨_, ?_, ?_, (retire_eq _ _ _).trans (congrArg _ (congrArg (· + 1) ?_))⟩
  · rfl
  · rfl
  · exact (rd_wr_other _ _ _ _ _ _ (regKey_ne_of_id _ _ _ _ (by decide) (by decide) (by decide))).trans (rd_congr rfl rfl _ _)

theorem noteSemWait_regsKept : RegsKept s (noteSemWait s n) [regKey R.CORE_SEM_WAIT_MAX n.val] :=
  regsKept_wr s _ (List.mem_singleton.mpr rfl)

theorem serveWaiter_regsKept (q : Fin 4) (hn : x.core = n) :
    RegsKept s (serveWaiter s q x) [regKey R.CORE_INSNS n.val, regKey R.CORE_SEM_WAIT_MAX n.val] := by
  subst hn
  obtain ⟨u, hf, hr, h⟩ := serveWaiter_regs s x q
  rw [h]
  have noted : RegsKept s u [regKey R.CORE_INSNS x.core.val, regKey R.CORE_SEM_WAIT_MAX x.core.val] :=
    regsKept_trans (regsKept_mono (noteSemWait_regsKept s x.core) (by simp)) (regsKept_of_regs _ hf hr)
  exact regsKept_then_wr noted (by simp)

theorem serveWaiter_countsInsn (q : Fin 4) (hn : x.core = n) : CountsInsn s (serveWaiter s q x) n := by
  subst hn
  obtain ⟨u, -, -, h⟩ := serveWaiter_regs s x q
  rw [h]
  exact rd_wr_same _ _ _ _

theorem rd_serveWaiter_waitMax (q : Fin 4) (hn : x.core = n) :
    rd (serveWaiter s q x) R.CORE_SEM_WAIT_MAX n.val =
      max (rd s R.CORE_SEM_WAIT_MAX n.val) (min ((elapsed s - s.cores[n].waitFrom.toNat) / 1000) (2 ^ 32 - 1)) % 2 ^ 32 := by
  subst hn
  obtain ⟨u, hf, hr, h⟩ := serveWaiter_regs s x q
  rw [h, rd_wr_other _ _ _ _ _ _ (regKey_ne_of_id _ _ _ _ (by decide) (by decide) (by decide)), 
    rd_congr (s := noteSemWait s x.core) hf hr]
  exact rd_wr_same _ _ _ _

end

/-! ### Posts -/

/-- A record of a program. -/
def coreRecord (n : Fin 16) (bs : List Byte) : Record := { core := some n, bytes := bs, count := 1, seq := 0 }

/-- The records of a POST, as they lie in memory from `a` on. -/
def postRecords (s : State) (n : Fin 16) (a count : Nat) : List Record :=
  (List.range count).map (fun i => coreRecord n (peek s (a + 64 * i) 64))

/-- Where the records of the POST that a core waits in lie. -/
def postAt (c : Core) : Nat := (aGet c (c.insn.extractLsb' 46 5)).toNat

/-- A part of what was read is what memory holds there. -/
theorem sliceOf_peek (s : State) {a n i len : Nat} (h : i + len ≤ n) : sliceOf (peek s a n) i len = peek s (a + i) len := by
  refine List.map_congr_left fun j hj => ?_
  have : i + j < n := by
    have := List.mem_range.mp hj
    omega
  simp [peek, storeGetMany, this, Nat.add_assoc]

theorem postRetire_full {s : State} {n m : Fin 16} {count ahead : Nat} (hm : s.cores[n].mode = .waitPost m count)
    (ha : recordsAhead n s.mqs[m].waiting = some ahead) (h : mqSize s m < mqUsed s m + ahead + count) : postRetire n s = s := by
  simp only [postRetire, hm, ha, if_pos h]

/-- Where there is room, the records take the place of the POST in the writer and its instruction completes. -/
theorem postRetire_room {s : State} {n m : Fin 16} {count ahead : Nat} (hm : s.cores[n].mode = .waitPost m count)
    (ha : recordsAhead n s.mqs[m].waiting = some ahead) (h : mqUsed s m + ahead + count ≤ mqSize s m)
    (hb : badWords s (postAt s.cores[n]) (64 * count) = []) :
    postRetire n s = endWait (modCore
      (modMq (memRead s n.val (postAt s.cores[n]) (64 * count)).s m
        (fun x => { x with waiting := fillPost n (postRecords s n (postAt s.cores[n]) count) x.waiting }))
      n (fun c => { c with posts := c.posts + count })) n := by
  have records : (List.range count).map (fun i => coreRecord n
      (sliceOf (memRead s n.val (postAt s.cores[n]) (64 * count)).bytes (64 * i) 64)) =
      postRecords s n (postAt s.cores[n]) count := by
    refine List.map_congr_left fun i hi => ?_
    have : 64 * i + 64 ≤ 64 * count := by
      have := List.mem_range.mp hi
      omega
    rw [memRead_clean _ hb]
    exact congrArg (coreRecord n) (sliceOf_peek s this)
  simp only [postRetire, hm, ha, if_neg (Nat.not_lt.mpr h), ← records]
  rfl

theorem postRetire_completes {s : State} {n m : Fin 16} {count ahead : Nat} (hm : s.cores[n].mode = .waitPost m count)
    (ha : recordsAhead n s.mqs[m].waiting = some ahead) (h : mqUsed s m + ahead + count ≤ mqSize s m)
    (ho : ownMem s n (postAt s.cores[n]) (64 * count) = true) (hb : badWords s (postAt s.cores[n]) (64 * count) = []) :
    let t := postRetire n s
    t = { s with
      cores := s.cores.set n { s.cores[n] with mode := .running, posts := s.cores[n].posts + count, pc := s.cores[n].pc + 8 }
      mqs := s.mqs.set m { s.mqs[m] with
        waiting := fillPost n (postRecords s n (postAt s.cores[n]) count) s.mqs[m].waiting }
      regs := t.regs } ∧
    RegsKept s t (regKey R.CORE_INSNS n.val :: readBeatKeys n) ∧ CountsInsn s t n := by
  obtain ⟨f, hf, v, hr⟩ := memRead_own n.val ho hb
  have key : regKey f.1 f.2 ∈ readBeatKeys n ∧ regKey R.CORE_INSNS n.val ≠ regKey f.1 f.2 := by
    simp only [List.mem_cons, List.not_mem_nil, or_false] at hf
    rcases hf with rfl | rfl
    · exact ⟨List.mem_cons_self, regKey_ne_of_id R.CMEM_BEATS_RD _ _ _ (by decide) (by decide) (by decide)⟩
    · exact ⟨List.mem_cons_of_mem _ List.mem_cons_self, regKey_ne_of_id R.BAG_BEATS_RD _ _ _ (by decide) (by decide) (by decide)⟩
  obtain ⟨listed, apart⟩ := key
  rw [postRetire_room hm ha h hb, hr]
  intro t
  have counted : t = wr { wr s f.1 f.2 v with cores := t.cores, mqs := t.mqs } R.CORE_INSNS n.val (rd s R.CORE_INSNS n.val + 1) := by
    rw [← rd_wr_other s f.1 R.CORE_INSNS f.2 n.val v apart]
    rfl
  refine ⟨?_, ?_, ?_⟩
  · simp [t, endWait, retire_eq, modCore, modMq, wr]
  · rw [counted]
    refine regsKept_then_wr (regsKept_trans (regsKept_wr s v (List.mem_cons_of_mem _ listed)) ?_) List.mem_cons_self
    exact regsKept_of_regs _ rfl rfl
  · rw [counted]
    exact rd_wr_same _ _ _ _

/-! ### Time passes -/

/-- What no step of a fold changes, the fold leaves. -/
theorem foldl_keeps {α β : Type} (view : State → β) {f : State → α → State} (h : ∀ s a, view (f s a) = view s) (s : State)
    (l : List α) : view (l.foldl f s) = view s := by
  induction l generalizing s with
  | nil => rfl
  | cons a l ih => exact (ih (f s a)).trans (h s a)

theorem poolCycles_cores (cyc : Nat) (s : State) (p : Fin 8) : (poolCycles cyc s p).cores = s.cores := by
  simp only [poolCycles, apply_ite State.cores, bump_cores, ite_self]

theorem throttleCycles_cores (cyc : Nat) (s : State) (n : Fin 16) : (throttleCycles cyc s n).cores = s.cores := by
  simp only [throttleCycles, apply_ite State.cores, bump_cores, ite_self]

theorem advance_cores (s : State) (ns : Nat) : (advance s ns).cores = s.cores := by
  unfold advance
  cases s.clock.shadow with
  | none => rfl
  | some t =>
    simp only
    split <;> rfl

/-- The c-cycles in `ns` nanoseconds from now. -/
def cyclesIn (s : State) (ns : Nat) : Nat := (s.clock.cfrac + ns * rd s R.MC_CLK_STATUS_CORE_MHZ 0) / 1000

/-- Time that passes is counted in the cores that count cycles (R187). -/
theorem passTime_cores (s : State) (ns : Nat) : (passTime s ns).cores =
    s.cores.map (fun c => if countsCycles c then { c with cyc := c.cyc + BitVec.ofNat 64 (cyclesIn s ns) } else c) := by
  have noted : ∀ s p, (notePool s p).cores = s.cores := fun _ _ => rfl
  simp only [passTime, foldl_keeps State.cores noted, advance_cores, foldl_keeps State.cores (throttleCycles_cores _),
    foldl_keeps State.cores (poolCycles_cores _)]
  rfl

theorem passTime_core (s : State) (ns : Nat) (n : Fin 16) : ∃ cyc, (passTime s ns).cores[n] = { s.cores[n] with cyc := cyc } := by
  have cycled : (passTime s ns).cores[n] =
      if countsCycles s.cores[n] then { s.cores[n] with cyc := s.cores[n].cyc + BitVec.ofNat 64 (cyclesIn s ns) } else s.cores[n] := by
    simp [passTime_cores]
  rw [cycled]
  split
  · exact ⟨_, rfl⟩
  · exact ⟨s.cores[n].cyc, rfl⟩

/-- The passing of time moves no core but for the cycles of its job. -/
theorem passTo_core (s : State) (t : Nat) (n : Fin 16) : ∃ cyc, (passTo s t).cores[n] = { s.cores[n] with cyc := cyc } := by
  unfold passTo
  split
  · exact ⟨s.cores[n].cyc, rfl⟩
  · exact passTime_core s _ n

theorem passTo_mode (s : State) (t : Nat) (n : Fin 16) : (passTo s t).cores[n].mode = s.cores[n].mode := by
  obtain ⟨cyc, h⟩ := passTo_core s t n
  rw [h]

theorem passTo_insn (s : State) (t : Nat) (n : Fin 16) : (passTo s t).cores[n].insn = s.cores[n].insn := by
  obtain ⟨cyc, h⟩ := passTo_core s t n
  rw [h]

/-! ### Timeouts (R203) -/

/-- The state in which the wait of core `n` has reached CLU_SEM_TIMEOUT. -/
def expired (s : State) (n : Fin 16) : State := passTo s (s.cores[n].waitSince.toNat + semTimeoutNs s n)

/-- What a trap record shows of a wait that has expired: the instruction that waited, and what it waited for. -/
def waitInfo (c : Core) (detail : Nat) : TrapInfo := { insn := c.insn.toNat, detail := detail }

section
variable {s : State} {n : Fin 16}

theorem expired_mode : (expired s n).cores[n].mode = s.cores[n].mode := passTo_mode s _ n

theorem expired_insn : (expired s n).cores[n].insn = s.cores[n].insn := passTo_insn s _ n

theorem dmaWaitTimeout_wait {k : Fin 64} {target : W32} (hm : s.cores[n].mode = .waitDma k target) :
    dmaWaitTimeout n s = if reached (expired s n) k target then endWait (expired s n) n
      else trap (expired s n) n .dmaWaitTimeout (waitInfo s.cores[n] k.val) := by
  simp only [dmaWaitTimeout, hm, trapWaiting, waitInfo, ← expired_insn (s := s) (n := n)]
  rfl

theorem semTimeout_served {k : Fin 64} {amount : BitVec 16} {x : SemWaiter} (hm : s.cores[n].mode = .waitSem k amount)
    (hx : firstWaiter (expired s n) (clusterOf n) k = some x) (hn : x.core = n)
    (ha : amount ≤ semCount (expired s n) (clusterOf n) k) : semTimeout n s = serveWaiter (expired s n) (clusterOf n) x := by
  simp only [semTimeout, hm]
  simp only [expired] at hx ha
  simp only [hx, hn, ha, and_self, if_true]
  rfl

theorem semTimeout_expires {k : Fin 64} {amount : BitVec 16} (hm : s.cores[n].mode = .waitSem k amount)
    (h : ∀ x, firstWaiter (expired s n) (clusterOf n) k = some x → x.core ≠ n ∨ semCount (expired s n) (clusterOf n) k < amount) :
    semTimeout n s = trap (noteSemWait (expired s n) n) n .semTimeout (waitInfo s.cores[n] k.val) := by
  have trapped : trapWaiting (noteSemWait (expired s n) n) n .semTimeout k.val =
      trap (noteSemWait (expired s n) n) n .semTimeout (waitInfo s.cores[n] k.val) := by
    simp only [trapWaiting, waitInfo, ← expired_insn (s := s) (n := n)]
    rfl
  rw [← trapped]
  simp only [semTimeout, hm]
  cases hx : firstWaiter (expired s n) (clusterOf n) k with
  | none =>
    simp only [expired] at hx
    simp only [hx]
    rfl
  | some x =>
    have refused : ¬ (x.core = n ∧ amount ≤ semCount (expired s n) (clusterOf n) k) := by
      rintro ⟨hn, ha⟩
      rcases h x hx with hne | hlt
      · exact hne hn
      · exact absurd hlt (by simpa [BitVec.not_lt] using ha)
    simp only [expired] at hx refused
    simp only [hx, if_neg refused]
    rfl

end

/-! ### The obligation -/

theorem coreDoes_endWait {i : Instr} {s : State} {n : Fin 16} (h : exec i s = .next (endWait s n)) :
    CoreDoes i n s { s.cores[n] with mode := .running } :=
  ⟨_, h, endWait_completes s n⟩

/-- Settles O13: each wait either goes on or ends as its condition says, wait by wait. -/
theorem howWaitsEnd : Obligations.HowWaitsEnd := by
  refine ⟨fun n s => ⟨?dma, ?fence, ?unclaimed, ?granted⟩, ?post, fun n s => ⟨?dmaTimeout, ?semTimeout⟩⟩
  case dma =>
    intro k target hm
    have answer := dmawSatisfied_wait hm
    refine ⟨fun h => coreDoes_endWait ?_, fun h => congrArg Host.Outcome.next ?_⟩
    · exact congrArg Host.Outcome.next (answer.trans (if_pos ((countReached_iff _ _).mpr h)))
    · exact answer.trans (if_neg fun hr => absurd ((countReached_iff _ _).mp hr) (Int.not_le.mpr h))
  case fence =>
    intro m hm met
    have answer := fenceDone_wait hm
    refine ⟨fun h => coreDoes_endWait ?_, fun h => congrArg Host.Outcome.next ?_⟩
    · exact congrArg Host.Outcome.next (answer.trans (if_pos ((fenced_iff s n m).mpr h)))
    · exact answer.trans (if_neg fun hf => h ((fenced_iff s n m).mp hf))
  case unclaimed =>
    intro q k h
    refine congrArg Host.Outcome.next ?_
    simp only [semwaitGrant, firstWaiter_none h]
  case granted =>
    rintro q k before x after hw hb hx hn rfl
    have answer := semwaitGrant_first (firstWaiter_split hw hb hx)
    refine ⟨fun h => congrArg Host.Outcome.next (answer.trans (if_neg ?_)),
      fun h => ⟨_, congrArg Host.Outcome.next (answer.trans (if_pos ?_)), ?_⟩⟩
    · exact BitVec.not_le.mpr h
    · exact h
    · subst hx
      refine ⟨serveWaiter_frame s n x hn, fun m e he hk => ?_, serveWaiter_regsKept s n x _ hn, serveWaiter_countsInsn s n x _ hn,
        rd_serveWaiter_waitMax s n x _ hn⟩
      exact serveWaiter_records s x _ m e he (by rwa [hn])
  case post =>
    intro n m count ahead s hm c a recs ha
    exact ⟨fun h => congrArg Host.Outcome.next (postRetire_full hm ha h), fun h ho hb => ⟨_, rfl, postRetire_completes hm ha h ho hb⟩⟩
  case dmaTimeout =>
    intro k target hm
    have answer := dmaWaitTimeout_wait hm
    refine ⟨fun h => congrArg Host.Outcome.next ?_, fun h => congrArg Host.Outcome.next ?_⟩
    · exact (answer.trans (if_pos h)).trans ((dmawSatisfied_wait (expired_mode.trans hm)).trans (if_pos h)).symm
    · exact answer.trans (if_neg (Bool.eq_false_iff.mp h))
  case semTimeout =>
    intro k amount hm
    refine ⟨fun x hx hn hxa ha => congrArg Host.Outcome.next ?_,
      fun h => ⟨_, congrArg Host.Outcome.next (semTimeout_expires hm h), _, rfl, rfl, noteSemWait_regsKept _ n⟩⟩
    rw [semTimeout_served hm hx hn ha]
    exact ((semwaitGrant_first hx).trans (if_pos (hxa ▸ ha))).symm

end Sys2Proof.Waits

/-! ## O16: completion entries and metadata records (R73, R76 to R78) -/

namespace Sys2Proof.Entries

open Sys2Proof.Machine Sys2Proof.Laws Sys2Proof.HostAccess

/-! ### What is common to entries and records -/

theorem rdb_iff (s : State) (f : RegField) (i : Nat) : rdb s f i = true ↔ rd s f i ≠ 0 := by
  simp [rdb]

/-- A write to host memory that counts in a tail: the link is used, the bytes lie at the address, the TLPs stand in
`posted`. -/
def placed (s : State) (addr : Nat) (bs : List Byte) (f : RegField) (i : Nat) : State :=
  bump (sendWrite s addr bs false) f i 1

section
variable (s : State) (addr : Nat) (bs : List Byte) {f : RegField} (i : Nat)

theorem placed_eq (hw : f.atMax = .wraps) :
    placed s addr bs f i = { s with
      hostMem := storeSetMany 0 s.hostMem addr bs, posted := splitWrite (maxPayload s) false bs.length addr bs
      regs := (placed s addr bs f i).regs, linkAt := elapsedW s } := by
  simp [placed, bump, hw, sendWrite, linkUsed, hostWrite, wr]

theorem placed_regsKept : RegsKept s (placed s addr bs f i) [regKey f i, linkKey] := by
  have sent : RegsKept s (sendWrite s addr bs false) [regKey f i, linkKey] :=
    regsKept_trans (regsKept_mono (linkUsed_regsKept s) (by simp)) (regsKept_of_regs _ rfl rfl)
  exact regsKept_trans sent (regsKept_bump _ 1 (by simp))

theorem rd_placed (hw : f.atMax = .wraps) (hf : f.width = 32) (hl : regKey f i ≠ linkKey) :
    rd (placed s addr bs f i) f i = (rd s f i + 1) % 2 ^ 32 := by
  rw [placed, rd_bump_wraps _ _ _ _ hw, hf]
  have : rd (sendWrite s addr bs false) f i = rd s f i := (rd_congr rfl rfl f i).trans (rd_linkUsed s f i hl)
  rw [this]

end

/-- The vector is pended where the entry is signalled. -/
def signalled (b : Bool) (v : Nat) (s : State) : State := if b then raiseVector s v else s

theorem rd_signalled (b : Bool) (v : Nat) (s : State) (f : RegField) (i : Nat) : rd (signalled b v s) f i = rd s f i := by
  cases b <;> rfl

theorem signalled_eq (b : Bool) (v : Nat) (s : State) :
    signalled b v s = { s with pba := if b then (raiseVector s v).pba else s.pba } := by
  cases b <;> rfl

/-- An LTR message that follows the write of an entry uses the link in the same moment. -/
theorem ltrUpdate_written {u w : State} (hw : w = { u with regs := w.regs }) (hu : u.linkAt = elapsedW u) :
    ltrUpdate w = { u with regs := (ltrUpdate w).regs, ltr := (ltrUpdate w).ltr } :=
  regsAndLtr_eq (regsAndLtr_ltrUpdate ⟨w.regs, u.ltr, hw⟩ hu)

theorem ltrUpdate_regsKept_of {s w : State} {k : Nat} (h : RegsKept s w [k, linkKey]) : RegsKept s (ltrUpdate w) [k, linkKey] :=
  regsKept_trans h (regsKept_mono (ltrUpdate_regsKept w) (by simp))

theorem rd_ltrUpdate (s : State) {f : RegField} {i : Nat} (h : regKey f i ≠ linkKey) : rd (ltrUpdate s) f i = rd s f i :=
  ltrUpdate_regsKept s f i (by simpa using h)

/-! ### Completion entries -/

/-- The entry of a completion ring counts towards a signal (R78). -/
def ringSignals (s : State) (r : Fin 31) : Bool :=
  rdb s R.CR_IRQ_EN r.val && s.rings[r].unsignalled + 1 ≥ countThr s R.CR_COUNT_THR r.val

/-- Where the next entry of a completion ring goes. -/
def entryAt (s : State) (r : Fin 31) : Nat := hostBase s R.CR_BASE r.val + rd s R.CR_TAIL r.val % crSize s r.val * 16

/-- A completion ring after its oldest entry has been written. -/
def ringAfter (s : State) (r : Fin 31) (rest : List CplEntry) : RingSt :=
  { s.rings[r] with waiting := rest, unsignalled := if ringSignals s r then 0 else s.rings[r].unsignalled + 1
                    firstAt := if s.rings[r].unsignalled + 1 = 1 then elapsedW s else s.rings[r].firstAt }

section
variable {s : State} {r : Fin 31} {e : CplEntry} {rest : List CplEntry}

theorem completionWrite_held (hw : s.rings[r].waiting = e :: rest) (h : crFull s r.val = true ∨ rd s R.CR_EN r.val = 0) :
    completionWrite r s = s := by
  have : (!rdb s R.CR_EN r.val || crFull s r.val) = true := by
    rcases h with h | h
    · simp [h]
    · simp [rdb, h]
  simp only [completionWrite, hw, this, if_true]

theorem completionWrite_written (hw : s.rings[r].waiting = e :: rest) (hf : crFull s r.val = false) (he : rd s R.CR_EN r.val ≠ 0) :
    completionWrite r s = ltrUpdate (signalled (ringSignals s r) (rd s R.CR_VECTOR r.val)
      (modRing (placed s (entryAt s r) (completionBytes e (phaseBit (rd s R.CR_TAIL r.val) (crSize s r.val))) R.CR_TAIL r.val) r
        (fun _ => ringAfter s r rest))) := by
  have : (!rdb s R.CR_EN r.val || crFull s r.val) = false := by
    simp [hf, rdb, he]
  have vector : ∀ addr bs x, rd (modRing (placed s addr bs R.CR_TAIL r.val) r x) R.CR_VECTOR r.val = rd s R.CR_VECTOR r.val := by
    intro addr bs x
    rw [rd_modRing, placed_regsKept s addr bs r.val]
    simpa using ⟨regKey_ne_of_id R.CR_TAIL _ _ _ (by decide) (by decide) (by decide),
      regKey_ne_of_id R.HIF_LINK_STATUS_PM _ _ _ (by decide) (by decide) (by decide)⟩
  simp only [completionWrite, hw, this, Bool.false_eq_true, if_false, signalled, ← vector (entryAt s r)
    (completionBytes e (phaseBit (rd s R.CR_TAIL r.val) (crSize s r.val))) (fun _ => ringAfter s r rest)]
  rfl

/-- The state but for its registers and the LTR state once the oldest entry of a ring has been written. -/
def ringWritten (s : State) (r : Fin 31) (e : CplEntry) (rest : List CplEntry) : State :=
  let bs := completionBytes e (phaseBit (rd s R.CR_TAIL r.val) (crSize s r.val))
  { s with
    hostMem := storeSetMany 0 s.hostMem (entryAt s r) bs
    rings := s.rings.set r (ringAfter s r rest)
    pba := if ringSignals s r then (raiseVector s (rd s R.CR_VECTOR r.val)).pba else s.pba
    posted := splitWrite (maxPayload s) false bs.length (entryAt s r) bs
    linkAt := elapsedW s }

theorem completionWrite_frame (hw : s.rings[r].waiting = e :: rest) (hf : crFull s r.val = false) (he : rd s R.CR_EN r.val ≠ 0) :
    let t := completionWrite r s
    t = { ringWritten s r e rest with regs := t.regs, ltr := t.ltr } ∧
    RegsKept s t [regKey R.CR_TAIL r.val, linkKey] ∧ rd t R.CR_TAIL r.val = (rd s R.CR_TAIL r.val + 1) % 2 ^ 32 := by
  have apart : regKey R.CR_TAIL r.val ≠ linkKey :=
    regKey_ne_of_id R.HIF_LINK_STATUS_PM _ _ _ (by decide) (by decide) (by decide)
  dsimp only
  rw [completionWrite_written hw hf he]
  refine ⟨ltrUpdate_written (u := ringWritten s r e rest) ?_ rfl, ltrUpdate_regsKept_of fun f i hk => ?_, ?_⟩
  · rw [signalled_eq, modRing, placed_eq s _ _ _ rfl]
    rfl
  · rw [rd_signalled, rd_modRing, placed_regsKept s _ _ r.val f i hk]
  · rw [rd_ltrUpdate _ apart, rd_signalled, rd_modRing]
    exact rd_placed s _ _ _ rfl rfl apart

end

/-! ### Metadata records -/

/-- The record counts towards a signal of its queue (R78). -/
def queueSignals (s : State) (m : Fin 16) : Bool :=
  rdb s R.MQ_IRQ_IRQ_EN m.val && s.mqs[m].unsignalled + 1 ≥ countThr s R.MQ_IRQ_COUNT_THR m.val

/-- Where the next record of a queue goes. -/
def recordAt (s : State) (m : Fin 16) : Nat := hostBase s R.MQ_BASE m.val + rd s R.MQ_TAIL m.val % mqSize s m * 64

/-- A queue after its oldest record has been written. -/
def queueAfter (s : State) (m : Fin 16) (rest : List Record) : MqSt :=
  { s.mqs[m] with waiting := rest, unsignalled := if queueSignals s m then 0 else s.mqs[m].unsignalled + 1
                  firstAt := if s.mqs[m].unsignalled + 1 = 1 then elapsedW s else s.mqs[m].firstAt }

/-- The core that posted the record, if a core did, has one record less on its way. -/
def posterServed (e : Record) (s : State) : State :=
  match e.core with
  | some n => modCore s n (fun c => { c with posts := c.posts - 1 })
  | none => s

theorem posterServed_eq (e : Record) (s : State) : posterServed e s = { s with
    cores := match e.core with
      | some n => s.cores.set n { s.cores[n] with posts := s.cores[n].posts - 1 }
      | none => s.cores } := by
  unfold posterServed
  cases e.core <;> rfl

/-- The oldest record of a queue can be written: the queue is on and has room, and the record is no POST that waits. -/
theorem writable_eq_some {s : State} {q : Fin 16} {x : Record} : writable s q = some x ↔
    (∃ xs, s.mqs[q].waiting = x :: xs) ∧ x.bytes ≠ [] ∧ rd s R.MQ_CFG_EN q.val ≠ 0 ∧ mqUsed s q < mqSize s q := by
  unfold writable
  cases s.mqs[q].waiting with
  | nil => simp
  | cons y ys =>
    simp only [Option.ite_none_right_eq_some, Option.some.injEq, List.cons.injEq, exists_and_left, exists_eq', and_true]
    constructor
    · rintro ⟨h, rfl⟩
      simpa [rdb, mqFull, and_assoc, and_comm, and_left_comm] using h
    · rintro ⟨rfl, h⟩
      simpa [rdb, mqFull, and_assoc, and_comm, and_left_comm] using h

theorem rd_posterServed (e : Record) (s : State) (f : RegField) (i : Nat) : rd (posterServed e s) f i = rd s f i := by
  unfold posterServed
  cases e.core <;> rfl

/-- A record's turn has come: no queue could take an earlier one (R77). -/
theorem isNext_iff (s : State) (e : Record) : isNext s e = true ↔
    ∀ (q : Fin 16) (x : Record) (xs : List Record), s.mqs[q].waiting = x :: xs → x.bytes ≠ [] →
      rd s R.MQ_CFG_EN q.val ≠ 0 → mqUsed s q < mqSize s q → e.seq ≤ x.seq := by
  have first : isNext s e = true ↔ ∀ q x, writable s q = some x → e.seq ≤ x.seq := by
    simp only [isNext, List.all_eq_true, List.mem_finRange, true_imp_iff]
    refine forall_congr' fun q => ?_
    cases writable s q <;> simp
  simp only [first, writable_eq_some]
  exact ⟨fun h q x xs hw hb he hr => h q x ⟨⟨xs, hw⟩, hb, he, hr⟩, fun h q x ⟨⟨xs, hw⟩, hb, he, hr⟩ => h q x xs hw hb he hr⟩

section
variable {s : State} {m : Fin 16} {e : Record} {rest : List Record}

theorem recordWrite_held (hw : s.mqs[m].waiting = e :: rest)
    (h : mqFull s m = true ∨ rd s R.MQ_CFG_EN m.val = 0 ∨ isNext s e = false) : recordWrite m s = s := by
  have : (!rdb s R.MQ_CFG_EN m.val || mqFull s m || e.bytes.isEmpty || !isNext s e) = true := by
    rcases h with h | h | h
    · simp [h]
    · simp [rdb, h]
    · simp [h]
  simp only [recordWrite, hw, this, if_true]

/-- The bytes of a record as they are written. -/
def recordBytes (s : State) (m : Fin 16) (e : Record) : List Byte :=
  withPhase e.bytes (phaseBit (rd s R.MQ_TAIL m.val) (mqSize s m))

theorem recordWrite_written (hw : s.mqs[m].waiting = e :: rest) (hb : e.bytes ≠ []) (hf : mqFull s m = false)
    (he : rd s R.MQ_CFG_EN m.val ≠ 0) (hn : isNext s e = true) :
    recordWrite m s = ltrUpdate (signalled (queueSignals s m) (rd s R.MQ_IRQ_VECTOR m.val) (posterServed e
      (modMq (placed s (recordAt s m) (recordBytes s m e) R.MQ_TAIL m.val) m (fun _ => queueAfter s m rest)))) := by
  have : (!rdb s R.MQ_CFG_EN m.val || mqFull s m || e.bytes.isEmpty || !isNext s e) = false := by
    simp [hf, rdb, he, hn, hb]
  have vector : ∀ addr bs x,
      rd (posterServed e (modMq (placed s addr bs R.MQ_TAIL m.val) m x)) R.MQ_IRQ_VECTOR m.val = rd s R.MQ_IRQ_VECTOR m.val := by
    intro addr bs x
    rw [rd_posterServed, rd_modMq, placed_regsKept s addr bs m.val]
    simpa using ⟨regKey_ne_of_id R.MQ_TAIL _ _ _ (by decide) (by decide) (by decide),
      regKey_ne_of_id R.HIF_LINK_STATUS_PM _ _ _ (by decide) (by decide) (by decide)⟩
  simp only [recordWrite, hw, this, Bool.false_eq_true, if_false, signalled, 
    ← vector (recordAt s m) (recordBytes s m e) (fun _ => queueAfter s m rest)]
  rfl

/-- The state but for its registers and the LTR state once the oldest record of a queue has been written. -/
def queueWritten (s : State) (m : Fin 16) (e : Record) (rest : List Record) : State :=
  { s with
    hostMem := storeSetMany 0 s.hostMem (recordAt s m) (recordBytes s m e)
    mqs := s.mqs.set m (queueAfter s m rest)
    cores := match e.core with
      | some n => s.cores.set n { s.cores[n] with posts := s.cores[n].posts - 1 }
      | none => s.cores
    pba := if queueSignals s m then (raiseVector s (rd s R.MQ_IRQ_VECTOR m.val)).pba else s.pba
    posted := splitWrite (maxPayload s) false (recordBytes s m e).length (recordAt s m) (recordBytes s m e)
    linkAt := elapsedW s }

theorem recordWrite_frame (hw : s.mqs[m].waiting = e :: rest) (hb : e.bytes ≠ []) (hf : mqFull s m = false)
    (he : rd s R.MQ_CFG_EN m.val ≠ 0) (hn : isNext s e = true) :
    let t := recordWrite m s
    t = { queueWritten s m e rest with regs := t.regs, ltr := t.ltr } ∧
    RegsKept s t [regKey R.MQ_TAIL m.val, linkKey] ∧ rd t R.MQ_TAIL m.val = (rd s R.MQ_TAIL m.val + 1) % 2 ^ 32 := by
  have apart : regKey R.MQ_TAIL m.val ≠ linkKey :=
    regKey_ne_of_id R.HIF_LINK_STATUS_PM _ _ _ (by decide) (by decide) (by decide)
  dsimp only
  rw [recordWrite_written hw hb hf he hn]
  refine ⟨ltrUpdate_written (u := queueWritten s m e rest) ?_ rfl, ltrUpdate_regsKept_of fun f i hk => ?_, ?_⟩
  · rw [signalled_eq, posterServed_eq, modMq, placed_eq s _ _ _ rfl]
    rfl
  · rw [rd_signalled, rd_posterServed, rd_modMq, placed_regsKept s _ _ m.val f i hk]
  · rw [rd_ltrUpdate _ apart, rd_signalled, rd_posterServed, rd_modMq]
    exact rd_placed s _ _ _ rfl rfl apart

end

/-! ### The time threshold (R78) -/

theorem crTimeThr_expires {s u : State} {r : Fin 31} (ht : rd s R.CR_TIME_THR r.val ≠ 0) (hu : s.rings[r].unsignalled ≠ 0)
    (hi : rd s R.CR_IRQ_EN r.val ≠ 0) (h : passUntil s (s.rings[r].firstAt.toNat + rd s R.CR_TIME_THR r.val * 1000) = u) :
    crTimeThr r s = { u with
      rings := u.rings.set r { u.rings[r] with unsignalled := 0 }, pba := (raiseVector u (rd u R.CR_VECTOR r.val)).pba } := by
  have : ¬ (rd s R.CR_TIME_THR r.val = 0 ∨ s.rings[r].unsignalled = 0 ∨ (!rdb s R.CR_IRQ_EN r.val) = true) := by
    simpa [rdb, hi] using ⟨ht, hu⟩
  simp only [crTimeThr, if_neg this, h]
  rfl

theorem mqTimeThr_expires {s u : State} {m : Fin 16} (ht : rd s R.MQ_IRQ_TIME_THR m.val ≠ 0) (hu : s.mqs[m].unsignalled ≠ 0)
    (hi : rd s R.MQ_IRQ_IRQ_EN m.val ≠ 0) (h : passUntil s (s.mqs[m].firstAt.toNat + rd s R.MQ_IRQ_TIME_THR m.val * 1000) = u) :
    mqTimeThr m s = { u with
      mqs := u.mqs.set m { u.mqs[m] with unsignalled := 0 }, pba := (raiseVector u (rd u R.MQ_IRQ_VECTOR m.val)).pba } := by
  have : ¬ (rd s R.MQ_IRQ_TIME_THR m.val = 0 ∨ s.mqs[m].unsignalled = 0 ∨ (!rdb s R.MQ_IRQ_IRQ_EN m.val) = true) := by
    simpa [rdb, hi] using ⟨ht, hu⟩
  simp only [mqTimeThr, if_neg this, h]
  rfl

/-! ### The obligation -/

/-- Settles O16: the entry or record goes to the slot at the tail when there is room and its turn has come, and the
interrupt follows by count or by time. -/
theorem entriesAndInterrupts : Obligations.EntriesAndInterrupts := by
  refine ⟨fun s => ⟨fun r e rest hw => ?entry, fun m e rest hw hb => ?record⟩, fun s => ⟨fun r => ?ringTime, fun m => ?queueTime⟩⟩
  case entry =>
    intro tail size count full phase signal
    have signals : ringSignals s r = true ↔ signal := by
      simp [ringSignals, signal, count, countThr, rdb]
    have hfull : crFull s r.val = true ↔ full := by
      simp [crFull, crUsed, crSize, full, size, tail]
    refine ⟨fun h => congrArg Host.Outcome.next (completionWrite_held hw (h.imp_left hfull.mpr)), fun hf he => ⟨_, rfl, ?_⟩⟩
    obtain ⟨ht, hk, htail⟩ := completionWrite_frame hw (Bool.eq_false_iff.mpr fun h => hf (hfull.mp h)) he
    refine ⟨ht.trans ?_, hk, htail⟩
    have hphase : (if phaseBit tail size then 0x80 else 0) = phase := by
      simp [phaseBit, phase]
    simp only [ringWritten, ringAfter, signals]
    rw [← hphase]
    rfl
  case record =>
    intro tail size count full signal turn
    have signals : queueSignals s m = true ↔ signal := by
      simp [queueSignals, signal, count, countThr, rdb]
    have hfull : mqFull s m = true ↔ full := by
      simp [mqFull, mqUsed, mqSize, full, size, tail]
    have hturn : isNext s e = true ↔ turn := isNext_iff s e
    refine ⟨fun h => congrArg Host.Outcome.next (recordWrite_held hw ?_), fun hf he hn => ⟨_, rfl, ?_⟩⟩
    · exact h.imp hfull.mpr (Or.imp_right fun hn => Bool.eq_false_iff.mpr fun h => hn (hturn.mp h))
    obtain ⟨ht, hk, htail⟩ := recordWrite_frame hw hb (Bool.eq_false_iff.mpr fun h => hf (hfull.mp h)) he (hturn.mpr hn)
    refine ⟨ht.trans ?_, hk, htail⟩
    simp only [queueWritten, queueAfter, signals]
    rfl
  case ringTime =>
    intro ht hu hi u
    exact congrArg Host.Outcome.next (crTimeThr_expires ht hu hi rfl)
  case queueTime =>
    intro ht hu hi u
    exact congrArg Host.Outcome.next (mqTimeThr_expires ht hu hi rfl)

end Sys2Proof.Entries

/-! ## O34: a unit ends where the cached copy of its stream's entry has gone bad (R43, R68, R261)

`AccessUnitsEnd` puts no condition on the cached copy of the context entry. The write-back at the end of every unit reads
that copy; where an uncorrectable error lies in it, the copy goes (`ctxUnreadable`), and no context is left that the
statement could speak of. The other statements about streams carry the hypothesis that is missing, `.ctx n ∉ s.hidden`. -/

namespace Sys2Proof.Decoding

open Sys2Proof.Machine Sys2Proof.Tests

/-- Decoder 0 at work on stream 3, whose CODEC is the reserved one, with an uncorrectable error in the cached copy of its
entry. -/
def spoiledCopy : State := { decoding (sEntry 1 0 3) [unitChunk] none id with hidden := [.ctx 3] }

/-- The refused unit leaves stream 3 without a cached entry. -/
theorem budgetExpiry_spoiledCopy :
    (streamOf (budgetExpiry 0 ⟨0, 0, 0⟩ false spoiledCopy) 3).ctx = none := by decide +kernel

/-- Refutes O34: when the budget of a unit with the reserved CODEC expires, the statement has the stream's entry cached and in
ERROR; with an uncorrectable error in the cached copy, the write-back finds it unreadable and none is cached. -/
theorem not_accessUnitsEnd : ¬ Obligations.AccessUnitsEnd := by
  intro h
  obtain ⟨running, -⟩ := h 0 (decJob [unitChunk] none) { ctxOfEntry (sEntry 1 0 3) with resync := false } spoiledCopy
    (by decide +kernel) (by decide +kernel)
  obtain ⟨-, -, -, expires⟩ := running rfl
  obtain ⟨reserved, -⟩ := expires ⟨0, 0, 0⟩ false rfl
  obtain ⟨t, ht, -, -, c', hc, -⟩ := reserved (by decide +kernel)
  have answered : budgetExpiry 0 ⟨0, 0, 0⟩ false spoiledCopy = t := by injection ht
  rw [← answered] at hc
  exact nomatch budgetExpiry_spoiledCopy.symm.trans hc

end Sys2Proof.Decoding

/-! ## Memory with its check bits: what reads and writes leave (R258, R259, R310 to R312) -/

namespace Sys2Proof.Traffic

open Sys2Proof.Machine Sys2Proof.Laws Sys2Proof.HostAccess

/-! ### Registers that say where the context entries lie and that they are in use -/

/-- The registers of the stream contexts that only the host writes (R41, R51). -/
def ctxFields : List RegField := [R.VID_CTX_CFG_ENABLE, R.VID_CTX_CFG_COUNT, R.VID_CTX_BASE_BASE]

/-- A field that is none of the stream contexts'. -/
def offCtx (f : RegField) : Bool := ctxFields.all (fun g => besides [f] g)

/-- The registers of the stream contexts read as before. -/
def CtxRegs (s t : State) : Prop := ∀ g ∈ ctxFields, ∀ i, rd t g i = rd s g i

theorem ctxRegs_of_regs {s t : State} (hf : t.fuses = s.fuses) (hr : t.regs = s.regs) : CtxRegs s t :=
  fun g _ i => rd_congr hf hr g i

theorem ctxRegs_of_keepsBut {l : List RegField} {s t : State} (h : KeepsBut l s t) (hl : ∀ g ∈ ctxFields, besides l g = true) :
    CtxRegs s t :=
  fun g hg i => h g i (hl g hg)

theorem ctxRegs_trans {s t u : State} (h : CtxRegs s t) (h' : CtxRegs t u) : CtxRegs s u :=
  fun g hg i => (h' g hg i).trans (h g hg i)

theorem ctxRegs_bump (s : State) {f : RegField} (hf : offCtx f = true) (i n : Nat) : CtxRegs s (bump s f i n) :=
  ctxRegs_of_keepsBut (keepsBut_bump s (List.mem_singleton.mpr rfl) i n) (List.all_eq_true.mp hf)

theorem ctxRegs_wr (s : State) {f : RegField} (hf : offCtx f = true) (i v : Nat) : CtxRegs s (wr s f i v) :=
  ctxRegs_of_keepsBut (keepsBut_wr s (List.mem_singleton.mpr rfl) i v) (List.all_eq_true.mp hf)

/-! ### Check bits -/

/-- Nothing has changed but check bits, what they are counted and logged in, and what an access counts. -/
def Checked (s t : State) : Prop :=
  t = { s with
    regs := t.regs, ecc := t.ecc, dramChs := t.dramChs, writeback := t.writeback, logQ := t.logQ, logLost := t.logLost
    freeCtr := t.freeCtr } ∧ CtxRegs s t

theorem checked_refl (s : State) : Checked s s := ⟨rfl, fun _ _ _ => rfl⟩

theorem checked_trans {s t u : State} (h : Checked s t) (h' : Checked t u) : Checked s u := by
  obtain ⟨ht, hk⟩ := h
  obtain ⟨hu, hk'⟩ := h'
  refine ⟨?_, ctxRegs_trans hk hk'⟩
  rw [hu, ht]

theorem checked_foldl {α : Type} {f : State → α → State} (h : ∀ s a, Checked s (f s a)) (s : State) (l : List α) :
    Checked s (l.foldl f s) :=
  foldl_steps checked_refl (fun _ _ _ => checked_trans) h s l

theorem checked_of_counted {s t : State} (h : Counted s t) : Checked s t := by
  obtain ⟨ht, hk⟩ := h
  exact ⟨by rw [ht], ctxRegs_of_keepsBut hk (by decide)⟩

theorem checked_bump (s : State) {f : RegField} (hf : offCtx f = true) (i n : Nat) : Checked s (bump s f i n) := by
  refine ⟨?_, ctxRegs_bump s hf i n⟩
  rcases bump_cases s f i n with ⟨v, h⟩ | ⟨v, h⟩ <;> rw [h] <;> rfl

theorem checked_wr (s : State) {f : RegField} (hf : offCtx f = true) (i v : Nat) : Checked s (wr s f i v) :=
  ⟨rfl, ctxRegs_wr s hf i v⟩

theorem checked_logIt (s : State) (p : Fin 3) (cls detail sev unit arg0 arg1 : Nat) :
    Checked s (logIt s p cls detail sev unit arg0 arg1) := by
  obtain ⟨r, q, l, h⟩ := logPush_frame s p (eventEntry s p cls detail sev unit arg0 arg1)
  have lost : CtxRegs s (logIt s p cls detail sev unit arg0 arg1) := by
    intro g hg i
    refine logIt_regsKept s p _ _ _ _ _ _ g i ?_
    have : ∀ g ∈ ctxFields, besides [qdropField p] g = true := by
      fin_cases p <;> decide
    exact fun h => regKey_ne_of_besides (this g hg) (List.mem_singleton.mpr rfl) i 0 (List.mem_singleton.mp h)
  refine ⟨?_, lost⟩
  rw [logIt_eq, h]

theorem checked_ite {s t u : State} (c : Prop) [Decidable c] (h : Checked s t) (h' : Checked s u) : Checked s (if c then t else u) :=
  iteInduction (fun _ => h) (fun _ => h')

theorem checked_ecc (s : State) (e : SMap EccState) : Checked s { s with ecc := e } := ⟨rfl, ctxRegs_of_regs rfl rfl⟩

theorem checked_recordOnChip (s : State) (i a : Nat) (ue : Bool) {fa fu fv : RegField} (ha : offCtx fa = true)
    (hu : offCtx fu = true) (hv : offCtx fv = true) : Checked s (recordOnChip s fa fu fv i a ue) :=
  checked_ite _ (checked_refl s)
    (checked_trans (checked_wr s ha _ _) (checked_trans (checked_wr _ hu _ _) (checked_wr _ hv _ _)))

theorem checked_recordDram (s : State) (a : Nat) {fa fc fv : RegField} (ha : offCtx fa = true) (hc : offCtx fc = true)
    (hv : offCtx fv = true) : Checked s (recordDram s fa fc fv a) :=
  checked_ite _ (checked_refl s)
    (checked_trans (checked_wr s ha _ _) (checked_trans (checked_wr _ hc _ _) (checked_wr _ hv _ _)))

theorem checked_correctedRead (s : State) (a req : Nat) : Checked s (correctedRead s a req) := by
  have logged : ∀ (u : State) (c : Prop) [Decidable c] (d x y z : Nat), Checked u (if c then logIt u planeData 0x40 d 1 x y z else u) :=
    fun u c _ d x y z => checked_ite c (checked_logIt u _ _ _ _ _ _ _) (checked_refl u)
  have due : ∀ (u : State) (l : List Nat), Checked u { u with writeback := l } := fun u l => ⟨rfl, ctxRegs_of_regs rfl rfl⟩
  unfold correctedRead
  split
  · exact checked_trans (checked_bump s (by decide) _ _) (checked_trans (checked_recordOnChip _ _ _ _ (by decide) (by decide) (by decide))
      (checked_trans (logged _ _ _ _ _ _) (due _ _)))
  · exact checked_trans (checked_bump s (by decide) _ _) (checked_trans (checked_recordOnChip _ _ _ _ (by decide) (by decide) (by decide))
      (checked_trans (logged _ _ _ _ _ _) (due _ _)))
  · exact checked_trans (checked_bump s (by decide) _ _) (checked_trans (checked_recordDram _ _ (by decide) (by decide) (by decide))
      (checked_trans (logged _ _ _ _ _ _) (checked_ite _ (checked_ecc _ _) (checked_refl _))))

theorem checked_poisonEcc (s : State) (a : Nat) : Checked s (poisonEcc s a) := checked_ecc s _

theorem checked_uncorrectableRead (s : State) (a req : Nat) : Checked s (uncorrectableRead s a req) := by
  have poisoned : ∀ (u : State) (d x y z : Nat), Checked u (poisonEcc (logIt u planeData 0x40 d 3 x y z) a) :=
    fun u d x y z => checked_trans (checked_logIt u _ _ _ _ _ _ _) (checked_poisonEcc _ _)
  unfold uncorrectableRead
  split
  · exact checked_trans (checked_bump s (by decide) _ _) (checked_trans (checked_recordOnChip _ _ _ _ (by decide) (by decide) (by decide))
      (poisoned _ _ _ _ _))
  · exact checked_trans (checked_bump s (by decide) _ _) (checked_trans (checked_recordOnChip _ _ _ _ (by decide) (by decide) (by decide))
      (poisoned _ _ _ _ _))
  · exact checked_trans (checked_bump s (by decide) _ _) (checked_trans (checked_recordDram _ _ (by decide) (by decide) (by decide))
      (poisoned _ _ _ _ _))

theorem checked_checkWord (req : Nat) (s : State) (e : Nat × EccState) : Checked s (checkWord req s e) := by
  obtain ⟨a, st⟩ := e
  cases st with
  | ok => exact checked_refl s
  | single => exact checked_correctedRead s a req
  | double => exact checked_ite _ (checked_refl s) (checked_uncorrectableRead s a req)
  | poison => exact checked_refl s

/-! ### Reads and writes -/

theorem checked_memRead (s : State) (req a n : Nat) : Checked s (memRead s req a n).s :=
  checked_trans (checked_of_counted (counted_beats s req a n false))
    (checked_ite _ (checked_foldl (checked_checkWord req) _ _) (checked_refl _))

theorem checked_writeWord (lo hi w : Nat) (poison : Bool) (req : Nat) (s : State) (a : Nat) :
    Checked s (writeWord lo hi w poison req s a) := by
  have read : Checked s (if lo ≤ a ∧ a + w ≤ hi then s else (badWords s a w).foldl (checkWord req) s) :=
    checked_ite _ (checked_refl s) (checked_foldl (checked_checkWord req) s _)
  exact checked_trans read (checked_ite _ (checked_poisonEcc _ a) (checked_ite _ (checked_ecc _ _) (checked_refl _)))

theorem checked_countWrite (s : State) (a n : Nat) (poison : Bool) : Checked s (countWrite s a n poison) := by
  unfold countWrite
  dsimp only
  split
  · exact checked_ite _ (checked_bump s (by decide) _ _) (checked_refl s)
  · exact checked_ite _ (checked_bump s (by decide) _ _) (checked_refl s)
  · refine checked_foldl (fun u j => ?_) s _
    exact checked_trans (checked_ite _ (checked_refl u) (checked_bump u (by decide) _ _))
      (checked_ite _ (checked_bump _ (by decide) _ _) (checked_refl _))
  · exact checked_refl s

/-- The check bits and the counts of a write. -/
def writeChecks (s : State) (req a n : Nat) (poison : Bool) : State :=
  let t := countWrite (beats s req a n true) a n poison
  let w := eccSpan s a
  if eccCovers t a then
    ((List.range ((a + n - 1) / w - a / w + 1)).map (fun j => (a / w + j) * w)).foldl (writeWord a (a + n) w poison req) t
  else t

theorem checked_writeChecks (s : State) (req a n : Nat) (poison : Bool) : Checked s (writeChecks s req a n poison) :=
  checked_trans (checked_of_counted (counted_beats s req a n true)) (checked_trans (checked_countWrite _ a n poison)
    (checked_ite _ (checked_foldl (checked_writeWord _ _ _ _ _) _ _) (checked_refl _)))

/-- A write stores its bytes, and beside that acts on check bits and counts. -/
theorem memWrite_eq (s : State) (req a : Nat) (poison : Bool) {bs : List Byte} (h : bs ≠ []) :
    memWrite s req a bs poison = { writeChecks s req a bs.length poison with mem := storeSetMany 0 s.mem a bs } := by
  have hn : ¬ bs.length = 0 := by simpa using h
  have hm : (writeChecks s req a bs.length poison).mem = s.mem := by rw [(checked_writeChecks s req a bs.length poison).1]
  rw [← hm]
  simp only [memWrite, if_neg hn]
  rfl

theorem memWrite_nil (s : State) (req a : Nat) (poison : Bool) : memWrite s req a [] poison = s := rfl

/-- The byte of memory at an address. -/
def byteAt (s : State) (z : Nat) : Byte := storeGet 0 s.mem z

theorem peek_one (s : State) (z : Nat) : peek s z 1 = [byteAt s z] := rfl

/-- A write changes the bytes it covers and no other. -/
theorem byteAt_memWrite (s : State) (req a : Nat) (bs : List Byte) (poison : Bool) (z : Nat) :
    byteAt (memWrite s req a bs poison) z = if a ≤ z ∧ z < a + bs.length then bs.getD (z - a) 0 else byteAt s z := by
  by_cases h : bs = []
  · subst h
    rw [memWrite_nil, if_neg (by simp only [List.length_nil]; omega)]
  · rw [memWrite_eq s req a poison h]
    exact storeGet_setMany 0 s.mem a bs z

end Sys2Proof.Traffic

/-! ## The frame in its buffer (R54, R55, R69) -/

namespace Sys2Proof.Frames

open Sys2Proof.Machine Sys2Proof.Laws Sys2Proof.Traffic

/-! ### Rows of equal length -/

theorem length_flatMap_rows {α β : Type} {l : List α} {f : α → List β} {c : Nat} (h : ∀ x ∈ l, (f x).length = c) :
    (l.flatMap f).length = l.length * c := by
  rw [List.length_flatMap, List.map_congr_left h, List.map_const', List.sum_replicate, smul_eq_mul]

/-- Element `b` of row `i`. -/
theorem getD_flatMap_rows {β : Type} {f : Nat → List β} {c : Nat} (h : ∀ i, (f i).length = c) (d : β) {n i b : Nat} (hi : i < n)
    (hb : b < c) : ((List.range n).flatMap f).getD (i * c + b) d = (f i).getD b d := by
  induction n with
  | zero => omega
  | succ n ih =>
    have hlen : ((List.range n).flatMap f).length = n * c := by
      simpa using length_flatMap_rows (l := List.range n) fun x _ => h x
    rw [List.range_succ, List.flatMap_append, List.flatMap_singleton]
    rcases Nat.lt_succ_iff_lt_or_eq.mp hi with hlt | rfl
    · have : i * c + b < n * c := by
        calc i * c + b < i * c + c := by omega
          _ = (i + 1) * c := by ring
          _ ≤ n * c := Nat.mul_le_mul_right c hlt
      rw [List.getD_append _ _ _ _ (by omega), ih hlt]
    · rw [List.getD_append_right _ _ _ _ (by omega), hlen, Nat.add_sub_cancel_left]

/-! ### The planes -/

theorem sampleBytes_length (p010 : Bool) (v : Nat) : (sampleBytes p010 v).length = if p010 then 2 else 1 := by
  cases p010 <;> simp [sampleBytes]

theorem paddedLine_length {pitch : Nat} {bs : List Byte} (h : bs.length ≤ pitch) : (paddedLine pitch bs).length = pitch := by
  simp [paddedLine]
  omega

theorem le_roundUp (x : Nat) {m : Nat} (hm : 0 < m) : x ≤ roundUp x m := by
  have := Nat.div_add_mod (x + (m - 1)) m
  have := Nat.mod_lt (x + (m - 1)) hm
  have : (x + (m - 1)) / m * m = m * ((x + (m - 1)) / m) := Nat.mul_comm _ _
  simp only [roundUp, ceilDiv]
  omega

section
variable (p010 : Bool) (w h : Nat)

/-- A row of luma samples fits the pitch. -/
theorem width_le_pitch : w * (if p010 then 2 else 1) ≤ (frameGeometry p010 w h).pitch := by
  have := le_roundUp (if p010 then 2 * w else w) (m := 256) (by decide)
  cases p010 with
  | false => simpa [frameGeometry] using this
  | true => simpa [frameGeometry, Nat.mul_comm w 2] using this

/-- So does a row of chroma samples: the pitch is a multiple of 256. -/
theorem chroma_le_pitch : ceilDiv w 2 * (2 * if p010 then 2 else 1) ≤ (frameGeometry p010 w h).pitch := by
  cases p010 <;> simp [frameGeometry, roundUp, ceilDiv] <;> omega

theorem lumaPlane_length (f : Nat → Nat → Nat) :
    (lumaPlane (frameGeometry p010 w h) p010 f).length = roundUp h 16 * (frameGeometry p010 w h).pitch := by
  refine (length_flatMap_rows fun y _ => paddedLine_length ?_).trans (by rw [List.length_range]; rfl)
  split
  · rw [length_flatMap_rows fun x _ => sampleBytes_length p010 _, List.length_range]
    exact width_le_pitch p010 w h
  · exact Nat.zero_le _

theorem chromaPlane_length (cb cr : Nat → Nat → Nat) :
    (chromaPlane (frameGeometry p010 w h) p010 cb cr).length = roundUp h 16 / 2 * (frameGeometry p010 w h).pitch := by
  refine (length_flatMap_rows fun y _ => paddedLine_length ?_).trans (by rw [List.length_range]; rfl)
  split
  · have pair : ∀ x, (sampleBytes p010 (cb x y) ++ sampleBytes p010 (cr x y)).length = 2 * if p010 then 2 else 1 := fun x => by
      rw [List.length_append, sampleBytes_length, sampleBytes_length, Nat.two_mul]
    rw [length_flatMap_rows fun x _ => pair x, List.length_range]
    exact chroma_le_pitch p010 w h
  · exact Nat.zero_le _

end

theorem mapPlane_length (g : FrameHdr) (f : Nat → Nat → Byte) : (mapPlane g f).length = ceilDiv g.height 16 * g.mapStride := by
  rw [mapPlane, length_flatMap_rows (c := g.mapStride) (fun i _ => by simp), List.length_range]

theorem mapPlane_getD (g : FrameHdr) (f : Nat → Nat → Byte) {i b : Nat} (hi : i < ceilDiv g.height 16) (hb : b < ceilDiv g.width 16)
    (hs : b < g.mapStride) : (mapPlane g f).getD (i * g.mapStride + b) 0 = f i b := by
  rw [mapPlane, getD_flatMap_rows (fun i => by simp) 0 hi hs]
  simp [hs, hb]

/-! ### The header -/

/-- The bytes of a header before byte 3, which is the BPM's, and those behind it. -/
def headStart (h : FrameHdr) : List Byte := bytesOf 2 h.stream ++ bytesOf 1 h.flags
def headRest (h : FrameHdr) : List Byte :=
  bytesOf 4 h.seq ++ bytesOf 8 h.time ++ bytesOf 4 h.tag ++ bytesOf 2 h.width ++ bytesOf 2 h.height ++ bytesOf 4 h.pitch ++
    bytesOf 4 h.chroma ++ bytesOf 4 h.map ++ bytesOf 2 h.mapStride ++ List.replicate 218 0

theorem headStart_length (h : FrameHdr) : (headStart h).length = 3 := by simp [headStart]

theorem headRest_length (h : FrameHdr) : (headRest h).length = 252 := by
  simp only [headRest, List.length_append, bytesOf_length, List.length_replicate]

/-- The fields of a header in its bytes. -/
theorem headStart_fields (h : FrameHdr) :
    fieldOf (headStart h) 0 2 = h.stream % 256 ^ 2 ∧ fieldOf (headStart h) 2 1 = h.flags % 256 ^ 1 := by
  refine ⟨fieldOf_middle [] (bytesOf 1 h.flags) 2 h.stream, ?_⟩
  have := fieldOf_middle (bytesOf 2 h.stream) [] 1 h.flags
  rwa [bytesOf_length, List.append_nil] at this

theorem fieldOf_skip {n v off m : Nat} {rest : List Byte} (h : n ≤ off) :
    fieldOf (bytesOf n v ++ rest) off m = fieldOf rest (off - n) m := by
  simp only [fieldOf, sliceOf]
  congr 1
  refine List.map_congr_left fun i _ => ?_
  rw [List.getD_append_right _ _ _ _ (by rw [bytesOf_length]; omega), bytesOf_length]
  congr 1
  omega

theorem fieldOf_front (rest : List Byte) (n v : Nat) : fieldOf (bytesOf n v ++ rest) 0 n = v % 256 ^ n :=
  fieldOf_middle [] rest n v

theorem headRest_fields (h : FrameHdr) :
    fieldOf (headRest h) 0 4 = h.seq % 256 ^ 4 ∧ fieldOf (headRest h) 4 8 = h.time % 256 ^ 8 ∧
    fieldOf (headRest h) 16 2 = h.width % 256 ^ 2 ∧ fieldOf (headRest h) 18 2 = h.height % 256 ^ 2 ∧
    fieldOf (headRest h) 20 4 = h.pitch % 256 ^ 4 ∧ fieldOf (headRest h) 24 4 = h.chroma % 256 ^ 4 ∧
    fieldOf (headRest h) 28 4 = h.map % 256 ^ 4 ∧ fieldOf (headRest h) 32 2 = h.mapStride % 256 ^ 2 := by
  simp (disch := decide) only [headRest, List.append_assoc, fieldOf_skip, fieldOf_front, Nat.reduceSub, and_self]

/-! ### The frame -/

/-- The header of a decoded frame. -/
def frameHead (j : DecJob) (c : Ctx) (drift all : Bool) (r : DecodeResult) : FrameHdr :=
  { frameGeometry (ctlP010 c.entry) r.width.toNat r.height.toNat with
    stream := j.stream.val
    flags := 2 * b2n drift + 4 * b2n r.rap + 8 * b2n r.grain + 16 * b2n (ctlP010 c.entry) + 32 * b2n all
    seq := c.frameSeq.toNat, time := j.time.toNat, tag := (match j.chunks with | x :: _ => x.tag.toNat | [] => 0) }

/-- The activity map of a decoded frame. -/
def frameMap (c : Ctx) (all : Bool) (r : DecodeResult) : List Byte :=
  mapPlane (frameGeometry (ctlP010 c.entry) r.width.toNat r.height.toNat)
    (fun i b => if all then 0xFF else mapByte c.entry (r.blocks.getD (i * ceilDiv r.width.toNat 16 + b) ⟨[], []⟩))

/-- Where a byte of a decoded frame comes from: header, luma, chroma and map follow one another. -/
theorem byteAt_writeFrame (s : State) (k : Fin 12) (j : DecJob) (c : Ctx) (drift all : Bool) (r : DecodeResult) :
    let h := frameHead j c drift all r
    let a := j.frame.toNat
    ∃ luma chroma : List Byte, 256 + luma.length = h.chroma ∧ h.chroma + chroma.length = h.map ∧
      ∀ z, byteAt (writeFrame s k j c drift all r) z =
        if a + h.map ≤ z ∧ z < a + h.map + (frameMap c all r).length then (frameMap c all r).getD (z - (a + h.map)) 0
        else if a + h.chroma ≤ z ∧ z < a + h.chroma + chroma.length then chroma.getD (z - (a + h.chroma)) 0
        else if a + 256 ≤ z ∧ z < a + 256 + luma.length then luma.getD (z - (a + 256)) 0
        else if a + 4 ≤ z ∧ z < a + 4 + 252 then (headRest h).getD (z - (a + 4)) 0
        else if a ≤ z ∧ z < a + 3 then (headStart h).getD (z - a) 0
        else byteAt s z := by
  intro h a
  let g := frameGeometry (ctlP010 c.entry) r.width.toNat r.height.toNat
  refine ⟨lumaPlane g (ctlP010 c.entry) (sample10 s.freeCtr r.bitDepth10 0),
    chromaPlane g (ctlP010 c.entry) (sample10 s.freeCtr r.bitDepth10 1) (sample10 s.freeCtr r.bitDepth10 2), ?_, ?_, fun z => ?_⟩
  · rw [lumaPlane_length, Nat.mul_comm]
    rfl
  · have even : roundUp r.height.toNat 16 = 2 * (roundUp r.height.toNat 16 / 2) := by
      simp only [roundUp, ceilDiv]
      omega
    have half : g.pitch * roundUp r.height.toNat 16 / 2 = roundUp r.height.toNat 16 / 2 * g.pitch := by
      rw [even, Nat.mul_left_comm, Nat.mul_div_cancel_left _ (by decide), Nat.mul_div_cancel_left _ (by decide), Nat.mul_comm]
    rw [chromaPlane_length, ← half]
    rfl
  · rw [← headRest_length h, ← headStart_length h]
    simp only [writeFrame, writeHeader, byteAt_memWrite]
    rfl

end Sys2Proof.Frames

/-! ## What memory holds of a frame (R54, R55, R69) -/

namespace Sys2Proof.Frames

open Sys2Proof.Machine Sys2Proof.Laws Sys2Proof.Traffic

/-- A number in memory that agrees byte for byte with a field of a byte string. -/
theorem peekNat_eq_fieldOf {s : State} {a off n : Nat} {l : List Byte} (h : ∀ i, i < n → byteAt s (a + i) = l.getD (off + i) 0) :
    peekNat s a n = fieldOf l off n :=
  congrArg natOfBytes (List.map_congr_left fun i hi => h i (List.mem_range.mp hi))

section
variable (s : State) (k : Fin 12) (j : DecJob) (c : Ctx) (drift all : Bool) (r : DecodeResult)

theorem frameMap_length : (frameMap c all r).length = ceilDiv r.height.toNat 16 * roundUp (ceilDiv r.width.toNat 16) 64 :=
  mapPlane_length _ _

/-- The bytes of the header before byte 3. -/
theorem peekNat_frame_start {off n : Nat} (h : off + n ≤ 3) :
    peekNat (writeFrame s k j c drift all r) (j.frame.toNat + off) n = fieldOf (headStart (frameHead j c drift all r)) off n := by
  obtain ⟨luma, chroma, hl, hc, bytes⟩ := byteAt_writeFrame s k j c drift all r
  refine peekNat_eq_fieldOf fun i hi => ?_
  rw [bytes, if_neg (by omega), if_neg (by omega), if_neg (by omega), if_neg (by omega), if_pos (by omega), Nat.add_assoc,
    Nat.add_sub_cancel_left]

/-- The bytes of the header behind byte 3. -/
theorem peekNat_frame_rest {off n : Nat} (h : off + n ≤ 252) :
    peekNat (writeFrame s k j c drift all r) (j.frame.toNat + (4 + off)) n = fieldOf (headRest (frameHead j c drift all r)) off n := by
  obtain ⟨luma, chroma, hl, hc, bytes⟩ := byteAt_writeFrame s k j c drift all r
  refine peekNat_eq_fieldOf fun i hi => ?_
  rw [bytes, if_neg (by omega), if_neg (by omega), if_neg (by omega), if_pos (by omega)]
  congr 1
  omega

/-- Byte 3 of the header is the buffer pool manager's. -/
theorem peek_frame_ref : peek (writeFrame s k j c drift all r) (j.frame.toNat + 3) 1 = peek s (j.frame.toNat + 3) 1 := by
  obtain ⟨luma, chroma, hl, hc, bytes⟩ := byteAt_writeFrame s k j c drift all r
  rw [peek_one, peek_one, bytes, if_neg (by omega), if_neg (by omega), if_neg (by omega), if_neg (by omega), if_neg (by omega)]

/-- A byte of the activity map. -/
theorem peek_frame_map {i b : Nat} (hi : i < ceilDiv r.height.toNat 16) (hb : b < ceilDiv r.width.toNat 16) :
    peek (writeFrame s k j c drift all r)
        (j.frame.toNat + (frameHead j c drift all r).map + i * roundUp (ceilDiv r.width.toNat 16) 64 + b) 1 =
      [if all then 0xFF else mapByte c.entry (r.blocks.getD (i * ceilDiv r.width.toNat 16 + b) ⟨[], []⟩)] := by
  obtain ⟨luma, chroma, hl, hc, bytes⟩ := byteAt_writeFrame s k j c drift all r
  have hs : b < roundUp (ceilDiv r.width.toNat 16) 64 := Nat.lt_of_lt_of_le hb (le_roundUp _ (by decide))
  have row : i * roundUp (ceilDiv r.width.toNat 16) 64 + b < ceilDiv r.height.toNat 16 * roundUp (ceilDiv r.width.toNat 16) 64 :=
    calc _ < i * roundUp (ceilDiv r.width.toNat 16) 64 + roundUp (ceilDiv r.width.toNat 16) 64 := Nat.add_lt_add_left hs _
      _ = (i + 1) * roundUp (ceilDiv r.width.toNat 16) 64 := by rw [Nat.add_mul, Nat.one_mul]
      _ ≤ _ := Nat.mul_le_mul_right _ hi
  rw [peek_one, bytes, if_pos (by rw [frameMap_length]; omega), Nat.add_assoc, Nat.add_sub_cancel_left]
  exact congrArg (fun x => [x]) (mapPlane_getD (frameGeometry (ctlP010 c.entry) r.width.toNat r.height.toNat) _ hi hb hs)

/-- No byte outside the frame changes. -/
theorem peek_frame_outside {z : Nat} (h : z < j.frame.toNat ∨
    j.frame.toNat + (frameHead j c drift all r).map + roundUp (ceilDiv r.width.toNat 16) 64 * ceilDiv r.height.toNat 16 ≤ z) :
    peek (writeFrame s k j c drift all r) z 1 = peek s z 1 := by
  obtain ⟨luma, chroma, hl, hc, bytes⟩ := byteAt_writeFrame s k j c drift all r
  have len := frameMap_length c all r
  rw [Nat.mul_comm] at len
  rw [peek_one, peek_one, bytes, if_neg (by omega), if_neg (by omega), if_neg (by omega), if_neg (by omega), if_neg (by omega)]

/-- The flags of a header fit their byte. -/
theorem frameHead_flags : (frameHead j c drift all r).flags < 256 := by
  have one : ∀ b, b2n b ≤ 1 := by decide
  have := one drift
  have := one r.rap
  have := one r.grain
  have := one (ctlP010 c.entry)
  have := one all
  simp only [frameHead]
  omega

end

/-- Each field of the header that its bytes hold whole, the activity map and the frame's bounds. -/
theorem frame_in_memory (s : State) (k : Fin 12) (j : DecJob) (c : Ctx) (drift all : Bool) (r : DecodeResult) :
     let t := writeFrame s k j c drift all r
     let w := r.width.toNat
     let h := r.height.toNat
     let p010 := ctlP010 c.entry
     let a := j.frame.toNat
     let word := fun (off len : Nat) => peekNat t (a + off) len
     let pitch := ((if p010 then 2 * w else w) + 255) / 256 * 256
     let luma := pitch * ((h + 15) / 16 * 16)
     let map := 256 + luma + luma / 2
     let stride := ((w + 15) / 16 + 63) / 64 * 64
     word 0 2 = j.stream.val ∧
     word 2 1 = 2 * b2n drift + 4 * b2n r.rap + 8 * b2n r.grain + 16 * b2n p010 + 32 * b2n all ∧
     peek t (a + 3) 1 = peek s (a + 3) 1 ∧
     word 4 4 = c.frameSeq.toNat ∧ word 8 8 = j.time.toNat ∧ word 20 2 = w ∧ word 22 2 = h ∧
     (pitch < 2 ^ 32 → word 24 4 = pitch) ∧ (map < 2 ^ 32 → word 28 4 = 256 + luma ∧ word 32 4 = map) ∧
     (stride < 2 ^ 16 → word 36 2 = stride) ∧
     (∀ i b, i < (h + 15) / 16 → b < (w + 15) / 16 → peek t (a + map + i * stride + b) 1 =
       [if all then 0xFF else mapByte c.entry (r.blocks.getD (i * ((w + 15) / 16) + b) ⟨[], []⟩)]) ∧
     ∀ z, z < a ∨ a + map + stride * ((h + 15) / 16) ≤ z → peek t z 1 = peek s z 1 := by
  intro t w h p010 a word pitch luma map stride
  obtain ⟨hstream, hflags⟩ := headStart_fields (frameHead j c drift all r)
  obtain ⟨hseq, htime, hwidth, hheight, hpitch, hchroma, hmap, hstride⟩ := headRest_fields (frameHead j c drift all r)
  have start : ∀ {off n v : Nat}, off + n ≤ 3 → v < 256 ^ n → fieldOf (headStart (frameHead j c drift all r)) off n = v % 256 ^ n →
      word off n = v := fun h hv hf =>
    (peekNat_frame_start s k j c drift all r h).trans (hf.trans (Nat.mod_eq_of_lt hv))
  have rest : ∀ {off n v : Nat}, off + n ≤ 252 → v < 256 ^ n → fieldOf (headRest (frameHead j c drift all r)) off n = v % 256 ^ n →
      word (4 + off) n = v := fun h hv hf =>
    (peekNat_frame_rest s k j c drift all r h).trans (hf.trans (Nat.mod_eq_of_lt hv))
  refine ⟨?_, ?_, peek_frame_ref s k j c drift all r, ?_, ?_, ?_, ?_, fun hp => ?_, fun hm => ⟨?_, ?_⟩, fun hs => ?_,
    fun i b hi hb => ?_, fun z hz => ?_⟩
  · exact start (off := 0) (n := 2) (by decide) (Nat.lt_trans j.stream.isLt (by decide)) hstream
  · exact start (off := 2) (n := 1) (by decide) (frameHead_flags j c drift all r) hflags
  · exact rest (off := 0) (n := 4) (by decide) c.frameSeq.isLt hseq
  · exact rest (off := 4) (n := 8) (by decide) j.time.isLt htime
  · exact rest (off := 16) (n := 2) (by decide) r.width.isLt hwidth
  · exact rest (off := 18) (n := 2) (by decide) r.height.isLt hheight
  · exact rest (off := 20) (n := 4) (by decide) hp hpitch
  · exact rest (off := 24) (n := 4) (by decide) (Nat.lt_of_le_of_lt (Nat.le_add_right _ _) hm) hchroma
  · exact rest (off := 28) (n := 4) (by decide) hm hmap
  · exact rest (off := 32) (n := 2) (by decide) hs hstride
  · exact peek_frame_map s k j c drift all r hi hb
  · exact peek_frame_outside s k j c drift all r hz

end Sys2Proof.Frames

/-! ## What happens beside the streams: pools, holds, offers, records and requests (R76, R77, R110, R279 to R287) -/

namespace Sys2Proof.Traffic

open Sys2Proof.Machine Sys2Proof.Laws Sys2Proof.HostAccess

/-- What is known of the streams, the invalidates, the cores, the decoders, shapers and encoders, the errors in hidden
memories and the clock is kept, and so are the registers of the stream contexts. -/
structure Beside (s t : State) : Prop where
  streams : t.streams = s.streams
  invalidates : t.invalidates = s.invalidates
  cores : t.cores = s.cores
  vds : t.vds = s.vds
  shs : t.shs = s.shs
  ves : t.ves = s.ves
  hidden : t.hidden = s.hidden
  clock : t.clock = s.clock
  regs : CtxRegs s t

theorem beside_refl (s : State) : Beside s s := ⟨rfl, rfl, rfl, rfl, rfl, rfl, rfl, rfl, fun _ _ _ => rfl⟩

theorem beside_trans {s t u : State} (h : Beside s t) (h' : Beside t u) : Beside s u :=
  ⟨h'.streams.trans h.streams, h'.invalidates.trans h.invalidates, h'.cores.trans h.cores, h'.vds.trans h.vds, h'.shs.trans h.shs,
    h'.ves.trans h.ves, h'.hidden.trans h.hidden, h'.clock.trans h.clock, ctxRegs_trans h.regs h'.regs⟩

theorem beside_ite {s t u : State} (c : Prop) [Decidable c] (h : Beside s t) (h' : Beside s u) : Beside s (if c then t else u) :=
  iteInduction (fun _ => h) (fun _ => h')

theorem beside_foldl {α : Type} {f : State → α → State} (h : ∀ s a, Beside s (f s a)) (s : State) (l : List α) :
    Beside s (l.foldl f s) :=
  foldl_steps beside_refl (fun _ _ _ => beside_trans) h s l

theorem beside_of_checked {s t : State} (h : Checked s t) : Beside s t := by
  obtain ⟨ht, hk⟩ := h
  rw [ht] at hk ⊢
  exact ⟨rfl, rfl, rfl, rfl, rfl, rfl, rfl, rfl, hk⟩

theorem beside_logIt (s : State) (p : Fin 3) (cls detail sev unit arg0 arg1 : Nat) :
    Beside s (logIt s p cls detail sev unit arg0 arg1) := beside_of_checked (checked_logIt s _ _ _ _ _ _ _)

theorem beside_bump (s : State) {f : RegField} (hf : offCtx f = true) (i n : Nat) : Beside s (bump s f i n) :=
  beside_of_checked (checked_bump s hf i n)

theorem beside_wr (s : State) {f : RegField} (hf : offCtx f = true) (i v : Nat) : Beside s (wr s f i v) :=
  beside_of_checked (checked_wr s hf i v)

theorem beside_memRead (s : State) (req a n : Nat) : Beside s (memRead s req a n).s := beside_of_checked (checked_memRead s req a n)

theorem beside_memWrite (s : State) (req a : Nat) (bs : List Byte) (poison : Bool) : Beside s (memWrite s req a bs poison) := by
  by_cases h : bs = []
  · subst h
    exact beside_refl s
  · obtain ⟨hstreams, hinvalidates, hcores, hvds, hshs, hves, hhidden, hclock, hregs⟩ :=
      beside_of_checked (checked_writeChecks s req a bs.length poison)
    rw [memWrite_eq s req a poison h]
    exact ⟨hstreams, hinvalidates, hcores, hvds, hshs, hves, hhidden, hclock, ctxRegs_trans hregs (ctxRegs_of_regs rfl rfl)⟩

/-! ### Parts of the state that no stream owns -/

theorem beside_modPool (s : State) (p : Fin 8) (f : Pool → Pool) : Beside s (modPool s p f) :=
  ⟨rfl, rfl, rfl, rfl, rfl, rfl, rfl, rfl, ctxRegs_of_regs rfl rfl⟩

theorem beside_modMq (s : State) (m : Fin 16) (f : MqSt → MqSt) : Beside s (modMq s m f) :=
  ⟨rfl, rfl, rfl, rfl, rfl, rfl, rfl, rfl, ctxRegs_of_regs rfl rfl⟩

theorem beside_modDma (s : State) (k : Fin 64) (f : DmaCh → DmaCh) : Beside s (modDma s k f) :=
  ⟨rfl, rfl, rfl, rfl, rfl, rfl, rfl, rfl, ctxRegs_of_regs rfl rfl⟩

theorem beside_modBq (s : State) (c q : Fin 4) (f : Bq → Bq) : Beside s (modBq s c q f) :=
  ⟨rfl, rfl, rfl, rfl, rfl, rfl, rfl, rfl, ctxRegs_of_regs rfl rfl⟩

theorem beside_order (s : State) (n : Nat) : Beside s { s with order := n } :=
  ⟨rfl, rfl, rfl, rfl, rfl, rfl, rfl, rfl, ctxRegs_of_regs rfl rfl⟩

theorem beside_freeCtr (s : State) (n : Nat) : Beside s { s with freeCtr := n } :=
  ⟨rfl, rfl, rfl, rfl, rfl, rfl, rfl, rfl, ctxRegs_of_regs rfl rfl⟩

theorem beside_allocOut (s : State) (a : Addr) : Beside s { s with allocOut := a } :=
  ⟨rfl, rfl, rfl, rfl, rfl, rfl, rfl, rfl, ctxRegs_of_regs rfl rfl⟩

theorem beside_pba (s : State) (b : BitVec 2048) : Beside s { s with pba := b } :=
  ⟨rfl, rfl, rfl, rfl, rfl, rfl, rfl, rfl, ctxRegs_of_regs rfl rfl⟩

theorem beside_offers (s : State) (l : List Offer) : Beside s { s with offers := l } :=
  ⟨rfl, rfl, rfl, rfl, rfl, rfl, rfl, rfl, ctxRegs_of_regs rfl rfl⟩

theorem beside_encReqs (s : State) (l : List EncReq) : Beside s { s with encReqs := l } :=
  ⟨rfl, rfl, rfl, rfl, rfl, rfl, rfl, rfl, ctxRegs_of_regs rfl rfl⟩

theorem beside_veGot (s : State) (v : Vector (List Addr) 4) : Beside s { s with veGot := v } :=
  ⟨rfl, rfl, rfl, rfl, rfl, rfl, rfl, rfl, ctxRegs_of_regs rfl rfl⟩

theorem beside_ltrUpdate (s : State) : Beside s (ltrUpdate s) := by
  rcases ltrUpdate_cases s with h | ⟨l, h⟩ <;> rw [h]
  · exact beside_refl s
  · exact ⟨rfl, rfl, rfl, rfl, rfl, rfl, rfl, rfl, ctxRegs_wr s (f := R.HIF_LINK_STATUS_PM) (by decide) 0 0⟩

/-! ### Records -/

theorem beside_postRecord (m : Fin 16) (s : State) (bytes : List Byte) : Beside s (postRecord m s bytes) := by
  have queued : ∀ f, Beside s (ltrUpdate (modMq { s with order := s.order + 1 } m f)) := fun f =>
    beside_trans (beside_order s _) (beside_trans (beside_modMq _ m f) (beside_ltrUpdate _))
  unfold postRecord postEntry
  exact beside_ite _ (beside_trans (queued _) (beside_bump _ (by decide) _ _)) (queued _)

theorem beside_postDec (s : State) (n : Fin 1024) (code : Nat) (i : DecInfo) : Beside s (postDec s n code i) := by
  unfold postDec
  split
  · exact beside_postRecord _ s _
  · exact beside_refl s

/-! ### Pools -/

theorem beside_setReady (s : State) (p : Fin 8) (l : List Nat) : Beside s (setReady s p l) :=
  beside_trans (beside_modPool s p _) (beside_wr _ (by decide) _ _)

theorem beside_updateLevel (s : State) (p : Fin 8) : Beside s (updateLevel s p) := by
  unfold updateLevel
  have entered := beside_trans (beside_wr s (f := R.BPM_POOL_STATUS_LEVEL) (by decide) p.val (nextLevel s p))
    (beside_logIt _ planeData 0x41 (0x10 + nextLevel s p) (if nextLevel s p = 0 then 0 else 2) 45 p.val 0)
  exact beside_ite _ (beside_refl s) (beside_ite _ (beside_trans entered (beside_pba _ _)) entered)

theorem beside_raiseTo (s : State) {f : RegField} (hf : offCtx f = true) (i v : Nat) : Beside s (raiseTo s f i v) := beside_wr s hf i _

theorem beside_setFree (s : State) (p : Fin 8) (n : Nat) : Beside s (setFree s p n) :=
  beside_trans (beside_wr s (by decide) _ _) (beside_trans (beside_raiseTo _ (by decide) _ _) (beside_updateLevel _ p))

theorem beside_notePool (s : State) (p : Fin 8) : Beside s (notePool s p) := beside_modPool s p _

theorem beside_grant (s : State) (p : Fin 8) (live : Bool) : Beside s (grant s p live) := by
  have noted : ∀ u : State, Beside u (if live then u else modPool u p (fun x => { x with lastOther := some u.clock.cyc })) := fun u =>
    beside_ite _ (beside_refl u) (beside_modPool u p _)
  have held : ∀ (u : State) (a : Nat), Beside u (if poolHolds u p then memWrite u reqBpm (a + 3) [1] false else u) := fun u a =>
    beside_ite _ (beside_memWrite u _ _ _ _) (beside_refl u)
  have handed : ∀ (u : State) (n : Nat) (a : Addr), Beside u (notePool { setFree u p n with allocOut := a } p) := fun u n a =>
    beside_trans (beside_setFree u p n) (beside_trans (beside_allocOut _ a) (beside_notePool _ p))
  unfold grant
  split
  · exact beside_allocOut s 0
  · exact beside_trans (beside_setReady s p _) (beside_trans (noted _) (beside_trans (held _ _)
      (beside_trans (beside_bump _ (f := R.BPM_POOL_ALLOCS) (by decide) _ _) (handed _ _ _))))

theorem beside_deliver (s : State) (u : PoolUser) : Beside s (deliver s u) := by
  cases u with
  | unit => exact beside_refl s
  | encoder k => exact beside_veGot s _
  | channel k => exact beside_modDma s k (fun d => { d with buf := some s.allocOut })

theorem beside_serveOne (s : State) (p : Fin 8) : Beside s (serveOne s p) := by
  unfold serveOne
  split
  · exact beside_refl s
  · split
    · exact beside_refl s
    · exact beside_trans (beside_modPool s p _) (beside_trans (beside_grant _ p _) (beside_deliver _ _))

theorem beside_serveWaiting (s : State) (p : Fin 8) : Beside s (serveWaiting s p) :=
  beside_trans (beside_notePool s p) (beside_foldl (fun u _ => beside_serveOne u p) _ _)

theorem beside_setBitmap (s : State) (p : Fin 8) (i : Nat) (b : Bool) : Beside s (setBitmap s p i b) := by
  unfold setBitmap
  exact beside_trans (beside_memRead s _ _ _) (beside_memWrite _ _ _ _ _)

theorem beside_returnBuffer (s : State) (p : Fin 8) (i : Nat) : Beside s (returnBuffer s p i) :=
  beside_trans (beside_setBitmap s p i true) (beside_trans (beside_modPool _ p _) (beside_trans (beside_bump _ (by decide) _ _)
    (beside_trans (beside_setFree _ p _) (beside_serveWaiting _ p))))

/-! ### Holds -/

theorem beside_setHold (s : State) (p : Fin 8) (i n : Nat) : Beside s (setHold s p i n) :=
  beside_trans (beside_memRead s _ _ _) (beside_memWrite _ _ _ _ _)

theorem beside_bpmError (s : State) (p : Option (Fin 8)) (a code : Nat) : Beside s (bpmError s p a code) := by
  have recorded : ∀ u : State, Beside u (logIt (wrb (wr (wr u R.BPM_ERR_LAST_PTR 0 a) R.BPM_ERR_LAST_CODE 0 code)
      R.BPM_ERR_LAST_VALID 0 true) planeData 0x41 code 3 45 a 0) := fun u =>
    beside_trans (beside_wr u (by decide) _ _) (beside_trans (beside_wr _ (by decide) _ _)
      (beside_trans (beside_wr _ (f := R.BPM_ERR_LAST_VALID) (by decide) _ _) (beside_logIt _ _ _ _ _ _ _ _)))
  cases p with
  | none => exact recorded s
  | some q => exact beside_trans (beside_bump s (f := R.BPM_POOL_ERRORS) (by decide) q.val 1) (recorded _)

theorem beside_dropHold (s : State) (p : Fin 8) (i : Nat) : Beside s (dropHold s p i) := by
  unfold dropHold
  split
  · exact beside_trans (beside_bpmError s _ _ _) (beside_returnBuffer _ p i)
  · exact beside_trans (beside_setHold s p i 0) (beside_returnBuffer _ p i)
  · exact beside_setHold s p i _

theorem beside_bpmOp (s : State) (op : BpmOp) (a : Nat) : Beside s (bpmOp s op a) := by
  unfold bpmOp
  split
  · exact beside_bpmError s none a 1
  · refine beside_ite _ (beside_bpmError s _ _ _) ?_
    cases op with
    | hold => exact beside_setHold s _ _ _
    | release => exact beside_dropHold s _ _
    | free => exact beside_ite _ (beside_dropHold s _ _) (beside_returnBuffer s _ _)

theorem beside_release (s : State) (a : Addr) : Beside s (release s a) := beside_bpmOp s .release a.toNat

theorem beside_releaseAll (s : State) (l : List Addr) : Beside s (releaseAll s l) := beside_foldl beside_release s l

/-! ### Offers and requests -/

theorem beside_skipOffers (s : State) (f : Offer → Bool) : Beside s (skipOffers s f) :=
  beside_trans (beside_offers s _) (beside_foldl (fun u o => beside_trans (beside_release u _) (beside_bump _ (by decide) _ _)) _ _)

theorem beside_freeUnused (s : State) (r : EncReq) : Beside s (freeUnused s r) :=
  beside_foldl (fun u (a : Addr) => beside_bpmOp u .free a.toNat) s _

theorem beside_dropReq (s : State) (id : Nat) : Beside s (dropReq s id) := beside_encReqs s _

theorem beside_endRequest (s : State) (r : EncReq) (status : Nat) : Beside s (endRequest s r status) := by
  unfold endRequest
  exact beside_trans (beside_releaseAll s _) (beside_trans (beside_freeUnused _ r) (beside_trans (beside_dropReq _ r.id)
    (beside_trans (beside_freeCtr _ _) (beside_postRecord _ _ _))))

theorem beside_checkRequest (s : State) (r : EncReq) : Beside s (checkRequest s r) :=
  beside_ite _ (beside_refl s) (beside_ite _ (beside_endRequest s r _) (beside_ite _ (beside_endRequest s r _) (beside_refl s)))

theorem beside_checkId (s : State) (id : Nat) : Beside s (checkId s id) := by
  unfold checkId
  split
  · exact beside_checkRequest s _
  · exact beside_refl s

theorem beside_encClose (s : State) (n : Fin 1024) : Beside s (encClose s n) :=
  beside_trans (beside_encReqs s _) (beside_foldl beside_checkId _ _)

theorem beside_dropReplacements (s : State) (n : Fin 1024) : Beside s (dropReplacements s n) :=
  beside_foldl (fun u c => beside_foldl (fun v q => beside_trans (beside_releaseAll v _) (beside_modBq _ c q _)) u _) s _

end Sys2Proof.Traffic

/-! ## What is known of a stream (R41 to R48, R68) -/

namespace Sys2Proof.Streams

open Sys2Proof.Machine Sys2Proof.Laws Sys2Proof.HostAccess Sys2Proof.Traffic

/-! ### One stream changes -/

@[simp] theorem streamOf_modStream (s : State) (n : Fin 1024) (f : Stream → Stream) :
    streamOf (modStream s n f) n = f (streamOf s n) :=
  storeGet_set_same _ _ _ _

theorem streamOf_modStream_other (s : State) {n m : Fin 1024} (f : Stream → Stream) (h : m ≠ n) :
    streamOf (modStream s n f) m = streamOf s m :=
  storeGet_set_other _ _ _ _ _ (fun e => h (Fin.ext e))

@[simp] theorem streamOf_modCtx (s : State) (n : Fin 1024) (f : Ctx → Ctx) :
    streamOf (modCtx s n f) n = { streamOf s n with ctx := (streamOf s n).ctx.map f } :=
  streamOf_modStream s n _

theorem streamOf_modCtx_other (s : State) {n m : Fin 1024} (f : Ctx → Ctx) (h : m ≠ n) : streamOf (modCtx s n f) m = streamOf s m :=
  streamOf_modStream_other s _ h

theorem streamOf_congr {s t : State} (h : t.streams = s.streams) (n : Fin 1024) : streamOf t n = streamOf s n := by
  unfold streamOf
  rw [h]

/-- A field that `f` leaves alone stays as it was in every stream. -/
theorem field_modStream {α : Type} (g : Stream → α) (s : State) (n m : Fin 1024) {f : Stream → Stream} (h : ∀ x, g (f x) = g x) :
    g (streamOf (modStream s n f) m) = g (streamOf s m) := by
  by_cases hm : m = n
  · subst hm
    rw [streamOf_modStream, h]
  · rw [streamOf_modStream_other s f hm]

/-! ### Reads of what can be read -/

/-- The registers in which a read is counted, and those of lost log entries. -/
def seenFields : List RegField := R.LOG_QDROP_MGMT :: R.LOG_QDROP_CTRL :: R.LOG_QDROP_DATA :: beatFields

/-- Nothing has changed but what a read counts and logs and the corrected errors of hidden memories. -/
def Seen (s t : State) : Prop :=
  t = { s with
    regs := t.regs, logQ := t.logQ, logLost := t.logLost, hiddenCe := t.hiddenCe, dramChs := t.dramChs
    freeCtr := t.freeCtr } ∧ KeepsBut seenFields s t

theorem seen_refl (s : State) : Seen s s := ⟨rfl, fun _ _ _ => rfl⟩

theorem seen_trans {s t u : State} (h : Seen s t) (h' : Seen t u) : Seen s u := by
  obtain ⟨ht, hk⟩ := h
  obtain ⟨hu, hk'⟩ := h'
  refine ⟨?_, keepsBut_trans hk hk'⟩
  rw [hu, ht]

theorem seen_foldl {α : Type} {f : State → α → State} {P : State → Prop} {l : List α}
    (h : ∀ s, P s → ∀ a ∈ l, Seen s (f s a) ∧ P (f s a)) (s : State) (hs : P s) : Seen s (l.foldl f s) := by
  induction l generalizing s with
  | nil => exact seen_refl s
  | cons a l ih =>
    obtain ⟨seen, hp⟩ := h s hs a List.mem_cons_self
    exact seen_trans seen (ih (fun u hu b hb => h u hu b (List.mem_cons_of_mem _ hb)) (f s a) hp)

theorem besides_mono {l l' : List RegField} (h : ∀ f ∈ l, f ∈ l') {g : RegField} (hg : besides l' g = true) : besides l g = true := by
  simp only [besides, Bool.and_eq_true, List.all_eq_true] at hg ⊢
  exact ⟨hg.1, fun f hf => hg.2 f (h f hf)⟩

theorem seen_of_counted {s t : State} (h : Counted s t) : Seen s t := by
  obtain ⟨ht, hk⟩ := h
  refine ⟨by rw [ht], fun g i hg => hk g i (besides_mono (fun f hf => ?_) hg)⟩
  exact List.mem_cons_of_mem _ (List.mem_cons_of_mem _ (List.mem_cons_of_mem _ hf))

theorem qdropField_mem_seenFields (p : Fin 3) : qdropField p ∈ seenFields := by
  fin_cases p <;> simp [qdropField, seenFields]

theorem seen_logIt (s : State) (p : Fin 3) (cls detail sev unit arg0 arg1 : Nat) : Seen s (logIt s p cls detail sev unit arg0 arg1) := by
  obtain ⟨r, q, l, h⟩ := logPush_frame s p (eventEntry s p cls detail sev unit arg0 arg1)
  refine ⟨by rw [logIt_eq, h], fun g i hg => logIt_regsKept s p _ _ _ _ _ _ g i fun hk => ?_⟩
  exact regKey_ne_of_besides hg (qdropField_mem_seenFields p) i 0 (List.mem_singleton.mp hk)

theorem beside_of_seen {s t : State} (h : Seen s t) : Beside s t := by
  obtain ⟨ht, hk⟩ := h
  have regs : CtxRegs s t := ctxRegs_of_keepsBut hk (by decide)
  rw [ht] at regs ⊢
  exact ⟨rfl, rfl, rfl, rfl, rfl, rfl, rfl, rfl, regs⟩

/-- A hidden memory without an uncorrectable error can be read. -/
theorem hiddenRead_ok {s : State} {m : HiddenMem} (h : m ∉ s.hidden) : (hiddenRead s m).2 = false ∧ Seen s (hiddenRead s m).1 := by
  unfold hiddenRead
  rw [if_neg (by simpa using h)]
  split
  · refine ⟨rfl, seen_trans (t := { s with hiddenCe := s.hiddenCe.filter (fun x => x != m) }) ⟨rfl, keepsBut_of_regs _ rfl rfl⟩ ?_⟩
    exact seen_logIt _ _ _ _ _ _ _ _
  · exact ⟨rfl, seen_refl s⟩

theorem seen_ctxCopyRead {s : State} {n : Fin 1024} (h : .ctx n ∉ s.hidden) : Seen s (ctxCopyRead s n).1 := by
  obtain ⟨hok, seen⟩ := hiddenRead_ok h
  unfold ctxCopyRead
  split
  · exact seen_refl s
  · dsimp only
    rw [hok]
    exact seen

/-! ### Write-backs and errors -/

/-- The write-back of a cached copy that can be read. -/
theorem writeBack_ok {s : State} {n : Fin 1024} {c : Ctx} (h : .ctx n ∉ s.hidden) (hc : (streamOf s n).ctx = some c) :
    ∃ u, Beside s u ∧ writeBack s n = modCtx u n (fun x => { x with dirty := false }) := by
  have read := beside_of_seen (seen_ctxCopyRead h)
  refine ⟨memWrite (ctxCopyRead s n).1 reqDma (ctxAddr (ctxCopyRead s n).1 n + 0x40) (deviceFields c) false,
    beside_trans read (beside_memWrite _ _ _ _ _), ?_⟩
  have cached : (streamOf (ctxCopyRead s n).1 n).ctx = some c := by rw [streamOf_congr read.streams, hc]
  simp only [writeBack, cached]

/-- A stream whose cached copy can be read enters ERROR (R68). -/
theorem schedError_ok {s : State} {n : Fin 1024} {c : Ctx} (code detail : Nat) (h : .ctx n ∉ s.hidden) (hc : (streamOf s n).ctx = some c) :
    (schedError s n code detail).cores = s.cores ∧ (schedError s n code detail).vds = s.vds ∧
      streamOf (schedError s n code detail) n =
        { streamOf s n with ctx := some { c with error := true, dirty := false }, readyAt := none } := by
  obtain ⟨u, seq, posted, eq⟩ : ∃ u a, Beside s u ∧ schedError s n code detail =
      writeBack (modStream (modCtx (logIt u planeCtrl 0x20 code 3 unitSched n.val a) n (fun c => { c with error := true })) n
        (fun x => { x with readyAt := none })) n :=
    ⟨_, _, beside_postDec s n code { detail := detail, time := now s }, rfl⟩
  have logged := beside_trans posted (beside_logIt u planeCtrl 0x20 code 3 unitSched n.val seq)
  let v := modStream (modCtx (logIt u planeCtrl 0x20 code 3 unitSched n.val seq) n (fun c => { c with error := true })) n
    (fun x => { x with readyAt := none })
  have marked : streamOf v n = { streamOf s n with ctx := some { c with error := true }, readyAt := none } := by
    simp only [v, streamOf_modStream, streamOf_modCtx, streamOf_congr logged.streams, hc, Option.map_some]
  obtain ⟨w, written, eq'⟩ := writeBack_ok (s := v) (n := n) (by rw [show v.hidden = s.hidden from logged.hidden]; exact h)
    (congrArg Stream.ctx marked)
  rw [eq, eq']
  refine ⟨written.cores.trans logged.cores, written.vds.trans logged.vds, ?_⟩
  rw [streamOf_modCtx, streamOf_congr written.streams, marked]
  rfl

end Sys2Proof.Streams

/-! ## The stream that an idle decoder takes (R58 to R60, R285) -/

namespace Sys2Proof.Dispatch

open Sys2Proof.Machine Sys2Proof.Laws Sys2Proof.HostAccess Sys2Proof.Traffic Sys2Proof.Streams Sys2Proof.Entries

/-! ### The earliest of a list -/

/-- The element kept so far, or one with a smaller measure. -/
def earlier {α : Type} (f : α → Nat) (o : Option α) (e : α) : Option α :=
  match o with
  | none => some e
  | some v => if f e < f v then some e else some v

theorem foldl_earlier_some {α : Type} (f : α → Nat) (v : α) (l : List α) :
    ∃ w, l.foldl (earlier f) (some v) = some w ∧ w ∈ v :: l ∧ ∀ e ∈ v :: l, f w ≤ f e := by
  induction l generalizing v with
  | nil => exact ⟨v, rfl, List.mem_cons_self, fun e he => by rw [List.mem_singleton.mp he]⟩
  | cons a l ih =>
    have kept : earlier f (some v) a = some (if f a < f v then a else v) := by
      simp only [earlier]
      split <;> rfl
    obtain ⟨w, hw, hmem, hmin⟩ := ih (if f a < f v then a else v)
    refine ⟨w, by rw [List.foldl_cons, kept, hw], ?_, fun e he => ?_⟩
    · rcases List.mem_cons.mp hmem with rfl | h
      · split <;> simp
      · simp [h]
    · have head := hmin _ List.mem_cons_self
      rcases List.mem_cons.mp he with rfl | he
      · split at head <;> omega
      · rcases List.mem_cons.mp he with rfl | he
        · split at head <;> omega
        · exact hmin e (List.mem_cons_of_mem _ he)

theorem foldl_earlier_none {α : Type} (f : α → Nat) (l : List α) :
    (l.foldl (earlier f) none = none → l = []) ∧
      ∀ w, l.foldl (earlier f) none = some w → w ∈ l ∧ ∀ e ∈ l, f w ≤ f e := by
  cases l with
  | nil => exact ⟨fun _ => rfl, fun w hw => by cases hw⟩
  | cons a l =>
    obtain ⟨w, hw, hmem, hmin⟩ := foldl_earlier_some f a l
    have eq : (a :: l).foldl (earlier f) none = some w := hw
    refine ⟨fun h => absurd (eq.symm.trans h) (Option.some_ne_none w), fun w' hw' => ?_⟩
    rw [eq] at hw'
    cases hw'
    exact ⟨hmem, hmin⟩

/-! ### The next stream -/

/-- The ready streams of a rank. -/
def ranked (s : State) (live : Bool) : List (Fin 1024 × Stream) :=
  (cachedStreams s).filter (fun e => isLive e.2 == live && streamReady s e.1 e.2)

theorem mem_ranked (s : State) (live : Bool) (e : Fin 1024 × Stream) :
    e ∈ ranked s live ↔ e ∈ cachedStreams s ∧ isLive e.2 = live ∧ streamReady s e.1 e.2 = true := by
  simp [ranked]

theorem headOf_eq (s : State) (live : Bool) :
    headOf s live = ((ranked s live).foldl (earlier (fun e => readySince s e.2)) none).map (fun e => e.1) := by
  unfold headOf ranked
  refine congrArg (Option.map _) (congrArg (fun f => List.foldl f none _) ?_)
  funext o e
  cases o <;> rfl

/-- The head is a ready stream of its rank, and none became ready before it. -/
theorem headOf_some {s : State} {live : Bool} {n : Fin 1024} (h : headOf s live = some n) :
    ∃ x, ((n, x) ∈ cachedStreams s ∧ streamReady s n x = true) ∧ isLive x = live ∧
      ∀ e, e ∈ cachedStreams s ∧ streamReady s e.1 e.2 = true → isLive e.2 = live → readySince s x ≤ readySince s e.2 := by
  rw [headOf_eq] at h
  obtain ⟨⟨m, x⟩, hx, rfl⟩ := Option.map_eq_some_iff.mp h
  obtain ⟨hmem, hmin⟩ := (foldl_earlier_none _ _).2 _ hx
  obtain ⟨hcached, hlive, hready⟩ := (mem_ranked s live _).mp hmem
  exact ⟨x, ⟨hcached, hready⟩, hlive, fun e he hrank => hmin e ((mem_ranked s live e).mpr ⟨he.1, hrank, he.2⟩)⟩

theorem headOf_none {s : State} {live : Bool} (h : headOf s live = none) (e : Fin 1024 × Stream)
    (he : e ∈ cachedStreams s ∧ streamReady s e.1 e.2 = true) : isLive e.2 ≠ live := by
  rw [headOf_eq] at h
  have empty : ranked s live = [] := (foldl_earlier_none _ _).1 (Option.map_eq_none_iff.mp h)
  intro hrank
  have ranked := (mem_ranked s live e).mpr ⟨he.1, hrank, he.2⟩
  rw [empty] at ranked
  cases ranked

/-- Live streams come first; another needs a stage below 4 and leaves the live reserve free (R58). -/
theorem nextStream_some {s : State} {n : Fin 1024} (h : nextStream s = some n) :
    headOf s true = some n ∨
      (headOf s true = none ∧ headOf s false = some n ∧ stage s < 4 ∧ nonLiveHeld s + 1 ≤ decodersInUse s - liveReserve s) := by
  unfold nextStream at h
  split at h
  next m hm => exact Or.inl (by rw [hm, Option.some.inj h])
  next hnone =>
    split at h
    · cases h
    · exact Or.inr ⟨hnone, h, by omega, by omega⟩

/-! ### What a dispatch reads -/

theorem rd_of_seen {s t : State} (h : Seen s t) (f : RegField) (i : Nat) (hf : besides seenFields f = true) : rd t f i = rd s f i :=
  h.2 f i hf

/-- Nothing is shed where nothing was. -/
theorem calm_of_seen {s t : State} (h : Seen s t) (ho : stage s < 4 ∨ s.offers = []) : stage t < 4 ∨ t.offers = [] := by
  rw [stage, rd_of_seen h _ _ (by decide), h.1]
  exact ho

theorem inMemory_of_seen {s t : State} (h : Seen s t) (a n : Nat) : inMemory t a n = inMemory s a n := by
  have window := rd_of_seen h R.DRC_WINDOW 0 (by decide)
  unfold inMemory mapped regionOf
  rw [window]

theorem badWords_of_seen {s t : State} (h : Seen s t) (a n : Nat) : badWords t a n = badWords s a n :=
  badWords_congr (by rw [h.1]) (rd_of_seen h _ _ (by decide)) a n

theorem peekChunk_of_seen {s t : State} (h : Seen s t) (c : Ctx) : peekChunk t c = peekChunk s c := by
  funext count
  have mem : t.mem = s.mem := by rw [h.1]
  have covers : eccCovers t (chunkAddr c count) = eccCovers s (chunkAddr c count) := by
    unfold eccCovers rdb
    rw [rd_of_seen h R.DRC_WINDOW 0 (by decide), rd_of_seen h R.DRC_CFG_ECC_EN 0 (by decide)]
  unfold peekChunk peek
  dsimp only
  rw [inMemory_of_seen h, covers, badWords_of_seen h, mem]

theorem nextChunks_of_seen {s t : State} (h : Seen s t) (x : Stream) (c : Ctx) : nextChunks t x c = nextChunks s x c := by
  unfold nextChunks
  rw [peekChunk_of_seen h]

theorem framePoolOk_of_seen {s t : State} (h : Seen s t) (e : BitVec 2048) : framePoolOk t e = framePoolOk s e := by
  unfold framePoolOk poolEn poolHolds rdb
  rw [rd_of_seen h R.BPM_POOL_CFG_EN _ (by decide), rd_of_seen h R.BPM_POOL_CFG_HOLD_EN _ (by decide)]

theorem seen_readGroup {s : State} {c : Ctx} {k len : Nat} (h : ∀ i, i < len → badWords s (chunkAddr c (k + i)) 16 = []) :
    Seen s (readGroup s c k len) := by
  refine seen_foldl (P := Seen s) (fun u hu i hi => ?_) s (seen_refl s)
  split
  · have clean : badWords u (chunkAddr c (k + i)) 16 = [] := by rw [badWords_of_seen hu, h i (List.mem_range.mp hi)]
    have read : Seen u (memRead u reqDma (chunkAddr c (k + i)) 16).s := by
      rw [memRead_clean reqDma clean]
      exact seen_of_counted (counted_beats u _ _ _ _)
    exact ⟨read, seen_trans hu read⟩
  · exact ⟨seen_refl u, hu⟩

/-- An access unit is taken: its stream enters ERROR if R285 forbids its pool, and is dispatched otherwise. -/
theorem takeUnitOf_unit {s : State} (k : Fin 12) {n : Fin 1024} {c : Ctx} {g : List Chunk} (hc : (streamOf s n).ctx = some c)
    (hg : nextChunks s (streamOf s n) c = some g) (hu : formsUnit g = true) (hh : .ctx n ∉ s.hidden)
    (hb : ∀ i, i < g.length → badWords s (chunkAddr c (c.chunkCons.toNat + i)) 16 = []) :
    ∃ v, Seen s v ∧
      takeUnitOf s k n = if framePoolOk s c.entry = true then dispatchUnit v k n c g else schedError v n 10 8 := by
  have copied := seen_ctxCopyRead hh
  have cached := streamOf_congr (beside_of_seen copied).streams n
  have complete := (nextChunks_of_seen copied (streamOf s n) c).trans hg
  have read := seen_trans copied (seen_readGroup (c := c) (k := c.chunkCons.toNat) (len := g.length) fun i hi => by
    rw [badWords_of_seen copied, hb i hi])
  have pool := framePoolOk_of_seen read c.entry
  refine ⟨_, read, ?_⟩
  unfold takeUnitOf
  -- Named as an opaque function, so that the kernel does not evaluate it where it checks the choice of a case.
  obtain ⟨chunks, hchunks⟩ : ∃ f, f = nextChunks := ⟨_, rfl⟩
  rw [← hchunks] at complete ⊢
  simp only [cached, hc, complete, pool, hu, if_true]
  cases framePoolOk s c.entry <;> simp

/-! ### Whether its stream is live, and its buffer -/

/-- What an allocation hangs on: registers, the ready list, the last grant and the clock. -/
theorem canAlloc_congr {s t : State} {p : Fin 8} (live : Bool)
    (hr : ∀ f ∈ [R.BPM_POOL_CFG_EN, R.BPM_POOL_CFG_INIT_DONE, R.BPM_POOL_STATUS_FREE, R.BPM_POOL_STATUS_LEVEL, R.BPM_POOL_BP_THR_GAP],
      rd t f p.val = rd s f p.val)
    (hready : t.pools[p].ready = s.pools[p].ready) (hlast : t.pools[p].lastOther = s.pools[p].lastOther) (hclock : t.clock = s.clock) :
    canAlloc t p live = canAlloc s p live := by
  simp only [List.forall_mem_cons] at hr
  obtain ⟨hen, hinit, hfree, hlevel, hgap, -⟩ := hr
  unfold canAlloc inGap poolEn poolFree poolLevel rdb
  rw [hen, hinit, hfree, hlevel, hgap, hready, hlast, hclock]

/-- With nothing waiting only the times are noted since when the pool can grant. -/
theorem serveWaiting_none {s : State} {p : Fin 8} (h : s.pools[p].waiting = []) : serveWaiting s p = notePool s p := by
  unfold serveWaiting
  rw [h]
  rfl

/-- The registers that change where a stream is decided to be live or not. -/
def liveFields : List RegField := [R.HIF_LINK_STATUS_PM, R.LOG_QDROP_MGMT, R.LOG_QDROP_CTRL, R.LOG_QDROP_DATA]

/-- Whether stream `n` is live has been decided: no other stream, no unit, no pool and no memory has changed. -/
structure Decided (s : State) (n : Fin 1024) (t : State) : Prop where
  others : ∀ m, m ≠ n → streamOf t m = streamOf s m
  cores : t.cores = s.cores
  vds : t.vds = s.vds
  shs : t.shs = s.shs
  ves : t.ves = s.ves
  pools : t.pools = s.pools
  mem : t.mem = s.mem
  ecc : t.ecc = s.ecc
  clock : t.clock = s.clock
  invalidates : t.invalidates = s.invalidates
  regs : KeepsBut liveFields s t

theorem decided_refl (s : State) (n : Fin 1024) : Decided s n s :=
  ⟨fun _ _ => rfl, rfl, rfl, rfl, rfl, rfl, rfl, rfl, rfl, rfl, fun _ _ _ => rfl⟩

theorem decided_trans {s t u : State} {n : Fin 1024} (h : Decided s n t) (h' : Decided t n u) : Decided s n u :=
  ⟨fun m hm => (h'.others m hm).trans (h.others m hm), h'.cores.trans h.cores, h'.vds.trans h.vds, h'.shs.trans h.shs,
    h'.ves.trans h.ves, h'.pools.trans h.pools, h'.mem.trans h.mem, h'.ecc.trans h.ecc, h'.clock.trans h.clock,
    h'.invalidates.trans h.invalidates, keepsBut_trans h.regs h'.regs⟩

theorem decided_modStream (s : State) (n : Fin 1024) (f : Stream → Stream) : Decided s n (modStream s n f) :=
  ⟨fun _ hm => streamOf_modStream_other s f hm, rfl, rfl, rfl, rfl, rfl, rfl, rfl, rfl, rfl, keepsBut_of_regs _ rfl rfl⟩

theorem decided_ltrUpdate (s : State) (n : Fin 1024) : Decided s n (ltrUpdate s) := by
  rcases ltrUpdate_cases s with h | ⟨l, h⟩ <;> rw [h]
  · exact decided_refl s n
  · exact ⟨fun _ _ => rfl, rfl, rfl, rfl, rfl, rfl, rfl, rfl, rfl, rfl,
      keepsBut_wr s (f := R.HIF_LINK_STATUS_PM) (by simp [liveFields]) 0 0⟩

theorem decided_logIt (s : State) (n : Fin 1024) (p : Fin 3) (cls detail sev unit arg0 arg1 : Nat) :
    Decided s n (logIt s p cls detail sev unit arg0 arg1) := by
  refine ⟨fun m _ => streamOf_congr (logIt_streams ..) m, logIt_cores .., logIt_vds .., logIt_shs .., logIt_ves .., logIt_pools ..,
    logIt_mem .., logIt_ecc .., logIt_clock .., logIt_invalidates .., fun g i hg => ?_⟩
  have listed : qdropField p ∈ liveFields := by fin_cases p <;> simp [qdropField, liveFields]
  exact logIt_regsKept s p _ _ _ _ _ _ g i fun hk => regKey_ne_of_besides hg listed i 0 (List.mem_singleton.mp hk)

/-- No offer is shed below stage 4, or where there is none. -/
theorem shedOffers_eq {s : State} (h : stage s < 4 ∨ s.offers = []) : shedOffers s = s := by
  unfold shedOffers
  split
  · have none : s.offers = [] := by
      rcases h with h | h
      · omega
      · exact h
    simp only [skipOffers, none, List.filter_nil, List.foldl_nil]
    rw [← none]
  · rfl

theorem ltrUpdate_offers (s : State) : (ltrUpdate s).offers = s.offers := by
  rcases ltrUpdate_cases s with h | ⟨l, h⟩ <;> rw [h]
  rfl

section
variable {s : State} {n : Fin 1024} (h : stage s < 4 ∨ s.offers = [])
include h

theorem setLive_eq (b : Bool) :
    setLive s n b = ltrUpdate (modStream (modCtx s n (fun x => { x with treatedLive := b })) n
      (fun x => { x with live := b, shedSuspended := x.shedSuspended && !b })) := by
  refine shedOffers_eq (Or.imp (fun hs => ?_) (fun ho => ?_) h)
  · rw [stage, (decided_ltrUpdate _ n).regs _ _ (by decide)]
    exact hs
  · rw [ltrUpdate_offers]
    exact ho

theorem decided_setLive (b : Bool) : Decided s n (setLive s n b) := by
  rw [setLive_eq h]
  exact decided_trans (decided_modStream s n _) (decided_trans (decided_modStream _ n _) (decided_ltrUpdate _ n))

theorem streamOf_setLive (b : Bool) :
    streamOf (setLive s n b) n =
      { streamOf s n with
        ctx := (streamOf s n).ctx.map (fun x => { x with treatedLive := b }), live := b
        shedSuspended := (streamOf s n).shedSuspended && !b } := by
  rw [setLive_eq h, streamOf_congr (beside_ltrUpdate _).streams, streamOf_modStream, streamOf_modCtx]

end

/-- How it is decided whether a stream is live (R45): it stays so, is set, or is refused. -/
theorem decideLive_cases {s : State} {n : Fin 1024} {c : Ctx} (hc : (streamOf s n).ctx = some c) :
    (ctlLiveBit c.entry = true ∧ c.treatedLive = true ∧ decideLive s n = s) ∨
    (∃ b, (b = true → ctlLiveBit c.entry = true) ∧ (ctlLiveBit c.entry = true → c.treatedLive = false) ∧ decideLive s n = setLive s n b) ∨
    (ctlLiveBit c.entry = true ∧ c.treatedLive = false ∧ ∃ a, decideLive s n =
      logIt (modCtx (setLive s n false) n (fun x => { x with refused := true })) planeCtrl 0x20 0x20 2 unitSched n.val a) := by
  simp only [decideLive, hc]
  cases hl : ctlLiveBit c.entry with
  | false => exact Or.inr (Or.inl ⟨false, by simp, by simp, by simp⟩)
  | true =>
    cases ht : c.treatedLive with
    | true => exact Or.inl ⟨rfl, rfl, by simp⟩
    | false =>
      refine Or.inr ?_
      by_cases hroom : liveCount s < 256
      · exact Or.inl ⟨true, by simp, by simp, by simp [hroom]⟩
      · cases hr : c.refused with
        | true => exact Or.inl ⟨false, by simp, by simp, by simp [hroom]⟩
        | false => exact Or.inr ⟨rfl, rfl, c.frameSeq.toNat, by simp only [hroom, Bool.not_true, Bool.false_eq_true, if_false]⟩

/-- Nothing is decided anew where the stream is treated as its entry says. -/
theorem decideLive_settled {s : State} {n : Fin 1024} {c : Ctx} (hc : (streamOf s n).ctx = some c)
    (hl : c.treatedLive = ctlLiveBit c.entry) (ho : stage s < 4 ∨ s.offers = []) :
    Decided s n (decideLive s n) ∧ (streamOf (decideLive s n) n).ctx = some c ∧
      (streamOf (decideLive s n) n).arrivals = (streamOf s n).arrivals := by
  rcases decideLive_cases hc with ⟨-, -, h⟩ | ⟨b, hb, ht, h⟩ | ⟨hlive, ht, -⟩
  · rw [h]
    exact ⟨decided_refl s n, hc, rfl⟩
  · have off : ctlLiveBit c.entry = false := by
      cases hlive : ctlLiveBit c.entry with
      | false => rfl
      | true => rw [ht hlive, hlive] at hl; exact hl.symm
    have hb' : b = false := by
      cases b with
      | false => rfl
      | true => rw [hb rfl] at off; cases off
    subst hb'
    rw [h, streamOf_setLive ho, hc]
    refine ⟨decided_setLive ho false, ?_, rfl⟩
    rw [Option.map_some, ← off, ← hl]
  · rw [ht, hlive] at hl
    cases hl

/-! ### The unit goes to the decoder -/

/-- The unit that a decoder has, whose buffer has been granted in `u`. -/
def startedUnit (u : State) (x : Stream) (n : Fin 1024) (c : Ctx) (g : List Chunk) : DecJob :=
  { stream := n, live := c.treatedLive, startAt := elapsedW u, budget := budgetOf c, frame := u.allocOut, chunks := g
    time := BitVec.ofNat 64 (arrivalTime x (c.chunkCons.toNat + g.length)), conceal := none, spoiled := false }

/-- The decoder has the unit, and its stream waits for no other. -/
def heldUnit (u : State) (k : Fin 12) (n : Fin 1024) (j : DecJob) : State :=
  modStream { u with vds := u.vds.set k (some j) } n (fun x => { x with inDecode := true, readyAt := none })

/-- And the stream is the one that was dispatched last. -/
def placedUnit (u : State) (k : Fin 12) (n : Fin 1024) (j : DecJob) : State :=
  modCtx { heldUnit u k n j with order := u.order + 1 } n (fun y => { y with lastDispatch := u.order })

theorem startUnit_eq (s : State) (k : Fin 12) (n : Fin 1024) (c : Ctx) (wasLive : Bool) {g : List Chunk}
    (h : ∀ y ∈ g, y.discont = false) :
    ∃ u, Beside s u ∧ startUnit s k n c wasLive g = placedUnit u k n (startedUnit u (streamOf s n) n c g) := by
  have steady : ¬ (g.any fun x => x.discont) = true := by
    simpa using h
  have waited : ∀ v, Beside s (if (c.treatedLive && wasLive) = true then raiseTo s R.VID_LIVE_WAIT_MAX_VCYCLES 0 v else s) := fun v =>
    beside_ite _ (beside_raiseTo s (by decide) 0 v) (beside_refl s)
  refine ⟨_, beside_trans (waited (vCycles (elapsed s - readySince s (streamOf s n))))
    (beside_grant _ (ctlFramePool c.entry) c.treatedLive), ?_⟩
  unfold startUnit
  rw [if_neg steady]
  rfl

theorem streamOf_heldUnit (u : State) (k : Fin 12) (n : Fin 1024) (j : DecJob) :
    streamOf (heldUnit u k n j) n = { streamOf u n with inDecode := true, readyAt := none } :=
  streamOf_modStream _ n _

theorem streamOf_placedUnit (u : State) (k : Fin 12) (n : Fin 1024) (j : DecJob) :
    streamOf (placedUnit u k n j) n =
      { streamOf u n with
        inDecode := true, readyAt := none, ctx := (streamOf u n).ctx.map (fun y => { y with lastDispatch := u.order }) } := by
  have ordered : streamOf { heldUnit u k n j with order := u.order + 1 } n = streamOf (heldUnit u k n j) n := streamOf_congr rfl n
  rw [placedUnit, streamOf_modCtx, ordered, streamOf_heldUnit]

theorem streamOf_placedUnit_other (u : State) (k : Fin 12) {n m : Fin 1024} (j : DecJob) (h : m ≠ n) :
    streamOf (placedUnit u k n j) m = streamOf u m := by
  have held : streamOf (heldUnit u k n j) m = streamOf u m := streamOf_modStream_other _ _ h
  exact (streamOf_modCtx_other _ _ h).trans ((streamOf_congr rfl m).trans held)

theorem canAlloc_notePool (s : State) (p : Fin 8) (live : Bool) : canAlloc (notePool s p) p live = canAlloc s p live := by
  obtain ⟨x, y, noted⟩ : ∃ x y, (notePool s p).pools[p] = { s.pools[p] with okLive := x, okOther := y } :=
    ⟨_, _, Vector.getElem_set_self p.isLt⟩
  exact canAlloc_congr live (fun f _ => rfl) (by rw [noted]) (by rw [noted]) rfl

/-- An access unit for which a buffer can be had is dispatched. -/
theorem dispatchUnit_eq {s : State} (k : Fin 12) {n : Fin 1024} {c : Ctx} (g : List Chunk) (hc : (streamOf s n).ctx = some c)
    (hl : c.treatedLive = ctlLiveBit c.entry) (ho : stage s < 4 ∨ s.offers = [])
    (hw : s.pools[ctlFramePool c.entry].waiting = []) (ha : canAlloc s (ctlFramePool c.entry) c.treatedLive = true) :
    ∃ t, Decided (notePool s (ctlFramePool c.entry)) n t ∧ (streamOf t n).ctx = some c ∧
      (streamOf t n).arrivals = (streamOf s n).arrivals ∧ dispatchUnit s k n c g = startUnit t k n c c.treatedLive g := by
  obtain ⟨decided, cached, arrivals⟩ := decideLive_settled (s := notePool s (ctlFramePool c.entry)) hc hl ho
  refine ⟨_, decided, cached, arrivals, ?_⟩
  have granted : canAlloc (decideLive (notePool s (ctlFramePool c.entry)) n) (ctlFramePool c.entry) c.treatedLive = true := by
    rw [canAlloc_congr c.treatedLive (fun f hf => decided.regs f _ ?_) (by rw [decided.pools]) (by rw [decided.pools]) decided.clock,
      canAlloc_notePool, ha]
    fin_cases hf <;> decide
  unfold dispatchUnit
  rw [serveWaiting_none hw]
  simp only [cached, granted, if_true]

theorem canAlloc_of_seen {s t : State} (h : Seen s t) (p : Fin 8) (live : Bool) : canAlloc t p live = canAlloc s p live := by
  refine canAlloc_congr live (fun f hf => rd_of_seen h f _ ?_) (by rw [h.1]) (by rw [h.1]) (by rw [h.1])
  fin_cases hf <;> decide

/-- The dispatch of a unit for which a buffer can be had: beside the unit and its stream nothing that streams, cores,
shapers and encoders have changes. -/
theorem dispatchUnit_placed {s : State} (k : Fin 12) {n : Fin 1024} {c : Ctx} {g : List Chunk} (hc : (streamOf s n).ctx = some c)
    (hl : c.treatedLive = ctlLiveBit c.entry) (ho : stage s < 4 ∨ s.offers = [])
    (hw : s.pools[ctlFramePool c.entry].waiting = []) (ha : canAlloc s (ctlFramePool c.entry) c.treatedLive = true)
    (hg : ∀ y ∈ g, y.discont = false) :
    ∃ u, dispatchUnit s k n c g = placedUnit u k n (startedUnit u (streamOf s n) n c g) ∧ u.vds = s.vds ∧ elapsedW u = elapsedW s ∧
      (∀ m, m ≠ n → streamOf u m = streamOf s m) ∧ (streamOf u n).ctx = some c ∧ u.cores = s.cores ∧ u.shs = s.shs ∧ u.ves = s.ves := by
  obtain ⟨t, decided, cached, arrivals, eq⟩ := dispatchUnit_eq k g hc hl ho hw ha
  obtain ⟨u, beside, eq'⟩ := startUnit_eq t k n c c.treatedLive hg
  have noted := beside_notePool s (ctlFramePool c.entry)
  have unit : startedUnit u (streamOf t n) n c g = startedUnit u (streamOf s n) n c g := by
    unfold startedUnit arrivalTime
    rw [arrivals]
  have time : elapsedW u = elapsedW s := by
    unfold elapsedW elapsed
    rw [beside.clock, decided.clock, noted.clock]
  refine ⟨u, by rw [eq, eq', unit], ?_, time, fun m hm => ?_, ?_, ?_, ?_, ?_⟩
  · rw [beside.vds, decided.vds, noted.vds]
  · rw [streamOf_congr beside.streams, decided.others m hm, streamOf_congr noted.streams]
  · rw [streamOf_congr beside.streams, cached]
  · rw [beside.cores, decided.cores, noted.cores]
  · rw [beside.shs, decided.shs, noted.shs]
  · rw [beside.ves, decided.ves, noted.ves]

/-- A decoder that does not serve, or for which there is no stream, takes nothing. -/
theorem decoderDispatch_idle {s : State} {k : Fin 12} (h : serving s = false ∨ vdUsable s k = false ∨ rd s R.VD_CTL_EN k.val = 0 ∨
    s.vds[k] ≠ none ∨ inDroneSet s (vdUsable s) 2 k = false ∨ nextStream s = none) : decoderDispatch k s = s := by
  unfold decoderDispatch
  split
  · rfl
  next hidle =>
    simp only [Bool.or_eq_true, Bool.not_eq_true', not_or, Bool.not_eq_false, Bool.not_eq_true, Option.isSome_eq_false_iff,
      Option.isNone_iff_eq_none] at hidle
    obtain ⟨⟨⟨⟨hserving, husable⟩, hen⟩, hfree⟩, hdrone⟩ := hidle
    have none : nextStream s = none := by
      rcases h with h | h | h | h | h | h
      · rw [hserving] at h; cases h
      · rw [husable] at h; cases h
      · exact absurd h ((rdb_iff s _ _).mp hen)
      · exact absurd hfree h
      · rw [hdrone] at h; cases h
      · exact h
    rw [none]

/-- One that serves takes the stream that is next. -/
theorem decoderDispatch_takes {s : State} {k : Fin 12} {n : Fin 1024} (hs : serving s = true) (hu : vdUsable s k = true)
    (he : rd s R.VD_CTL_EN k.val ≠ 0) (hv : s.vds[k] = none) (hd : inDroneSet s (vdUsable s) 2 k = true)
    (hn : nextStream s = some n) : decoderDispatch k s = takeUnitOf s k n := by
  unfold decoderDispatch
  rw [if_neg (by rw [hs, hu, (rdb_iff s _ _).mpr he, hv, hd]; decide), hn]

/-- Settles O33: the scheduler keeps the earliest ready stream of a rank, a dispatch grants a buffer beside the streams, and
a frame lies in memory as its parts are written. -/
theorem dispatchAndFrames : Obligations.DispatchAndFrames := by
  refine ⟨fun k s => ⟨fun n hn => ?_, fun h => congrArg Host.Outcome.next (decoderDispatch_idle h), ?_, fun hrun => ?_⟩,
    fun s k j c drift all r => Frames.frame_in_memory s k j c drift all r⟩
  · rcases nextStream_some hn with h | ⟨hnone, h, hstage, hheld⟩
    · obtain ⟨x, hready, hlive, hmin⟩ := headOf_some h
      refine ⟨x, hready, fun e he hrank => hmin e he (hrank.trans hlive), fun hnot => ?_⟩
      rw [hlive] at hnot
      cases hnot
    · obtain ⟨x, hready, hlive, hmin⟩ := headOf_some h
      exact ⟨x, hready, fun e he hrank => hmin e he (hrank.trans hlive),
        fun _ => ⟨hstage, hheld, fun e he => Bool.eq_false_iff.mpr (headOf_none hnone e he)⟩⟩
  · intro n c g hs hu he hv hd hn hc hl hg hform hdis hh ho hb
    obtain ⟨v, seen, taken⟩ := takeUnitOf_unit k hc hg hform hh hb
    have beside := beside_of_seen seen
    have dispatched : exec (.decoderDispatch k) s = .next (takeUnitOf s k n) :=
      congrArg Host.Outcome.next (decoderDispatch_takes hs hu he hv hd hn)
    have cached : (streamOf v n).ctx = some c := by rw [streamOf_congr beside.streams, hc]
    refine ⟨fun hpool => ⟨_, dispatched, ?_⟩, fun hpool hw ha => ⟨_, dispatched, ?_⟩⟩
    · rw [taken, if_neg (by rw [hpool]; decide)]
      obtain ⟨hcores, hvds, hstream⟩ := schedError_ok 10 8 (s := v) (by rw [beside.hidden]; exact hh) cached
      exact ⟨hvds.trans beside.vds, hcores.trans beside.cores, _, congrArg Stream.ctx hstream, rfl, rfl⟩
    · rw [taken, if_pos hpool]
      obtain ⟨u, eq, hvds, htime, hother, hctx, hcores, hshs, hves⟩ :=
        dispatchUnit_placed (s := v) k cached hl (calm_of_seen seen ho) (by rw [seen.1]; exact hw) (by rw [canAlloc_of_seen seen, ha]) hdis
      rw [eq]
      have same : ∀ m, streamOf v m = streamOf s m := streamOf_congr beside.streams
      have time : elapsedW v = elapsedW s := by
        unfold elapsedW elapsed
        rw [beside.clock]
      refine ⟨?_, ?_, ?_, ⟨{ c with lastDispatch := u.order }, ?_, rfl, rfl, rfl⟩, fun m hm => ?_, hcores.trans beside.cores,
        hshs.trans beside.shs, hves.trans beside.ves⟩
      · have job : startedUnit u (streamOf v n) n c g = { startedUnit u (streamOf s n) n c g with startAt := elapsedW s } := by
          rw [same, startedUnit, htime, time]
        change u.vds.set k (some (startedUnit u (streamOf v n) n c g)) = _
        rw [job, hvds.trans beside.vds]
        rfl
      · rw [streamOf_placedUnit]
      · rw [streamOf_placedUnit]
      · rw [streamOf_placedUnit, hctx]
        rfl
      · rw [streamOf_placedUnit_other _ _ _ hm, hother m hm, same]
  · refine ⟨wrb s R.VD_CTL_EN k.val false, ?_, ⟨rfl, regsKept_wr s _ (by simp)⟩, ?_⟩
    · exact congrArg Host.Outcome.next (if_pos hrun)
    · rw [rd_wrb_same]
      rfl

end Sys2Proof.Dispatch

/-! ## Chunk doorbells, invalidates and context entries (R45 to R48, R51, R64, R68, R336) -/

namespace Sys2Proof.Contexts

open Sys2Proof.Machine Sys2Proof.Laws Sys2Proof.HostAccess Sys2Proof.Traffic Sys2Proof.Streams Sys2Proof.Entries Sys2Proof.Dispatch

/-! ### What says that contexts are in use -/

theorem ctxEnabled_iff (s : State) : ctxEnabled s = true ↔ rd s R.VID_CTX_CFG_ENABLE 0 ≠ 0 := rdb_iff s _ _

section
variable {s t : State} (h : CtxRegs s t)
include h

theorem ctxEnabled_congr : ctxEnabled t = ctxEnabled s := by
  unfold ctxEnabled rdb
  rw [h R.VID_CTX_CFG_ENABLE (by simp [ctxFields])]

theorem ctxCount_congr : ctxCount t = ctxCount s := h R.VID_CTX_CFG_COUNT (by simp [ctxFields]) 0

end

/-! ### Readiness hangs on neither when the stream became ready nor on other streams -/

/-- The next chunks of a stream are those in memory up to its producer count. -/
theorem nextChunks_congr {s t : State} {x y : Stream} (c : Ctx) (hp : y.prod = x.prod) (hf : t.fuses = s.fuses) (hr : t.regs = s.regs)
    (hm : t.mem = s.mem) (he : t.ecc = s.ecc) : nextChunks t y c = nextChunks s x c := by
  have reads : ∀ f i, rd t f i = rd s f i := rd_congr hf hr
  have chunk : peekChunk t c = peekChunk s c := by
    funext count
    unfold peekChunk peek inMemory mapped regionOf eccCovers rdb
    simp only [reads, hm, badWords_congr he (reads _ _)]
  unfold nextChunks chunksLeft
  rw [chunk, hp]

theorem readyBut_congr {s t : State} {n : Fin 1024} (hx : ∃ r, streamOf t n = { streamOf s n with readyAt := r })
    (ht : t = { s with streams := t.streams }) : readyBut t n = readyBut s n := by
  obtain ⟨r, hx⟩ := hx
  have next : ∀ c, nextChunks t (streamOf t n) c = nextChunks s (streamOf s n) c := fun c => by
    rw [hx]
    exact nextChunks_congr c rfl (by rw [ht]) (by rw [ht]) (by rw [ht]) (by rw [ht])
  have enabled : ctxEnabled t = ctxEnabled s := ctxEnabled_congr (ctxRegs_of_regs (by rw [ht]) (by rw [ht]))
  have invalidates : t.invalidates = s.invalidates := by rw [ht]
  unfold readyBut
  simp only [next, enabled, invalidates]
  rw [hx]

/-- What `noteReady` leaves of its stream. -/
theorem streamOf_noteReady (s : State) (n : Fin 1024) :
    streamOf (noteReady s n) n = { streamOf s n with
      readyAt := if readyBut s n then some ((streamOf s n).readyAt.getD (elapsedW s)) else none } := by
  rw [noteReady, streamOf_modStream]
  cases readyBut s n with
  | false => rfl
  | true => cases (streamOf s n).readyAt <;> simp

theorem ctx_noteReady (s : State) (n m : Fin 1024) : (streamOf (noteReady s n) m).ctx = (streamOf s m).ctx := by
  unfold noteReady
  exact field_modStream Stream.ctx s n m fun _ => rfl

theorem readyBut_noteReady (s : State) (n : Fin 1024) : readyBut (noteReady s n) n = readyBut s n :=
  readyBut_congr ⟨_, streamOf_noteReady s n⟩ rfl

/-! ### Doorbells (R336) -/

theorem doorbell_unclaimed {s : State} (h : claimed s = false) (off : Nat) (d : DbWrite) (act : State → State) :
    doorbell off d act s = s := by
  unfold doorbell
  rw [h]
  rfl

theorem doorbell_acts {s : State} {d : DbWrite} (hc : claimed s = true) (hb : d.beFull = true) (hd : d.dws = 1 ∨ d.dws = 2)
    (hs : serving s = true) (off : Nat) (act : State → State) : doorbell off d act s = act (linkUsed s) := by
  have code : doorbellCode s d = 0 := by
    rcases hd with hd | hd <;> simp [doorbellCode, hb, hd, hs]
  unfold doorbell
  rw [hc, code]
  rfl

theorem beside_linkUsed (s : State) : Beside s (linkUsed s) :=
  ⟨rfl, rfl, rfl, rfl, rfl, rfl, rfl, rfl, ctxRegs_wr s (f := R.HIF_LINK_STATUS_PM) (by decide) 0 0⟩

theorem newer_iff (p last : Nat) : newer p last = true ↔ 1 ≤ subW p last ∧ subW p last < 2 ^ 31 := by
  simp [newer]

/-! ### Producer counts (R51) -/

theorem streamOf_acceptChunks (s : State) (n : Fin 1024) (p : W32) :
    streamOf (acceptChunks s n p) n =
      { streamOf s n with prod := p, arrivals := (streamOf s n).arrivals ++ [(p, nowW s)] } :=
  streamOf_modStream s n _

theorem streamOf_acceptChunks_other (s : State) {n m : Fin 1024} (p : W32) (h : m ≠ n) :
    streamOf (acceptChunks s n p) m = streamOf s m :=
  streamOf_modStream_other s _ h

section
variable {s : State} {n : Fin 1024} {p : W32}

theorem chunkCount_unknown (h : ¬ n.val < ctxCount s) :
    chunkCount n p s = logIt s planeCtrl 0x20 0x22 3 unitSched n.val (knownSeq s n) := by
  unfold chunkCount
  rw [if_pos (Nat.le_of_not_lt h)]

variable (hk : n.val < ctxCount s)
include hk

theorem chunkCount_disabled (he : ctxEnabled s = false) : chunkCount n p s = acceptChunks s n p := by
  unfold chunkCount
  rw [if_neg (Nat.not_le_of_lt hk), he]
  rfl

variable (he : ctxEnabled s = true)
include he

theorem chunkCount_stale (h : newer p.toNat (streamOf s n).prod.toNat = false) : chunkCount n p s = s := by
  unfold chunkCount
  rw [if_neg (Nat.not_le_of_lt hk), he, h]
  rfl

variable (hn : newer p.toNat (streamOf s n).prod.toNat = true)
include hn

theorem chunkCount_uncached (hc : (streamOf s n).ctx = none) : chunkCount n p s = acceptChunks s n p := by
  have none : (streamOf (acceptChunks s n p) n).ctx = none := by rw [streamOf_acceptChunks, hc]
  unfold chunkCount
  rw [if_neg (Nat.not_le_of_lt hk), he, hn]
  simp only [none, Bool.not_true, Bool.false_eq_true, if_false]

variable {c : Ctx} (hc : (streamOf s n).ctx = some c) (ht : c.error = false)
include hc ht

/-- A count of a cached stream makes its chunks ready, or passes the ring. -/
theorem chunkCount_cached : chunkCount n p s =
    if subW p.toNat c.chunkCons.toNat ≤ 2 ^ ctxRingLog2 c.entry then noteReady (acceptChunks s n p) n
    else schedError (acceptChunks s n p) n 7 0 := by
  have cached : (streamOf (acceptChunks s n p) n).ctx = some c := by rw [streamOf_acceptChunks, hc]
  have passes : overruns (streamOf (acceptChunks s n p) n) c = !decide (subW p.toNat c.chunkCons.toNat ≤ 2 ^ ctxRingLog2 c.entry) := by
    rw [streamOf_acceptChunks, overruns, ← decide_not]
    simp only [gt_iff_lt, Nat.not_le]
  unfold chunkCount
  rw [if_neg (Nat.not_le_of_lt hk), he, hn]
  simp only [cached, passes, ht, Bool.not_true, Bool.false_eq_true, if_false, Bool.not_false, Bool.and_true, Bool.not_eq_true',
    decide_eq_false_iff_not, ite_not]

end

/-- What a doorbell records: the count and when it came. -/
def Recorded (s : State) (n : Fin 1024) (p : W32) (t : State) : Prop :=
  t = { linkUsed s with streams := t.streams } ∧ (∀ m, m ≠ n → streamOf t m = streamOf s m) ∧ (streamOf t n).prod = p ∧
    (streamOf t n).arrivals = (streamOf s n).arrivals ++ [(p, nowW s)] ∧ (streamOf t n).ctx = (streamOf s n).ctx

theorem recorded_acceptChunks (s : State) (n : Fin 1024) (p : W32) : Recorded s n p (acceptChunks (linkUsed s) n p) := by
  refine ⟨rfl, fun m hm => streamOf_acceptChunks_other _ p hm, ?_, ?_, ?_⟩ <;> rw [streamOf_acceptChunks]
  · rw [nowW_linkUsed]
    rfl
  · rfl

theorem recorded_noteReady {s t : State} {n : Fin 1024} {p : W32} (h : Recorded s n p t) : Recorded s n p (noteReady t n) := by
  obtain ⟨ht, hothers, hprod, harrivals, hctx⟩ := h
  refine ⟨?_, fun m hm => (streamOf_modStream_other t _ hm).trans (hothers m hm), ?_, ?_, ?_⟩
  · rw [noteReady, modStream, ht]
  · rw [streamOf_noteReady, hprod]
  · rw [streamOf_noteReady, harrivals]
  · rw [streamOf_noteReady, hctx]

/-! ### Invalidates (R46, R47) -/

/-- VID_CTX_INV_ACK shows the stream and the token. -/
def Acked (n : Fin 1024) (token : BitVec 16) (t : State) : Prop :=
  rd t R.VID_CTX_INV_ACK_STREAM 0 = n.val ∧ rd t R.VID_CTX_INV_ACK_TOKEN 0 = token.toNat

/-- The registers of an acknowledgement. -/
def ackKeys : List Nat := [regKey R.VID_CTX_INV_ACK_STREAM 0, regKey R.VID_CTX_INV_ACK_TOKEN 0]

theorem acked_ackInvalidate (s : State) (n : Fin 1024) (token : BitVec 16) : Acked n token (ackInvalidate s n token) := by
  refine ⟨?_, (rd_wr_same _ _ _ _).trans (Nat.mod_eq_of_lt token.isLt)⟩
  exact (rd_wr_other _ _ _ _ _ _ (by decide)).trans ((rd_wr_same _ _ _ _).trans (Nat.mod_eq_of_lt n.isLt))

theorem acked_ltrUpdate {n : Fin 1024} {token : BitVec 16} {t : State} (h : Acked n token t) : Acked n token (ltrUpdate t) :=
  ⟨(rd_ltrUpdate t (by decide)).trans h.1, (rd_ltrUpdate t (by decide)).trans h.2⟩

theorem regsKept_ackInvalidate (s : State) (n : Fin 1024) (token : BitVec 16) : RegsKept s (ackInvalidate s n token) ackKeys :=
  regsKept_then_wr (regsKept_wr s _ (by simp [ackKeys])) (by simp [ackKeys])

theorem regsAndLog_then {s t u : State} {keys : List Nat} (h : RegsAndLog s t []) (hu : u = { t with regs := u.regs })
    (hk : RegsKept t u keys) : RegsAndLog s u keys := by
  obtain ⟨ht, kept⟩ := h
  refine ⟨by rw [hu, ht], regsKept_trans (regsKept_mono kept ?_) (regsKept_mono hk (List.subset_append_left _ _))⟩
  simp

/-- The cached copy of a stream has been dropped: device fields that no write-back has covered are kept. -/
def Dropped (s : State) (n : Fin 1024) (t : State) : Prop :=
  (streamOf t n).ctx = none ∧ (streamOf t n).unread = false ∧ (streamOf t n).prod = (streamOf s n).prod ∧
    (streamOf t n).live = (streamOf s n).live ∧
    ∀ c, (streamOf s n).ctx = some c → (streamOf t n).unsaved = if c.dirty then some c else none

theorem streamOf_dropCached (s : State) (n : Fin 1024) :
    streamOf (dropCached s n) n = { uncache (streamOf s n) with unread := false, shapeLogged := false } :=
  streamOf_modStream s n _

theorem dropped_dropCached {s t u : State} {n : Fin 1024} (hu : streamOf u n = streamOf s n)
    (ht : streamOf t n = streamOf (dropCached u n) n) : Dropped s n t := by
  unfold Dropped
  rw [ht, streamOf_dropCached, hu]
  refine ⟨rfl, rfl, rfl, rfl, fun c hc => ?_⟩
  simp only [uncache, hc]

section
variable {s : State} {v : W32} {n : Fin 1024} (hn : Fin.ofNat 1024 (v.toNat % 1024) = n)
include hn

/-- The stream and the token of a written invalidate. -/
theorem invalidateWrite_eq :
    invalidateWrite v s =
      if n.val ≥ ctxCount s then
        ackInvalidate (logIt s planeCtrl 0x20 0x22 3 unitSched n.val (knownSeq s n)) n (BitVec.ofNat 16 (v.toNat / 2 ^ 16))
      else if !ctxEnabled s then ackInvalidate (dropCached s n) n (BitVec.ofNat 16 (v.toNat / 2 ^ 16))
      else if s.invalidates.length ≥ 64 then
        logIt (bump s R.VID_CTX_INV_STAT_OVERFLOWS 0 1) planeCtrl 0x20 0x21 3 unitSched n.val (knownSeq s n)
      else noteReady { s with invalidates := s.invalidates ++ [(n, BitVec.ofNat 16 (v.toNat / 2 ^ 16))] } n := by
  have stream : Fin.ofNat 1024 (bitsOf v.toNat 0 10) = n := by
    have low : bitsOf v.toNat 0 10 = v.toNat % 1024 := by simp [bitsOf]
    rw [low, hn]
  have token : BitVec.ofNat 16 (bitsOf v.toNat 16 16) = BitVec.ofNat 16 (v.toNat / 2 ^ 16) := by
    refine BitVec.eq_of_toNat_eq ?_
    rw [BitVec.toNat_ofNat, BitVec.toNat_ofNat, bitsOf, Nat.mod_mod]
  unfold invalidateWrite
  simp only [stream, token]

theorem invalidateWrite_unknown (hk : ¬ n.val < ctxCount s) :
    RegsAndLog s (invalidateWrite v s) ackKeys ∧ Acked n (BitVec.ofNat 16 (v.toNat / 2 ^ 16)) (invalidateWrite v s) := by
  rw [invalidateWrite_eq hn, if_pos (Nat.le_of_not_lt hk)]
  exact ⟨regsAndLog_then (logIt_regsAndLog s _ _ _ _ _ _ _) rfl (regsKept_ackInvalidate _ _ _), acked_ackInvalidate _ _ _⟩

variable (hk : n.val < ctxCount s)
include hk

theorem invalidateWrite_disabled (he : ctxEnabled s = false) :
    invalidateWrite v s = ackInvalidate (dropCached s n) n (BitVec.ofNat 16 (v.toNat / 2 ^ 16)) := by
  rw [invalidateWrite_eq hn, if_neg (Nat.not_le_of_lt hk), he]
  rfl

variable (he : ctxEnabled s = true)
include he

theorem invalidateWrite_queued (hl : s.invalidates.length < 64) :
    invalidateWrite v s = noteReady { s with invalidates := s.invalidates ++ [(n, BitVec.ofNat 16 (v.toNat / 2 ^ 16))] } n := by
  rw [invalidateWrite_eq hn, if_neg (Nat.not_le_of_lt hk), he, if_neg (by decide), if_neg (Nat.not_le_of_lt hl)]

theorem invalidateWrite_dropped (hl : 64 ≤ s.invalidates.length) :
    invalidateWrite v s = logIt (bump s R.VID_CTX_INV_STAT_OVERFLOWS 0 1) planeCtrl 0x20 0x21 3 unitSched n.val (knownSeq s n) := by
  rw [invalidateWrite_eq hn, if_neg (Nat.not_le_of_lt hk), he, if_neg (by decide), if_pos hl]

end

/-- A stream with an invalidate queued is not ready. -/
theorem readyBut_of_invalidate {s : State} {n : Fin 1024} (h : ∃ i ∈ s.invalidates, i.1 = n) : readyBut s n = false := by
  have queued : s.invalidates.any (fun i => i.1 == n) = true := by
    obtain ⟨i, hi, hn⟩ := h
    exact List.any_eq_true.mpr ⟨i, hi, by simp [hn]⟩
  unfold readyBut
  dsimp only
  split
  · rw [queued]
    simp
  · rfl

theorem rd_overflows (s : State) (n : Fin 1024) (h : rd s R.VID_CTX_INV_STAT_OVERFLOWS 0 + 1 < 2 ^ 16) (a : Nat) :
    rd (logIt (bump s R.VID_CTX_INV_STAT_OVERFLOWS 0 1) planeCtrl 0x20 0x21 3 unitSched n.val a) R.VID_CTX_INV_STAT_OVERFLOWS 0 =
      rd s R.VID_CTX_INV_STAT_OVERFLOWS 0 + 1 := by
  rw [logIt_regsKept _ planeCtrl _ _ _ _ _ _ _ _ (by decide)]
  exact rd_bump_below s _ 0 1 h

theorem regsAndLog_overflows (s : State) (n : Fin 1024) (a : Nat) :
    RegsAndLog s (logIt (bump s R.VID_CTX_INV_STAT_OVERFLOWS 0 1) planeCtrl 0x20 0x21 3 unitSched n.val a)
      [regKey R.VID_CTX_INV_STAT_OVERFLOWS 0] := by
  have counted : RegsAndLog s (bump s R.VID_CTX_INV_STAT_OVERFLOWS 0 1) [regKey R.VID_CTX_INV_STAT_OVERFLOWS 0] := by
    refine ⟨?_, regsKept_bump s 1 (by simp)⟩
    rcases bump_cases s R.VID_CTX_INV_STAT_OVERFLOWS 0 1 with ⟨v, h⟩ | ⟨v, h⟩ <;> rw [h] <;> rfl
  obtain ⟨eq, kept⟩ := logIt_regsAndLog (bump s R.VID_CTX_INV_STAT_OVERFLOWS 0 1) planeCtrl 0x20 0x21 3 unitSched n.val a
  exact regsAndLog_trans counted ⟨eq, regsKept_mono kept (List.subset_append_right _ _)⟩

/-! ### What happens around a stream -/

/-- The invalidates, the cores, the producer counts and the registers of the stream contexts are kept. -/
structure Around (s t : State) : Prop where
  invalidates : t.invalidates = s.invalidates
  cores : t.cores = s.cores
  prod : ∀ m, (streamOf t m).prod = (streamOf s m).prod
  regs : CtxRegs s t

theorem around_refl (s : State) : Around s s := ⟨rfl, rfl, fun _ => rfl, fun _ _ _ => rfl⟩

theorem around_trans {s t u : State} (h : Around s t) (h' : Around t u) : Around s u :=
  ⟨h'.invalidates.trans h.invalidates, h'.cores.trans h.cores, fun m => (h'.prod m).trans (h.prod m), ctxRegs_trans h.regs h'.regs⟩

theorem around_foldl {α : Type} {f : State → α → State} (h : ∀ s a, Around s (f s a)) (s : State) (l : List α) :
    Around s (l.foldl f s) :=
  foldl_steps around_refl (fun _ _ _ => around_trans) h s l

theorem around_ite {s t u : State} (c : Prop) [Decidable c] (h : Around s t) (h' : Around s u) : Around s (if c then t else u) :=
  iteInduction (fun _ => h) (fun _ => h')

theorem around_of_beside {s t : State} (h : Beside s t) : Around s t :=
  ⟨h.invalidates, h.cores, fun m => by rw [streamOf_congr h.streams], h.regs⟩

theorem around_modStream (s : State) (n : Fin 1024) {f : Stream → Stream} (h : ∀ x, (f x).prod = x.prod) : Around s (modStream s n f) :=
  ⟨rfl, rfl, fun m => field_modStream Stream.prod s n m h, ctxRegs_of_regs rfl rfl⟩

theorem around_modCtx (s : State) (n : Fin 1024) (f : Ctx → Ctx) : Around s (modCtx s n f) := around_modStream s n fun _ => rfl

theorem around_logIt (s : State) (p : Fin 3) (cls detail sev unit arg0 arg1 : Nat) :
    Around s (logIt s p cls detail sev unit arg0 arg1) := around_of_beside (beside_logIt s _ _ _ _ _ _ _)

theorem around_hiddenRead (s : State) (m : HiddenMem) : Around s (hiddenRead s m).1 := by
  have gone : ∀ l l' : List HiddenMem, Around s { s with hidden := l, hiddenCe := l' } := fun l l' =>
    ⟨rfl, rfl, fun _ => rfl, ctxRegs_of_regs rfl rfl⟩
  unfold hiddenRead
  split
  · exact around_trans (gone _ s.hiddenCe) (around_logIt _ _ _ _ _ _ _ _)
  · split
    · exact around_trans (gone s.hidden _) (around_logIt _ _ _ _ _ _ _ _)
    · exact around_refl s

theorem around_ctxUnreadable (s : State) (n : Fin 1024) (detail : Nat) : Around s (ctxUnreadable s n detail) := by
  unfold ctxUnreadable
  exact around_trans (around_modStream s n (f := fun x => { x with ctx := none, readyAt := none, unread := true }) fun _ => rfl)
    (around_logIt _ _ _ _ _ _ _ _)

theorem around_ctxCopyRead (s : State) (n : Fin 1024) : Around s (ctxCopyRead s n).1 := by
  unfold ctxCopyRead
  split
  · exact around_refl s
  · dsimp only
    split
    · exact around_trans (around_hiddenRead s _) (around_ctxUnreadable _ n 5)
    · exact around_hiddenRead s _

theorem around_writeBack (s : State) (n : Fin 1024) : Around s (writeBack s n) := by
  unfold writeBack
  dsimp only
  split
  · exact around_trans (around_ctxCopyRead s n) (around_trans (around_of_beside (beside_memWrite _ _ _ _ _)) (around_modCtx _ n _))
  · exact around_ctxCopyRead s n

theorem around_schedError (s : State) (n : Fin 1024) (code detail : Nat) : Around s (schedError s n code detail) := by
  have marked : ∀ u : State, Around u (modStream (modCtx u n (fun c => { c with error := true })) n (fun x => { x with readyAt := none })) :=
    fun u => around_trans (around_modCtx u n _) (around_modStream _ n fun _ => rfl)
  exact around_trans (around_of_beside (beside_postDec s n code { detail := detail, time := now s }))
    (around_trans (around_logIt _ _ _ _ _ _ _ _) (around_trans (marked _) (around_writeBack _ n)))

theorem around_noteReady (s : State) (n : Fin 1024) : Around s (noteReady s n) := by
  unfold noteReady
  exact around_modStream s n fun _ => rfl

theorem around_actOnCount (s : State) (n : Fin 1024) : Around s (actOnCount s n) := by
  unfold actOnCount
  split
  · exact around_ite _ (around_schedError s n 7 0) (around_noteReady s n)
  · exact around_noteReady s n

/-! ### The close of a stream (R47) -/

theorem around_writeUnsaved (s : State) (n : Fin 1024) : Around s (writeUnsaved s n) := by
  unfold writeUnsaved
  split
  · exact around_of_beside (beside_memWrite s _ _ _ _)
  · exact around_refl s

theorem around_saveFields (s : State) (n : Fin 1024) : Around s (saveFields s n) :=
  around_ite _ (around_trans (around_writeBack s n) (around_writeUnsaved _ n)) (around_refl s)

theorem around_dropRefs (s : State) (n : Fin 1024) : Around s (dropRefs s n) := by
  unfold dropRefs
  exact around_trans (around_of_beside (beside_releaseAll s _)) (around_modStream _ n fun _ => rfl)

theorem around_trimPreroll (s : State) (n : Fin 1024) (k : Nat) : Around s (trimPreroll s n k) := by
  unfold trimPreroll
  exact around_trans (around_of_beside (beside_releaseAll s _)) (around_modStream _ n fun _ => rfl)

/-- Of a stream that closes only its suspension by shedding is kept. -/
theorem closeStream_eq (s : State) (n : Fin 1024) (a : Addr) :
    ∃ w, Around s w ∧
      closeStream s n a = modStream w n (fun _ => { Stream.init with shedSuspended := (streamOf s n).shedSuspended }) := by
  have freed : ∀ u : State, Around u (if a = 0 then u else release u a) := fun u =>
    around_ite _ (around_refl u) (around_of_beside (beside_release u a))
  have done : ∀ u : State, Around u (encClose (skipOffers u (fun o => o.stream == n)) n) := fun u =>
    around_of_beside (beside_trans (beside_skipOffers u _) (beside_encClose _ n))
  refine ⟨_, ?_, rfl⟩
  exact around_trans (around_saveFields s n) (around_trans (around_dropRefs _ n) (around_trans (freed _)
    (around_trans (around_trimPreroll _ n 0) (around_trans (around_of_beside (beside_dropReplacements _ n)) (done _)))))

/-! ### The read of an entry (R43, R68) -/

theorem counted_mem {s t : State} (h : Counted s t) : t.mem = s.mem := by rw [h.1]

theorem beside_readCtx (s : State) (n : Fin 1024) : Beside s (readCtx s n).s := by
  unfold readCtx
  dsimp only
  split
  · exact beside_refl s
  · exact beside_memRead s _ _ _

/-- An entry beyond DRAM cannot be read. -/
theorem readCtx_outside {s : State} {n : Fin 1024} (h : rd s R.DRC_WINDOW 0 < ctxAddr s n + 256) : readCtx s n = ⟨s, [], 10⟩ := by
  unfold readCtx
  exact if_pos h

section
variable {s : State} {n : Fin 1024} (ha : ctxAddr s n + 256 ≤ rd s R.DRC_WINDOW 0) (hb : badWords s (ctxAddr s n) 256 = [])
include ha hb

/-- An entry in which no error lies is read as it stands. -/
theorem readCtx_clean : ∃ t, Counted s t ∧ readCtx s n = ⟨t, peek s (ctxAddr s n) 256, 0⟩ := by
  refine ⟨_, counted_beats s reqDma (ctxAddr s n) 256 false, ?_⟩
  unfold readCtx
  dsimp only
  rw [if_neg (Nat.not_lt_of_le ha), memRead_clean reqDma hb]
  rfl

end

/-! ### Invalidates are applied (R47, R48) -/

section
variable {s : State} {n : Fin 1024}

theorem applyInvalidate_off (h : ¬ n.val < ctxCount s ∨ ctxEnabled s = false) : applyInvalidate s n = dropCached s n := by
  unfold applyInvalidate
  refine if_pos (Or.imp Nat.le_of_not_lt (fun he => ?_) h)
  rw [he]
  rfl

/-- A stream without its cached copy. -/
def forgotten (x : Stream) : Stream := { uncache x with unread := false, shapeLogged := false }

/-- Whatever becomes of it, the copy is gone and the entry counts as one that can be read. -/
theorem applyInvalidate_gone (s : State) (n : Fin 1024) :
    ∃ w f, Around s w ∧ (∀ x, (f x).ctx = none ∧ (f x).unread = false) ∧ applyInvalidate s n = modStream w n f := by
  by_cases hoff : n.val ≥ ctxCount s ∨ (!ctxEnabled s) = true
  · exact ⟨s, forgotten, around_refl s, fun x => ⟨rfl, rfl⟩, if_pos hoff⟩
  · have read := around_of_beside (beside_readCtx s n)
    unfold applyInvalidate
    rw [if_neg hoff]
    dsimp only
    split
    · obtain ⟨w, hw, eq⟩ := closeStream_eq (readCtx s n).s n
        (closingLastGood (streamOf (readCtx s n).s n) (entryOfBytes (readCtx s n).bytes))
      exact ⟨w, _, around_trans read hw, fun x => ⟨rfl, rfl⟩, eq⟩
    · exact ⟨_, forgotten, read, fun x => ⟨rfl, rfl⟩, rfl⟩

variable (hk : n.val < ctxCount s) (he : ctxEnabled s = true) (ha : ctxAddr s n + 256 ≤ rd s R.DRC_WINDOW 0)
  (hb : badWords s (ctxAddr s n) 256 = [])
include hk he ha hb

/-- An entry that can be read says whether its stream closes. -/
theorem applyInvalidate_clean : ∃ t, Counted s t ∧ ∃ a, applyInvalidate s n =
    if ctlValid (entryOfBytes (peek s (ctxAddr s n) 256)) = false then closeStream t n a else dropCached t n := by
  obtain ⟨t, counted, read⟩ := readCtx_clean ha hb
  refine ⟨t, counted, closingLastGood (streamOf t n) (entryOfBytes (peek s (ctxAddr s n) 256)), ?_⟩
  unfold applyInvalidate
  rw [if_neg (by rw [he]; simp only [Bool.not_true, Bool.false_eq_true, or_false]; omega), read]
  simp only [Bool.not_eq_true', true_and]

end

/-- The acknowledgement of an invalidate acts on nothing else. -/
theorem acknowledged (s : State) (n : Fin 1024) (token : BitVec 16) :
    ltrUpdate (ackInvalidate s n token) =
      { s with
        regs := (ltrUpdate (ackInvalidate s n token)).regs, ltr := (ltrUpdate (ackInvalidate s n token)).ltr
        linkAt := (ltrUpdate (ackInvalidate s n token)).linkAt } := by
  rcases ltrUpdate_cases (ackInvalidate s n token) with h | ⟨l, h⟩ <;> rw [h] <;> rfl

theorem acknowledged_streams (s : State) (n : Fin 1024) (token : BitVec 16) :
    (ltrUpdate (ackInvalidate s n token)).streams = s.streams := by
  rw [acknowledged]

theorem invalidateApply_none {s : State} (h : s.invalidates = []) : invalidateApply s = s := by
  unfold invalidateApply
  rw [h]

/-- An invalidate waits for the stream's frame boundary. -/
theorem invalidateApply_inDecode {s : State} {n : Fin 1024} {token : BitVec 16} {rest : List (Fin 1024 × BitVec 16)}
    (h : s.invalidates = (n, token) :: rest) (hd : (streamOf s n).inDecode = true) : invalidateApply s = s := by
  unfold invalidateApply
  rw [h]
  exact if_pos hd

/-- The oldest invalidate of a stream with no access unit in decode is applied. -/
theorem invalidateApply_eq {s : State} {n : Fin 1024} {token : BitVec 16} {rest : List (Fin 1024 × BitVec 16)}
    (h : s.invalidates = (n, token) :: rest) (hd : (streamOf s n).inDecode = false) :
    invalidateApply s = ltrUpdate (ackInvalidate (applyInvalidate { s with invalidates := rest } n) n token) := by
  unfold invalidateApply
  rw [h]
  dsimp only
  rw [if_neg (by rw [hd]; decide)]

section
variable {s : State} {n : Fin 1024} {token : BitVec 16} {rest : List (Fin 1024 × BitVec 16)}
  (h : s.invalidates = (n, token) :: rest) (hd : (streamOf s n).inDecode = false)
include h hd

theorem invalidateApply_gone : Acked n token (invalidateApply s) ∧ (invalidateApply s).invalidates = rest ∧
    (invalidateApply s).cores = s.cores ∧ (streamOf (invalidateApply s) n).ctx = none ∧
    (streamOf (invalidateApply s) n).unread = false := by
  obtain ⟨w, f, around, gone, applied⟩ := applyInvalidate_gone { s with invalidates := rest } n
  obtain ⟨hctx, hunread⟩ := gone (streamOf w n)
  have stream : streamOf (invalidateApply s) n = f (streamOf w n) := by
    rw [invalidateApply_eq h hd, streamOf_congr (acknowledged_streams _ n token), applied, streamOf_modStream]
  refine ⟨?_, ?_, ?_, by rw [stream, hctx], by rw [stream, hunread]⟩
  · rw [invalidateApply_eq h hd]
    exact acked_ltrUpdate (acked_ackInvalidate _ n token)
  · rw [invalidateApply_eq h hd, acknowledged, applied]
    exact around.invalidates
  · rw [invalidateApply_eq h hd, acknowledged, applied]
    exact around.cores

theorem invalidateApply_off (hoff : ¬ n.val < ctxCount s ∨ ctxEnabled s = false) :
    invalidateApply s = { s with
      streams := (invalidateApply s).streams, regs := (invalidateApply s).regs, invalidates := rest, ltr := (invalidateApply s).ltr
      linkAt := (invalidateApply s).linkAt } ∧ Dropped s n (invalidateApply s) := by
  rw [invalidateApply_eq h hd, acknowledged, applyInvalidate_off (s := { s with invalidates := rest }) hoff]
  exact ⟨rfl, dropped_dropCached (u := { s with invalidates := rest }) rfl rfl⟩

variable (hk : n.val < ctxCount s) (he : ctxEnabled s = true) (ha : ctxAddr s n + 256 ≤ rd s R.DRC_WINDOW 0)
  (hb : badWords s (ctxAddr s n) 256 = [])
include hk he ha hb

theorem invalidateApply_kept (hv : ctlValid (entryOfBytes (peek s (ctxAddr s n) 256)) = true) :
    (invalidateApply s).mem = s.mem ∧ Dropped s n (invalidateApply s) ∧ (streamOf (invalidateApply s) n).refs = (streamOf s n).refs := by
  obtain ⟨t, counted, a, applied⟩ := applyInvalidate_clean (s := { s with invalidates := rest }) (n := n) hk he ha hb
  have beside := beside_of_checked (checked_of_counted counted)
  have known : streamOf t n = streamOf s n := streamOf_congr beside.streams n
  have eq : applyInvalidate { s with invalidates := rest } n = dropCached t n := by
    rw [applied]
    exact if_neg (ne_of_eq_of_ne hv (by decide))
  have stream : streamOf (invalidateApply s) n = streamOf (dropCached t n) n := by
    rw [invalidateApply_eq h hd, streamOf_congr (acknowledged_streams _ n token), eq]
  refine ⟨?_, dropped_dropCached known stream, ?_⟩
  · rw [invalidateApply_eq h hd, acknowledged, eq]
    have kept : t.mem = s.mem := (counted_mem counted :)
    exact kept
  · rw [stream, streamOf_dropCached, known]
    rfl

theorem invalidateApply_closed (hv : ctlValid (entryOfBytes (peek s (ctxAddr s n) 256)) = false) :
    streamOf (invalidateApply s) n = { Stream.init with shedSuspended := (streamOf s n).shedSuspended } := by
  obtain ⟨t, counted, a, applied⟩ := applyInvalidate_clean (s := { s with invalidates := rest }) (n := n) hk he ha hb
  have known : streamOf t n = streamOf s n := streamOf_congr (beside_of_checked (checked_of_counted counted)).streams n
  obtain ⟨w, -, closed⟩ := closeStream_eq t n a
  have eq : applyInvalidate { s with invalidates := rest } n = closeStream t n a := by
    rw [applied]
    exact if_pos hv
  rw [invalidateApply_eq h hd, streamOf_congr (acknowledged_streams _ n token), eq, closed, known, streamOf_modStream]

end

/-! ### VID_CTX_CFG (R51, R78) -/

/-- The registers of VID_CTX_CFG take what is written. -/
def cfgWritten (cfg : Nat) (s : State) : State :=
  wr (wrb s R.VID_CTX_CFG_ENABLE 0 (bitOf cfg 16)) R.VID_CTX_CFG_COUNT 0 (min (bitsOf cfg 0 11) 1024)

theorem vidCtxCfgWrite_eq (cfg : Nat) (s : State) : vidCtxCfgWrite cfg s =
    ((cfgWritten cfg s).streams.map (fun e => (Fin.ofNat 1024 e.1 : Fin 1024))).foldl actOnCount (cfgWritten cfg s) := rfl

theorem around_vidCtxCfgWrite (cfg : Nat) (s : State) : Around (cfgWritten cfg s) (vidCtxCfgWrite cfg s) :=
  around_foldl around_actOnCount _ _

theorem rd_cfgWritten (cfg : Nat) (s : State) : rd (cfgWritten cfg s) R.VID_CTX_CFG_ENABLE 0 = b2n (bitOf cfg 16) ∧
    rd (cfgWritten cfg s) R.VID_CTX_CFG_COUNT 0 = min (bitsOf cfg 0 11) 1024 := by
  constructor
  · refine (rd_wr_other _ _ _ _ _ _ (by decide)).trans ((rd_wrb_same _ _ _ _).trans ?_)
    cases bitOf cfg 16 <;> rfl
  · refine (rd_wr_same _ _ _ _).trans (Nat.mod_eq_of_lt ?_)
    exact Nat.lt_of_le_of_lt (Nat.min_le_right _ _) (by decide)

theorem actOnCount_uncached {s : State} {n : Fin 1024} (h : (streamOf s n).ctx = none) : actOnCount s n = noteReady s n := by
  unfold actOnCount
  rw [h]

/-- Where no entry is cached, counts only settle that no stream is ready. -/
theorem actOnCounts_uncached {s : State} (h : ∀ n, (streamOf s n).ctx = none) (l : List (Fin 1024)) :
    l.foldl actOnCount s = { s with streams := (l.foldl actOnCount s).streams } := by
  induction l generalizing s with
  | nil => rfl
  | cons n l ih =>
    have noted : ∀ m, (streamOf (noteReady s n) m).ctx = none := fun m => by
      rw [ctx_noteReady, h m]
    rw [List.foldl_cons, actOnCount_uncached (h n), ih noted]
    rfl

theorem uncached_of_entries {s : State} (h : ∀ e ∈ s.streams, e.2.ctx = none) (n : Fin 1024) : (streamOf s n).ctx = none := by
  unfold streamOf storeGet
  split
  next e he => exact h e (List.mem_of_find?_eq_some he)
  · rfl

theorem vidCtxCfgWrite_uncached {s : State} (cfg : Nat) (h : ∀ e ∈ s.streams, e.2.ctx = none) :
    vidCtxCfgWrite cfg s = { s with streams := (vidCtxCfgWrite cfg s).streams, regs := (vidCtxCfgWrite cfg s).regs } ∧
      RegsKept s (vidCtxCfgWrite cfg s) [regKey R.VID_CTX_CFG_ENABLE 0, regKey R.VID_CTX_CFG_COUNT 0] := by
  have acted := actOnCounts_uncached (s := cfgWritten cfg s) (uncached_of_entries h)
    ((cfgWritten cfg s).streams.map (fun e => (Fin.ofNat 1024 e.1 : Fin 1024)))
  rw [← vidCtxCfgWrite_eq] at acted
  have written : RegsKept s (cfgWritten cfg s) [regKey R.VID_CTX_CFG_ENABLE 0, regKey R.VID_CTX_CFG_COUNT 0] :=
    regsKept_then_wr (regsKept_wr s _ (by simp)) (by simp)
  refine ⟨by rw [acted]; rfl, regsKept_trans written (regsKept_of_regs _ ?_ ?_)⟩ <;> rw [acted]

/-! ### The fetch of an entry (R45, R48, R64, R68) -/

/-- The entry is in the cache, with the device fields that had not been written back. -/
def heldEntry (s : State) (n : Fin 1024) (e : BitVec 2048) : State :=
  modStream (hiddenWrite s (.ctx n)) n (fun x =>
    { x with ctx := some (restoreFields { ctxOfEntry e with lastDispatch := s.order } x.unsaved), unsaved := none })

/-- The entry as it is read again: a fetch adds only when the stream was last dispatched. -/
theorem restoreFields_lastDispatch (c : Ctx) (u : Option Ctx) (o : Nat) :
    restoreFields { c with lastDispatch := o } u = { restoreFields c u with lastDispatch := o } := by
  cases u <;> rfl

theorem restoreFields_entry (c : Ctx) (u : Option Ctx) : (restoreFields c u).entry = c.entry := by
  cases u <;> rfl

theorem restoreFields_treatedLive (c : Ctx) (u : Option Ctx) : (restoreFields c u).treatedLive = c.treatedLive := by
  cases u <;> rfl

theorem streamOf_heldEntry (s : State) (n : Fin 1024) (e : BitVec 2048) :
    streamOf (heldEntry s n e) n = { streamOf s n with
      ctx := some { restoreFields (ctxOfEntry e) (streamOf s n).unsaved with lastDispatch := s.order }, unsaved := none } := by
  rw [← restoreFields_lastDispatch]
  exact streamOf_modStream _ n _

theorem decided_heldEntry (s : State) (n : Fin 1024) (e : BitVec 2048) : Decided s n (heldEntry s n e) :=
  ⟨fun _ hm => streamOf_modStream_other _ _ hm, rfl, rfl, rfl, rfl, rfl, rfl, rfl, rfl, rfl, keepsBut_of_regs _ rfl rfl⟩

/-- A stream seen for the first time since a close starts in RESYNC. -/
def openedFirst (s : State) (n : Fin 1024) (e : BitVec 2048) : State :=
  modCtx (modStream s n (fun x => { x with fmt := some (ctxFormat e), allChanged := true, skipReported := false, resyncDue := false })) n
    (fun c => { c with resync := true, dirty := true })

theorem openStream_first {s : State} {n : Fin 1024} (h : (streamOf s n).fmt = none) (e : BitVec 2048) :
    openStream s n e = openedFirst s n e := by
  unfold openStream
  rw [h]
  rfl

theorem decided_openedFirst (s : State) (n : Fin 1024) (e : BitVec 2048) : Decided s n (openedFirst s n e) := by
  unfold openedFirst modCtx
  exact decided_trans (decided_modStream s n _) (decided_modStream _ n _)

theorem streamOf_openedFirst (s : State) (n : Fin 1024) (e : BitVec 2048) :
    streamOf (openedFirst s n e) n = { streamOf s n with
      fmt := some (ctxFormat e), allChanged := true, skipReported := false, resyncDue := false
      ctx := (streamOf s n).ctx.map (fun c => { c with resync := true, dirty := true }) } := by
  rw [openedFirst, streamOf_modCtx, streamOf_modStream]

/-- Where an entry is not treated as live yet, it is decided whether it is. -/
theorem decideLive_fresh {s : State} {n : Fin 1024} {c : Ctx} (hc : (streamOf s n).ctx = some c) (ht : c.treatedLive = false)
    (ho : stage s < 4 ∨ s.offers = []) :
    Decided s n (decideLive s n) ∧ ∃ b r q, streamOf (decideLive s n) n =
      { streamOf s n with ctx := some { c with treatedLive := b, refused := r }, live := b, shedSuspended := q } ∧
        (b = true → ctlLiveBit c.entry = true) := by
  rcases decideLive_cases hc with ⟨-, hlive, -⟩ | ⟨b, hb, -, h⟩ | ⟨-, -, a, h⟩
  · rw [ht] at hlive
    cases hlive
  · rw [h, streamOf_setLive ho, hc]
    exact ⟨decided_setLive ho b, b, c.refused, _, rfl, hb⟩
  · rw [h, streamOf_congr (logIt_streams ..), streamOf_modCtx, streamOf_setLive ho, hc]
    exact ⟨decided_trans (decided_setLive ho false) (decided_trans (decided_modStream _ n _) (decided_logIt _ n _ _ _ _ _ _ _)),
      false, true, _, rfl, fun h => by cases h⟩

theorem framePoolOk_of_decided {s t : State} {n : Fin 1024} (h : Decided s n t) (e : BitVec 2048) : framePoolOk t e = framePoolOk s e := by
  unfold framePoolOk poolEn poolHolds rdb
  rw [h.regs R.BPM_POOL_CFG_EN _ (by decide), h.regs R.BPM_POOL_CFG_HOLD_EN _ (by decide)]

/-- An entry that passes the checks of R68 may make its stream ready. -/
theorem checkCtx_ok {s : State} {n : Fin 1024} {c : Ctx} (he : c.error = false) (hp : framePoolOk s c.entry = true)
    (hr : ctxRangesOk c.entry = true) (ho : subW (streamOf s n).prod.toNat c.chunkCons.toNat ≤ 2 ^ ctxRingLog2 c.entry) :
    checkCtx s n c = noteReady s n := by
  have within : overruns (streamOf s n) c = false := by
    simpa [overruns] using ho
  unfold checkCtx
  rw [he, hp, hr, within]
  rfl

theorem decided_noteReady (s : State) (n : Fin 1024) : Decided s n (noteReady s n) := by
  unfold noteReady
  exact decided_modStream s n _

theorem cacheCtx_invalid {s : State} {n : Fin 1024} {e : BitVec 2048} (h : ctlValid e = false) : cacheCtx s n e = heldEntry s n e := by
  unfold cacheCtx
  dsimp only
  rw [h]
  rfl

theorem cacheCtx_of_decided {s v : State} {n : Fin 1024} {e : BitVec 2048} {d : Ctx} (hv : ctlValid e = true)
    (h : decideLive (openStream { heldEntry s n e with order := s.order + 1 } n e) n = v) (hd : (streamOf v n).ctx = some d) :
    cacheCtx s n e = checkCtx v n d := by
  unfold cacheCtx
  rw [hv]
  change (match (streamOf (decideLive (openStream { heldEntry s n e with order := s.order + 1 } n e) n) n).ctx with
    | some c => checkCtx (decideLive (openStream { heldEntry s n e with order := s.order + 1 } n e) n) n c
    | none => decideLive (openStream { heldEntry s n e with order := s.order + 1 } n e) n) = _
  rw [h, hd]
section
variable {s : State} {n : Fin 1024} {e : BitVec 2048} (hv : ctlValid e = true)
  (he : (restoreFields (ctxOfEntry e) (streamOf s n).unsaved).error = false) (hp : framePoolOk s e = true)
  (hr : ctxRangesOk e = true)
  (hc : subW (streamOf s n).prod.toNat (restoreFields (ctxOfEntry e) (streamOf s n).unsaved).chunkCons.toNat ≤ 2 ^ ctxRingLog2 e)
  (hf : (streamOf s n).fmt = none) (ho : stage s < 4 ∨ s.offers = [])
include hv he hp hr hc hf ho

/-- The stream of a valid entry that passes the checks is open (R48). -/
theorem cacheCtx_valid : Decided s n (cacheCtx s n e) ∧ (streamOf (cacheCtx s n e) n).fmt = some (ctxFormat e) ∧
    (streamOf (cacheCtx s n e) n).allChanged = true ∧ ∃ c, (streamOf (cacheCtx s n e) n).ctx = some c ∧ c.entry = e ∧
      c.resync = true ∧ c.chunkCons = (restoreFields (ctxOfEntry e) (streamOf s n).unsaved).chunkCons ∧
      c.frameSeq = (restoreFields (ctxOfEntry e) (streamOf s n).unsaved).frameSeq ∧
      (streamOf (cacheCtx s n e) n).live = c.treatedLive ∧ (c.treatedLive = true → ctlLiveBit e = true) := by
  let c := { restoreFields (ctxOfEntry e) (streamOf s n).unsaved with lastDispatch := s.order, resync := true, dirty := true }
  let u := openedFirst { heldEntry s n e with order := s.order + 1 } n e
  have entry : c.entry = e := restoreFields_entry _ _
  have held : streamOf { heldEntry s n e with order := s.order + 1 } n = streamOf (heldEntry s n e) n := streamOf_congr rfl n
  have opened : openStream { heldEntry s n e with order := s.order + 1 } n e = u :=
    openStream_first (by rw [held, streamOf_heldEntry]; exact hf) e
  have stream : streamOf u n = { streamOf s n with
      ctx := some c, unsaved := none, fmt := some (ctxFormat e), allChanged := true, skipReported := false, resyncDue := false } := by
    rw [streamOf_openedFirst, held, streamOf_heldEntry]
    rfl
  have ordered : Decided (heldEntry s n e) n { heldEntry s n e with order := s.order + 1 } :=
    ⟨fun _ _ => rfl, rfl, rfl, rfl, rfl, rfl, rfl, rfl, rfl, rfl, keepsBut_of_regs _ rfl rfl⟩
  have before : Decided s n u := decided_trans (decided_heldEntry s n e) (decided_trans ordered (decided_openedFirst _ n e))
  have calm : stage u < 4 ∨ u.offers = [] := Or.imp (fun h => by
    rw [stage, before.regs _ _ (by decide)]
    exact h) (fun h => h) ho
  obtain ⟨decided, b, r, q, live, hb⟩ := decideLive_fresh (s := u) (n := n) (c := c) (by rw [stream])
    (restoreFields_treatedLive _ _) calm
  have after := decided_trans before decided
  have cached : (streamOf (decideLive u n) n).ctx = some { c with treatedLive := b, refused := r } := by rw [live]
  have checked : checkCtx (decideLive u n) n { c with treatedLive := b, refused := r } = noteReady (decideLive u n) n := by
    refine checkCtx_ok he ?_ ?_ ?_
    · rw [show ({ c with treatedLive := b, refused := r } : Ctx).entry = e from entry, framePoolOk_of_decided after, hp]
    · rw [show ({ c with treatedLive := b, refused := r } : Ctx).entry = e from entry, hr]
    · rw [show ({ c with treatedLive := b, refused := r } : Ctx).entry = e from entry, live, stream]
      exact hc
  have eq : cacheCtx s n e = noteReady (decideLive u n) n :=
    (cacheCtx_of_decided hv (by rw [opened]) cached).trans checked
  rw [eq, streamOf_noteReady, live, stream]
  exact ⟨decided_trans after (decided_noteReady _ n), rfl, rfl, _, rfl, entry, rfl, rfl, rfl, rfl, fun h => entry ▸ hb h⟩

end

theorem ctxUnreadable_frame (s : State) (n : Fin 1024) (detail : Nat) :
    ctxUnreadable s n detail = { s with
      streams := (ctxUnreadable s n detail).streams, regs := (ctxUnreadable s n detail).regs
      freeCtr := (ctxUnreadable s n detail).freeCtr, logQ := (ctxUnreadable s n detail).logQ
      logLost := (ctxUnreadable s n detail).logLost } := by
  let u := modStream s n (fun x => { x with ctx := none, readyAt := none, unread := true })
  obtain ⟨r, q, l, h⟩ := logPush_frame u planeCtrl (eventEntry u planeCtrl 0x20 10 3 unitSched n.val detail)
  rw [ctxUnreadable, logIt_eq, h]
  rfl

theorem streamOf_ctxUnreadable (s : State) (n m : Fin 1024) (detail : Nat) : streamOf (ctxUnreadable s n detail) m =
    streamOf (modStream s n (fun x => { x with ctx := none, readyAt := none, unread := true })) m :=
  streamOf_congr (logIt_streams ..) m

/-- Below 512 cached entries an entry that is wanted is read. -/
theorem contextFetch_eq {s : State} {n : Fin 1024} (he : ctxEnabled s = true) (hs : serving s = true) (hk : n.val < ctxCount s)
    (hc : (streamOf s n).ctx = none) (hu : (streamOf s n).unread = false) (hl : (cachedStreams s).length < 512) :
    contextFetch n s = if (readCtx s n).detail ≠ 0 then ctxUnreadable (readCtx s n).s n (readCtx s n).detail
      else cacheCtx (readCtx s n).s n (entryOfBytes (readCtx s n).bytes) := by
  have wanted : ¬ (!ctxEnabled s || !serving s || decide (n.val ≥ ctxCount s) || (streamOf s n).ctx.isSome ||
      (streamOf s n).unread) = true := by
    rw [he, hs, hc, hu]
    simpa using hk
  have room : makeRoom s = some s := if_pos hl
  unfold contextFetch
  dsimp only
  rw [if_neg wanted, room]

end Sys2Proof.Contexts

/-! ## O32: the commands of the stream contexts one by one -/

namespace Sys2Proof.Contexts

open Sys2Proof.Machine Sys2Proof.Laws Sys2Proof.HostAccess Sys2Proof.Traffic Sys2Proof.Streams Sys2Proof.Entries Sys2Proof.Dispatch

section
variable {s : State} {n : Fin 1024} {d : DbWrite} (hc : claimed s = true) (hb : d.beFull = true) (hd : d.dws = 1 ∨ d.dws = 2)
  (hs : serving s = true)
include hc hb hd hs

theorem exec_chunkDoorbell : exec (.chunkDoorbell n d) s = .next (chunkCount n d.value (linkUsed s)) :=
  congrArg Host.Outcome.next (doorbell_acts hc hb hd hs _ _)

theorem exec_contextInvalidate : exec (.contextInvalidate d) s = .next (invalidateWrite d.value (linkUsed s)) :=
  congrArg Host.Outcome.next (doorbell_acts hc hb hd hs _ _)

end

section
variable {s : State} {n : Fin 1024}

theorem known_linkUsed : n.val < ctxCount (linkUsed s) ↔ n.val < rd s R.VID_CTX_CFG_COUNT 0 := by
  rw [ctxCount_congr (beside_linkUsed s).regs, ctxCount]

theorem enabled_linkUsed : ctxEnabled (linkUsed s) = true ↔ rd s R.VID_CTX_CFG_ENABLE 0 ≠ 0 := by
  rw [ctxEnabled_congr (beside_linkUsed s).regs, ctxEnabled_iff]

theorem disabled_linkUsed : ctxEnabled (linkUsed s) = false ↔ ¬ rd s R.VID_CTX_CFG_ENABLE 0 ≠ 0 := by
  rw [← enabled_linkUsed, Bool.not_eq_true]

/-- A count that fits makes the stream's chunks available (R51). -/
theorem recorded_ready {p : W32} {t : State} (ht : t = noteReady (acceptChunks (linkUsed s) n p) n) :
    Recorded s n p t ∧ (readyBut t n = true → (streamOf t n).readyAt = some ((streamOf s n).readyAt.getD (elapsedW s))) ∧
      (readyBut t n = false → (streamOf t n).readyAt = none) := by
  subst ht
  refine ⟨recorded_noteReady (recorded_acceptChunks s n p), fun h => ?_, fun h => ?_⟩ <;>
    rw [readyBut_noteReady] at h <;> rw [streamOf_noteReady, h, streamOf_acceptChunks] <;> rfl

/-- One that passes the ring puts the stream in ERROR (R51, R68). -/
theorem overrun_error {p : W32} {c : Ctx} (hh : .ctx n ∉ s.hidden) (hx : (streamOf s n).ctx = some c) :
    (streamOf (schedError (acceptChunks (linkUsed s) n p) n 7 0) n).prod = p ∧
      (streamOf (schedError (acceptChunks (linkUsed s) n p) n 7 0) n).ctx = some { c with error := true, dirty := false } ∧
      (schedError (acceptChunks (linkUsed s) n p) n 7 0).cores = s.cores := by
  obtain ⟨hcores, -, hstream⟩ := schedError_ok 7 0 (s := acceptChunks (linkUsed s) n p) (n := n) (c := c) hh
    (by rw [streamOf_acceptChunks]; exact hx)
  rw [hstream, streamOf_acceptChunks]
  exact ⟨rfl, rfl, hcores⟩

/-- An invalidate for which there is room waits, and its stream with it (R47). -/
theorem invalidate_queued (token : BitVec 16) :
    let t := noteReady { linkUsed s with invalidates := s.invalidates ++ [(n, token)] } n
    t = { linkUsed s with streams := t.streams, invalidates := s.invalidates ++ [(n, token)] } ∧
      (∀ m, m ≠ n → streamOf t m = streamOf s m) ∧ (streamOf t n).ctx = (streamOf s n).ctx ∧ (streamOf t n).readyAt = none := by
  have waits : readyBut { linkUsed s with invalidates := s.invalidates ++ [(n, token)] } n = false :=
    readyBut_of_invalidate ⟨(n, token), List.mem_append_right _ (List.mem_singleton.mpr rfl), rfl⟩
  refine ⟨rfl, fun m hm => streamOf_modStream_other _ _ hm, ?_, ?_⟩
  · rw [ctx_noteReady]
    rfl
  · rw [streamOf_noteReady, waits]
    rfl

/-- One that meets disabled contexts is acknowledged at once. -/
theorem invalidate_disabled (token : BitVec 16) :
    let t := ackInvalidate (dropCached (linkUsed s) n) n token
    t = { linkUsed s with streams := t.streams, regs := t.regs } ∧ RegsKept (linkUsed s) t ackKeys ∧ Acked n token t ∧
      (∀ m, m ≠ n → streamOf t m = streamOf s m) ∧ Dropped s n t :=
  ⟨rfl, regsKept_trans (regsKept_of_regs _ rfl rfl) (regsKept_ackInvalidate _ n token), acked_ackInvalidate _ n token,
    fun _ hm => streamOf_modStream_other (linkUsed s) forgotten hm, dropped_dropCached (u := linkUsed s) rfl rfl⟩

end

section
variable {s : State} {n : Fin 1024} (he : ctxEnabled s = true) (hs : serving s = true) (hk : n.val < ctxCount s)
  (hc : (streamOf s n).ctx = none) (hu : (streamOf s n).unread = false) (hl : (cachedStreams s).length < 512)
include he hs hk hc hu hl

/-- An entry beyond DRAM is not read (R68). -/
theorem contextFetch_outside (h : rd s R.DRC_WINDOW 0 < ctxAddr s n + 256) :
    contextFetch n s = { s with
      streams := (contextFetch n s).streams, regs := (contextFetch n s).regs, freeCtr := (contextFetch n s).freeCtr
      logQ := (contextFetch n s).logQ, logLost := (contextFetch n s).logLost } ∧
      (∀ m, m ≠ n → streamOf (contextFetch n s) m = streamOf s m) ∧
      streamOf (contextFetch n s) n = { streamOf s n with readyAt := none, unread := true } := by
  have eq : contextFetch n s = ctxUnreadable s n 10 := by
    rw [contextFetch_eq he hs hk hc hu hl, readCtx_outside h]
    rfl
  rw [eq]
  refine ⟨ctxUnreadable_frame s n 10, fun m hm => ?_, ?_⟩
  · rw [streamOf_ctxUnreadable, streamOf_modStream_other _ _ hm]
  · rw [streamOf_ctxUnreadable, streamOf_modStream, ← hc]

variable (ha : ctxAddr s n + 256 ≤ rd s R.DRC_WINDOW 0) (hb : badWords s (ctxAddr s n) 256 = [])
include ha hb

/-- One in which no error lies is cached. -/
theorem contextFetch_clean : ∃ t, Counted s t ∧ contextFetch n s = cacheCtx t n (entryOfBytes (peek s (ctxAddr s n) 256)) := by
  obtain ⟨t, counted, read⟩ := readCtx_clean ha hb
  exact ⟨t, counted, by rw [contextFetch_eq he hs hk hc hu hl, read]; rfl⟩

/-- An entry that is not valid is cached as it is. -/
theorem contextFetch_invalid (hv : ctlValid (entryOfBytes (peek s (ctxAddr s n) 256)) = false) :
    (contextFetch n s).mem = s.mem ∧ (contextFetch n s).cores = s.cores ∧
      (∀ m, m ≠ n → streamOf (contextFetch n s) m = streamOf s m) ∧
      streamOf (contextFetch n s) n = { streamOf s n with
        ctx := some { restoreFields (ctxOfEntry (entryOfBytes (peek s (ctxAddr s n) 256))) (streamOf s n).unsaved with
          lastDispatch := s.order }
        unsaved := none } := by
  obtain ⟨t, counted, eq⟩ := contextFetch_clean he hs hk hc hu hl ha hb
  have beside := beside_of_checked (checked_of_counted counted)
  have held := decided_heldEntry t n (entryOfBytes (peek s (ctxAddr s n) 256))
  have order : t.order = s.order := by rw [counted.1]
  rw [eq, cacheCtx_invalid hv]
  refine ⟨held.mem.trans (counted_mem counted), held.cores.trans beside.cores, fun m hm => ?_, ?_⟩
  · rw [held.others m hm, streamOf_congr beside.streams]
  · rw [streamOf_heldEntry, streamOf_congr beside.streams, order]

/-- One that is valid and passes the checks opens its stream. -/
theorem contextFetch_valid (hv : ctlValid (entryOfBytes (peek s (ctxAddr s n) 256)) = true)
    (herr : (restoreFields (ctxOfEntry (entryOfBytes (peek s (ctxAddr s n) 256))) (streamOf s n).unsaved).error = false)
    (hp : framePoolOk s (entryOfBytes (peek s (ctxAddr s n) 256)) = true)
    (hr : ctxRangesOk (entryOfBytes (peek s (ctxAddr s n) 256)) = true)
    (hn : subW (streamOf s n).prod.toNat
      (restoreFields (ctxOfEntry (entryOfBytes (peek s (ctxAddr s n) 256))) (streamOf s n).unsaved).chunkCons.toNat ≤
        2 ^ ctxRingLog2 (entryOfBytes (peek s (ctxAddr s n) 256)))
    (hf : (streamOf s n).fmt = none) (ho : stage s < 4 ∨ s.offers = []) :
    ∃ t, Counted s t ∧ Decided t n (contextFetch n s) ∧
      (streamOf (contextFetch n s) n).fmt = some (ctxFormat (entryOfBytes (peek s (ctxAddr s n) 256))) ∧
      (streamOf (contextFetch n s) n).allChanged = true ∧ ∃ c, (streamOf (contextFetch n s) n).ctx = some c ∧
        c.entry = entryOfBytes (peek s (ctxAddr s n) 256) ∧ c.resync = true ∧
        c.chunkCons = (restoreFields (ctxOfEntry (entryOfBytes (peek s (ctxAddr s n) 256))) (streamOf s n).unsaved).chunkCons ∧
        c.frameSeq = (restoreFields (ctxOfEntry (entryOfBytes (peek s (ctxAddr s n) 256))) (streamOf s n).unsaved).frameSeq ∧
        (streamOf (contextFetch n s) n).live = c.treatedLive ∧
        (c.treatedLive = true → ctlLiveBit (entryOfBytes (peek s (ctxAddr s n) 256)) = true) := by
  obtain ⟨t, counted, eq⟩ := contextFetch_clean he hs hk hc hu hl ha hb
  have seen := seen_of_counted counted
  have same : streamOf t n = streamOf s n := streamOf_congr (beside_of_seen seen).streams n
  rw [← framePoolOk_of_seen seen] at hp
  rw [← same] at herr hn hf ⊢
  refine ⟨t, counted, ?_⟩
  rw [eq]
  exact cacheCtx_valid hv herr hp hr hn hf (calm_of_seen seen ho)

end

/-- Settles O32: a doorbell, an invalidate, a write of VID_CTX_CFG and the fetch of an entry each act on their own stream
alone. -/
theorem streamContexts : Obligations.StreamContexts := by
  intro n s x u enabled known fresh others acked keys entry read dropped
  refine ⟨fun d h => ⟨congrArg Host.Outcome.next (doorbell_unclaimed h _ d _), congrArg Host.Outcome.next (doorbell_unclaimed h _ d _)⟩,
    fun d hc hb hd hs => ?_, fun h => ?_, fun tok rest h => ⟨fun hd => ?_, fun hd => ?_⟩,
    fun h cfg => congrArg Host.Outcome.next (if_neg (by rw [h]; decide)), fun h cfg => ?_,
    fun he hs hk hc hu hl => ⟨fun ha => ?_, fun ha hb => ⟨fun hv => ?_, fun hv herr hp hr hn hf ho => ?_⟩⟩⟩
  · -- The doorbells: what the checks of the contexts leave of a count and of an invalidate.
    have bell := exec_chunkDoorbell (n := n) hc hb hd hs
    have written := exec_contextInvalidate hc hb hd hs
    have on : known → n.val < ctxCount (linkUsed s) := known_linkUsed.mpr
    have off : ¬ known → ¬ n.val < ctxCount (linkUsed s) := mt known_linkUsed.mp
    refine ⟨fun hk => ?_, fun hk he => ⟨_, bell, ?_⟩, fun hk he hf => ?_, fun hk he hf hx => ⟨_, bell, ?_⟩,
      fun c hk he hf hx ht => ?_, fun hinv => ⟨fun hk => ⟨_, written, ?_⟩, fun hk he => ⟨_, written, ?_⟩,
        fun hk he hl => ⟨_, written, ?_⟩, fun hk he hl => ⟨_, written, ?_⟩⟩⟩
    · rw [bell, chunkCount_unknown (off hk)]
      rfl
    · rw [chunkCount_disabled (on hk) (disabled_linkUsed.mpr he)]
      refine ⟨recorded_acceptChunks s n d.value, ?_⟩
      rw [streamOf_acceptChunks]
      rfl
    · have stale := Bool.eq_false_iff.mpr fun h => hf ((newer_iff _ _).mp h)
      rw [bell, chunkCount_stale (on hk) (enabled_linkUsed.mpr he) stale]
    · rw [chunkCount_uncached (on hk) (enabled_linkUsed.mpr he) ((newer_iff _ _).mpr hf) hx]
      exact recorded_acceptChunks s n d.value
    · have counted := chunkCount_cached (on hk) (enabled_linkUsed.mpr he) ((newer_iff _ _).mpr hf) hx ht
      refine ⟨fun hfit => ⟨_, bell, recorded_ready (counted.trans (if_pos hfit))⟩, fun hover hh => ⟨_, bell, ?_⟩⟩
      rw [counted, if_neg (Nat.not_le_of_lt hover)]
      exact overrun_error hh hx
    · exact invalidateWrite_unknown hinv (off hk)
    · rw [invalidateWrite_disabled hinv (on hk) (disabled_linkUsed.mpr he)]
      exact invalidate_disabled _
    · rw [invalidateWrite_queued hinv (on hk) (enabled_linkUsed.mpr he) hl]
      exact invalidate_queued _
    · rw [invalidateWrite_dropped hinv (on hk) (enabled_linkUsed.mpr he) hl]
      refine ⟨regsAndLog_overflows _ n _, fun h => ?_⟩
      have kept : rd u R.VID_CTX_INV_STAT_OVERFLOWS 0 = rd s R.VID_CTX_INV_STAT_OVERFLOWS 0 := rd_linkUsed s _ _ (by decide)
      rw [← kept] at h ⊢
      exact rd_overflows _ n h _
  · exact congrArg Host.Outcome.next (invalidateApply_none h)
  · exact congrArg Host.Outcome.next (invalidateApply_inDecode h hd)
  · -- An invalidate at the stream's frame boundary.
    obtain ⟨hack, hinv, hcores, hctx, hunread⟩ := invalidateApply_gone h hd
    have on : enabled → ctxEnabled s = true := (ctxEnabled_iff s).mpr
    have off : ¬ enabled → ctxEnabled s = false := fun he => Bool.eq_false_iff.mpr (mt (ctxEnabled_iff s).mp he)
    exact ⟨_, rfl, hack, hinv, hcores, hctx, hunread, fun hoff => invalidateApply_off h hd (Or.imp id off hoff),
      fun hk he ha hb => ⟨invalidateApply_kept h hd hk (on he) ha hb, invalidateApply_closed h hd hk (on he) ha hb⟩⟩
  · -- VID_CTX_CFG.
    have around := around_vidCtxCfgWrite cfg.toNat s
    obtain ⟨henable, hcount⟩ := rd_cfgWritten cfg.toNat s
    exact ⟨vidCtxCfgWrite cfg.toNat s, congrArg Host.Outcome.next (if_pos h), (around.regs _ (by simp [ctxFields]) 0).trans henable,
      (around.regs _ (by simp [ctxFields]) 0).trans hcount, around.invalidates, around.cores, around.prod n,
      vidCtxCfgWrite_uncached cfg.toNat⟩
  · exact ⟨_, rfl, contextFetch_outside ((ctxEnabled_iff s).mpr he) hs hk hc hu hl ha⟩
  · exact ⟨_, rfl, contextFetch_invalid ((ctxEnabled_iff s).mpr he) hs hk hc hu hl ha hb hv⟩
  · obtain ⟨t, counted, decided, hfmt, hchanged, opened⟩ :=
      contextFetch_valid ((ctxEnabled_iff s).mpr he) hs hk hc hu hl ha hb hv herr hp hr hn hf ho
    have beside := beside_of_checked (checked_of_counted counted)
    refine ⟨_, rfl, decided.mem.trans (counted_mem counted), decided.cores.trans beside.cores, fun m hm => ?_, hfmt, hchanged, opened⟩
    exact (decided.others m hm).trans (streamOf_congr beside.streams m)

end Sys2Proof.Contexts

/-! ## The shuffle of site tuning (R101) -/

namespace Sys2Proof.Shuffle

open Sys2Proof.Machine

/-! ### Passes until a value lies below a bound -/

section
variable {f : Nat → Nat} {N : Nat} (below : Set.MapsTo f (Set.Iio N) (Set.Iio N)) (inj : Set.InjOn f (Set.Iio N))
include below inj

/-- A one-to-one map of the numbers below `N` to themselves brings each of them back within `N` steps. -/
theorem returns {x : Nat} (hx : x < N) : ∃ m, 0 < m ∧ m ≤ N ∧ f^[m] x = x := by
  let g := below.restrict f _ _
  have periodic : (⟨x, hx⟩ : Set.Iio N) ∈ Function.periodicPts g := ((below.restrict_inj).mpr inj).mem_periodicPts _
  refine ⟨Function.minimalPeriod g ⟨x, hx⟩, Function.minimalPeriod_pos_of_mem_periodicPts periodic, ?_, ?_⟩
  · simpa using Function.minimalPeriod_le_card (f := g) (x := ⟨x, hx⟩)
  · have back : g^[Function.minimalPeriod g ⟨x, hx⟩] ⟨x, hx⟩ = ⟨x, hx⟩ := Function.iterate_minimalPeriod
    rw [below.iterate_restrict] at back
    exact congrArg Subtype.val back

/-- Two numbers below `n` whose first images below `n` agree are equal. -/
theorem first_inj {n p q l m : Nat} (hn : n ≤ N) (hp : p < n) (hq : q < n) (hl : 0 < l) (hlm : l ≤ m)
    (first : ∀ i, 0 < i → i < m → n ≤ f^[i] q) (h : f^[l] p = f^[m] q) : p = q := by
  have shifted : f^[l] p = f^[l] (f^[m - l] q) := by rw [h, ← Function.iterate_add_apply, Nat.add_sub_cancel' hlm]
  have same : p = f^[m - l] q :=
    inj.iterate below l (Nat.lt_of_lt_of_le hp hn) (below.iterate (m - l) (Nat.lt_of_lt_of_le hq hn)) shifted
  rcases Nat.eq_zero_or_pos (m - l) with h0 | hpos
  · rwa [h0] at same
  · have := first (m - l) hpos (by omega)
    omega

end

/-- The walk ends at the first image below `n`, if the passes suffice for one. -/
theorem shuffleWalk_first {k half n fuel x : Nat} (h : ∃ m, 0 < m ∧ m ≤ fuel ∧ (shufflePass k half)^[m] x < n) :
    ∃ m, 0 < m ∧ shuffleWalk k half n fuel x = (shufflePass k half)^[m] x ∧ shuffleWalk k half n fuel x < n ∧
      ∀ i, 0 < i → i < m → n ≤ (shufflePass k half)^[i] x := by
  induction fuel generalizing x with
  | zero =>
    obtain ⟨m, hpos, hle, -⟩ := h
    omega
  | succ fuel ih =>
    simp only [shuffleWalk]
    split
    next hlt => exact ⟨1, by decide, rfl, hlt, fun i h0 h1 => by omega⟩
    next hge =>
      have rest : ∃ m, 0 < m ∧ m ≤ fuel ∧ (shufflePass k half)^[m] (shufflePass k half x) < n := by
        obtain ⟨m, hpos, hle, hlt⟩ := h
        obtain ⟨m, rfl⟩ := Nat.exists_eq_add_one.mpr hpos
        have more : m ≠ 0 := fun h0 => hge (by rw [h0] at hlt; exact hlt)
        exact ⟨m, Nat.pos_of_ne_zero more, by omega, hlt⟩
      obtain ⟨m, -, heq, hlt, hfirst⟩ := ih rest
      refine ⟨m + 1, Nat.succ_pos m, heq, hlt, fun i hi him => ?_⟩
      obtain ⟨i, rfl⟩ := Nat.exists_eq_add_one.mpr hi
      rcases Nat.eq_zero_or_pos i with rfl | hpos
      · exact Nat.le_of_not_lt hge
      · exact hfirst i hpos (by omega)

/-! ### One pass is one to one -/

/-- A round keeps the right half and adds to the left one what depends on the right alone. -/
theorem shuffleRound_eq (k half j : Nat) : ∃ g : Nat → Nat, (∀ r, g r < 2 ^ half) ∧
    ∀ l r, shuffleRound k (2 ^ half - 1) (l, r) j = (r, l ^^^ g r) := by
  refine ⟨fun r => (shuffleRound k (2 ^ half - 1) (0, r) j).2, fun r => ?_, fun l r => ?_⟩
  · simp only [shuffleRound, Nat.zero_xor, Nat.and_two_pow_sub_one_eq_mod]
    exact Nat.mod_lt _ (Nat.two_pow_pos half)
  · simp only [shuffleRound, Nat.zero_xor]

theorem shuffleRound_inj (k half j : Nat) : Function.Injective (fun x => shuffleRound k (2 ^ half - 1) x j) := by
  obtain ⟨g, -, round⟩ := shuffleRound_eq k half j
  rintro ⟨l, r⟩ ⟨l', r'⟩ h
  simp only [round, Prod.mk.injEq] at h
  obtain ⟨rfl, h⟩ := h
  rw [Nat.xor_left_inj.mp h]

/-- Both halves lie below `2 ^ half`. -/
def Halves (half : Nat) (x : Nat × Nat) : Prop := x.1 < 2 ^ half ∧ x.2 < 2 ^ half

theorem halves_shuffleRound {half : Nat} {x : Nat × Nat} (k j : Nat) (h : Halves half x) :
    Halves half (shuffleRound k (2 ^ half - 1) x j) := by
  obtain ⟨g, bound, round⟩ := shuffleRound_eq k half j
  rw [show x = (x.1, x.2) from rfl, round]
  exact ⟨h.2, Nat.xor_lt_two_pow h.1 (bound x.2)⟩

/-- The four rounds of a pass. -/
def rounds (k half : Nat) (x : Nat × Nat) : Nat × Nat := (List.range 4).foldl (shuffleRound k (2 ^ half - 1)) x

theorem rounds_inj (k half : Nat) : Function.Injective (rounds k half) := by
  unfold rounds
  induction List.range 4 with
  | nil => exact Function.injective_id
  | cons j l ih => exact ih.comp (shuffleRound_inj k half j)

theorem halves_rounds {half : Nat} {x : Nat × Nat} (k : Nat) (h : Halves half x) : Halves half (rounds k half x) := by
  unfold rounds
  induction List.range 4 generalizing x with
  | nil => exact h
  | cons j l ih => exact ih (halves_shuffleRound k j h)

/-- The halves of a number. -/
def halvesOf (half x : Nat) : Nat × Nat := (x / 2 ^ half, x % 2 ^ half)

theorem halves_halvesOf {half x : Nat} (h : x < 2 ^ (2 * half)) : Halves half (halvesOf half x) := by
  rw [Nat.two_mul, Nat.pow_add] at h
  exact ⟨Nat.div_lt_of_lt_mul h, Nat.mod_lt _ (Nat.two_pow_pos half)⟩

/-- The number of two halves. -/
def ofHalves (half : Nat) (x : Nat × Nat) : Nat := 2 ^ half * x.1 + x.2

theorem ofHalves_halvesOf (half x : Nat) : ofHalves half (halvesOf half x) = x := Nat.div_add_mod x (2 ^ half)

theorem halvesOf_ofHalves {half : Nat} {x : Nat × Nat} (h : Halves half x) : halvesOf half (ofHalves half x) = x := by
  unfold halvesOf ofHalves
  rw [Nat.mul_add_div (Nat.two_pow_pos half), Nat.div_eq_of_lt h.2, Nat.mul_add_mod, Nat.mod_eq_of_lt h.2, Nat.add_zero]

theorem ofHalves_lt {half : Nat} {x : Nat × Nat} (h : Halves half x) : ofHalves half x < 2 ^ (2 * half) := by
  rw [Nat.two_mul, Nat.pow_add]
  calc 2 ^ half * x.1 + x.2 < 2 ^ half * x.1 + 2 ^ half := Nat.add_lt_add_left h.2 _
    _ = 2 ^ half * (x.1 + 1) := (Nat.mul_succ _ _).symm
    _ ≤ 2 ^ half * 2 ^ half := Nat.mul_le_mul_left _ h.1

theorem shufflePass_eq {half x : Nat} (k : Nat) (h : x < 2 ^ (2 * half)) :
    shufflePass k half x = ofHalves half (rounds k half (halvesOf half x)) := by
  have low := (halves_rounds k (halves_halvesOf h)).2
  unfold ofHalves
  rw [Nat.two_pow_add_eq_or_of_lt low, Nat.mul_comm]
  unfold shufflePass rounds halvesOf
  simp only [Nat.and_two_pow_sub_one_eq_mod]

theorem shufflePass_below (k half : Nat) : Set.MapsTo (shufflePass k half) (Set.Iio (2 ^ (2 * half))) (Set.Iio (2 ^ (2 * half))) := by
  intro x hx
  rw [shufflePass_eq k hx]
  exact ofHalves_lt (halves_rounds k (halves_halvesOf hx))

theorem shufflePass_inj (k half : Nat) : Set.InjOn (shufflePass k half) (Set.Iio (2 ^ (2 * half))) := by
  intro x hx y hy h
  rw [shufflePass_eq k hx, shufflePass_eq k hy] at h
  have joined := congrArg (halvesOf half) h
  rw [halvesOf_ofHalves (halves_rounds k (halves_halvesOf hx)), halvesOf_ofHalves (halves_rounds k (halves_halvesOf hy))] at joined
  rw [← ofHalves_halvesOf half x, rounds_inj k half joined, ofHalves_halvesOf]

/-! ### The shuffle -/

/-- Two halves hold every position of a list of `n` entries. -/
theorem le_halves {n : Nat} (hn : 0 < n) :
    n ≤ 2 ^ (2 * ((max 2 (bitLength (n - 1)) + max 2 (bitLength (n - 1)) % 2) / 2)) := by
  have bits : n - 1 < 2 ^ bitLength (n - 1) := by
    unfold bitLength
    split
    · omega
    · exact Nat.lt_log2_self
  have even : bitLength (n - 1) ≤ 2 * ((max 2 (bitLength (n - 1)) + max 2 (bitLength (n - 1)) % 2) / 2) := by omega
  have := Nat.pow_le_pow_right (n := 2) (by decide) even
  omega

/-- The shuffle of a list of more than one entry walks through the numbers of two halves, which hold its positions. -/
theorem perm_eq {n : Nat} (seed e : Nat) (hn : 0 < n) (h1 : n ≠ 1) :
    ∃ k half, n ≤ 2 ^ (2 * half) ∧ ∀ p, perm p seed e n = shuffleWalk k half n (2 ^ (2 * half)) p := by
  unfold perm
  simp only [if_neg h1]
  exact ⟨_, _, le_halves hn, fun _ => rfl⟩

/-- The walk from a position of the list ends at a position. -/
theorem walk_ends {k half n p : Nat} (hn : n ≤ 2 ^ (2 * half)) (hp : p < n) :
    ∃ m, 0 < m ∧ m ≤ 2 ^ (2 * half) ∧ (shufflePass k half)^[m] p < n := by
  obtain ⟨m, hpos, hle, back⟩ := returns (shufflePass_below k half) (shufflePass_inj k half) (Nat.lt_of_lt_of_le hp hn)
  exact ⟨m, hpos, hle, by rwa [back]⟩

theorem perm_lt (seed e : Nat) {n p : Nat} (hp : p < n) : perm p seed e n < n := by
  by_cases h1 : n = 1
  · rw [perm, if_pos h1]
    exact Nat.zero_lt_of_lt hp
  · obtain ⟨k, half, hn, eq⟩ := perm_eq seed e (Nat.zero_lt_of_lt hp) h1
    obtain ⟨m, -, -, hlt, -⟩ := shuffleWalk_first (walk_ends (k := k) hn hp)
    rwa [eq]

theorem perm_inj (seed e : Nat) {n p q : Nat} (hp : p < n) (hq : q < n) (h : perm p seed e n = perm q seed e n) : p = q := by
  by_cases h1 : n = 1
  · omega
  · obtain ⟨k, half, hn, eq⟩ := perm_eq seed e (Nat.zero_lt_of_lt hp) h1
    obtain ⟨l, hl, eqp, -, firstp⟩ := shuffleWalk_first (walk_ends (k := k) hn hp)
    obtain ⟨m, hm, eqq, -, firstq⟩ := shuffleWalk_first (walk_ends (k := k) hn hq)
    rw [eq, eq, eqp, eqq] at h
    have below := shufflePass_below k half
    have inj := shufflePass_inj k half
    rcases Nat.le_total l m with hlm | hml
    · exact first_inj below inj hn hp hq hl hlm firstq h
    · exact (first_inj below inj hn hq hp hm hml firstp h.symm).symm

end Sys2Proof.Shuffle

/-! ## Which registers an access to memory may change (R258, R276, R310 to R312, R314) -/

namespace Sys2Proof.Traffic

open Sys2Proof.Machine Sys2Proof.Laws Sys2Proof.HostAccess

/-- The registers in which accesses and the errors they meet are counted and recorded, and those of lost log entries. -/
def accessFields : List RegField :=
  [R.CMEM_ECC_CE, R.CMEM_ECC_UE, R.CMEM_ECC_ADDR_ADDR, R.CMEM_ECC_ADDR_UE, R.CMEM_ECC_ADDR_VALID, R.CMEM_POISON_WRITES,
    R.BAG_ECC_CE, R.BAG_ECC_UE, R.BAG_ECC_ADDR_ADDR, R.BAG_ECC_ADDR_UE, R.BAG_ECC_ADDR_VALID, R.BAG_POISON_WRITES,
    R.DRC_CH_CE, R.DRC_CH_UE, R.DRC_CE_ADDR_ADDR, R.DRC_CE_ADDR_CH, R.DRC_CE_ADDR_VALID, R.DRC_UE_ADDR_ADDR, R.DRC_UE_ADDR_CH,
    R.DRC_UE_ADDR_VALID, R.DRC_CH_RMW, R.DRC_CH_POISON, R.LOG_QDROP_MGMT, R.LOG_QDROP_CTRL, R.LOG_QDROP_DATA] ++ beatFields

theorem keepsBut_mono {l l' : List RegField} {s t : State} (hl : ∀ f ∈ l, f ∈ l') (h : KeepsBut l s t) : KeepsBut l' s t :=
  fun g i hg => h g i (Streams.besides_mono hl hg)

/-- Of the registers only those of accesses may have changed; `Checked` says what else an access may change. -/
def Accessed (s t : State) : Prop := KeepsBut accessFields s t

theorem accessed_refl (s : State) : Accessed s s := fun _ _ _ => rfl

theorem accessed_trans {s t u : State} (h : Accessed s t) (h' : Accessed t u) : Accessed s u := keepsBut_trans h h'

theorem accessed_ite {s t u : State} (c : Prop) [Decidable c] (h : Accessed s t) (h' : Accessed s u) :
    Accessed s (if c then t else u) :=
  iteInduction (fun _ => h) (fun _ => h')

theorem accessed_foldl {α : Type} {f : State → α → State} (h : ∀ s a, Accessed s (f s a)) (s : State) (l : List α) :
    Accessed s (l.foldl f s) :=
  foldl_steps accessed_refl (fun _ _ _ => accessed_trans) h s l

theorem accessed_of_regs {s t : State} (hf : t.fuses = s.fuses) (hr : t.regs = s.regs) : Accessed s t := keepsBut_of_regs _ hf hr

theorem accessed_of_counted {s t : State} (h : Counted s t) : Accessed s t :=
  keepsBut_mono (fun _ hf => List.mem_append_right _ hf) h.2

theorem accessed_wr (s : State) {f : RegField} (hf : f ∈ accessFields) (i v : Nat) : Accessed s (wr s f i v) := keepsBut_wr s hf i v

theorem accessed_bump (s : State) {f : RegField} (hf : f ∈ accessFields) (i n : Nat) : Accessed s (bump s f i n) :=
  keepsBut_bump s hf i n

theorem accessed_logIt (s : State) (p : Fin 3) (cls detail sev unit arg0 arg1 : Nat) :
    Accessed s (logIt s p cls detail sev unit arg0 arg1) := by
  have listed : qdropField p ∈ accessFields := by fin_cases p <;> simp [qdropField, accessFields]
  exact fun g i hg => logIt_regsKept s p _ _ _ _ _ _ g i fun hk => regKey_ne_of_besides hg listed i 0 (List.mem_singleton.mp hk)

/-- An error on chip is counted and recorded. -/
theorem accessed_onChipError (s : State) (i a : Nat) (ue : Bool) {fc fa fu fv : RegField} (hc : fc ∈ accessFields)
    (ha : fa ∈ accessFields) (hu : fu ∈ accessFields) (hv : fv ∈ accessFields) :
    Accessed s (recordOnChip (bump s fc i 1) fa fu fv i a ue) :=
  accessed_trans (accessed_bump s hc i 1) (accessed_ite _ (accessed_refl _)
    (accessed_trans (accessed_wr _ ha _ _) (accessed_trans (accessed_wr _ hu _ _) (accessed_wr _ hv _ _))))

/-- So is one in DRAM. -/
theorem accessed_dramError (s : State) (i a : Nat) {fc fa fh fv : RegField} (hc : fc ∈ accessFields) (ha : fa ∈ accessFields)
    (hh : fh ∈ accessFields) (hv : fv ∈ accessFields) : Accessed s (recordDram (bump s fc i 1) fa fh fv a) :=
  accessed_trans (accessed_bump s hc i 1) (accessed_ite _ (accessed_refl _)
    (accessed_trans (accessed_wr _ ha _ _) (accessed_trans (accessed_wr _ hh _ _) (accessed_wr _ hv _ _))))

theorem accessed_correctedRead (s : State) (a req : Nat) : Accessed s (correctedRead s a req) := by
  have logged : ∀ (u : State) (c : Prop) [Decidable c] (d x y z : Nat), Accessed u (if c then logIt u planeData 0x40 d 1 x y z else u) :=
    fun u c _ d x y z => accessed_ite c (accessed_logIt u _ _ _ _ _ _ _) (accessed_refl u)
  have same : ∀ (u : State) (e : SMap EccState) (l : List Nat), Accessed u { u with ecc := e, writeback := l } :=
    fun u e l => accessed_of_regs rfl rfl
  unfold correctedRead
  split
  · exact accessed_trans (accessed_onChipError s _ _ _ (by decide) (by decide) (by decide) (by decide))
      (accessed_trans (logged _ _ _ _ _ _) (same _ _ _))
  · exact accessed_trans (accessed_onChipError s _ _ _ (by decide) (by decide) (by decide) (by decide))
      (accessed_trans (logged _ _ _ _ _ _) (same _ _ _))
  · exact accessed_trans (accessed_dramError s _ _ (by decide) (by decide) (by decide) (by decide))
      (accessed_trans (logged _ _ _ _ _ _) (accessed_ite _ (same _ _ _) (accessed_refl _)))

theorem accessed_uncorrectableRead (s : State) (a req : Nat) : Accessed s (uncorrectableRead s a req) := by
  have poisoned : ∀ (u : State) (d x y z : Nat), Accessed u (poisonEcc (logIt u planeData 0x40 d 3 x y z) a) :=
    fun u d x y z => accessed_trans (accessed_logIt u _ _ _ _ _ _ _) (accessed_of_regs rfl rfl)
  unfold uncorrectableRead
  split
  · exact accessed_trans (accessed_onChipError s _ _ _ (by decide) (by decide) (by decide) (by decide)) (poisoned _ _ _ _ _)
  · exact accessed_trans (accessed_onChipError s _ _ _ (by decide) (by decide) (by decide) (by decide)) (poisoned _ _ _ _ _)
  · exact accessed_trans (accessed_dramError s _ _ (by decide) (by decide) (by decide) (by decide)) (poisoned _ _ _ _ _)

theorem accessed_checkWord (req : Nat) (s : State) (e : Nat × EccState) : Accessed s (checkWord req s e) := by
  obtain ⟨a, st⟩ := e
  cases st with
  | ok => exact accessed_refl s
  | single => exact accessed_correctedRead s a req
  | double => exact accessed_ite _ (accessed_refl s) (accessed_uncorrectableRead s a req)
  | poison => exact accessed_refl s

theorem accessed_writeWord (lo hi w : Nat) (poison : Bool) (req : Nat) (s : State) (a : Nat) :
    Accessed s (writeWord lo hi w poison req s a) := by
  have read : Accessed s (if lo ≤ a ∧ a + w ≤ hi then s else (badWords s a w).foldl (checkWord req) s) :=
    accessed_ite _ (accessed_refl s) (accessed_foldl (accessed_checkWord req) s _)
  exact accessed_trans read (accessed_ite _ (accessed_of_regs rfl rfl) (accessed_ite _ (accessed_of_regs rfl rfl) (accessed_refl _)))

theorem accessed_countWrite (s : State) (a n : Nat) (poison : Bool) : Accessed s (countWrite s a n poison) := by
  unfold countWrite
  dsimp only
  split
  · exact accessed_ite _ (accessed_bump s (by decide) _ _) (accessed_refl s)
  · exact accessed_ite _ (accessed_bump s (by decide) _ _) (accessed_refl s)
  · refine accessed_foldl (fun u j => ?_) s _
    exact accessed_trans (accessed_ite _ (accessed_refl u) (accessed_bump u (by decide) _ _))
      (accessed_ite _ (accessed_bump _ (by decide) _ _) (accessed_refl _))
  · exact accessed_refl s

theorem accessed_writeChecks (s : State) (req a n : Nat) (poison : Bool) : Accessed s (writeChecks s req a n poison) :=
  accessed_trans (accessed_of_counted (counted_beats s req a n true)) (accessed_trans (accessed_countWrite _ a n poison)
    (accessed_ite _ (accessed_foldl (accessed_writeWord _ _ _ _ _) _ _) (accessed_refl _)))

theorem accessed_memWrite (s : State) (req a : Nat) (bs : List Byte) (poison : Bool) : Accessed s (memWrite s req a bs poison) := by
  by_cases h : bs = []
  · subst h
    exact accessed_refl s
  · rw [memWrite_eq s req a poison h]
    exact accessed_trans (accessed_writeChecks s req a bs.length poison) (accessed_of_regs rfl rfl)

end Sys2Proof.Traffic

/-! ## Batches close and become ready (R93 to R95) -/

namespace Sys2Proof.Batches

open Sys2Proof.Machine Sys2Proof.Laws Sys2Proof.HostAccess Sys2Proof.Traffic Sys2Proof.Dispatch

/-! ### One area changes -/

theorem areaOf_congr {s t : State} (h : t.clusters = s.clusters) (c q a : Fin 4) : areaOf t c q a = areaOf s c q a := by
  unfold areaOf
  rw [h]

theorem areaOf_modArea (s : State) (c q a : Fin 4) (f : Area → Area) : areaOf (modArea s c q a f) c q a = f (areaOf s c q a) := by
  simp [areaOf, modArea, modBq, modCluster]

theorem areaOf_modArea_other (s : State) (c q : Fin 4) {a b : Fin 4} (f : Area → Area) (h : b ≠ a) :
    areaOf (modArea s c q a f) c q b = areaOf s c q b := by
  have ne : a.val ≠ b.val := fun e => h (Fin.ext e.symm)
  simp [areaOf, modArea, modBq, modCluster, Vector.getElem_set_ne _ _ ne]

/-- The number of the next batch is no part of an area. -/
theorem areaOf_seq (s : State) (c q a : Fin 4) (f : Bq → W64) :
    areaOf (modBq s c q (fun b => { b with seq := f b })) c q a = areaOf s c q a := by
  simp [areaOf, modBq, modCluster]

/-! ### Becoming ready -/

/-- Nothing has changed but the clusters, the order of events, and memory with what its accesses count. -/
def OnlyBatches (s t : State) : Prop :=
  t = { s with
    clusters := t.clusters, order := t.order, mem := t.mem, regs := t.regs, ecc := t.ecc, dramChs := t.dramChs
    writeback := t.writeback, logQ := t.logQ, logLost := t.logLost, freeCtr := t.freeCtr }

theorem onlyBatches_trans {s t u : State} (h : OnlyBatches s t) (h' : OnlyBatches t u) : OnlyBatches s u := by
  unfold OnlyBatches at *
  rw [h', h]

theorem onlyBatches_memWrite (s : State) (req a : Nat) (bs : List Byte) (poison : Bool) :
    OnlyBatches s (memWrite s req a bs poison) := by
  unfold OnlyBatches
  by_cases h : bs = []
  · subst h
    rfl
  · rw [memWrite_eq s req a poison h, (checked_writeChecks s req a bs.length poison).1]

/-- An area is as it was, or its closed batch has become ready. -/
def MadeReady (x y : Area) : Prop := y = x ∨ (x.st = .closed ∧ ∃ n, y = { x with st := .ready, readyAt := n })

theorem madeReady_trans {x y z : Area} (h : MadeReady x y) (h' : MadeReady y z) : MadeReady x z := by
  rcases h with rfl | ⟨hx, n, rfl⟩
  · exact h'
  · rcases h' with rfl | ⟨hy, -⟩
    · exact Or.inr ⟨hx, n, rfl⟩
    · cases hy

section
variable {x y : Area} (h : MadeReady x y)
include h

theorem slots_of_madeReady : y.slots = x.slots := by
  rcases h with rfl | ⟨-, n, rfl⟩ <;> rfl

theorem epoch_of_madeReady : y.epoch = x.epoch := by
  rcases h with rfl | ⟨-, n, rfl⟩ <;> rfl

theorem st_of_madeReady (hx : x.st = .closed) : y.st ≠ .opened := by
  rcases h with rfl | ⟨-, n, rfl⟩
  · rw [hx]
    decide
  · exact AreaState.noConfusion

end

/-- Closed batches of a class may have become ready: their headers are written, and no register changes but those that
count accesses. -/
structure Readied (c q : Fin 4) (s t : State) : Prop where
  only : OnlyBatches s t
  regs : Accessed s t
  areas : ∀ a, MadeReady (areaOf s c q a) (areaOf t c q a)

theorem readied_refl (c q : Fin 4) (s : State) : Readied c q s s := ⟨rfl, accessed_refl s, fun _ => Or.inl rfl⟩

theorem readied_trans {c q : Fin 4} {s t u : State} (h : Readied c q s t) (h' : Readied c q t u) : Readied c q s u :=
  ⟨onlyBatches_trans h.only h'.only, accessed_trans h.regs h'.regs, fun a => madeReady_trans (h.areas a) (h'.areas a)⟩

/-- The first closed batch is one that is closed. -/
theorem firstClosed_closed {s : State} {c q a : Fin 4} (h : firstClosed s c q = some a) : (areaOf s c q a).st = .closed := by
  have fold : firstClosed s c q =
      ((List.finRange 4).filter (fun a => (areaOf s c q a).st == .closed)).foldl
        (earlier (fun a => (areaOf s c q a).seq.toNat)) none := by
    unfold firstClosed
    refine congrArg (fun f => List.foldl f none _) ?_
    funext o a
    cases o <;> rfl
  obtain ⟨listed, -⟩ := (foldl_earlier_none _ _).2 a (fold.symm.trans h)
  exact eq_of_beq (List.mem_filter.mp listed).2

theorem clusters_memWrite (s : State) (req a : Nat) (bs : List Byte) (poison : Bool) :
    (memWrite s req a bs poison).clusters = s.clusters := by
  by_cases h : bs = []
  · rw [h, memWrite_nil]
  · rw [memWrite_eq s req a poison h, (checked_writeChecks s req a bs.length poison).1]

/-- A closed batch whose header has been written becomes ready. -/
theorem readied_mark {c q a : Fin 4} {s u : State} (only : OnlyBatches s u) (regs : Accessed s u) (hc : u.clusters = s.clusters)
    (closed : (areaOf s c q a).st = .closed) (n : Nat) :
    Readied c q s (modArea { u with order := u.order + 1 } c q a (fun x => { x with st := .ready, readyAt := n })) := by
  have same : ∀ b, areaOf { u with order := u.order + 1 } c q b = areaOf s c q b := areaOf_congr hc c q
  refine ⟨onlyBatches_trans only rfl, accessed_trans regs (accessed_of_regs rfl rfl), fun b => ?_⟩
  by_cases hb : b = a
  · subst hb
    rw [areaOf_modArea, same]
    exact Or.inr ⟨closed, n, rfl⟩
  · rw [areaOf_modArea_other _ _ _ _ hb, same]
    exact Or.inl rfl

theorem readied_readyStep (c q : Fin 4) (s : State) : Readied c q s (readyStep c q s) := by
  unfold readyStep
  split
  next a ha =>
    split
    · exact readied_mark (onlyBatches_memWrite s _ _ _ _) (accessed_memWrite s _ _ _ _) (clusters_memWrite s _ _ _ _)
        (firstClosed_closed ha) _
    · exact readied_refl c q s
  next => exact readied_refl c q s

theorem readied_readyClass (c q : Fin 4) (s : State) : Readied c q s (readyClass c q s) :=
  foldl_steps (readied_refl c q) (fun _ _ _ => readied_trans) (fun u _ => readied_readyStep c q u) s _

/-! ### A batch closes -/

/-- A batch as it closes: `n` slots in all, the unreserved ones empty. -/
def closedArea (s : State) (c q : Fin 4) (x : Area) : Area :=
  { x with
    st := .closed, seq := s.clusters[c].bq[q].seq, closeTime := nowW s, closedCyc := s.clock.cyc
    slots := x.slots ++ List.replicate (bqSize s c q - x.slots.length) emptySlot }

theorem st_closedArea (s : State) (c q : Fin 4) (x : Area) : (closedArea s c q x).st = .closed := rfl

/-- The batch of area `a` has closed: it takes the empty slots and is closed or ready, and of the registers BQ_SEQ and those
that count accesses may have changed. -/
structure Closes (c q a : Fin 4) (s t : State) : Prop where
  only : OnlyBatches s t
  regs : KeepsBut (R.BQ_SEQ :: accessFields) s t
  area : MadeReady (closedArea s c q (areaOf s c q a)) (areaOf t c q a)

theorem closes_closeBatch (s : State) (c q a : Fin 4) : Closes c q a s (closeBatch s c q a) := by
  let u := modArea (modBq s c q (fun b => { b with seq := b.seq + 1 })) c q a (closedArea s c q)
  let v := wr u R.BQ_SEQ (bqIx c q) (s.clusters[c].bq[q].seq.toNat + 1)
  have eq : closeBatch s c q a = readyClass c q v := rfl
  have numbered : KeepsBut (R.BQ_SEQ :: accessFields) s v :=
    keepsBut_trans (t := u) (keepsBut_of_regs _ rfl rfl) (keepsBut_wr u List.mem_cons_self _ _)
  have area : areaOf v c q a = closedArea s c q (areaOf s c q a) :=
    (areaOf_modArea _ c q a _).trans (congrArg _ (areaOf_seq s c q a _))
  obtain ⟨only, regs, areas⟩ := readied_readyClass c q v
  rw [eq]
  exact ⟨onlyBatches_trans (t := v) rfl only, keepsBut_trans numbered (keepsBut_mono (fun _ => List.mem_cons_of_mem _) regs),
    area ▸ areas a⟩

end Sys2Proof.Batches

/-! ## The shaper fields of a cached context entry (R83, R103) -/

namespace Sys2Proof.Sampling

open Sys2Proof.Machine Sys2Proof.Laws Sys2Proof.HostAccess Sys2Proof.Traffic Sys2Proof.Streams Sys2Proof.Batches

/-! ### Parts of a byte string -/

theorem natOfBytes_drop (k : Nat) (l : List Byte) : natOfBytes (l.drop k) = natOfBytes l / 256 ^ k := by
  induction k generalizing l with
  | zero => simp
  | succ k ih =>
    cases l with
    | nil => simp [natOfBytes]
    | cons b l =>
      have low : (b.toNat + 256 * natOfBytes l) / 256 = natOfBytes l := by
        have := b.isLt
        omega
      rw [List.drop_succ_cons, ih, natOfBytes, Nat.pow_succ', ← Nat.div_div_eq_div_mul, low]

theorem natOfBytes_lt (l : List Byte) : natOfBytes l < 256 ^ l.length := by
  induction l with
  | nil => decide
  | cons b l ih =>
    have := b.isLt
    rw [natOfBytes, List.length_cons, Nat.pow_succ']
    omega

/-- A word as wide as a byte string holds all of it. -/
theorem toNat_natOfBytes {l : List Byte} {w : Nat} (h : 8 * l.length = w) : (BitVec.ofNat w (natOfBytes l)).toNat = natOfBytes l := by
  subst h
  rw [BitVec.toNat_ofNat, Nat.pow_mul]
  exact Nat.mod_eq_of_lt (natOfBytes_lt l)

theorem natOfBytes_bytesOf_toNat {n : Nat} (v : BitVec (8 * n)) : BitVec.ofNat (8 * n) (natOfBytes (bytesOf n v.toNat)) = v := by
  refine BitVec.eq_of_toNat_eq ((toNat_natOfBytes (by rw [bytesOf_length])).trans ?_)
  have small := v.isLt
  rw [Nat.pow_mul] at small
  rw [natOfBytes_bytesOf]
  exact Nat.mod_eq_of_lt small

/-- A field of an entry depends on its bytes from there on. -/
theorem entryField_entryOfBytes {l : List Byte} (h : l.length = 256) (k n : Nat) :
    entryField (entryOfBytes l) k n = natOfBytes (l.drop k) % 2 ^ (8 * n) := by
  rw [entryField, entryOfBytes, toNat_natOfBytes (by rw [h]), bitsOf, natOfBytes_drop, Nat.pow_mul]

theorem entryOfBytes_bytesOf (e : BitVec 2048) : entryOfBytes (bytesOf 256 e.toNat) = e := natOfBytes_bytesOf_toNat (n := 256) e

/-! ### The entry as units read it -/

theorem deviceFields_length (c : Ctx) : (deviceFields c).length = 64 := by
  simp only [deviceFields, List.length_append, bytesOf_length, List.length_replicate]

/-- The bytes of a cached entry: those of its copy, with the device fields in their place. -/
def cachedBytes (c : Ctx) : List Byte := putBytes (bytesOf 256 c.entry.toNat) 0x40 (deviceFields c)

theorem cachedBytes_length (c : Ctx) : (cachedBytes c).length = 256 := by
  simp [cachedBytes, putBytes, deviceFields_length]

/-- Behind the device fields the bytes are those of the copy. -/
theorem cachedBytes_drop (c : Ctx) : (cachedBytes c).drop 0x80 = (bytesOf 256 c.entry.toNat).drop 0x80 := by
  have front : ((bytesOf 256 c.entry.toNat).take 0x40 ++ List.replicate (0x40 - 256) 0 ++ deviceFields c).length = 0x80 := by
    simp [deviceFields_length]
  rw [cachedBytes, putBytes, deviceFields_length, bytesOf_length]
  exact List.drop_left' front

/-- The shaper fields are those of the copy (R83). -/
theorem shOfEntry_cachedBytes (c : Ctx) : shOfEntry (entryOfBytes (cachedBytes c)) = BitVec.ofNat 512 (entryField c.entry 0x80 64) := by
  have copy := entryField_entryOfBytes (bytesOf_length 256 c.entry.toNat) 0x80 64
  rw [entryOfBytes_bytesOf, ← cachedBytes_drop] at copy
  rw [shOfEntry, entryField_entryOfBytes (cachedBytes_length c), copy]

/-- A cached copy that can be read gives the entry. -/
theorem encEntry_cached {s : State} {n : Fin 1024} {c : Ctx} (hc : (streamOf s n).ctx = some c) (hh : .ctx n ∉ s.hidden) :
    ∃ u, Seen s u ∧ encEntry s n = ⟨u, cachedBytes c, 0⟩ := by
  have read : ctxCopyRead s n = hiddenRead s (.ctx n) := by
    unfold ctxCopyRead
    simp only [hc, Option.isNone_some, Bool.false_eq_true, if_false, (hiddenRead_ok hh).1]
  have cached : (streamOf (hiddenRead s (.ctx n)).1 n).ctx = some c := by
    rw [streamOf_congr (beside_of_seen (hiddenRead_ok hh).2).streams, hc]
  refine ⟨_, (hiddenRead_ok hh).2, ?_⟩
  simp only [encEntry, read, (hiddenRead_ok hh).1, Bool.false_eq_true, if_false, cached]
  rfl

end Sys2Proof.Sampling

/-! ## O36: the order and the start of site-tuning samples (R100 to R103) -/

namespace Sys2Proof.Sampling

open Sys2Proof.Machine Sys2Proof.Laws Sys2Proof.HostAccess Sys2Proof.Traffic Sys2Proof.Streams Sys2Proof.Batches

/-! ### The start of a sample -/

/-- The sample that takes slot `slot` of area `a` for the descriptor `d`, whose stream has the context `x`. -/
def tuneSample (s : State) (c q a : Fin 4) (slot : Nat) (d : BitVec 256) (x : Ctx) : ShJob :=
  { stream := Fin.ofNat 1024 (bitsOf d.toNat 64 10), frame := BitVec.ofNat 48 d.toNat, cluster := c, cls := q, area := a
    slot := slot, started := true, reason := 0, replacing := false, startAt := elapsedW s
    cfg := BitVec.ofNat 512 (entryField x.entry 0x80 64), tune := some d }

/-- The sample of a descriptor whose stream's entry is cached. -/
theorem tuneJob_cached {s : State} {c q a : Fin 4} {slot : Nat} {d : BitVec 256} {x : Ctx}
    (hc : (streamOf s (Fin.ofNat 1024 (bitsOf d.toNat 64 10))).ctx = some x)
    (hh : .ctx (Fin.ofNat 1024 (bitsOf d.toNat 64 10)) ∉ s.hidden) :
    ∃ u, Seen s u ∧ tuneJob s c q a slot d false = (u, tuneSample s c q a slot d x) := by
  obtain ⟨u, seen, read⟩ := encEntry_cached hc hh
  refine ⟨u, seen, ?_⟩
  simp only [tuneJob, tuneSample, Bool.false_eq_true, if_false, read, if_true, shOfEntry_cachedBytes]

/-- An area in which the next slot is reserved. -/
def reservedArea (s : State) (sid epoch : Nat) (x : Area) : Area :=
  { x with
    st := .opened, epoch := BitVec.ofNat 32 epoch, firstAt := if x.slots.isEmpty then nowW s else x.firstAt
    slots := x.slots ++ [{ emptySlot with sampleId := BitVec.ofNat 64 sid, valid := true }] }

theorem areaOf_reserveIn (s : State) (c q a : Fin 4) (sid epoch : Nat) :
    areaOf (reserveIn s c q a sid epoch) c q a = reservedArea s sid epoch (areaOf s c q a) := areaOf_modArea s c q a _

/-- A slot is reserved, and shaper `k` has the sample. -/
def startedIn (s : State) (k : Fin 8) (c q a : Fin 4) (sid epoch : Nat) (j : ShJob) : State :=
  { reserveIn s c q a sid epoch with shs := s.shs.set k (some j) }

theorem areaOf_startedIn (s : State) (k : Fin 8) (c q a : Fin 4) (sid epoch : Nat) (j : ShJob) :
    areaOf (startedIn s k c q a sid epoch j) c q a = reservedArea s sid epoch (areaOf s c q a) :=
  (areaOf_congr (s := reserveIn s c q a sid epoch) rfl c q a).trans (areaOf_reserveIn s c q a sid epoch)

/-- The slot that a sample has reserved. -/
def reservedSlot (sid : Nat) : Slot := { emptySlot with sampleId := BitVec.ofNat 64 sid, valid := true }

theorem slots_reservedArea (s : State) (sid epoch : Nat) (x : Area) :
    (reservedArea s sid epoch x).slots = x.slots ++ [reservedSlot sid] := rfl

section
variable {s u : State} (h : Seen s u) (k : Fin 8) (c q a : Fin 4) (sid epoch : Nat) (j : ShJob)
include h

theorem area_of_seen : areaOf u c q a = areaOf s c q a := areaOf_congr (by rw [h.1]) c q a

theorem rd_startedIn {g : RegField} (hg : besides seenFields g = true) (i : Nat) : rd (startedIn u k c q a sid epoch j) g i = rd s g i :=
  h.2 g i hg

theorem units_startedIn : (startedIn u k c q a sid epoch j).cores = s.cores ∧ (startedIn u k c q a sid epoch j).vds = s.vds ∧
    (startedIn u k c q a sid epoch j).offers = s.offers ∧ (startedIn u k c q a sid epoch j).shs = s.shs.set k (some j) :=
  have beside := beside_of_seen h
  have offers : u.offers = s.offers := by rw [h.1]
  ⟨beside.cores, beside.vds, offers, congrArg (fun w => w.set k (some j)) beside.shs⟩

theorem area_startedIn : areaOf (startedIn u k c q a sid epoch j) c q a = reservedArea u sid epoch (areaOf s c q a) := by
  rw [areaOf_startedIn, area_of_seen h]

end

/-- Nothing starts where the shaper is not free to, or the class has no position or no area for it. -/
theorem siteTuningSampleStart_idle {s : State} {k : Fin 8} {c q : Fin 4}
    (h : shaperRuns s k = false ∨ s.shs[k] ≠ none ∨ tuneRuns s c q = false ∨ nextArea s c q = none) :
    siteTuningSampleStart k c q s = s := by
  unfold siteTuningSampleStart
  split
  · rfl
  next hfree =>
    simp only [Bool.or_eq_true, Bool.not_eq_true', not_or, Bool.not_eq_false, Bool.not_eq_true, Option.isSome_eq_false_iff,
      Option.isNone_iff_eq_none] at hfree
    obtain ⟨⟨hruns, hidle⟩, htunes⟩ := hfree
    have none : nextArea s c q = none := by
      rcases h with h | h | h | h
      · rw [hruns] at h; cases h
      · exact absurd hidle h
      · rw [htunes] at h; cases h
      · exact h
    rw [none]

/-- The entry of the list at the class's position. -/
def nextEntry (s : State) (c q : Fin 4) : Nat :=
  perm (rd s R.BQ_POS (bqIx c q)) (rd s R.BQ_SEED (bqIx c q)) (rd s R.BQ_EPOCH (bqIx c q)) (rd s R.BQ_LIST_N (bqIx c q))

/-- Where it lies. -/
def entryAddr (s : State) (c q : Fin 4) : Nat := rd s R.BQ_LIST (bqIx c q) * 32 + 32 * nextEntry s c q

/-- The descriptor in it. -/
def nextDescriptor (s : State) (c q : Fin 4) : BitVec 256 := BitVec.ofNat 256 (natOfBytes (peek s (entryAddr s c q) 32))

/-- A sample starts at position `p`, once its descriptor has been read. -/
def startAtPosition (k : Fin 8) (c q a : Fin 4) (p entry slot : Nat) (r : MemRead) : State :=
  let j := tuneJob r.s c q a slot (BitVec.ofNat 256 (natOfBytes r.bytes)) r.poison
  afterPosition (startedIn j.1 k c q a (tuneSampleId entry) (rd j.1 R.BQ_EPOCH (bqIx c q)) j.2) c q a p

/-- A position starts: its sample takes the next slot of the class under the number of its entry, and the position moves on. -/
theorem siteTuningSampleStart_starts {s : State} {k : Fin 8} {c q a : Fin 4} {x : Ctx} (hr : shaperRuns s k = true)
    (hi : s.shs[k] = none) (ht : tuneRuns s c q = true) (ha : nextArea s c q = some a)
    (hc : (streamOf s (Fin.ofNat 1024 (bitsOf (nextDescriptor s c q).toNat 64 10))).ctx = some x)
    (hb : badWords s (entryAddr s c q) 32 = [])
    (hh : .ctx (Fin.ofNat 1024 (bitsOf (nextDescriptor s c q).toNat 64 10)) ∉ s.hidden) :
    ∃ u, Seen s u ∧ siteTuningSampleStart k c q s =
      afterPosition (startedIn u k c q a (tuneSampleId (nextEntry s c q)) (rd u R.BQ_EPOCH (bqIx c q))
        (tuneSample s c q a (areaOf s c q a).slots.length (nextDescriptor s c q) x)) c q a (rd s R.BQ_POS (bqIx c q)) := by
  have free : ¬ (!shaperRuns s k || s.shs[k].isSome || !tuneRuns s c q) = true := by
    rw [hr, hi, ht]
    decide
  have eq : siteTuningSampleStart k c q s = startAtPosition k c q a (rd s R.BQ_POS (bqIx c q)) (nextEntry s c q)
      (areaOf s c q a).slots.length (memRead s (16 + k.val) (entryAddr s c q) 32) := by
    unfold siteTuningSampleStart
    rw [if_neg free, ha]
    rfl
  have counted := counted_beats s (16 + k.val) (entryAddr s c q) 32 false
  have beside := beside_of_checked (checked_of_counted counted)
  obtain ⟨u, seen, job⟩ := tuneJob_cached (c := c) (q := q) (a := a) (slot := (areaOf s c q a).slots.length)
    (s := beats s (16 + k.val) (entryAddr s c q) 32 false) (d := nextDescriptor s c q) (x := x)
    (by rw [streamOf_congr beside.streams]; exact hc) (by rw [beside.hidden]; exact hh)
  refine ⟨u, seen_trans (seen_of_counted counted) seen, ?_⟩
  rw [eq, memRead_clean _ hb]
  have same : tuneSample (beats s (16 + k.val) (entryAddr s c q) 32 false) = tuneSample s := by
    unfold tuneSample elapsedW elapsed
    rw [beside.clock]
  rw [same] at job
  unfold nextDescriptor at job ⊢
  simp only [startAtPosition, job]

/-! ### What follows the start of a position -/

/-- A write of one register leaves another. -/
theorem rd_wr_besides (s : State) {f g : RegField} (h : besides [f] g = true) (i j v : Nat) : rd (wr s f i v) g j = rd s g j :=
  keepsBut_wr s (List.mem_singleton.mpr rfl) i v g j h

theorem rd_closeBatch (s : State) (c q a : Fin 4) {g : RegField} (h : besides (R.BQ_SEQ :: accessFields) g = true) (i : Nat) :
    rd (closeBatch s c q a) g i = rd s g i :=
  (closes_closeBatch s c q a).regs g i h

theorem areaOf_nextEpoch (s : State) (c q a : Fin 4) : areaOf (nextEpoch s c q) c q a = areaOf s c q a := areaOf_congr rfl c q a

section
variable {s : State} {c q a : Fin 4} {p : Nat}

/-- The last position of the list closes its batch and ends the epoch. -/
theorem afterPosition_last (hl : p + 1 = rd s R.BQ_LIST_N (bqIx c q)) :
    afterPosition s c q a p = nextEpoch (closeBatch s c q a) c q := if_pos hl

/-- Another moves the position on, and closes its batch where that is full of positions. -/
theorem afterPosition_next (hl : p + 1 ≠ rd s R.BQ_LIST_N (bqIx c q)) :
    afterPosition s c q a p =
      if (p + 1) % bqSize s c q = 0 then closeBatch (wr s R.BQ_POS (bqIx c q) (p + 1)) c q a
      else wr s R.BQ_POS (bqIx c q) (p + 1) := by
  have size : bqSize (wr s R.BQ_POS (bqIx c q) (p + 1)) c q = bqSize s c q := by
    unfold bqSize
    rw [rd_wr_besides s (by decide)]
  rw [← size]
  exact if_neg hl

/-- The batch of `s` has its slots and its epoch in `t`, and `t` differs in batches and accesses alone. -/
def KeepsBatch (c q a : Fin 4) (s t : State) : Prop :=
  OnlyBatches s t ∧ (∃ l, (areaOf t c q a).slots = (areaOf s c q a).slots ++ l) ∧ (areaOf t c q a).epoch = (areaOf s c q a).epoch

theorem keepsBatch_of_area {t : State} (ho : OnlyBatches s t) (ha : areaOf t c q a = areaOf s c q a) : KeepsBatch c q a s t :=
  ⟨ho, ⟨[], by rw [ha, List.append_nil]⟩, by rw [ha]⟩

theorem keepsBatch_trans {t u : State} (h : KeepsBatch c q a s t) (h' : KeepsBatch c q a t u) : KeepsBatch c q a s u := by
  obtain ⟨only, ⟨l, slots⟩, epoch⟩ := h
  obtain ⟨only', ⟨l', slots'⟩, epoch'⟩ := h'
  exact ⟨onlyBatches_trans only only', ⟨l ++ l', by rw [slots', slots, List.append_assoc]⟩, epoch'.trans epoch⟩

theorem keepsBatch_wr (f : RegField) (i v : Nat) : KeepsBatch c q a s (wr s f i v) :=
  keepsBatch_of_area rfl (areaOf_congr (wr_clusters s f i v) c q a)

theorem keepsBatch_closeBatch : KeepsBatch c q a s (closeBatch s c q a) := by
  obtain ⟨only, -, area⟩ := closes_closeBatch s c q a
  exact ⟨only, ⟨_, slots_of_madeReady area⟩, (epoch_of_madeReady area).trans rfl⟩

theorem keepsBatch_afterPosition : KeepsBatch c q a s (afterPosition s c q a p) := by
  by_cases hl : p + 1 = rd s R.BQ_LIST_N (bqIx c q)
  · rw [afterPosition_last hl]
    unfold nextEpoch
    exact keepsBatch_trans keepsBatch_closeBatch
      (keepsBatch_trans (keepsBatch_wr _ _ _) (keepsBatch_trans (keepsBatch_wr _ _ _) (keepsBatch_wr _ _ _)))
  · rw [afterPosition_next hl]
    exact iteInduction (fun _ => keepsBatch_trans (keepsBatch_wr _ _ _) keepsBatch_closeBatch) (fun _ => keepsBatch_wr _ _ _)

theorem rd_afterPosition_next (hl : p + 1 ≠ rd s R.BQ_LIST_N (bqIx c q)) :
    rd (afterPosition s c q a p) R.BQ_POS (bqIx c q) = (p + 1) % 2 ^ 24 ∧
      rd (afterPosition s c q a p) R.BQ_EPOCH (bqIx c q) = rd s R.BQ_EPOCH (bqIx c q) := by
  have moved := rd_wr_same s R.BQ_POS (bqIx c q) (p + 1)
  have epoch := rd_wr_besides s (f := R.BQ_POS) (g := R.BQ_EPOCH) (by decide) (bqIx c q) (bqIx c q) (p + 1)
  rw [afterPosition_next hl]
  split
  · rw [rd_closeBatch _ _ _ _ (by decide), rd_closeBatch _ _ _ _ (by decide)]
    exact ⟨moved, epoch⟩
  · exact ⟨moved, epoch⟩

/-- Within a batch it stays open. -/
theorem st_afterPosition_next (hl : p + 1 ≠ rd s R.BQ_LIST_N (bqIx c q)) (hb : 0 < (p + 1) % bqSize s c q) :
    (areaOf (afterPosition s c q a p) c q a).st = (areaOf s c q a).st := by
  rw [afterPosition_next hl, if_neg (Nat.ne_of_gt hb)]
  rfl

theorem rd_afterPosition_last (hl : p + 1 = rd s R.BQ_LIST_N (bqIx c q)) :
    rd (afterPosition s c q a p) R.BQ_POS (bqIx c q) = 0 ∧
      rd (afterPosition s c q a p) R.BQ_EPOCH (bqIx c q) = (rd s R.BQ_EPOCH (bqIx c q) + 1) % 2 ^ 32 ∧
      rd (afterPosition s c q a p) R.BQ_DONE (bqIx c q) =
        b2n (decide (rd s R.BQ_EPOCH_LAST (bqIx c q) ≤ rd s R.BQ_EPOCH (bqIx c q))) := by
  have epoch := rd_closeBatch s c q a (g := R.BQ_EPOCH) (by decide) (bqIx c q)
  have last := rd_closeBatch s c q a (g := R.BQ_EPOCH_LAST) (by decide) (bqIx c q)
  rw [afterPosition_last hl]
  unfold nextEpoch wrb
  refine ⟨?_, ?_, ?_⟩
  · rw [rd_wr_besides _ (by decide), rd_wr_besides _ (by decide), rd_wr_same]
    rfl
  · rw [rd_wr_besides _ (by decide), rd_wr_same, epoch]
    rfl
  · rw [rd_wr_same, epoch, last]
    cases decide (rd s R.BQ_EPOCH_LAST (bqIx c q) ≤ rd s R.BQ_EPOCH (bqIx c q)) <;> rfl

theorem st_afterPosition_last (hl : p + 1 = rd s R.BQ_LIST_N (bqIx c q)) :
    (areaOf (afterPosition s c q a p) c q a).st ≠ .opened := by
  rw [afterPosition_last hl, areaOf_nextEpoch]
  exact st_of_madeReady (closes_closeBatch s c q a).area (st_closedArea s c q _)

end

/-! ### The obligation -/

/-- Settles O36: the passes of the network are one to one, and so is the first return to the positions of the list; the start
of a sample acts on its slot, and the batch closes behind it. -/
theorem siteTunes : Obligations.SiteTunes := by
  refine ⟨fun seed e n _ _ => ⟨fun p hp => Shuffle.perm_lt seed e hp, fun p p' hp hp' => Shuffle.perm_inj seed e hp hp'⟩,
    fun k c q a s => ⟨fun h => congrArg Host.Outcome.next (siteTuningSampleStart_idle h), ?_⟩⟩
  intro x hr hi ht ha hc hb hh
  obtain ⟨u, seen, eq⟩ := siteTuningSampleStart_starts hr hi ht ha hc hb hh
  rw [seen.2 R.BQ_EPOCH _ (by decide)] at eq
  -- The state in which the sample has its slot, and what it reads as.
  let j := tuneSample s c q a (areaOf s c q a).slots.length (nextDescriptor s c q) x
  obtain ⟨v, hv⟩ : ∃ v, v = startedIn u k c q a (tuneSampleId (nextEntry s c q)) (rd s R.BQ_EPOCH (bqIx c q)) j := ⟨_, rfl⟩
  have reads : ∀ g, besides seenFields g = true → rd v g (bqIx c q) = rd s g (bqIx c q) := fun g hg =>
    hv ▸ rd_startedIn seen k c q a _ _ j hg _
  have size : bqSize v c q = bqSize s c q := by
    unfold bqSize
    rw [reads R.BQ_SIZE (by decide)]
  obtain ⟨cores, vds, offers, shs⟩ : v.cores = s.cores ∧ v.vds = s.vds ∧ v.offers = s.offers ∧ v.shs = s.shs.set k (some j) :=
    hv ▸ units_startedIn seen k c q a _ _ j
  have area : areaOf v c q a =
      reservedArea u (tuneSampleId (nextEntry s c q)) (rd s R.BQ_EPOCH (bqIx c q)) (areaOf s c q a) :=
    hv ▸ area_startedIn seen k c q a _ _ j
  -- What the move to the next position leaves of it.
  obtain ⟨only, ⟨l, slots⟩, epoch⟩ := keepsBatch_afterPosition (s := v) (c := c) (q := q) (a := a) (p := rd s R.BQ_POS (bqIx c q))
  rw [area, slots_reservedArea] at slots
  rw [area] at epoch
  have list := reads R.BQ_LIST_N (by decide)
  refine ⟨afterPosition v c q a (rd s R.BQ_POS (bqIx c q)), congrArg Host.Outcome.next (eq.trans (by rw [hv])),
    (congrArg State.cores only).trans cores, (congrArg State.vds only).trans vds, (congrArg State.offers only).trans offers,
    (congrArg State.shs only).trans shs, fun z hz => ?_, ?_, epoch, fun hl => ?_, fun hl => ?_⟩
  · have slot : (areaOf (afterPosition v c q a (rd s R.BQ_POS (bqIx c q))) c q a).slots[(areaOf s c q a).slots.length]? =
        some (reservedSlot (tuneSampleId (nextEntry s c q))) := by
      simp [slots]
    obtain rfl := Option.some.inj (hz.symm.trans slot)
    exact ⟨rfl, rfl⟩
  · have longer := congrArg List.length slots
    simp only [List.length_append, List.length_singleton] at longer
    change (areaOf s c q a).slots.length < (areaOf _ c q a).slots.length
    omega
  · have hl' : rd s R.BQ_POS (bqIx c q) + 1 ≠ rd v R.BQ_LIST_N (bqIx c q) := by rwa [list]
    obtain ⟨hpos, hepoch⟩ := rd_afterPosition_next (a := a) hl'
    refine ⟨hpos, hepoch.trans (reads R.BQ_EPOCH (by decide)), fun hb => ?_⟩
    exact (st_afterPosition_next (a := a) hl' (by rwa [size])).trans (by rw [area]; rfl)
  · have hl' : rd s R.BQ_POS (bqIx c q) + 1 = rd v R.BQ_LIST_N (bqIx c q) := by rwa [list]
    obtain ⟨hpos, hepoch, hdone⟩ := rd_afterPosition_last (a := a) hl'
    rw [reads R.BQ_EPOCH (by decide), reads R.BQ_EPOCH_LAST (by decide)] at hdone
    rw [reads R.BQ_EPOCH (by decide)] at hepoch
    exact ⟨hpos, hepoch, hdone, st_afterPosition_last hl'⟩

end Sys2Proof.Sampling

/-! ## O35: a shaper takes a frame whose stream's cached entry has a single-bit error (R81, R261)

`ShapedSamples` has the state in which a frame has been taken equal to the one before but for shapers, offers, clusters and
registers. The read of the cached context entry corrects a single-bit error in it and logs that (log entry 215), so where there
is one the errors of hidden memories and the log's queue change too. The statement's hypothesis `.ctx o.stream ∉ s.hidden` keeps
out uncorrectable errors alone. -/

namespace Sys2Proof.Sampling

open Sys2Proof.Machine Sys2Proof.Tests

/-- Shaper 0 is idle and a frame of stream 3 is on offer; the cached copy of the stream's entry has a single-bit error. -/
def correctedCopy : State := shaping (shEntry 0 16) (fun s => { s with hiddenCe := [.ctx 3] })

/-- The copy has been read and corrected. -/
theorem shaperTakeFrame_correctedCopy : (shaperTakeFrame 0 correctedCopy).hiddenCe = [] := by decide +kernel

/-- Refutes O35: the slot taken leaves room in its batch, so the statement has the errors of hidden memories as they were; but
the single-bit error in the cached entry is gone once the entry has been read. -/
theorem not_shapedSamples : ¬ Obligations.ShapedSamples := by
  intro h
  obtain ⟨takes, -⟩ := h
  obtain ⟨-, -, -, -, starts, -⟩ := takes 0 correctedCopy
  obtain ⟨-, room⟩ := starts offer (ctxOfEntry (shEntry 0 16)) 0 (by decide +kernel) (by decide +kernel)
    (by decide +kernel) (by decide +kernel) (by decide +kernel)
  obtain ⟨t, ht, frame, -⟩ := room (by decide +kernel) (by decide +kernel) (by decide +kernel) (by decide +kernel) (by decide +kernel)
  have answered : shaperTakeFrame 0 correctedCopy = t := by injection ht
  have kept : t.hiddenCe = [.ctx 3] := congrArg State.hiddenCe frame
  rw [← answered, shaperTakeFrame_correctedCopy] at kept
  cases kept

end Sys2Proof.Sampling

/-! ## What the pools change beside the encoders (R279 to R287) -/

namespace Sys2Proof.Encoding

open Sys2Proof.Machine Sys2Proof.Laws Sys2Proof.HostAccess Sys2Proof.Traffic

/-! ### Accesses to memory -/

theorem accessed_memRead (s : State) (req a n : Nat) : Accessed s (memRead s req a n).s :=
  accessed_trans (accessed_of_counted (counted_beats s req a n false))
    (accessed_ite _ (accessed_foldl (accessed_checkWord req) _ _) (accessed_refl _))

/-- Nothing has changed but memory with its check bits, and what accesses to it are counted and logged in. -/
structure Touched (s t : State) : Prop where
  only : t = { s with
    mem := t.mem, regs := t.regs, ecc := t.ecc, dramChs := t.dramChs, writeback := t.writeback, logQ := t.logQ
    logLost := t.logLost, freeCtr := t.freeCtr }
  regs : Accessed s t

theorem touched_refl (s : State) : Touched s s := ⟨rfl, accessed_refl s⟩

theorem touched_trans {s t u : State} (h : Touched s t) (h' : Touched t u) : Touched s u := by
  obtain ⟨ht, hk⟩ := h
  obtain ⟨hu, hk'⟩ := h'
  refine ⟨?_, accessed_trans hk hk'⟩
  rw [hu, ht]

theorem touched_foldl {α : Type} {f : State → α → State} (h : ∀ s a, Touched s (f s a)) (s : State) (l : List α) :
    Touched s (l.foldl f s) :=
  foldl_steps touched_refl (fun _ _ _ => touched_trans) h s l

theorem touched_of_checked {s t : State} (h : Checked s t) (hr : Accessed s t) : Touched s t := by
  obtain ⟨ht, -⟩ := h
  exact ⟨by rw [ht], hr⟩

theorem touched_memRead (s : State) (req a n : Nat) : Touched s (memRead s req a n).s :=
  touched_of_checked (checked_memRead s req a n) (accessed_memRead s req a n)

theorem mem_memRead (s : State) (req a n : Nat) : (memRead s req a n).s.mem = s.mem := by
  rw [(checked_memRead s req a n).1]

theorem touched_memWrite (s : State) (req a : Nat) (bs : List Byte) (poison : Bool) : Touched s (memWrite s req a bs poison) := by
  refine ⟨?_, accessed_memWrite s req a bs poison⟩
  by_cases h : bs = []
  · subst h
    rfl
  · rw [memWrite_eq s req a poison h, (checked_writeChecks s req a bs.length poison).1]

/-! ### Where pools keep what they know -/

/-- The registers that allocations, frees and holds change. -/
def poolFields : List RegField :=
  [R.BPM_POOL_STATUS_READY, R.BPM_POOL_STATUS_FREE, R.BPM_POOL_STATUS_LEVEL, R.BPM_POOL_MAX_USED, R.BPM_POOL_ALLOCS,
    R.BPM_POOL_FREES, R.BPM_POOL_ERRORS, R.BPM_ERR_LAST_PTR, R.BPM_ERR_LAST_CODE, R.BPM_ERR_LAST_VALID] ++ accessFields

/-- The byte at `z` is neither part of a pool's bitmap nor a count of holds. -/
def Apart (s : State) (z : Nat) : Prop :=
  ∀ p : Fin 8, (z < poolMap s p ∨ poolMap s p + mapBytes s p ≤ z) ∧ (poolHolds s p = true → ∀ i, z ≠ bufAddr s p i + 3)

/-- The registers that say where the pools lie and whether their buffers have holds. -/
def placeFields : List RegField :=
  [R.BPM_POOL_CFG_SIZE_LOG2, R.BPM_POOL_COUNT, R.BPM_POOL_BASE, R.BPM_POOL_MAP, R.BPM_POOL_CFG_HOLD_EN]

/-- The pools lie where they lay. -/
structure SamePlaces (s t : State) : Prop where
  size : ∀ p, poolSize t p = poolSize s p
  count : ∀ p, poolCount t p = poolCount s p
  map : ∀ p, poolMap t p = poolMap s p
  mapBytes : ∀ p, mapBytes t p = mapBytes s p
  buf : ∀ p i, bufAddr t p i = bufAddr s p i
  holds : ∀ p, poolHolds t p = poolHolds s p

theorem samePlaces_of_regs {l : List RegField} {s t : State} (h : KeepsBut l s t) (hl : ∀ f ∈ placeFields, besides l f = true) :
    SamePlaces s t := by
  simp only [placeFields, List.forall_mem_cons] at hl
  obtain ⟨hsize, hcount, hbase, hmap, hholds, -⟩ := hl
  have size : ∀ p, poolSize t p = poolSize s p := fun p => by unfold poolSize; rw [h _ _ hsize]
  have count : ∀ p, poolCount t p = poolCount s p := fun p => h _ _ hcount
  refine ⟨size, count, fun p => ?_, fun p => ?_, fun p i => ?_, fun p => ?_⟩
  · unfold poolMap
    rw [h _ _ hmap]
  · unfold mapBytes
    rw [count]
  · unfold bufAddr poolBase
    rw [size, h _ _ hbase]
  · unfold poolHolds rdb
    rw [h _ _ hholds]

theorem SamePlaces.apart {s t : State} (h : SamePlaces s t) {z : Nat} : Apart t z ↔ Apart s z := by
  simp only [Apart, h.map, h.mapBytes, h.buf, h.holds]

/-- A pool has done its work: no byte has changed but in bitmaps and counts of holds, and buffers may have been handed to
encoders and channels that waited. -/
structure Pooled (s t : State) : Prop where
  only : t = { s with
    mem := t.mem, regs := t.regs, ecc := t.ecc, dramChs := t.dramChs, writeback := t.writeback, logQ := t.logQ
    logLost := t.logLost, freeCtr := t.freeCtr, pools := t.pools, allocOut := t.allocOut, veGot := t.veGot, dma := t.dma
    pba := t.pba }
  regs : KeepsBut poolFields s t
  bytes : ∀ z, Apart s z → byteAt t z = byteAt s z

theorem Pooled.places {s t : State} (h : Pooled s t) : SamePlaces s t := samePlaces_of_regs h.regs (by decide)

theorem pooled_refl (s : State) : Pooled s s := ⟨rfl, fun _ _ _ => rfl, fun _ _ => rfl⟩

theorem pooled_trans {s t u : State} (h : Pooled s t) (h' : Pooled t u) : Pooled s u := by
  have places := h.places
  obtain ⟨ht, hk, hb⟩ := h
  obtain ⟨hu, hk', hb'⟩ := h'
  refine ⟨?_, keepsBut_trans hk hk', fun z hz => (hb' z (places.apart.mpr hz)).trans (hb z hz)⟩
  rw [hu, ht]

theorem pooled_ite {s t u : State} (c : Prop) [Decidable c] (h : Pooled s t) (h' : Pooled s u) : Pooled s (if c then t else u) :=
  iteInduction (fun _ => h) (fun _ => h')

theorem pooled_foldl {α : Type} {f : State → α → State} (h : ∀ s a, Pooled s (f s a)) (s : State) (l : List α) :
    Pooled s (l.foldl f s) :=
  foldl_steps pooled_refl (fun _ _ _ => pooled_trans) h s l

theorem pooled_of_touched {s t : State} (h : Touched s t) (hb : ∀ z, Apart s z → byteAt t z = byteAt s z) : Pooled s t := by
  obtain ⟨ht, hr⟩ := h
  exact ⟨by rw [ht], keepsBut_mono (fun _ => List.mem_append_right _) hr, hb⟩

theorem pooled_memRead (s : State) (req a n : Nat) : Pooled s (memRead s req a n).s :=
  pooled_of_touched (touched_memRead s req a n) fun z _ => by rw [byteAt, mem_memRead]; rfl

theorem pooled_memWrite {s : State} (req : Nat) {a : Nat} {bs : List Byte} (poison : Bool)
    (h : ∀ z, Apart s z → ¬ (a ≤ z ∧ z < a + bs.length)) : Pooled s (memWrite s req a bs poison) :=
  pooled_of_touched (touched_memWrite s req a bs poison) fun z hz => by rw [byteAt_memWrite, if_neg (h z hz)]

theorem pooled_modPool (s : State) (p : Fin 8) (f : Pool → Pool) : Pooled s (modPool s p f) :=
  ⟨rfl, keepsBut_of_regs _ rfl rfl, fun _ _ => rfl⟩

theorem pooled_wr (s : State) {f : RegField} (hf : f ∈ poolFields) (i v : Nat) : Pooled s (wr s f i v) :=
  ⟨rfl, keepsBut_wr s hf i v, fun _ _ => rfl⟩

theorem pooled_bump (s : State) {f : RegField} (hf : f ∈ poolFields) (i n : Nat) : Pooled s (bump s f i n) := by
  refine ⟨?_, keepsBut_bump s hf i n, fun _ _ => by rw [byteAt, bump_mem]; rfl⟩
  rcases bump_cases s f i n with ⟨v, h⟩ | ⟨v, h⟩ <;> rw [h] <;> rfl

theorem pooled_logIt (s : State) (p : Fin 3) (cls detail sev unit arg0 arg1 : Nat) :
    Pooled s (logIt s p cls detail sev unit arg0 arg1) :=
  pooled_of_touched (touched_of_checked (checked_logIt s p cls detail sev unit arg0 arg1) (accessed_logIt s _ _ _ _ _ _ _))
    fun _ _ => by rw [byteAt, logIt_mem]; rfl

theorem pooled_allocOut (s : State) (a : Addr) : Pooled s { s with allocOut := a } :=
  ⟨rfl, keepsBut_of_regs _ rfl rfl, fun _ _ => rfl⟩

/-! ### Allocations -/

theorem pooled_setReady (s : State) (p : Fin 8) (l : List Nat) : Pooled s (setReady s p l) :=
  pooled_trans (pooled_modPool s p _) (pooled_wr _ (by decide) _ _)

theorem pooled_updateLevel (s : State) (p : Fin 8) : Pooled s (updateLevel s p) := by
  have entered := pooled_trans (pooled_wr s (f := R.BPM_POOL_STATUS_LEVEL) (by decide) p.val (nextLevel s p))
    (pooled_logIt _ planeData 0x41 (0x10 + nextLevel s p) (if nextLevel s p = 0 then 0 else 2) 45 p.val 0)
  have raised : ∀ (u : State) (v : Nat), Pooled u (raiseVector u v) := fun u v => ⟨rfl, keepsBut_of_regs _ rfl rfl, fun _ _ => rfl⟩
  unfold updateLevel
  exact pooled_ite _ (pooled_refl s) (pooled_ite _ (pooled_trans entered (raised _ _)) entered)

theorem pooled_setFree (s : State) (p : Fin 8) (n : Nat) : Pooled s (setFree s p n) :=
  pooled_trans (pooled_wr s (by decide) _ _) (pooled_trans (pooled_wr _ (f := R.BPM_POOL_MAX_USED) (by decide) _ _)
    (pooled_updateLevel _ p))

theorem pooled_notePool (s : State) (p : Fin 8) : Pooled s (notePool s p) := pooled_modPool s p _

/-- The count of holds of a buffer in a pool with holds may change. -/
theorem pooled_holdWrite {s : State} {p : Fin 8} (hp : poolHolds s p = true) (i : Nat) (b : Byte) :
    Pooled s (memWrite s reqBpm (bufAddr s p i + 3) [b] false) := by
  refine pooled_memWrite reqBpm false fun z hz hc => (hz p).2 hp i ?_
  simp only [List.length_singleton] at hc
  omega

theorem pooled_grant (s : State) (p : Fin 8) (live : Bool) : Pooled s (grant s p live) := by
  have noted : ∀ u : State, Pooled u (if live then u else modPool u p (fun x => { x with lastOther := some u.clock.cyc })) := fun u =>
    pooled_ite _ (pooled_refl u) (pooled_modPool u p _)
  have handed : ∀ (u : State) (n : Nat) (a : Addr), Pooled u (notePool { setFree u p n with allocOut := a } p) := fun u n a =>
    pooled_trans (pooled_setFree u p n) (pooled_trans (pooled_allocOut _ a) (pooled_notePool _ p))
  unfold grant
  split
  · exact pooled_allocOut s 0
  next i rest _ =>
    have taken := pooled_trans (pooled_setReady s p rest) (noted _)
    have held : ∀ u, Pooled s u → Pooled u (if poolHolds u p then memWrite u reqBpm (bufAddr s p i + 3) [1] false else u) := by
      intro u hu
      rw [← hu.places.buf p i]
      split
      next hp => exact pooled_holdWrite hp i 1
      next => exact pooled_refl u
    exact pooled_trans taken (pooled_trans (held _ taken)
      (pooled_trans (pooled_bump _ (f := R.BPM_POOL_ALLOCS) (by decide) _ _) (handed _ _ _)))

theorem pooled_deliver (s : State) (u : PoolUser) : Pooled s (deliver s u) := by
  cases u with
  | unit => exact pooled_refl s
  | encoder k => exact ⟨rfl, keepsBut_of_regs _ rfl rfl, fun _ _ => rfl⟩
  | channel k => exact ⟨rfl, keepsBut_of_regs _ rfl rfl, fun _ _ => rfl⟩

theorem pooled_serveOne (s : State) (p : Fin 8) : Pooled s (serveOne s p) := by
  unfold serveOne
  split
  · exact pooled_refl s
  · split
    · exact pooled_refl s
    · exact pooled_trans (pooled_modPool s p _) (pooled_trans (pooled_grant _ p _) (pooled_deliver _ _))

theorem pooled_serveWaiting (s : State) (p : Fin 8) : Pooled s (serveWaiting s p) :=
  pooled_trans (pooled_notePool s p) (pooled_foldl (fun u _ => pooled_serveOne u p) _ _)

/-! ### Buffers that are returned, and holds -/

/-- The bitmap has a bit for every buffer. -/
theorem div_lt_mapBytes {s : State} {p : Fin 8} {i : Nat} (h : i < poolCount s p) : i / 8 < mapBytes s p := by
  unfold mapBytes ceilDiv
  omega

theorem pooled_setBitmap {s : State} {p : Fin 8} {i : Nat} (b : Bool) (h : i < poolCount s p) : Pooled s (setBitmap s p i b) := by
  have read := pooled_memRead s reqBpm (poolMap s p + i / 8) 1
  unfold setBitmap
  refine pooled_trans read (pooled_memWrite reqBpm false fun z hz hc => ?_)
  have inside := div_lt_mapBytes h
  have one : ((memRead s reqBpm (poolMap s p + i / 8) 1).bytes).length = 1 := by
    simp only [memRead, peek, storeGetMany, List.length_map, List.length_range]
  rw [List.length_map, one] at hc
  have := (read.places.apart.mp hz p).1
  omega

theorem pooled_returnBuffer {s : State} {p : Fin 8} {i : Nat} (h : i < poolCount s p) : Pooled s (returnBuffer s p i) :=
  pooled_trans (pooled_setBitmap true h) (pooled_trans (pooled_modPool _ p _) (pooled_trans (pooled_bump _ (by decide) _ _)
    (pooled_trans (pooled_setFree _ p _) (pooled_serveWaiting _ p))))

theorem pooled_setHold {s : State} {p : Fin 8} (hp : poolHolds s p = true) (i n : Nat) : Pooled s (setHold s p i n) := by
  have read := pooled_memRead s reqBpm (bufAddr s p i + 3) 1
  have written := pooled_holdWrite ((read.places.holds p).trans hp) i (BitVec.ofNat 8 n)
  rw [read.places.buf p i] at written
  exact pooled_trans read written

theorem pooled_bpmError (s : State) (p : Option (Fin 8)) (a code : Nat) : Pooled s (bpmError s p a code) := by
  have recorded : ∀ u : State, Pooled u (logIt (wrb (wr (wr u R.BPM_ERR_LAST_PTR 0 a) R.BPM_ERR_LAST_CODE 0 code)
      R.BPM_ERR_LAST_VALID 0 true) planeData 0x41 code 3 45 a 0) := fun u =>
    pooled_trans (pooled_wr u (by decide) _ _) (pooled_trans (pooled_wr _ (by decide) _ _)
      (pooled_trans (pooled_wr _ (f := R.BPM_ERR_LAST_VALID) (by decide) _ _) (pooled_logIt _ _ _ _ _ _ _ _)))
  cases p with
  | none => exact recorded s
  | some q => exact pooled_trans (pooled_bump s (f := R.BPM_POOL_ERRORS) (by decide) q.val 1) (recorded _)

section
variable {s : State} {p : Fin 8}

theorem pooled_dropHold {i : Nat} (hp : poolHolds s p = true) (h : i < poolCount s p) : Pooled s (dropHold s p i) := by
  unfold dropHold
  split
  · have error := pooled_bpmError s (some p) (bufAddr s p i) 7
    exact pooled_trans error (pooled_returnBuffer (by rwa [error.places.count]))
  · have dropped := pooled_setHold hp i 0
    exact pooled_trans dropped (pooled_returnBuffer (by rwa [dropped.places.count]))
  · exact pooled_setHold hp i _

/-- A pointer that names a pool's buffer lies in the pool. -/
theorem index_lt_of_poolOf {a : Nat} (h : poolOf s a = some p) : (a - poolBase s p) / poolSize s p < poolCount s p := by
  have found := List.find?_some h
  simp only [Bool.and_eq_true, decide_eq_true_eq, poolEnd] at found
  obtain ⟨⟨-, hbase⟩, hend⟩ := found
  refine Nat.div_lt_of_lt_mul ?_
  rw [Nat.mul_comm]
  have below : a < poolBase s p + poolCount s p * poolSize s p := of_decide_eq_true hend
  omega

/-- Holds are taken and released in pools with holds alone. -/
theorem holds_of_check {op : BpmOp} {a : Nat} (hop : op ≠ .free) (h : bpmCheck s op p a = 0) : poolHolds s p = true := by
  by_contra hp
  unfold bpmCheck at h
  dsimp only at h
  rw [if_pos (⟨hop, hp⟩ : op ≠ .free ∧ ¬ poolHolds s p = true)] at h
  split at h <;> cases h

end

theorem pooled_bpmOp (s : State) (op : BpmOp) (a : Nat) : Pooled s (bpmOp s op a) := by
  unfold bpmOp
  split
  · exact pooled_bpmError s none a 1
  next p hp =>
    have inside := index_lt_of_poolOf hp
    dsimp only
    split
    · exact pooled_bpmError s _ _ _
    next hc =>
      have checked := not_not.mp hc
      cases op with
      | hold => exact pooled_setHold (holds_of_check BpmOp.noConfusion checked) _ _
      | release => exact pooled_dropHold (holds_of_check BpmOp.noConfusion checked) inside
      | free =>
        dsimp only
        split
        next hh => exact pooled_dropHold hh inside
        next => exact pooled_returnBuffer inside

theorem pooled_release (s : State) (a : Addr) : Pooled s (release s a) := pooled_bpmOp s .release a.toNat

theorem pooled_releaseAll (s : State) (l : List Addr) : Pooled s (releaseAll s l) := pooled_foldl pooled_release s l

theorem pooled_freeUnused (s : State) (r : EncReq) : Pooled s (freeUnused s r) :=
  pooled_foldl (fun u (a : Addr) => pooled_bpmOp u .free a.toNat) s _

end Sys2Proof.Encoding

/-! ## Requests end (R110, R117 to R119) -/

namespace Sys2Proof.Encoding

open Sys2Proof.Machine Sys2Proof.Laws Sys2Proof.HostAccess Sys2Proof.Traffic Sys2Proof.Frames

/-! ### The CLIP record -/

/-- The front of a CLIP record: what names the request, with the status. -/
theorem clipRecord_front (s : State) (r : EncReq) (status : Nat) : ∃ flags rest, rest.length = 43 ∧
    clipRecord s r status = bytesOf 1 2 ++ (bytesOf 1 flags ++ (bytesOf 2 r.stream.val ++ (bytesOf 4 r.first.toNat ++
      (bytesOf 8 (now s) ++ (bytesOf 4 r.tag.toNat ++ (bytesOf 1 status ++ rest)))))) := by
  unfold clipRecord
  have head : ∀ n, [2, BitVec.ofNat 8 n] = bytesOf 1 2 ++ bytesOf 1 n := fun n => by simp [bytesOf]
  simp only [head, List.append_assoc]
  refine ⟨32 * b2n r.servedLive + 16 * b2n (r.concealed != 0), _, ?_, rfl⟩
  simp only [List.length_append, bytesOf_length]

/-- The record of the request's end has joined those that wait for the request's queue. -/
def Clipped (s : State) (r : EncReq) (status : Nat) (t : State) : Prop :=
  ∃ e : Record, t.mqs[encMq r.cfg].waiting = s.mqs[encMq r.cfg].waiting ++ [e] ∧ e.bytes.length = 64 ∧ fieldOf e.bytes 0 1 = 2 ∧
    fieldOf e.bytes 2 2 = r.stream.val ∧ fieldOf e.bytes 4 4 = r.first.toNat ∧ fieldOf e.bytes 16 4 = r.tag.toNat ∧
    fieldOf e.bytes 20 1 = status

theorem clipRecord_fields (s : State) (r : EncReq) {status : Nat} (h : status < 256) :
    (clipRecord s r status).length = 64 ∧ fieldOf (clipRecord s r status) 0 1 = 2 ∧
      fieldOf (clipRecord s r status) 2 2 = r.stream.val ∧ fieldOf (clipRecord s r status) 4 4 = r.first.toNat ∧
      fieldOf (clipRecord s r status) 16 4 = r.tag.toNat ∧ fieldOf (clipRecord s r status) 20 1 = status := by
  obtain ⟨flags, rest, hrest, eq⟩ := clipRecord_front s r status
  have stream := r.stream.isLt
  have first := r.first.isLt
  have tag := r.tag.isLt
  rw [eq]
  refine ⟨by simp only [List.length_append, bytesOf_length, hrest], ?_, ?_, ?_, ?_, ?_⟩
  · exact fieldOf_front _ 1 2
  · rw [fieldOf_skip (by decide), fieldOf_skip (by decide), fieldOf_front]
    omega
  · rw [fieldOf_skip (by decide), fieldOf_skip (by decide), fieldOf_skip (by decide), fieldOf_front]
    omega
  · rw [fieldOf_skip (by decide), fieldOf_skip (by decide), fieldOf_skip (by decide), fieldOf_skip (by decide),
      fieldOf_skip (by decide), fieldOf_front]
    omega
  · rw [fieldOf_skip (by decide), fieldOf_skip (by decide), fieldOf_skip (by decide), fieldOf_skip (by decide),
      fieldOf_skip (by decide), fieldOf_skip (by decide), fieldOf_front]
    omega

/-! ### The record reaches the writer -/

/-- The registers that change where a request ends. -/
def endFields : List RegField := [R.HIF_LINK_STATUS_PM, R.MQ_STALL_STALLS] ++ poolFields

/-- A record has reached the writer. -/
structure Posts (m : Fin 16) (bytes : List Byte) (s t : State) : Prop where
  only : t = { s with
    regs := t.regs, freeCtr := t.freeCtr, mqs := t.mqs, order := t.order, linkAt := t.linkAt, ltr := t.ltr }
  regs : KeepsBut endFields s t
  waiting : ∃ e : Record, t.mqs[m].waiting = s.mqs[m].waiting ++ [e] ∧ e.bytes = bytes

theorem mqs_ltrUpdate (s : State) : (ltrUpdate s).mqs = s.mqs := by
  rcases ltrUpdate_cases s with h | ⟨l, h⟩ <;> rw [h]
  rfl

theorem posts_postRecord (m : Fin 16) (s : State) (bytes : List Byte) : Posts m bytes s (postRecord m s bytes) := by
  let e : Record := { core := none, bytes := bytes, count := 1, seq := s.order }
  let u := modMq { s with order := s.order + 1 } m (fun x => { x with waiting := x.waiting ++ [e] })
  have queued : Posts m bytes s (ltrUpdate u) := by
    have last : u.mqs[m].waiting = s.mqs[m].waiting ++ [e] := by simp [u]
    refine ⟨?_, fun g i hg => ?_, e, by rw [mqs_ltrUpdate, last], rfl⟩
    · rcases ltrUpdate_cases u with h | ⟨l, h⟩ <;> rw [h] <;> rfl
    · refine (ltrUpdate_regsKept u g i fun hk => ?_).trans (rd_congr rfl rfl g i)
      exact regKey_ne_of_besides hg (f := R.HIF_LINK_STATUS_PM) (by simp [endFields]) i 0 (List.mem_singleton.mp hk)
  have counted : Posts m bytes s (bump (ltrUpdate u) R.MQ_STALL_STALLS m.val 1) := by
    obtain ⟨only, regs, waiting⟩ := queued
    refine ⟨?_, keepsBut_trans regs (keepsBut_bump _ (by simp [endFields]) _ _), by rwa [bump_mqs]⟩
    rcases bump_cases (ltrUpdate u) R.MQ_STALL_STALLS m.val 1 with ⟨v, h⟩ | ⟨v, h⟩ <;> rw [h, only] <;> rfl
  unfold postRecord postEntry
  exact iteInduction (fun _ => counted) (fun _ => queued)

/-! ### The end of a request -/

/-- The request has ended with the status: it is gone, its frames and unused buffers are given back, its record is posted. -/
structure Ended (r : EncReq) (status : Nat) (s t : State) : Prop where
  only : t = { s with
    encReqs := s.encReqs.filter (fun y => y.id != r.id)
    mem := t.mem, regs := t.regs, ecc := t.ecc, dramChs := t.dramChs, writeback := t.writeback, logQ := t.logQ
    logLost := t.logLost, freeCtr := t.freeCtr, pools := t.pools, allocOut := t.allocOut, veGot := t.veGot, dma := t.dma
    pba := t.pba, mqs := t.mqs, order := t.order, linkAt := t.linkAt, ltr := t.ltr }
  regs : KeepsBut endFields s t
  bytes : ∀ z, Apart s z → byteAt t z = byteAt s z
  clip : Clipped s r status t

theorem ended_of_posts {s u t : State} {r : EncReq} {status n : Nat} (freed : Pooled s u)
    (posts : Posts (encMq r.cfg) (clipRecord (dropReq u r.id) r status) { dropReq u r.id with freeCtr := n } t) (h : status < 256) :
    Ended r status s t := by
  obtain ⟨only, regs, bytes⟩ := freed
  obtain ⟨posted, kept, e, hw, he⟩ := posts
  have queues : u.mqs = s.mqs := by rw [only]
  refine ⟨?_, ?_, fun z hz => ?_, e, ?_, ?_⟩
  · rw [posted, dropReq, only]
  · refine keepsBut_trans (keepsBut_mono (fun _ => List.mem_append_right _) regs) ?_
    exact keepsBut_trans (t := { dropReq u r.id with freeCtr := n }) (keepsBut_of_regs _ rfl rfl) kept
  · rw [← bytes z hz, posted]
    rfl
  · rw [← queues]
    exact hw
  · rw [he]
    exact clipRecord_fields _ r h

theorem ended_endRequest (s : State) (r : EncReq) {status : Nat} (h : status < 256) : Ended r status s (endRequest s r status) := by
  have freed := pooled_trans (pooled_releaseAll s (r.frames.map (fun f => f.frame))) (pooled_freeUnused _ r)
  unfold endRequest
  exact ended_of_posts freed (posts_postRecord _ _ _) h

/-! ### Time passes -/

/-- The registers that count time. -/
def timeFields : List RegField :=
  [R.GLB_TIMESTAMP_NS, R.BPM_POOL_THROTTLE_CYC, R.BPM_POOL_STOP_CYC, R.BPM_POOL_ALLOC_WAIT_CYC, R.ARRAY_THROTTLE_CYC]

/-- Time has passed: the clock and the counters of cycles have advanced, and pools note since when they can grant. -/
structure Passed (s t : State) : Prop where
  only : t = { s with regs := t.regs, clock := t.clock, cores := t.cores, pools := t.pools, freeCtr := t.freeCtr }
  regs : KeepsBut timeFields s t
  pools : ∀ p : Fin 8, t.pools[p].waiting = s.pools[p].waiting ∧ t.pools[p].ready = s.pools[p].ready

theorem passed_refl (s : State) : Passed s s := ⟨rfl, fun _ _ _ => rfl, fun _ => ⟨rfl, rfl⟩⟩

theorem passed_trans {s t u : State} (h : Passed s t) (h' : Passed t u) : Passed s u := by
  obtain ⟨ht, hk, hp⟩ := h
  obtain ⟨hu, hk', hp'⟩ := h'
  refine ⟨?_, keepsBut_trans hk hk', fun p => ⟨(hp' p).1.trans (hp p).1, (hp' p).2.trans (hp p).2⟩⟩
  rw [hu, ht]

theorem passed_ite {s t u : State} (c : Prop) [Decidable c] (h : Passed s t) (h' : Passed s u) : Passed s (if c then t else u) :=
  iteInduction (fun _ => h) (fun _ => h')

theorem passed_foldl {α : Type} {f : State → α → State} (h : ∀ s a, Passed s (f s a)) (s : State) (l : List α) :
    Passed s (l.foldl f s) :=
  foldl_steps passed_refl (fun _ _ _ => passed_trans) h s l

theorem passed_bump (s : State) {f : RegField} (hf : f ∈ timeFields) (i n : Nat) : Passed s (bump s f i n) := by
  refine ⟨?_, keepsBut_bump s hf i n, fun p => by rw [bump_pools]; exact ⟨rfl, rfl⟩⟩
  rcases bump_cases s f i n with ⟨v, h⟩ | ⟨v, h⟩ <;> rw [h] <;> rfl

theorem passed_clock (s : State) (c : Clock) : Passed s { s with clock := c } :=
  ⟨rfl, keepsBut_of_regs _ rfl rfl, fun _ => ⟨rfl, rfl⟩⟩

theorem passed_poolCycles (cyc : Nat) (s : State) (p : Fin 8) : Passed s (poolCycles cyc s p) := by
  have counted : ∀ (u : State) (c : Prop) [Decidable c] (f : RegField) (n : Nat), f ∈ timeFields →
      Passed u (if c then bump u f p.val n else u) :=
    fun u c _ f n hf => passed_ite c (passed_bump u hf _ _) (passed_refl u)
  exact passed_trans (counted s _ _ _ (by simp [timeFields])) (passed_trans (counted _ _ _ _ (by simp [timeFields]))
    (counted _ _ _ _ (by simp [timeFields])))

theorem passed_throttleCycles (cyc : Nat) (s : State) (n : Fin 16) : Passed s (throttleCycles cyc s n) :=
  passed_ite _ (passed_bump s (by simp [timeFields]) _ _) (passed_refl s)

theorem passed_advance (s : State) (ns : Nat) : Passed s (advance s ns) := by
  have written : ∀ (u : State) (v : Nat), Passed u (wr u R.GLB_TIMESTAMP_NS 0 v) := fun u v =>
    ⟨rfl, keepsBut_wr u (by simp [timeFields]) _ _, fun _ => ⟨rfl, rfl⟩⟩
  unfold advance
  split
  · exact written s _
  · exact passed_ite _ (passed_clock s _) (passed_trans (passed_clock s _) (written _ _))

theorem passed_notePool (s : State) (p : Fin 8) : Passed s (notePool s p) := by
  refine ⟨rfl, keepsBut_of_regs _ rfl rfl, fun q => ?_⟩
  by_cases h : p.val = q.val
  · obtain rfl := Fin.ext h
    simp [notePool]
  · simp [notePool, Vector.getElem_set_ne _ _ h]

theorem passed_passTime (s : State) (ns : Nat) : Passed s (passTime s ns) := by
  have counted : ∀ (c : Clock) (v : Vector Core 16), Passed s { s with clock := c, cores := v } := fun c v =>
    ⟨rfl, keepsBut_of_regs _ rfl rfl, fun _ => ⟨rfl, rfl⟩⟩
  exact passed_trans (counted _ _) (passed_trans (passed_foldl (passed_poolCycles _) _ _)
    (passed_trans (passed_foldl (passed_throttleCycles _) _ _) (passed_trans (passed_advance _ ns) (passed_foldl passed_notePool _ _))))

theorem passed_passUntil (s : State) (t : Nat) : Passed s (passUntil s t) :=
  passed_ite _ (passed_refl s) (passed_passTime s _)

end Sys2Proof.Encoding

/-! ## States that differ in the error log alone (R258, R261, R391, R395) -/

namespace Sys2Proof.Encoding

open Sys2Proof.Machine Sys2Proof.Laws Sys2Proof.HostAccess Sys2Proof.Traffic Sys2Proof.Streams Sys2Proof.Dispatch

/-! ### Registers by their key -/

section
variable {d e : Nat} {m : SMap Nat} {k v j : Nat}

/-- A write leaves every other key, whatever an unlisted key reads as. -/
theorem storeGet_storeSet_other (h : j ≠ k) : storeGet e (storeSet d m k v) j = storeGet e m j := by
  unfold storeSet storeSetMany
  by_cases hj : j < k
  · rw [storeGet_append_left, storeGet_filter_keep]
    · intro x
      simpa using hj
    · rw [List.any_append, storeEntries_any _ _ _ _ (Or.inl hj), any_filter_drop]
      · rfl
      · intro x
        simp only [List.length_singleton, decide_eq_false_iff_not]
        omega
  · have above : k + [v].length ≤ j := by
      simp only [List.length_singleton]
      omega
    rw [storeGet_append_right _ _ _ _ (any_filter_drop _ _ _ (by intro x; simpa using hj)),
      storeGet_append_right _ _ _ _ (storeEntries_any _ _ _ _ (Or.inr above)), storeGet_filter_keep]
    intro x
    simpa using above

/-- What a written key reads as does not hang on what was there. -/
theorem storeGet_storeSet_self : storeGet e (storeSet d m k v) k = storeGet e (storeEntries d k [v]) k := by
  unfold storeSet storeSetMany
  rw [storeGet_append_right _ _ _ _ (any_filter_drop _ _ _ (by simp)), storeGet_append_left _ _ _ _ (any_filter_drop _ _ _ (by simp))]

end

/-! ### Alike but for the log -/

/-- The registers of lost log entries. -/
def lostFields : List RegField := [R.LOG_QDROP_MGMT, R.LOG_QDROP_CTRL, R.LOG_QDROP_DATA]

/-- The states differ in what is logged, in the errors of hidden memories that have been corrected, and in nothing else. -/
def Alike (s t : State) : Prop :=
  ∃ r q l c, t = { s with regs := r, logQ := q, logLost := l, hiddenCe := c } ∧
    ∀ d k, (∀ p, k ≠ regKey (qdropField p) 0) → storeGet d r k = storeGet d s.regs k

theorem alike_refl (s : State) : Alike s s := ⟨s.regs, s.logQ, s.logLost, s.hiddenCe, rfl, fun _ _ _ => rfl⟩

theorem alike_symm {s t : State} (h : Alike s t) : Alike t s := by
  obtain ⟨r, q, l, c, rfl, hr⟩ := h
  exact ⟨s.regs, s.logQ, s.logLost, s.hiddenCe, rfl, fun d k hk => (hr d k hk).symm⟩

theorem alike_trans {s t u : State} (h : Alike s t) (h' : Alike t u) : Alike s u := by
  obtain ⟨r, q, l, c, rfl, hr⟩ := h
  obtain ⟨r', q', l', c', rfl, hr'⟩ := h'
  exact ⟨r', q', l', c', rfl, fun d k hk => (hr' d k hk).trans (hr d k hk)⟩

theorem alike_ite {s t s' t' : State} {c c' : Prop} [Decidable c] [Decidable c'] (hc : c ↔ c') (h : Alike s t) (h' : Alike s' t') :
    Alike (if c then s else s') (if c' then t else t') := by
  by_cases hh : c
  · rwa [if_pos hh, if_pos (hc.mp hh)]
  · rwa [if_neg hh, if_neg (fun h => hh (hc.mpr h))]

theorem alike_foldl {α : Type} {f : State → α → State} (h : ∀ s t a, Alike s t → Alike (f s a) (f t a)) {s t : State} (l : List α)
    (hs : Alike s t) : Alike (l.foldl f s) (l.foldl f t) := by
  induction l generalizing s t with
  | nil => exact hs
  | cons a l ih => exact ih (h s t a hs)

theorem ne_qdrop_of_besides {f : RegField} (hf : besides lostFields f = true) (i : Nat) (p : Fin 3) :
    regKey f i ≠ regKey (qdropField p) 0 :=
  regKey_ne_of_besides hf (by fin_cases p <;> simp [qdropField, lostFields]) i 0

/-- A lost entry is noted in the log alone. -/
theorem alike_logIt_self (s : State) (p : Fin 3) (cls detail sev unit arg0 arg1 : Nat) :
    Alike s (logIt s p cls detail sev unit arg0 arg1) := by
  unfold logIt logPush
  split
  · exact ⟨s.regs, _, s.logLost, s.hiddenCe, rfl, fun _ _ _ => rfl⟩
  · rw [bump_of_stops _ _ _ _ (qdropField_stops p)]
    exact ⟨_, s.logQ, _, s.hiddenCe, rfl, fun _ _ hk => storeGet_storeSet_other (hk p)⟩

theorem alike_hiddenRead {s : State} {m : HiddenMem} (h : m ∉ s.hidden) : Alike s (hiddenRead s m).1 := by
  unfold hiddenRead
  rw [if_neg (by simpa using h)]
  split
  · exact alike_trans (t := { s with hiddenCe := s.hiddenCe.filter (fun x => x != m) })
      ⟨s.regs, s.logQ, s.logLost, _, rfl, fun _ _ _ => rfl⟩ (alike_logIt_self _ _ _ _ _ _ _ _)
  · exact alike_refl s

/-- The state in which a frame's pixels have been read and its v-cycles have passed. -/
def pixelsRead (s : State) (k : Fin 4) (j : EncJob) (x : Shot) : State :=
  passUntil (x.pixelLines.eraseDups.foldl (fun s l => (memRead s (12 + k.val) (64 * l) 64).s) s) (j.startAt.toNat + vNs (encCycles x))

/-- The picture that an encoder makes of a frame. -/
def frameShot (s : State) (r : EncReq) (j : EncJob) : Shot :=
  encShot r (parseFrame (peek s j.frame.frame.toNat 64)) j.frame.frame.toNat

theorem codeFrame_eq (s : State) (k : Fin 4) (r : EncReq) (j : EncJob) (bytes : Nat) (lens : List Nat) :
    codeFrame s k r j bytes lens =
      ((drawFree (pixelsRead s k j (frameShot s r j))).1,
        codedUnit (pixelsRead s k j (frameShot s r j)).freeCtr
          (encPicture (drawFree (pixelsRead s k j (frameShot s r j))).1 r (frameShot s r j)) bytes lens) := rfl

section
variable {s t : State} (h : Alike s t)
include h

/-! ### What alike states show -/

theorem rd_of_alike {f : RegField} (hf : besides lostFields f = true) (i : Nat) : rd t f i = rd s f i := by
  obtain ⟨r, q, l, c, rfl, hr⟩ := h
  exact hr _ _ (ne_qdrop_of_besides hf i)

theorem rdb_of_alike {f : RegField} (hf : besides lostFields f = true) (i : Nat) : rdb t f i = rdb s f i :=
  congrArg (· != 0) (rd_of_alike h hf i)

theorem mem_of_alike : t.mem = s.mem := by
  obtain ⟨r, q, l, c, rfl, -⟩ := h
  rfl

theorem ecc_of_alike : t.ecc = s.ecc := by
  obtain ⟨r, q, l, c, rfl, -⟩ := h
  rfl

theorem clock_of_alike : t.clock = s.clock := by
  obtain ⟨r, q, l, c, rfl, -⟩ := h
  rfl

theorem cores_of_alike : t.cores = s.cores := by
  obtain ⟨r, q, l, c, rfl, -⟩ := h
  rfl

theorem dramChs_of_alike : t.dramChs = s.dramChs := by
  obtain ⟨r, q, l, c, rfl, -⟩ := h
  rfl

theorem pools_of_alike : t.pools = s.pools := by
  obtain ⟨r, q, l, c, rfl, -⟩ := h
  rfl

theorem freeCtr_of_alike : t.freeCtr = s.freeCtr := by
  obtain ⟨r, q, l, c, rfl, -⟩ := h
  rfl

theorem streams_of_alike : t.streams = s.streams := by
  obtain ⟨r, q, l, c, rfl, -⟩ := h
  rfl

theorem power_of_alike : t.power = s.power := by
  obtain ⟨r, q, l, c, rfl, -⟩ := h
  rfl

theorem regionOf_of_alike (a : Nat) : regionOf t a = regionOf s a := by
  unfold regionOf
  rw [rd_of_alike h (by decide)]

theorem eccSpan_of_alike (a : Nat) : eccSpan t a = eccSpan s a := by
  unfold eccSpan
  rw [rd_of_alike h (by decide)]

theorem eccBase_of_alike (a : Nat) : eccBase t a = eccBase s a := by
  unfold eccBase
  rw [eccSpan_of_alike h]

theorem eccCovers_of_alike (a : Nat) : eccCovers t a = eccCovers s a := by
  unfold eccCovers
  rw [rd_of_alike h (by decide), rdb_of_alike h (by decide)]

theorem badWords_of_alike (a n : Nat) : badWords t a n = badWords s a n :=
  badWords_congr (ecc_of_alike h) (rd_of_alike h (by decide) 0) a n

theorem dramChannelOf_of_alike (a : Nat) : dramChannelOf t a = dramChannelOf s a := by
  unfold dramChannelOf pinBytes
  rw [rd_of_alike h (f := R.DRC_CFG_PIN) (by decide), rd_of_alike h (f := R.DRC_STATUS_NCH) (by decide)]

theorem dramPlaceOf_of_alike (off : Nat) : dramPlaceOf t off = dramPlaceOf s off := by
  unfold dramPlaceOf rankBytesOf channelBytes
  rw [rdb_of_alike h (f := R.DRC_CFG_ECC_EN) (by decide), rd_of_alike h (f := R.DRC_CFG_CAP) (by decide),
    rd_of_alike h (f := R.DRC_CFG_RANKS) (by decide)]

theorem elapsedW_of_alike : elapsedW t = elapsedW s := by
  unfold elapsedW elapsed
  rw [clock_of_alike h]

theorem canAlloc_of_alike (p : Fin 8) (live : Bool) : canAlloc t p live = canAlloc s p live := by
  refine canAlloc_congr live ?_ (by rw [pools_of_alike h]) (by rw [pools_of_alike h]) (clock_of_alike h)
  simp only [List.forall_mem_cons, List.not_mem_nil, false_imp_iff, implies_true, and_true]
  exact ⟨rd_of_alike h (by decide) _, rd_of_alike h (by decide) _, rd_of_alike h (by decide) _, rd_of_alike h (by decide) _,
    rd_of_alike h (by decide) _⟩

/-! ### Steps that keep states alike -/

theorem alike_wr (f : RegField) (i v : Nat) : Alike (wr s f i v) (wr t f i v) := by
  obtain ⟨r, q, l, c, rfl, hr⟩ := h
  refine ⟨_, q, l, c, rfl, fun d k hk => ?_⟩
  by_cases hj : k = regKey f i
  · subst hj
    exact storeGet_storeSet_self.trans storeGet_storeSet_self.symm
  · exact (storeGet_storeSet_other hj).trans ((hr d k hk).trans (storeGet_storeSet_other hj).symm)

theorem alike_freeCtr : Alike { s with freeCtr := s.freeCtr + 1 } { t with freeCtr := t.freeCtr + 1 } := by
  obtain ⟨r, q, l, c, rfl, hr⟩ := h
  exact ⟨r, q, l, c, rfl, hr⟩

theorem alike_bump {f : RegField} (hf : besides lostFields f = true) (i n : Nat) : Alike (bump s f i n) (bump t f i n) := by
  unfold bump
  rw [rd_of_alike h hf, freeCtr_of_alike h]
  dsimp only
  split
  · exact alike_wr h f i _
  · exact alike_wr h f i _
  · have drawn := alike_freeCtr h
    rw [freeCtr_of_alike h] at drawn
    exact alike_ite Iff.rfl (alike_wr h f i _) (alike_wr drawn f i _)

theorem alike_logIt (p : Fin 3) (cls detail sev unit arg0 arg1 : Nat) :
    Alike (logIt s p cls detail sev unit arg0 arg1) (logIt t p cls detail sev unit arg0 arg1) :=
  alike_trans (alike_symm (alike_logIt_self s _ _ _ _ _ _ _)) (alike_trans h (alike_logIt_self t _ _ _ _ _ _ _))

theorem alike_modDram (k : Fin 16) (f : DramCh → DramCh) : Alike (modDram s k f) (modDram t k f) := by
  obtain ⟨r, q, l, c, rfl, hr⟩ := h
  exact ⟨r, q, l, c, rfl, hr⟩

theorem alike_modPool (p : Fin 8) (f : Pool → Pool) : Alike (modPool s p f) (modPool t p f) := by
  obtain ⟨r, q, l, c, rfl, hr⟩ := h
  exact ⟨r, q, l, c, rfl, hr⟩

theorem alike_setEcc (a : Nat) (e : EccState) : Alike (setEcc s a e) (setEcc t a e) := by
  obtain ⟨r, q, l, c, rfl, hr⟩ := h
  exact ⟨r, q, l, c, rfl, hr⟩

theorem alike_due (a : Nat) : Alike { s with writeback := s.writeback ++ [a] } { t with writeback := t.writeback ++ [a] } := by
  obtain ⟨r, q, l, c, rfl, hr⟩ := h
  exact ⟨r, q, l, c, rfl, hr⟩

theorem alike_clockCores (x : Clock) (y : Vector Core 16) :
    Alike { s with clock := x, cores := y } { t with clock := x, cores := y } := by
  obtain ⟨r, q, l, c, rfl, hr⟩ := h
  exact ⟨r, q, l, c, rfl, hr⟩

theorem alike_poisonEcc (a : Nat) : Alike (poisonEcc s a) (poisonEcc t a) := by
  unfold poisonEcc cleanEcc
  rw [eccBase_of_alike h, eccSpan_of_alike h]
  obtain ⟨r, q, l, c, rfl, hr⟩ := h
  exact ⟨r, q, l, c, rfl, hr⟩

/-! ### Beats -/

theorem alike_oscCheck (k : Fin 16) (drifted : Bool) : Alike (oscCheck s k drifted) (oscCheck t k drifted) := by
  unfold oscCheck
  rw [elapsedW_of_alike h]
  exact alike_ite Iff.rfl (alike_bump (alike_modDram h k _) (by decide) _ _) (alike_modDram h k _)

theorem alike_wrb (f : RegField) (i : Nat) (b : Bool) : Alike (wrb s f i b) (wrb t f i b) := alike_wr h f i _

theorem alike_drawn {f g : State → Nat → State} (hf : ∀ {u v : State}, Alike u v → ∀ n, Alike (f u n) (g v n)) :
    Alike (f (drawFree s).1 (drawFree s).2) (g (drawFree t).1 (drawFree t).2) := by
  have drawn : (drawFree t).2 = (drawFree s).2 := freeCtr_of_alike h
  rw [drawn]
  exact hf (alike_freeCtr h) _

theorem alike_wakeDram (k : Fin 16) : Alike (wakeDram s k) (wakeDram t k) := by
  have time : elapsed t - t.dramChs[k].srSince.toNat = elapsed s - s.dramChs[k].srSince.toNat := by
    unfold elapsed
    rw [clock_of_alike h, dramChs_of_alike h]
  unfold wakeDram
  refine alike_ite (by rw [rdb_of_alike h (by decide)]) ?_ h
  rw [time]
  have woken := alike_bump (alike_wrb h R.DRC_CH_STATUS_SR k.val false) (f := R.DRC_CH_SR_US) (by decide) k.val
    (rneQuot (elapsed s - s.dramChs[k].srSince.toNat) 1000)
  refine alike_ite ?_ (alike_drawn woken (f := fun u n => oscCheck u k (Config.oscDrift n))
    (g := fun u n => oscCheck u k (Config.oscDrift n)) fun hu n => alike_oscCheck hu k _) woken
  unfold retrainNs
  rw [rd_of_alike woken (f := R.DRC_TRAIN_CTL_RETRAIN_MS) (by decide)]

theorem alike_dramBeat (a : Nat) (stay : Bool) : Alike (dramBeat s a stay) (dramBeat t a stay) := by
  unfold dramBeat
  rw [dramChannelOf_of_alike h]
  obtain ⟨ch, off⟩ := dramChannelOf s a
  dsimp only
  have woken := alike_wakeDram h (Fin.ofNat 16 ch)
  generalize wakeDram s (Fin.ofNat 16 ch) = u at woken
  generalize wakeDram t (Fin.ofNat 16 ch) = v at woken
  rw [dramPlaceOf_of_alike woken, dramChs_of_alike woken]
  generalize u.dramChs[Fin.ofNat 16 ch].openRows.contains
    ((dramPlaceOf u off).rank, (dramPlaceOf u off).bank, (dramPlaceOf u off).row) = hit
  have counted := alike_bump woken (f := if hit = true then R.DRC_CH_PAGE_HITS else R.DRC_CH_PAGE_MISSES)
    (by cases hit <;> decide) (Fin.ofNat 16 ch).val 1
  generalize bump u _ _ _ = u' at counted
  generalize bump v _ _ _ = v' at counted
  have time : elapsed v' = elapsed u' := congrArg Clock.ns (clock_of_alike counted)
  rw [rd_of_alike counted (f := R.DRC_PAGE_CTL_MODE) (by decide), dramChs_of_alike counted, elapsedW_of_alike counted, time]
  exact alike_modDram counted _ _

theorem alike_beats (req a n : Nat) (write : Bool) : Alike (beats s req a n write) (beats t req a n write) := by
  unfold beats
  rw [regionOf_of_alike h]
  dsimp only
  split
  · cases write
    · exact alike_bump h (f := R.CMEM_BEATS_RD) (by decide) _ _
    · exact alike_bump h (f := R.CMEM_BEATS_WR) (by decide) _ _
  · cases write
    · exact alike_bump h (f := R.BAG_BEATS_RD) (by decide) _ _
    · exact alike_bump h (f := R.BAG_BEATS_WR) (by decide) _ _
  · refine alike_foldl ?_ _ h
    exact fun _ _ j hu => alike_dramBeat hu _ _
  · exact h

/-! ### Reads -/

theorem alike_recordOnChip {fa fu fv : RegField} (hu : besides lostFields fu = true) (hv : besides lostFields fv = true) (i a : Nat)
    (ue : Bool) : Alike (recordOnChip s fa fu fv i a ue) (recordOnChip t fa fu fv i a ue) :=
  alike_ite (by rw [rdb_of_alike h hu, rdb_of_alike h hv]) h (alike_wrb (alike_wrb (alike_wr h _ _ _) _ _ _) _ _ _)

theorem alike_recordDram {fa fc fv : RegField} (hv : besides lostFields fv = true) (a : Nat) :
    Alike (recordDram s fa fc fv a) (recordDram t fa fc fv a) := by
  unfold recordDram
  have channel := dramChannelOf_of_alike (alike_wr h fa 0 a) a
  refine alike_ite (by rw [rdb_of_alike h hv]) h (alike_wrb ?_ _ _ _)
  rw [dramChannelOf_of_alike h]
  exact alike_wr (alike_wr h _ _ _) _ _ _

theorem dramArg_of_alike (a req : Nat) : dramArg t a req = dramArg s a req := by
  unfold dramArg
  rw [dramChannelOf_of_alike h]
  obtain ⟨ch, off⟩ := dramChannelOf s a
  dsimp only
  rw [dramPlaceOf_of_alike h]

/-- An entry that a register asks for is logged in both states. -/
theorem alike_logIf {f : RegField} (hf : besides lostFields f = true) (i d unit a x : Nat) :
    Alike (if rdb s f i then logIt s planeData 0x40 d 1 unit a x else s) (if rdb t f i then logIt t planeData 0x40 d 1 unit a x else t) :=
  alike_ite (by rw [rdb_of_alike h hf]) (alike_logIt h _ _ _ _ _ _ _) h

theorem alike_correctedRead (a req : Nat) : Alike (correctedRead s a req) (correctedRead t a req) := by
  unfold correctedRead
  rw [regionOf_of_alike h, dramChannelOf_of_alike h]
  split
  · exact alike_due (alike_logIf (alike_recordOnChip (alike_bump h (by decide) _ _) (by decide) (by decide) _ _ _) (by decide) _ _ _ _ _) a
  · exact alike_due (alike_logIf (alike_recordOnChip (alike_bump h (by decide) _ _) (by decide) (by decide) _ _ _) (by decide) _ _ _ _ _) a
  · have recorded := alike_recordDram (alike_bump h (f := R.DRC_CH_CE) (by decide) (dramChannelOf s a).1 1) (fa := R.DRC_CE_ADDR_ADDR)
      (fc := R.DRC_CE_ADDR_CH) (fv := R.DRC_CE_ADDR_VALID) (by decide) a
    dsimp only
    rw [dramArg_of_alike recorded]
    have logged := alike_logIf recorded (f := R.DRC_ECC_CTL_CE_LOG) (by decide) 0 2 0x42 a
      (dramArg (recordDram (bump s R.DRC_CH_CE (dramChannelOf s a).1 1) R.DRC_CE_ADDR_ADDR R.DRC_CE_ADDR_CH R.DRC_CE_ADDR_VALID a) a req)
    exact alike_ite (by rw [rdb_of_alike logged (by decide)]) (alike_setEcc logged a .ok) logged

theorem alike_uncorrectableRead (a req : Nat) : Alike (uncorrectableRead s a req) (uncorrectableRead t a req) := by
  unfold uncorrectableRead
  rw [regionOf_of_alike h, dramChannelOf_of_alike h]
  split
  · exact alike_poisonEcc (alike_logIt (alike_recordOnChip (alike_bump h (by decide) _ _) (by decide) (by decide) _ _ _) _ _ _ _ _ _ _) a
  · exact alike_poisonEcc (alike_logIt (alike_recordOnChip (alike_bump h (by decide) _ _) (by decide) (by decide) _ _ _) _ _ _ _ _ _ _) a
  · have recorded := alike_recordDram (alike_bump h (f := R.DRC_CH_UE) (by decide) (dramChannelOf s a).1 1) (fa := R.DRC_UE_ADDR_ADDR)
      (fc := R.DRC_UE_ADDR_CH) (fv := R.DRC_UE_ADDR_VALID) (by decide) a
    dsimp only
    rw [dramArg_of_alike recorded]
    exact alike_poisonEcc (alike_logIt recorded _ _ _ _ _ _ _) a

theorem alike_checkWord (req : Nat) (e : Nat × EccState) : Alike (checkWord req s e) (checkWord req t e) := by
  obtain ⟨a, st⟩ := e
  cases st with
  | ok => exact h
  | single => exact alike_correctedRead h a req
  | double =>
    refine alike_ite ?_ h (alike_uncorrectableRead h a req)
    unfold eccAt
    rw [eccBase_of_alike h, ecc_of_alike h]
  | poison => exact h

theorem alike_memRead (req a n : Nat) : Alike (memRead s req a n).s (memRead t req a n).s := by
  have counted := alike_beats h req a n false
  unfold memRead
  dsimp only
  rw [badWords_of_alike counted]
  exact alike_ite (by rw [eccCovers_of_alike counted]) (alike_foldl (fun _ _ e hu => alike_checkWord hu req e) _ counted) counted

/-! ### Time -/

theorem alike_poolCycles (cyc : Nat) (p : Fin 8) : Alike (poolCycles cyc s p) (poolCycles cyc t p) := by
  unfold poolCycles
  rw [rd_of_alike h (f := R.BPM_POOL_STATUS_LEVEL) (by decide)]
  dsimp only
  have throttle := alike_ite (c := (rd s R.BPM_POOL_STATUS_LEVEL p.val == 2) = true) Iff.rfl
    (alike_bump h (f := R.BPM_POOL_THROTTLE_CYC) (by decide) p.val cyc) h
  have stop := alike_ite (c := (rd s R.BPM_POOL_STATUS_LEVEL p.val == 3) = true) Iff.rfl
    (alike_bump throttle (f := R.BPM_POOL_STOP_CYC) (by decide) p.val cyc) throttle
  rw [pools_of_alike stop]
  exact alike_ite Iff.rfl (alike_bump stop (by decide) _ _) stop

theorem alike_throttleCycles (cyc : Nat) (n : Fin 16) : Alike (throttleCycles cyc s n) (throttleCycles cyc t n) := by
  refine alike_ite ?_ (alike_bump h (by decide) _ _) h
  unfold throttled
  rw [power_of_alike h]

theorem alike_notePool (p : Fin 8) : Alike (notePool s p) (notePool t p) := by
  unfold notePool sinceWhen
  rw [canAlloc_of_alike h, canAlloc_of_alike h, elapsedW_of_alike h]
  exact alike_modPool h p _

theorem alike_advance (ns : Nat) : Alike (advance s ns) (advance t ns) := by
  have stopped : ∀ c, Alike { s with clock := c } { t with clock := c } := fun c => by
    have clocked := alike_clockCores h c s.cores
    rwa [show ({ t with clock := c, cores := s.cores } : State) = { t with clock := c } by rw [← cores_of_alike h]] at clocked
  unfold advance now
  rw [clock_of_alike h, rd_of_alike h (by decide)]
  split
  · exact alike_wr h _ _ _
  · exact alike_ite Iff.rfl (stopped _) (alike_wr (stopped _) _ _ _)

theorem alike_passTime (ns : Nat) : Alike (passTime s ns) (passTime t ns) := by
  unfold passTime
  rw [clock_of_alike h, cores_of_alike h, rd_of_alike h (by decide)]
  exact alike_foldl (fun _ _ p hu => alike_notePool hu p) _ (alike_advance (alike_foldl (fun _ _ n hu => alike_throttleCycles hu _ n) _
    (alike_foldl (fun _ _ p hu => alike_poolCycles hu _ p) _ (alike_clockCores h _ _))) ns)

theorem alike_passUntil (n : Nat) : Alike (passUntil s n) (passUntil t n) := by
  unfold passUntil
  rw [show elapsed t = elapsed s from congrArg Clock.ns (clock_of_alike h)]
  exact alike_ite Iff.rfl h (alike_passTime h _)

/-! ### A frame is coded (R111 to R115) -/

/-- What is coded of a frame lies in memory and in its stream. -/
theorem encPicture_of_alike (r : EncReq) (x : Shot) : encPicture t r x = encPicture s r x := by
  unfold encPicture Shot.luma8 Shot.chroma8 Shot.comp Shot.sample peek streamOf
  rw [mem_of_alike h, streams_of_alike h]

theorem alike_codeFrame (k : Fin 4) (r : EncReq) (j : EncJob) (bytes : Nat) (lens : List Nat) :
    Alike (codeFrame s k r j bytes lens).1 (codeFrame t k r j bytes lens).1 ∧
      (codeFrame t k r j bytes lens).2 = (codeFrame s k r j bytes lens).2 := by
  have shot : frameShot t r j = frameShot s r j := by
    unfold frameShot peek
    rw [mem_of_alike h]
  have read : Alike (pixelsRead s k j (frameShot s r j)) (pixelsRead t k j (frameShot s r j)) :=
    alike_passUntil (alike_foldl (fun _ _ l hu => alike_memRead hu (12 + k.val) (64 * l) 64) _ h) _
  have drawn : Alike (drawFree (pixelsRead s k j (frameShot s r j))).1 (drawFree (pixelsRead t k j (frameShot s r j))).1 :=
    alike_freeCtr read
  rw [codeFrame_eq, codeFrame_eq, shot, freeCtr_of_alike read]
  exact ⟨drawn, by rw [encPicture_of_alike drawn]⟩

end

end Sys2Proof.Encoding

/-! ## The output chain of a request (R116, R118) -/

namespace Sys2Proof.Encoding

open Sys2Proof.Machine Sys2Proof.Laws Sys2Proof.HostAccess Sys2Proof.Traffic Sys2Proof.Frames

/-! ### Writes one after another -/

theorem byteAt_foldl_none {f : State → Nat → State} {z : Nat} {l : List Nat} (h : ∀ s, ∀ i ∈ l, byteAt (f s i) z = byteAt s z) (s : State) :
    byteAt (l.foldl f s) z = byteAt s z := by
  induction l generalizing s with
  | nil => rfl
  | cons a l ih =>
    exact (ih (fun u i hi => h u i (List.mem_cons_of_mem _ hi)) (f s a)).trans (h s a List.mem_cons_self)

/-- A byte that one write alone covers holds what that write stored. -/
theorem byteAt_foldl_one {f : State → Nat → State} {z i : Nat} {b : Byte} {l : List Nat} (hi : i ∈ l) (h : ∀ s, byteAt (f s i) z = b)
    (h' : ∀ s, ∀ j ∈ l, j ≠ i → byteAt (f s j) z = byteAt s z) (s : State) : byteAt (l.foldl f s) z = b := by
  induction l generalizing s with
  | nil => cases hi
  | cons a l ih =>
    by_cases hl : i ∈ l
    · exact ih hl (fun u j hj => h' u j (List.mem_cons_of_mem _ hj)) (f s a)
    · obtain rfl : i = a := (List.mem_cons.mp hi).resolve_right hl
      refine (byteAt_foldl_none (fun u j hj => ?_) (f s i)).trans (h s)
      exact h' u j (List.mem_cons_of_mem _ hj) fun e => hl (e ▸ hj)

/-! ### Buffers -/

/-- Where buffer `i` of the request's chain lies. -/
def bufAt (r : EncReq) (i : Nat) : Nat := (r.buffers.getD i 0).toNat

/-- No two buffers of the chain share a byte. -/
def BuffersApart (r : EncReq) (size : Nat) : Prop :=
  r.buffers.Pairwise (fun b b' => b.toNat + size ≤ b'.toNat ∨ b'.toNat + size ≤ b.toNat)

theorem bufAt_eq {r : EncReq} {i : Nat} (h : i < r.buffers.length) : bufAt r i = r.buffers[i].toNat := by
  rw [bufAt, List.getD_eq_getElem _ _ h]

theorem bufAt_apart {r : EncReq} {size i j : Nat} (h : BuffersApart r size) (hi : i < r.buffers.length) (hj : j < r.buffers.length)
    (hij : j ≠ i) : bufAt r i + size ≤ bufAt r j ∨ bufAt r j + size ≤ bufAt r i := by
  rw [bufAt_eq hi, bufAt_eq hj]
  rcases Nat.lt_or_gt_of_ne hij with hlt | hgt
  · exact (List.pairwise_iff_getElem.mp h j i hj hi hlt).symm
  · exact List.pairwise_iff_getElem.mp h i j hi hj hgt

/-- The address lies outside every buffer of the chain. -/
def OutsideBuffers (r : EncReq) (size z : Nat) : Prop := ∀ b ∈ r.buffers, z < b.toNat ∨ b.toNat + size ≤ z

theorem outside_bufAt {r : EncReq} {size z i : Nat} (h : OutsideBuffers r size z) (hi : i < r.buffers.length) :
    z < bufAt r i ∨ bufAt r i + size ≤ z := by
  rw [bufAt_eq hi]
  exact h _ (List.getElem_mem hi)

/-! ### Payload -/

/-- The part of a byte string, placed from `at_` on in the chain, that lies in buffer `i`. -/
def putPart (k : Fin 4) (r : EncReq) (cap at_ : Nat) (bs : List Byte) (s : State) (i : Nat) : State :=
  let lo := max at_ (i * cap)
  let hi := min (at_ + bs.length) ((i + 1) * cap)
  if lo < hi then memWrite s (12 + k.val) (bufAt r i + 64 + (lo - i * cap)) ((bs.drop (lo - at_)).take (hi - lo)) false else s

theorem putPayload_eq (s : State) (k : Fin 4) (r : EncReq) (at_ : Nat) (bs : List Byte) :
    putPayload s k r at_ bs = (List.range r.buffers.length).foldl (putPart k r (encCapacity s r) at_ bs) s := rfl

section
variable {k : Fin 4} {r : EncReq} {cap at_ : Nat} {bs : List Byte}

theorem touched_putPart (s : State) (i : Nat) : Touched s (putPart k r cap at_ bs s i) :=
  iteInduction (motive := Touched s) (fun _ => touched_memWrite s _ _ _ _) (fun _ => touched_refl s)

theorem touched_putPayload (s : State) : Touched s (putPayload s k r at_ bs) := by
  rw [putPayload_eq]
  exact touched_foldl touched_putPart s _

/-- A part stays within its buffer's payload. -/
theorem byteAt_putPart_outside {i z : Nat} (h : z < bufAt r i + 64 ∨ bufAt r i + 64 + cap ≤ z) (s : State) :
    byteAt (putPart k r cap at_ bs s i) z = byteAt s z := by
  have next : (i + 1) * cap = i * cap + cap := Nat.succ_mul i cap
  unfold putPart
  dsimp only
  split
  · rw [byteAt_memWrite, if_neg]
    rw [List.length_take, List.length_drop]
    omega
  · rfl

theorem byteAt_putPart_inside {i o : Nat} (ho : o < cap) (hlo : at_ ≤ i * cap + o) (hhi : i * cap + o < at_ + bs.length) (s : State) :
    byteAt (putPart k r cap at_ bs s i) (bufAt r i + 64 + o) = bs.getD (i * cap + o - at_) 0 := by
  have next : (i + 1) * cap = i * cap + cap := Nat.succ_mul i cap
  unfold putPart
  dsimp only
  rw [if_pos (by omega), byteAt_memWrite, if_pos]
  · simp only [List.getD_eq_getElem?_getD]
    rw [List.getElem?_take_of_lt (by omega), List.getElem?_drop]
    congr 2
    omega
  · rw [List.length_take, List.length_drop]
    omega

/-- A byte string placed in the chain is found there, over the ends of buffers. -/
theorem byteAt_putPayload {s : State} {i : Nat} (hcap : encCapacity s r = cap) (hfit : at_ + bs.length ≤ r.buffers.length * cap)
    (hd : BuffersApart r (64 + cap)) (hi : i < bs.length) :
    byteAt (putPayload s k r at_ bs) (bufAt r ((at_ + i) / cap) + 64 + (at_ + i) % cap) = bs.getD i 0 := by
  have pos : 0 < cap := Nat.pos_of_ne_zero fun h => by
    rw [h, Nat.mul_zero] at hfit
    omega
  have place : (at_ + i) / cap * cap + (at_ + i) % cap = at_ + i := Nat.div_add_mod' _ _
  have inside : (at_ + i) / cap < r.buffers.length := by
    rw [Nat.div_lt_iff_lt_mul pos]
    omega
  have low := Nat.mod_lt (at_ + i) pos
  rw [putPayload_eq, hcap]
  refine byteAt_foldl_one (List.mem_range.mpr inside) (fun u => ?_) (fun u j hj hne => ?_) s
  · rw [byteAt_putPart_inside low (by omega) (by omega)]
    congr 1
    omega
  · refine byteAt_putPart_outside ?_ u
    rcases bufAt_apart hd inside (List.mem_range.mp hj) hne with h | h <;> omega

theorem byteAt_putPayload_outside {s : State} {z : Nat} (hcap : encCapacity s r = cap) (h : OutsideBuffers r (64 + cap) z) :
    byteAt (putPayload s k r at_ bs) z = byteAt s z := by
  rw [putPayload_eq, hcap]
  refine byteAt_foldl_none (fun u i hi => byteAt_putPart_outside ?_ u) s
  rcases outside_bufAt h (List.mem_range.mp hi) with h | h <;> omega

end

/-! ### Headers -/

/-- The header of buffer `i`. -/
def bufHeader (r : EncReq) (cap i : Nat) : List Byte :=
  bytesOf 8 (bufAt r (i + 1)) ++ (bytesOf 4 (min cap (r.bytes - i * cap)) ++ (bytesOf 4 r.tag.toNat ++ List.replicate 48 0))

theorem bufHeader_length (r : EncReq) (cap i : Nat) : (bufHeader r cap i).length = 64 := by
  simp only [bufHeader, List.length_append, bytesOf_length, List.length_replicate]

theorem putBufHeader_eq (k : Fin 4) (r : EncReq) (cap : Nat) (s : State) (i : Nat) :
    putBufHeader k r cap s i = memWrite s (12 + k.val) (bufAt r i) (bufHeader r cap i) false := by
  unfold putBufHeader bufHeader bufAt
  simp only [List.append_assoc]

theorem bufHeader_fields (r : EncReq) (cap i : Nat) :
    fieldOf (bufHeader r cap i) 0 8 = bufAt r (i + 1) ∧ fieldOf (bufHeader r cap i) 8 4 = min cap (r.bytes - i * cap) % 2 ^ 32 ∧
      fieldOf (bufHeader r cap i) 12 4 = r.tag.toNat := by
  have next := (r.buffers.getD (i + 1) 0).isLt
  have tag := r.tag.isLt
  unfold bufHeader bufAt
  refine ⟨?_, ?_, ?_⟩
  · rw [fieldOf_front]
    omega
  · rw [fieldOf_skip (by decide), fieldOf_front, show (256 : Nat) ^ 4 = 2 ^ 32 by norm_num]
  · rw [fieldOf_skip (by decide), fieldOf_skip (by decide), fieldOf_front]
    omega

section
variable {k : Fin 4} {r : EncReq} {cap size used : Nat}

/-- The headers of the first `used` buffers are written. -/
def putHeaders (k : Fin 4) (r : EncReq) (cap used : Nat) (s : State) : State := (List.range used).foldl (putBufHeader k r cap) s

theorem touched_putHeaders (s : State) : Touched s (putHeaders k r cap used s) := by
  refine touched_foldl (fun u i => ?_) s _
  rw [putBufHeader_eq]
  exact touched_memWrite u _ _ _ _

theorem byteAt_putHeaders_outside {z : Nat} (h : ∀ i, i < used → z < bufAt r i ∨ bufAt r i + 64 ≤ z) (s : State) :
    byteAt (putHeaders k r cap used s) z = byteAt s z := by
  refine byteAt_foldl_none (fun u i hi => ?_) s
  have := h i (List.mem_range.mp hi)
  rw [putBufHeader_eq, byteAt_memWrite, bufHeader_length, if_neg (by omega)]

theorem byteAt_putHeaders {m i : Nat} (hd : BuffersApart r (64 + cap)) (hu : used ≤ r.buffers.length) (hm : m < used) (hi : i < 64)
    (s : State) : byteAt (putHeaders k r cap used s) (bufAt r m + i) = (bufHeader r cap m).getD i 0 := by
  refine byteAt_foldl_one (List.mem_range.mpr hm) (fun u => ?_) (fun u j hj hne => ?_) s
  · rw [putBufHeader_eq, byteAt_memWrite, bufHeader_length, if_pos (by omega), Nat.add_sub_cancel_left]
  · have := bufAt_apart hd (Nat.lt_of_lt_of_le hm hu) (Nat.lt_of_lt_of_le (List.mem_range.mp hj) hu) hne
    rw [putBufHeader_eq, byteAt_memWrite, bufHeader_length, if_neg (by omega)]

end

end Sys2Proof.Encoding

/-! ## Requests and their buffers (R110, R116) -/

namespace Sys2Proof.Encoding

open Sys2Proof.Machine Sys2Proof.Laws Sys2Proof.HostAccess Sys2Proof.Traffic Sys2Proof.Frames Sys2Proof.Dispatch

/-! ### One request changes -/

theorem id_of_reqOf {s : State} {id : Nat} {r : EncReq} (h : reqOf s id = some r) : r.id = id :=
  eq_of_beq (List.find?_some (p := fun r : EncReq => r.id == id) h)

theorem reqOf_congr {s t : State} (h : t.encReqs = s.encReqs) (id : Nat) : reqOf t id = reqOf s id := by
  unfold reqOf
  rw [h]

theorem reqOf_modReq (s : State) {id : Nat} {f : EncReq → EncReq} (hf : ∀ r, r.id = id → (f r).id = id) :
    reqOf (modReq s id f) id = (reqOf s id).map f := by
  unfold reqOf modReq
  dsimp only
  induction s.encReqs with
  | nil => rfl
  | cons x l ih =>
    by_cases hx : x.id = id
    · simp [hx, hf x hx]
    · have hb : (x.id == id) = false := by simpa using hx
      rw [List.map_cons, if_neg hx, List.find?_cons, List.find?_cons, hb]
      exact ih

/-- The other requests are as they were. -/
theorem others_modReq (s : State) {id : Nat} {f : EncReq → EncReq} (hf : ∀ r, r.id = id → (f r).id = id) :
    (modReq s id f).encReqs.filter (fun y => y.id != id) = s.encReqs.filter (fun y => y.id != id) := by
  unfold modReq
  dsimp only
  induction s.encReqs with
  | nil => rfl
  | cons x l ih =>
    rw [List.map_cons]
    by_cases hx : x.id = id
    · rw [if_pos hx, List.filter_cons_of_neg (by simp [hf x hx]), List.filter_cons_of_neg (by simp [hx]), ih]
    · rw [if_neg hx, List.filter_cons_of_pos (by simpa using hx), List.filter_cons_of_pos (by simpa using hx), ih]

/-! ### Buffers that have been granted -/

/-- With none granted nothing joins the chain. -/
theorem collectGot_none {s : State} {k : Fin 4} (h : s.veGot[k] = []) (id : Nat) : collectGot s k id = s := by
  have none : s.veGot.set k [] = s.veGot := by
    rw [← h]
    exact Vector.set_getElem_self k.isLt
  have same : (fun r : EncReq => if r.id = id then { r with buffers := r.buffers ++ [] } else r) = fun r => r := by
    funext r
    split <;> simp
  unfold collectGot modReq
  dsimp only
  rw [h, none, same, List.map_id']

section
variable {s : State} {k : Fin 4} {r : EncReq} {n : Nat}

theorem ceilDiv_le {a b m : Nat} (h : a ≤ m * b) : ceilDiv a b ≤ m := by
  unfold ceilDiv
  rcases Nat.eq_zero_or_pos b with rfl | hb
  · simp
  · refine Nat.le_of_lt_succ ((Nat.div_lt_iff_lt_mul hb).mpr ?_)
    rw [Nat.succ_mul]
    omega

theorem lt_ceilDiv {a b m : Nat} (hb : 0 < b) : m < ceilDiv a b ↔ m * b < a := by
  unfold ceilDiv
  rw [Nat.lt_iff_add_one_le, Nat.le_div_iff_mul_le hb, Nat.succ_mul]
  omega

/-- A chain with room for the bytes needs no more buffers. -/
theorem takeBuffers_room (live : Bool) (hn : 0 < n) (h : r.bytes + n ≤ r.buffers.length * encCapacity s r) :
    takeBuffers s k r live n = s := by
  have cap : encCapacity s r ≠ 0 := fun h0 => by
    rw [h0, Nat.mul_zero] at h
    omega
  have enough := ceilDiv_le h
  unfold takeBuffers
  rw [if_neg cap, Nat.sub_eq_zero_of_le enough]
  rfl

/-! ### Waiting for a buffer -/

/-- The encoder has joined those that wait at a pool that can grant nothing. -/
def waitingAt (s : State) (k : Fin 4) (p : Fin 8) (live : Bool) : State :=
  { waitAlloc { notePool s p with allocOut := 0 } p live (.encoder k) with
    veWait := s.veWait.set k (some (elapsedW s)) }

theorem encWaits_iff : encWaits s k = true ↔ ∃ p : Fin 8, ∃ w ∈ s.pools[p].waiting, w.user = .encoder k := by
  simp [encWaits]

theorem encWaits_congr {t : State} (h : ∀ p : Fin 8, t.pools[p].waiting = s.pools[p].waiting) : encWaits t k = encWaits s k := by
  unfold encWaits
  simp only [h]

theorem encWaits_waitingAt (p : Fin 8) (live : Bool) : encWaits (waitingAt s k p live) k = true := by
  refine encWaits_iff.mpr ⟨p, ⟨live, .encoder k⟩, ?_, rfl⟩
  simp [waitingAt, waitAlloc, notePool]

/-- A pool with an empty ready list grants nothing. -/
theorem canAlloc_empty {p : Fin 8} (h : s.pools[p].ready = []) (live : Bool) : canAlloc s p live = false := by
  unfold canAlloc
  rw [h]
  simp

theorem takeBuffer_waiting (id : Nat) (p : Fin 8) (live : Bool) (h : encWaits s k = true) : takeBuffer s k id p live = s := if_pos h

theorem takeBuffer_empty {p : Fin 8} (id : Nat) (live : Bool) (hw : encWaits s k = false) (hr : s.pools[p].ready = [])
    (hp : s.pools[p].waiting = []) : takeBuffer s k id p live = waitingAt s k p live := by
  have alone : tryAlloc s p live = { notePool s p with allocOut := 0 } := by
    unfold tryAlloc
    dsimp only
    rw [serveWaiting_none hp, canAlloc_notePool, canAlloc_empty hr]
    rfl
  unfold takeBuffer
  rw [alone, hw]
  rfl

/-- Where the chain is too short and the pool empty, the encoder begins to wait. -/
theorem takeBuffers_empty {p : Fin 8} (hp : p = encPool r.cfg) (live : Bool) (h : r.buffers.length * encCapacity s r < r.bytes + n)
    (hw : encWaits s k = false) (hr : s.pools[p].ready = []) (hq : s.pools[p].waiting = []) :
    takeBuffers s k r live n = waitingAt s k p live := by
  subst hp
  have stays : ∀ l : List Nat, l.foldl (fun u _ => takeBuffer u k r.id (encPool r.cfg) live) (waitingAt s k (encPool r.cfg) live) =
      waitingAt s k (encPool r.cfg) live := by
    intro l
    induction l with
    | nil => rfl
    | cons a l ih => rw [List.foldl_cons, takeBuffer_waiting _ _ _ (encWaits_waitingAt _ live), ih]
  obtain ⟨m, hm⟩ : ∃ m, (if encCapacity s r = 0 then 1 else ceilDiv (r.bytes + n) (encCapacity s r) - r.buffers.length) = m + 1 := by
    split
    · exact ⟨0, rfl⟩
    next h0 =>
      have short := (lt_ceilDiv (Nat.pos_of_ne_zero h0)).mpr h
      exact ⟨ceilDiv (r.bytes + n) (encCapacity s r) - r.buffers.length - 1, by omega⟩
  unfold takeBuffers
  dsimp only
  rw [hm, List.range_succ_eq_map, List.foldl_cons, takeBuffer_empty r.id live hw hr hq, stays]

end

/-! ### A unit is placed -/

section
variable {s : State} {k : Fin 4} {j : EncJob} {r : EncReq} {unit : List Byte}

theorem placeUnit_room (hg : s.veGot[k] = []) (hr : reqOf s j.req = some r)
    (h : r.bytes + 16 + unit.length ≤ r.buffers.length * encCapacity s r) : placeUnit s k j unit = writeBlockOut s k r j unit := by
  unfold placeUnit
  simp only [collectGot_none hg, hr]
  rw [takeBuffers_room j.live (by omega) (by rwa [← Nat.add_assoc])]
  simp only [hr]
  rw [if_neg (Nat.not_lt.mpr h)]

theorem placeUnit_empty {p : Fin 8} (hg : s.veGot[k] = []) (hr : reqOf s j.req = some r) (hp : p = encPool r.cfg)
    (h : r.buffers.length * encCapacity s r < r.bytes + 16 + unit.length) (hw : encWaits s k = false)
    (hl : s.pools[p].ready = []) (hq : s.pools[p].waiting = []) :
    placeUnit s k j unit =
      { waitingAt s k p j.live with ves := s.ves.set k (some { j with coded := some unit }) } := by
  have still : reqOf (waitingAt s k p j.live) j.req = some r := hr
  have short : r.buffers.length * encCapacity (waitingAt s k p j.live) r < r.bytes + 16 + unit.length := h
  unfold placeUnit
  simp only [collectGot_none hg, hr]
  rw [takeBuffers_empty hp j.live (by rwa [← Nat.add_assoc]) hw hl hq]
  simp only [still]
  rw [if_pos short]
  rfl

end

end Sys2Proof.Encoding

/-! ## A coded frame's block is written (R114, R118) -/

namespace Sys2Proof.Encoding

open Sys2Proof.Machine Sys2Proof.Laws Sys2Proof.HostAccess Sys2Proof.Traffic Sys2Proof.Frames

/-! ### Requests may end -/

/-- Pools have done their work and requests may have ended. -/
structure Settled (s t : State) : Prop where
  only : t = { s with
    encReqs := t.encReqs, mem := t.mem, regs := t.regs, ecc := t.ecc, dramChs := t.dramChs, writeback := t.writeback, logQ := t.logQ
    logLost := t.logLost, freeCtr := t.freeCtr, pools := t.pools, allocOut := t.allocOut, veGot := t.veGot, dma := t.dma
    pba := t.pba, mqs := t.mqs, order := t.order, linkAt := t.linkAt, ltr := t.ltr }
  regs : KeepsBut endFields s t
  bytes : ∀ z, Apart s z → byteAt t z = byteAt s z

theorem settled_of_pooled {s t : State} (h : Pooled s t) : Settled s t := by
  obtain ⟨only, regs, bytes⟩ := h
  refine ⟨?_, keepsBut_mono (fun _ => List.mem_append_right _) regs, bytes⟩
  rw [only]

theorem settled_of_ended {s t : State} {r : EncReq} {status : Nat} (h : Ended r status s t) : Settled s t := by
  obtain ⟨only, regs, bytes, -⟩ := h
  refine ⟨?_, regs, bytes⟩
  rw [only]

theorem settled_trans {s t u : State} (h : Settled s t) (h' : Settled t u) : Settled s u := by
  have places : SamePlaces s t := samePlaces_of_regs h.regs (by decide)
  obtain ⟨ht, hk, hb⟩ := h
  obtain ⟨hu, hk', hb'⟩ := h'
  refine ⟨?_, keepsBut_trans hk hk', fun z hz => (hb' z (places.apart.mpr hz)).trans (hb z hz)⟩
  rw [hu, ht]

theorem settled_checkRequest (s : State) (r : EncReq) : Settled s (checkRequest s r) := by
  have stays : Settled s s := settled_of_pooled (pooled_refl s)
  have ends : ∀ status < 256, Settled s (endRequest s r status) := fun status h => settled_of_ended (ended_endRequest s r h)
  unfold checkRequest
  split
  · exact stays
  · split
    · exact ends _ (by split <;> decide)
    · exact iteInduction (motive := Settled s) (fun _ => ends 4 (by decide)) (fun _ => stays)

theorem settled_checkId (s : State) (id : Nat) : Settled s (checkId s id) := by
  unfold checkId
  split
  · exact settled_checkRequest s _
  · exact settled_of_pooled (pooled_refl s)

/-- A request with frames to encode goes on. -/
theorem checkId_frames {s : State} {id : Nat} {r : EncReq} (hr : reqOf s id = some r) (hf : r.frames ≠ []) : checkId s id = s := by
  have more : r.frames.isEmpty = false := by simpa using hf
  unfold checkId checkRequest
  rw [hr]
  simp only [more, Bool.not_false, Bool.true_or, if_true]

/-- A request whose range has passed ends with its frames. -/
theorem checkId_passed {s : State} {id : Nat} {r : EncReq} (hr : reqOf s id = some r) (hf : r.frames = []) (hb : r.busy = false)
    (hp : rangePassed r = true) : checkId s id = endRequest s r (if r.encoded = r.count then 0 else 1) := by
  unfold checkId checkRequest
  rw [hr]
  simp only [hf, hb, hp, List.isEmpty_nil, Bool.not_true, Bool.or_self, Bool.false_eq_true, if_false, if_true]

/-! ### The stages of a block -/

/-- A frame's block: what stands before its unit (R118), and the unit. -/
def blockOf (j : EncJob) (h : FrameHdr) (unit : List Byte) : List Byte :=
  bytesOf 4 (16 + unit.length) ++ bytesOf 4 j.frame.seq.toNat ++ bytesOf 8 h.time ++ unit

theorem blockOf_length (j : EncJob) (h : FrameHdr) (unit : List Byte) : (blockOf j h unit).length = 16 + unit.length := by
  simp only [blockOf, List.length_append, bytesOf_length]

/-- The header of the job's frame. -/
def jobHdr (s : State) (j : EncJob) : FrameHdr := parseFrame (peek s j.frame.frame.toNat 64)

/-- The request once the frame's unit of `n` bytes is stored. -/
def reqAfter (s : State) (r : EncReq) (j : EncJob) (n : Nat) : EncReq := encodedReq r j.frame (jobHdr s j) n (elapsedW s)

/-- The block and the headers of the buffers lie in memory. -/
def blockStored (s : State) (k : Fin 4) (r : EncReq) (j : EncJob) (unit : List Byte) : State :=
  putHeaders k (reqAfter s r j unit.length) (encCapacity s r) (usedBuffers s (reqAfter s r j unit.length))
    (putPayload s k r r.bytes (blockOf j (jobHdr s j) unit))

/-- The counters of an encoder have counted a unit of `n` bytes. -/
def unitCounted (s : State) (k : Fin 4) (exceeded : Bool) (n : Nat) : State :=
  if exceeded then bump (bump (bump s R.VE_FRAMES k.val 1) R.VE_BYTES k.val (16 + n)) R.VE_CAP_OVER k.val 1
  else bump (bump s R.VE_FRAMES k.val 1) R.VE_BYTES k.val (16 + n)

/-- The encoder is idle again. -/
def encoderFreed (s : State) (k : Fin 4) : State := { s with ves := s.ves.set k none, veWait := s.veWait.set k none }

/-- The unit is stored and counted and the encoder idle. -/
def unitStored (s : State) (k : Fin 4) (r : EncReq) (j : EncJob) (unit : List Byte) : State :=
  encoderFreed (unitCounted (modReq (blockStored s k r j unit) r.id (fun _ => reqAfter s r j unit.length)) k
    (capExceeded (reqAfter s r j unit.length)) unit.length) k

section
variable {s t : State}

theorem capacity_of_places (h : SamePlaces s t) (r : EncReq) : encCapacity t r = encCapacity s r := by
  unfold encCapacity
  rw [h.size]

theorem used_of_places (h : SamePlaces s t) (r : EncReq) : usedBuffers t r = usedBuffers s r := by
  unfold usedBuffers
  rw [capacity_of_places h]

/-- The registers of an encoder's counters. -/
def countFields : List RegField := [R.VE_FRAMES, R.VE_BYTES, R.VE_CAP_OVER]

/-- Registers alone have changed, and what free values have been drawn. -/
def OnlyCounts (s t : State) : Prop := t = { s with regs := t.regs, freeCtr := t.freeCtr }

theorem onlyCounts_bump (s : State) (f : RegField) (i n : Nat) : OnlyCounts s (bump s f i n) := by
  rcases bump_cases s f i n with ⟨v, h⟩ | ⟨v, h⟩ <;> rw [h] <;> rfl

theorem onlyCounts_trans {s t u : State} (h : OnlyCounts s t) (h' : OnlyCounts t u) : OnlyCounts s u := by
  unfold OnlyCounts at h h' ⊢
  rw [h', h]

/-- An encoder has counted a unit of `n` bytes. -/
structure UnitCounted (k : Fin 4) (n : Nat) (s t : State) : Prop where
  only : OnlyCounts s t
  regs : KeepsBut countFields s t
  frames : rd t R.VE_FRAMES k.val = (rd s R.VE_FRAMES k.val + 1) % 2 ^ 32
  bytes : rd t R.VE_BYTES k.val = (rd s R.VE_BYTES k.val + (16 + n)) % 2 ^ 32

theorem unitCounted_holds (s : State) (k : Fin 4) (exceeded : Bool) (n : Nat) : UnitCounted k n s (unitCounted s k exceeded n) := by
  have framesBytes : ∀ i i', regKey R.VE_FRAMES i ≠ regKey R.VE_BYTES i' :=
    regKey_ne_of_besides (l := [R.VE_BYTES]) (by decide) List.mem_cons_self
  have bytesFrames : ∀ i i', regKey R.VE_BYTES i ≠ regKey R.VE_FRAMES i' := fun i i' => (framesBytes i' i).symm
  have overs : ∀ {g}, besides [R.VE_CAP_OVER] g = true → ∀ i i', regKey g i ≠ regKey R.VE_CAP_OVER i' := fun hg =>
    regKey_ne_of_besides hg List.mem_cons_self
  have two : UnitCounted k n s (bump (bump s R.VE_FRAMES k.val 1) R.VE_BYTES k.val (16 + n)) := by
    refine ⟨onlyCounts_trans (onlyCounts_bump s _ _ _) (onlyCounts_bump _ _ _ _), ?_, ?_, ?_⟩
    · exact keepsBut_trans (keepsBut_bump s (by decide) _ _) (keepsBut_bump _ (by decide) _ _)
    · rw [rd_bump_other _ _ _ _ _ _ (framesBytes _ _), rd_bump_wraps _ _ _ _ rfl]
      rfl
    · rw [rd_bump_wraps _ _ _ _ rfl, rd_bump_other _ _ _ _ _ _ (bytesFrames _ _)]
      rfl
  unfold unitCounted
  split
  · obtain ⟨only, regs, frames, bytes⟩ := two
    refine ⟨onlyCounts_trans only (onlyCounts_bump _ _ _ _), ?_, ?_, ?_⟩
    · exact keepsBut_trans regs (keepsBut_bump _ (by decide) _ _)
    · rw [rd_bump_other _ _ _ _ _ _ (overs (g := R.VE_FRAMES) (by decide) _ _)]
      exact frames
    · rw [rd_bump_other _ _ _ _ _ _ (overs (g := R.VE_BYTES) (by decide) _ _)]
      exact bytes
  · exact two

end

section
variable {s : State} {k : Fin 4} {r : EncReq} {j : EncJob} {unit : List Byte}

theorem writeBlockOut_eq : writeBlockOut s k r j unit = checkId (release (unitStored s k r j unit) j.frame.frame) r.id := by
  have put := touched_putPayload (k := k) (r := r) (at_ := r.bytes) (bs := blockOf j (jobHdr s j) unit) s
  have time : elapsedW (putPayload s k r r.bytes (blockOf j (jobHdr s j) unit)) = elapsedW s := by
    rw [put.only]
    rfl
  have places := samePlaces_of_regs put.regs (by decide)
  have once : writeBlockOut s k r j unit =
      let u := putPayload s k r r.bytes (blockOf j (jobHdr s j) unit)
      let x := encodedReq r j.frame (jobHdr s j) unit.length (elapsedW u)
      checkId (release (encoderFreed (unitCounted (modReq (putHeaders k x (encCapacity u x) (usedBuffers u x) u) r.id (fun _ => x)) k
        (capExceeded x) unit.length) k) j.frame.frame) r.id := rfl
  rw [once]
  dsimp only
  rw [time, capacity_of_places places, used_of_places places]
  rfl

theorem touched_blockStored : Touched s (blockStored s k r j unit) := touched_trans (touched_putPayload s) (touched_putHeaders _)

theorem used_le (h : r.bytes + 16 + unit.length ≤ r.buffers.length * encCapacity s r) :
    usedBuffers s (reqAfter s r j unit.length) ≤ r.buffers.length := ceilDiv_le h

/-- The request's unit of `n` bytes is stored and counted, and the encoder idle. -/
structure Stored (k : Fin 4) (r x : EncReq) (n : Nat) (s t : State) : Prop where
  only : t = { s with
    encReqs := (modReq s r.id (fun _ => x)).encReqs, ves := s.ves.set k none, veWait := s.veWait.set k none
    mem := t.mem, regs := t.regs, ecc := t.ecc, dramChs := t.dramChs, writeback := t.writeback, logQ := t.logQ
    logLost := t.logLost, freeCtr := t.freeCtr }
  regs : KeepsBut (countFields ++ accessFields) s t
  frames : rd t R.VE_FRAMES k.val = (rd s R.VE_FRAMES k.val + 1) % 2 ^ 32
  bytes : rd t R.VE_BYTES k.val = (rd s R.VE_BYTES k.val + (16 + n)) % 2 ^ 32

theorem mem_unitStored : (unitStored s k r j unit).mem = (blockStored s k r j unit).mem := by
  have counted := (unitCounted_holds (modReq (blockStored s k r j unit) r.id (fun _ => reqAfter s r j unit.length)) k
    (capExceeded (reqAfter s r j unit.length)) unit.length).only
  unfold OnlyCounts at counted
  unfold unitStored encoderFreed
  rw [counted]
  rfl

theorem stored_unitStored : Stored k r (reqAfter s r j unit.length) unit.length s (unitStored s k r j unit) := by
  obtain ⟨put, access⟩ := touched_blockStored (s := s) (k := k) (r := r) (j := j) (unit := unit)
  obtain ⟨only, regs, frames, bytes⟩ := unitCounted_holds (modReq (blockStored s k r j unit) r.id (fun _ => reqAfter s r j unit.length)) k
    (capExceeded (reqAfter s r j unit.length)) unit.length
  unfold OnlyCounts at only
  unfold unitStored
  generalize unitCounted _ _ _ _ = u at only regs frames bytes ⊢
  generalize blockStored s k r j unit = v at put access only regs frames bytes
  refine ⟨?_, ?_, ?_, ?_⟩
  · unfold encoderFreed
    rw [only, put]
    rfl
  · refine keepsBut_trans (t := v) (keepsBut_mono (fun _ => List.mem_append_right _) access) ?_
    exact keepsBut_mono (l := countFields) (fun _ => List.mem_append_left _) regs
  · rw [← access R.VE_FRAMES k.val (by decide)]
    exact frames
  · rw [← access R.VE_BYTES k.val (by decide)]
    exact bytes

theorem settled_writeBlockOut : Settled (unitStored s k r j unit) (writeBlockOut s k r j unit) := by
  rw [writeBlockOut_eq]
  exact settled_trans (settled_of_pooled (pooled_release _ _)) (settled_checkId _ _)

theorem places_unitStored : SamePlaces s (unitStored s k r j unit) :=
  samePlaces_of_regs stored_unitStored.regs (by decide)

/-! ### What writing a block does -/

theorem writeBlockOut_frees : (writeBlockOut s k r j unit).ves = s.ves.set k none ∧
    (writeBlockOut s k r j unit).veWait = s.veWait.set k none ∧ (writeBlockOut s k r j unit).cores = s.cores ∧
    now (writeBlockOut s k r j unit) = now s := by
  obtain ⟨settled, kept, -⟩ := settled_writeBlockOut (s := s) (k := k) (r := r) (j := j) (unit := unit)
  obtain ⟨stored, regs, -, -⟩ := stored_unitStored (s := s) (k := k) (r := r) (j := j) (unit := unit)
  refine ⟨?_, ?_, ?_, ?_⟩
  · rw [settled, stored]
  · rw [settled, stored]
  · rw [settled, stored]
  · exact (kept R.GLB_TIMESTAMP_NS 0 (by decide)).trans (regs R.GLB_TIMESTAMP_NS 0 (by decide))

theorem writeBlockOut_counts :
    rd (writeBlockOut s k r j unit) R.VE_FRAMES k.val = (rd s R.VE_FRAMES k.val + 1) % 2 ^ 32 ∧
    rd (writeBlockOut s k r j unit) R.VE_BYTES k.val = (rd s R.VE_BYTES k.val + (16 + unit.length)) % 2 ^ 32 := by
  obtain ⟨-, kept, -⟩ := settled_writeBlockOut (s := s) (k := k) (r := r) (j := j) (unit := unit)
  obtain ⟨-, -, frames, bytes⟩ := stored_unitStored (s := s) (k := k) (r := r) (j := j) (unit := unit)
  exact ⟨(kept R.VE_FRAMES k.val (by decide)).trans frames, (kept R.VE_BYTES k.val (by decide)).trans bytes⟩

/-- Away from the pools' own memory, what was stored stays. -/
theorem byteAt_writeBlockOut {z : Nat} (hz : Apart s z) :
    byteAt (writeBlockOut s k r j unit) z = byteAt (blockStored s k r j unit) z := by
  rw [settled_writeBlockOut.bytes z (places_unitStored.apart.mpr hz), byteAt, mem_unitStored]
  rfl

end

section
variable {s : State} {k : Fin 4} {r : EncReq} {j : EncJob} {unit : List Byte}
  (hfit : r.bytes + 16 + unit.length ≤ r.buffers.length * encCapacity s r)
include hfit

/-- A chain with room for the block has buffers larger than their headers. -/
theorem poolSize_of_room : 0 < encCapacity s r ∧ poolSize s (encPool r.cfg) = 64 + encCapacity s r := by
  have pos : 0 < encCapacity s r := Nat.pos_of_ne_zero fun h => by
    rw [h, Nat.mul_zero] at hfit
    omega
  refine ⟨pos, ?_⟩
  unfold encCapacity at pos ⊢
  omega

theorem byteAt_writeBlockOut_outside {z : Nat} (hz : Apart s z) (ho : OutsideBuffers r (poolSize s (encPool r.cfg)) z) :
    byteAt (writeBlockOut s k r j unit) z = byteAt s z := by
  obtain ⟨-, size⟩ := poolSize_of_room hfit
  rw [size] at ho
  rw [byteAt_writeBlockOut hz]
  refine (byteAt_putHeaders_outside (fun i hi => ?_) _).trans (byteAt_putPayload_outside rfl ho)
  have away := outside_bufAt ho (Nat.lt_of_lt_of_le hi (used_le hfit))
  exact away.imp id fun h => by
    change bufAt r i + 64 ≤ z
    omega

theorem byteAt_writeBlockOut_block (hd : BuffersApart r (poolSize s (encPool r.cfg))) {i : Nat} (hi : i < 16 + unit.length)
    (hz : Apart s (bufAt r ((r.bytes + i) / encCapacity s r) + 64 + (r.bytes + i) % encCapacity s r)) :
    byteAt (writeBlockOut s k r j unit) (bufAt r ((r.bytes + i) / encCapacity s r) + 64 + (r.bytes + i) % encCapacity s r) =
      (blockOf j (jobHdr s j) unit).getD i 0 := by
  obtain ⟨pos, size⟩ := poolSize_of_room hfit
  rw [size] at hd
  have inside : (r.bytes + i) / encCapacity s r < r.buffers.length := by
    rw [Nat.div_lt_iff_lt_mul pos]
    omega
  have low := Nat.mod_lt (r.bytes + i) pos
  rw [byteAt_writeBlockOut hz]
  refine (byteAt_putHeaders_outside (fun m hm => ?_) _).trans
    (byteAt_putPayload rfl (by rw [blockOf_length, ← Nat.add_assoc]; exact hfit) hd (by rwa [blockOf_length]))
  change _ < bufAt r m ∨ bufAt r m + 64 ≤ _
  by_cases h : m = (r.bytes + i) / encCapacity s r
  · rw [h]
    omega
  · have := bufAt_apart hd inside (Nat.lt_of_lt_of_le hm (used_le hfit)) h
    omega

theorem peekNat_writeBlockOut_header (hd : BuffersApart r (poolSize s (encPool r.cfg))) {m : Nat}
    (hm : m * encCapacity s r < r.bytes + 16 + unit.length) (hz : ∀ i, i < 64 → Apart s (bufAt r m + i)) :
    peekNat (writeBlockOut s k r j unit) (bufAt r m) 8 = bufAt r (m + 1) ∧
      peekNat (writeBlockOut s k r j unit) (bufAt r m + 8) 4 =
        min (encCapacity s r) (r.bytes + 16 + unit.length - m * encCapacity s r) % 2 ^ 32 ∧
      peekNat (writeBlockOut s k r j unit) (bufAt r m + 12) 4 = r.tag.toNat := by
  obtain ⟨pos, size⟩ := poolSize_of_room hfit
  rw [size] at hd
  have headers : ∀ i, i < 64 → byteAt (writeBlockOut s k r j unit) (bufAt r m + i) =
      (bufHeader (reqAfter s r j unit.length) (encCapacity s r) m).getD i 0 := fun i hi => by
    have used : m < usedBuffers s (reqAfter s r j unit.length) := (lt_ceilDiv pos).mpr hm
    rw [byteAt_writeBlockOut (hz i hi)]
    exact byteAt_putHeaders (r := reqAfter s r j unit.length) hd (used_le (r := r) hfit) used hi _
  obtain ⟨next, length, tag⟩ := bufHeader_fields (reqAfter s r j unit.length) (encCapacity s r) m
  refine ⟨(peekNat_eq_fieldOf fun i hi => ?_).trans next, (peekNat_eq_fieldOf fun i hi => ?_).trans length,
    (peekNat_eq_fieldOf fun i hi => ?_).trans tag⟩
  · rw [headers i (by omega), Nat.zero_add]
  · rw [Nat.add_assoc, headers (8 + i) (by omega)]
  · rw [Nat.add_assoc, headers (12 + i) (by omega)]

end

section
variable {s : State} {k : Fin 4} {r : EncReq} {j : EncJob} {unit : List Byte}

/-- The state in which the job's frame is released has the request with the frame encoded, and the queues as they were. -/
theorem reqs_released (hr : reqOf s r.id = some r) :
    reqOf (release (unitStored s k r j unit) j.frame.frame) r.id = some (reqAfter s r j unit.length) ∧
      (release (unitStored s k r j unit) j.frame.frame).encReqs.filter (fun y => y.id != r.id) = s.encReqs.filter (fun y => y.id != r.id) ∧
      (release (unitStored s k r j unit) j.frame.frame).mqs = s.mqs := by
  have stays : ∀ x : EncReq, x.id = r.id → (reqAfter s r j unit.length).id = r.id := fun _ _ => rfl
  obtain ⟨released, -, -⟩ := pooled_release (unitStored s k r j unit) j.frame.frame
  obtain ⟨stored, -, -, -⟩ := stored_unitStored (s := s) (k := k) (r := r) (j := j) (unit := unit)
  have reqs : (release (unitStored s k r j unit) j.frame.frame).encReqs =
      (modReq s r.id (fun _ => reqAfter s r j unit.length)).encReqs := by
    rw [released, stored]
  refine ⟨?_, ?_, ?_⟩
  · rw [reqOf_congr reqs, reqOf_modReq s stays, hr]
    rfl
  · rw [reqs]
    exact others_modReq s stays
  · rw [released, stored]

/-- The request whose range has passed ends with its last frame. -/
theorem writeBlockOut_passed (hr : reqOf s r.id = some r) (hf : r.frames = []) (hp : rangePassed r = true) :
    (writeBlockOut s k r j unit).encReqs = s.encReqs.filter (fun y => y.id != r.id) ∧
      Clipped s r (if r.encoded + 1 = r.count then 0 else 1) (writeBlockOut s k r j unit) := by
  obtain ⟨found, others, queues⟩ := reqs_released (k := k) (j := j) (unit := unit) hr
  rw [writeBlockOut_eq, checkId_passed found hf rfl hp]
  obtain ⟨only, -, -, clip⟩ := ended_endRequest (release (unitStored s k r j unit) j.frame.frame) (reqAfter s r j unit.length)
    (status := if r.encoded + 1 = r.count then 0 else 1) (by split <;> decide)
  unfold Clipped at clip ⊢
  rw [queues] at clip
  refine ⟨?_, clip⟩
  refine Eq.trans ?_ others
  exact congrArg State.encReqs only

/-- The request with frames left goes on. -/
theorem writeBlockOut_goesOn (hr : reqOf s r.id = some r) (hf : r.frames ≠ []) :
    reqOf (writeBlockOut s k r j unit) r.id = some (reqAfter s r j unit.length) := by
  obtain ⟨found, -, -⟩ := reqs_released (k := k) (j := j) (unit := unit) hr
  rw [writeBlockOut_eq, checkId_frames found hf]
  exact found

end

end Sys2Proof.Encoding

/-! ## A frame has been coded (R111 to R116) -/

namespace Sys2Proof.Encoding

open Sys2Proof.Machine Sys2Proof.Laws Sys2Proof.HostAccess Sys2Proof.Traffic Sys2Proof.Frames

/-! ### Coding -/

/-- A frame has been read and coded: no byte has changed, and no request. -/
structure Coding (s t : State) : Prop where
  only : t = { s with
    regs := t.regs, ecc := t.ecc, dramChs := t.dramChs, writeback := t.writeback, logQ := t.logQ, logLost := t.logLost
    freeCtr := t.freeCtr, hiddenCe := t.hiddenCe, clock := t.clock, cores := t.cores, pools := t.pools }
  regs : KeepsBut (timeFields ++ accessFields) s t
  pools : ∀ p : Fin 8, t.pools[p].waiting = s.pools[p].waiting ∧ t.pools[p].ready = s.pools[p].ready

theorem coding_refl (s : State) : Coding s s := ⟨rfl, fun _ _ _ => rfl, fun _ => ⟨rfl, rfl⟩⟩

theorem coding_trans {s t u : State} (h : Coding s t) (h' : Coding t u) : Coding s u := by
  obtain ⟨ht, hk, hp⟩ := h
  obtain ⟨hu, hk', hp'⟩ := h'
  refine ⟨?_, keepsBut_trans hk hk', fun p => ⟨(hp' p).1.trans (hp p).1, (hp' p).2.trans (hp p).2⟩⟩
  rw [hu, ht]

theorem coding_of_passed {s t : State} (h : Passed s t) : Coding s t := by
  obtain ⟨only, regs, pools⟩ := h
  refine ⟨?_, keepsBut_mono (fun _ => List.mem_append_left _) regs, pools⟩
  rw [only]

theorem coding_memRead (s : State) (req a n : Nat) : Coding s (memRead s req a n).s := by
  obtain ⟨only, -⟩ := checked_memRead s req a n
  refine ⟨?_, keepsBut_mono (fun _ => List.mem_append_right _) (accessed_memRead s req a n), fun p => ?_⟩
  · rw [only]
  · rw [only]
    exact ⟨rfl, rfl⟩

theorem coding_of_alike {s t : State} (h : Alike s t) : Coding s t := by
  have lost : ∀ f ∈ lostFields, f ∈ timeFields ++ accessFields := by simp [lostFields, accessFields]
  have regs : KeepsBut (timeFields ++ accessFields) s t := fun g i hg => rd_of_alike h (Streams.besides_mono lost hg) i
  obtain ⟨r, q, l, c, rfl, -⟩ := h
  exact ⟨rfl, regs, fun _ => ⟨rfl, rfl⟩⟩

theorem coding_codeFrame (s : State) (k : Fin 4) (r : EncReq) (j : EncJob) (bytes : Nat) (lens : List Nat) :
    Coding s (codeFrame s k r j bytes lens).1 := by
  have read : Coding s (pixelsRead s k j (frameShot s r j)) :=
    coding_trans (foldl_steps coding_refl (fun _ _ _ => coding_trans) (fun u l => coding_memRead u (12 + k.val) (64 * l) 64) s _)
      (coding_of_passed (passed_passUntil _ _))
  rw [codeFrame_eq]
  exact coding_trans read ⟨rfl, keepsBut_of_regs _ rfl rfl, fun _ => ⟨rfl, rfl⟩⟩

/-- The state in which a job's unit is there, with the unit. -/
def unitCoded (s : State) (k : Fin 4) (r : EncReq) (j : EncJob) (bytes : Nat) (lens : List Nat) : State × List Byte :=
  match j.coded with
  | some x => (s, x)
  | none => codeFrame s k r j bytes lens

section
variable {s : State} {k : Fin 4} {r : EncReq} {j : EncJob} (bytes : Nat) (lens : List Nat) (hj : s.ves[k] = some j)
  (hr : reqOf s j.req = some r)
include hj hr

/-- What a correction in the encoder's memories logs changes nothing of what is coded. -/
theorem frameDone_eq (hh : .encoder k ∉ s.hidden) : ∃ v, Coding s v ∧ Alike (unitCoded s k r j bytes lens).1 v ∧
    frameDone k bytes lens s = placeUnit v k j (unitCoded s k r j bytes lens).2 := by
  unfold frameDone unitCoded
  rw [hj]
  dsimp only
  rw [hr]
  cases hc : j.coded with
  | some unit => exact ⟨s, coding_refl s, alike_refl s, rfl⟩
  | none =>
    have read := alike_hiddenRead hh
    obtain ⟨alike, same⟩ := alike_codeFrame read k r j bytes lens
    refine ⟨_, coding_trans (coding_of_alike read) (coding_codeFrame (hiddenRead s (.encoder k)).1 k r j bytes lens), alike, ?_⟩
    rw [← same]

end

section
variable {s v : State} (h : Coding s v)
include h

theorem places_of_coding : SamePlaces s v := samePlaces_of_regs h.regs (by decide)

theorem mem_of_coding : v.mem = s.mem := by rw [h.only]

theorem reqOf_of_coding (id : Nat) : reqOf v id = reqOf s id := reqOf_congr (by rw [h.only]) id

theorem byteAt_of_coding (z : Nat) : byteAt v z = byteAt s z := by
  unfold byteAt
  rw [mem_of_coding h]

theorem jobHdr_of_coding (j : EncJob) : jobHdr v j = jobHdr s j := by
  unfold jobHdr peek
  rw [mem_of_coding h]

end

/-! ### The unit of a coded frame is placed -/

/-- The request's chain holds the block of the unit, and its headers say so (R118). -/
def BlockInChain (s : State) (r : EncReq) (block : List Byte) (t : State) : Prop :=
  let cap := encCapacity s r
  (∀ i, i < block.length → Apart s (bufAt r ((r.bytes + i) / cap) + 64 + (r.bytes + i) % cap) →
    peek t (bufAt r ((r.bytes + i) / cap) + 64 + (r.bytes + i) % cap) 1 = [block.getD i 0]) ∧
  ∀ m, m * cap < r.bytes + block.length → (∀ i, i < 64 → Apart s (bufAt r m + i)) →
    peekNat t (bufAt r m) 8 = bufAt r (m + 1) ∧ peekNat t (bufAt r m + 8) 4 = min cap (r.bytes + block.length - m * cap) % 2 ^ 32 ∧
      peekNat t (bufAt r m + 12) 4 = r.tag.toNat

section
variable {s v : State} {k : Fin 4} {r : EncReq} {j : EncJob} {unit : List Byte} (h : Coding s v)
include h

theorem writeBlockOut_outside (hfit : r.bytes + 16 + unit.length ≤ r.buffers.length * encCapacity s r) {z : Nat} (hz : Apart s z)
    (ho : OutsideBuffers r (poolSize s (encPool r.cfg)) z) : peek (writeBlockOut v k r j unit) z 1 = peek s z 1 := by
  have places := places_of_coding h
  rw [← capacity_of_places places] at hfit
  rw [← places.size] at ho
  rw [peek_one, peek_one, byteAt_writeBlockOut_outside hfit (places.apart.mpr hz) ho, byteAt_of_coding h]

theorem writeBlockOut_chain (hfit : r.bytes + 16 + unit.length ≤ r.buffers.length * encCapacity s r)
    (hd : BuffersApart r (poolSize s (encPool r.cfg))) :
    BlockInChain s r (blockOf j (jobHdr s j) unit) (writeBlockOut v k r j unit) := by
  have places := places_of_coding h
  have capacity := capacity_of_places places r
  rw [← capacity] at hfit
  rw [← places.size] at hd
  unfold BlockInChain
  rw [← capacity, blockOf_length, ← jobHdr_of_coding h]
  refine ⟨fun i hi hz => ?_, fun m hm hz => ?_⟩
  · rw [peek_one, byteAt_writeBlockOut_block hfit hd hi (places.apart.mpr hz)]
  · rw [← Nat.add_assoc] at hm ⊢
    exact peekNat_writeBlockOut_header hfit hd hm fun i hi => places.apart.mpr (hz i hi)

/-- What the encoder's end of a frame does beside the chain. -/
theorem writeBlockOut_rest (hr : reqOf s j.req = some r) :
    let t := writeBlockOut v k r j unit
    t.ves = s.ves.set k none ∧ t.veWait = s.veWait.set k none ∧ t.cores = v.cores ∧ now t = now v ∧
      rd t R.VE_FRAMES k.val = (rd s R.VE_FRAMES k.val + 1) % 2 ^ 32 ∧
      rd t R.VE_BYTES k.val = (rd s R.VE_BYTES k.val + (16 + unit.length)) % 2 ^ 32 ∧
      (r.frames = [] → rangePassed r = true → t.encReqs = s.encReqs.filter (fun y => y.id != r.id) ∧
        Clipped s r (if r.encoded + 1 = r.count then 0 else 1) t) ∧
      (r.frames ≠ [] → reqOf t j.req = some (reqAfter v r j unit.length)) := by
  have id := id_of_reqOf hr
  have found : reqOf v r.id = some r := by
    rw [reqOf_of_coding h, id]
    exact hr
  obtain ⟨ves, veWait, cores, time⟩ := writeBlockOut_frees (s := v) (k := k) (r := r) (j := j) (unit := unit)
  obtain ⟨frames, bytes⟩ := writeBlockOut_counts (s := v) (k := k) (r := r) (j := j) (unit := unit)
  rw [h.regs R.VE_FRAMES k.val (by decide)] at frames
  rw [h.regs R.VE_BYTES k.val (by decide)] at bytes
  have same : v.ves = s.ves ∧ v.veWait = s.veWait ∧ v.encReqs = s.encReqs ∧ v.mqs = s.mqs := by
    rw [h.only]
    exact ⟨rfl, rfl, rfl, rfl⟩
  obtain ⟨sameVes, sameWait, sameReqs, sameMqs⟩ := same
  refine ⟨sameVes ▸ ves, sameWait ▸ veWait, cores, time, frames, bytes, fun hf hp => ?_, fun hf => ?_⟩
  · obtain ⟨gone, clip⟩ := writeBlockOut_passed (k := k) (j := j) (unit := unit) found hf hp
    unfold Clipped at clip ⊢
    rw [sameMqs] at clip
    exact ⟨sameReqs ▸ gone, clip⟩
  · rw [← id]
    exact writeBlockOut_goesOn found hf

end

section
variable {s : State} {k : Fin 4} {j : EncJob} {r : EncReq} {bytes : Nat} {lens : List Nat} (hj : s.ves[k] = some j)
  (hr : reqOf s j.req = some r) (hh : .encoder k ∉ s.hidden) (hg : s.veGot[k] = [])
include hj hr hh hg

/-- Where the request's buffers have room, the unit's block is written. -/
theorem frameDone_room (hfit : r.bytes + 16 + (unitCoded s k r j bytes lens).2.length ≤ r.buffers.length * encCapacity s r) :
    ∃ v, Coding s v ∧ Alike (unitCoded s k r j bytes lens).1 v ∧
      frameDone k bytes lens s = writeBlockOut v k r j (unitCoded s k r j bytes lens).2 := by
  obtain ⟨v, coding, alike, done⟩ := frameDone_eq bytes lens hj hr hh
  refine ⟨v, coding, alike, done.trans (placeUnit_room ?_ ?_ ?_)⟩
  · rw [coding.only]
    exact hg
  · rw [reqOf_of_coding coding]
    exact hr
  · rwa [capacity_of_places (places_of_coding coding)]

/-- Where they are full and the pool is empty, the encoder waits with its unit. -/
theorem frameDone_empty {p : Fin 8} (hp : p = encPool r.cfg)
    (hfull : r.buffers.length * encCapacity s r < r.bytes + 16 + (unitCoded s k r j bytes lens).2.length) (hw : encWaits s k = false)
    (hl : s.pools[p].ready = [] ∧ s.pools[p].waiting = []) :
    let t := frameDone k bytes lens s
    t.ves = s.ves.set k (some { j with coded := some (unitCoded s k r j bytes lens).2 }) ∧ t.encReqs = s.encReqs ∧
      encWaits t k = true ∧ t.veWait[k] ≠ none ∧ t.mem = s.mem := by
  obtain ⟨v, coding, -, done⟩ := frameDone_eq bytes lens hj hr hh
  have got : v.veGot[k] = [] := by
    rw [coding.only]
    exact hg
  have waits : encWaits v k = false := (encWaits_congr fun p => (coding.pools p).1).trans hw
  rw [← capacity_of_places (places_of_coding coding)] at hfull
  have placed := placeUnit_empty got ((reqOf_of_coding coding _).trans hr) hp hfull waits ((coding.pools p).2.trans hl.1)
    ((coding.pools p).1.trans hl.2)
  have same : v.ves = s.ves ∧ v.encReqs = s.encReqs := by
    rw [coding.only]
    exact ⟨rfl, rfl⟩
  dsimp only
  rw [done, placed, ← same.1, ← same.2, ← mem_of_coding coding]
  refine ⟨rfl, rfl, encWaits_waitingAt p j.live, ?_, rfl⟩
  simp [waitingAt]

end

end Sys2Proof.Encoding

/-! ## A request is accepted (R109, R110) -/

namespace Sys2Proof.Encoding

open Sys2Proof.Machine Sys2Proof.Laws Sys2Proof.HostAccess Sys2Proof.Traffic Sys2Proof.Sampling Sys2Proof.Entries

/-! ### A cached entry's own fields -/

theorem natOfBytes_take (k : Nat) (l : List Byte) : natOfBytes (l.take k) = natOfBytes l % 256 ^ k := by
  induction k generalizing l with
  | zero => simp [natOfBytes, Nat.mod_one]
  | succ k ih =>
    cases l with
    | nil => simp [natOfBytes]
    | cons b l =>
      have low : (b.toNat + 256 * natOfBytes l) % 256 = b.toNat := by
        have := b.isLt
        omega
      have high : (b.toNat + 256 * natOfBytes l) / 256 = natOfBytes l := by
        have := b.isLt
        omega
      rw [List.take_succ_cons, natOfBytes, natOfBytes, ih, Nat.pow_succ', Nat.mod_mul, low, high]

/-- The control word of a cached entry is that of its copy. -/
theorem ctlValid_cachedBytes (c : Ctx) : ctlValid (entryOfBytes (cachedBytes c)) = ctlValid c.entry := by
  have front : (cachedBytes c).take 1 = (bytesOf 256 c.entry.toNat).take 1 := by
    unfold cachedBytes putBytes
    rw [List.append_assoc, List.append_assoc, List.take_append_of_le_length (by simp), List.take_take]
    rfl
  have bits : ∀ e : BitVec 2048, ctlValid e = (e.toNat % 256 ^ 1).testBit 0 := fun e => by
    rw [show (256 : Nat) ^ 1 = 2 ^ 8 by norm_num, Nat.testBit_mod_two_pow]
    rfl
  have value : (entryOfBytes (cachedBytes c)).toNat = natOfBytes (cachedBytes c) := toNat_natOfBytes (by rw [cachedBytes_length])
  have copy : (entryOfBytes (bytesOf 256 c.entry.toNat)).toNat = natOfBytes (bytesOf 256 c.entry.toNat) :=
    toNat_natOfBytes (by rw [bytesOf_length])
  rw [entryOfBytes_bytesOf] at copy
  rw [bits, bits, value, ← natOfBytes_take, front, natOfBytes_take, ← copy]

/-- The bytes of a cached entry before FRAME_SEQ. -/
def seqFront (c : Ctx) : List Byte :=
  (bytesOf 256 c.entry.toNat).take 0x40 ++ List.replicate (0x40 - (bytesOf 256 c.entry.toNat).length) 0 ++
    (bytesOf 4 c.chunkCons.toNat ++ bytesOf 4 c.framesDecoded.toNat ++ bytesOf 4 c.framesConcealed.toNat ++
      bytesOf 4 c.framesAbandoned.toNat ++ bytesOf 4 c.posOffset.toNat ++ bytesOf 4 c.avgVcycles.toNat ++ bytesOf 8 c.lastGood.toNat)

/-- The bytes of a cached entry behind FRAME_SEQ. -/
def seqRest (c : Ctx) : List Byte :=
  bytesOf 4 (b2n c.resync + 2 * b2n c.drift + 4 * b2n c.error + 8 * b2n (c.lastGood != 0)) ++ bytesOf 4 c.bsErrors.toNat ++
    List.replicate 20 0 ++ (bytesOf 256 c.entry.toNat).drop (0x40 + (deviceFields c).length)

theorem seqFront_length (c : Ctx) : (seqFront c).length = 0x60 := by
  simp only [seqFront, List.length_append, List.length_take, List.length_replicate, bytesOf_length]
  decide

theorem cachedBytes_eq (c : Ctx) : cachedBytes c = seqFront c ++ (bytesOf 4 c.frameSeq.toNat ++ seqRest c) := by
  simp only [cachedBytes, putBytes, deviceFields, seqFront, seqRest, List.append_assoc]

/-- The entry's next sequence number is the device's. -/
theorem frameSeq_cachedBytes (c : Ctx) : entryField (entryOfBytes (cachedBytes c)) 0x60 4 = c.frameSeq.toNat := by
  have small := c.frameSeq.isLt
  rw [entryField_entryOfBytes (cachedBytes_length c), cachedBytes_eq, List.drop_left' (seqFront_length c),
    show (2 : Nat) ^ (8 * 4) = 256 ^ 4 from Nat.pow_mul 2 8 4, ← natOfBytes_take, List.take_left' (bytesOf_length _ _), natOfBytes_bytesOf]
  omega

/-! ### Reads of entries -/

/-- An entry has been read: a cached copy in error may have gone. -/
structure EntryRead (s t : State) : Prop where
  only : t = { s with
    streams := t.streams, hidden := t.hidden, hiddenCe := t.hiddenCe, regs := t.regs, ecc := t.ecc, dramChs := t.dramChs
    writeback := t.writeback, logQ := t.logQ, logLost := t.logLost, freeCtr := t.freeCtr }
  regs : KeepsBut accessFields s t

theorem entryRead_refl (s : State) : EntryRead s s := ⟨rfl, fun _ _ _ => rfl⟩

theorem entryRead_trans {s t u : State} (h : EntryRead s t) (h' : EntryRead t u) : EntryRead s u := by
  obtain ⟨ht, hk⟩ := h
  obtain ⟨hu, hk'⟩ := h'
  refine ⟨?_, keepsBut_trans hk hk'⟩
  rw [hu, ht]

theorem entryRead_of_regs {s t : State} (only : t = { s with streams := t.streams, hidden := t.hidden, hiddenCe := t.hiddenCe }) :
    EntryRead s t := by
  have fuses : t.fuses = s.fuses := by rw [only]
  have regs : t.regs = s.regs := by rw [only]
  refine ⟨?_, keepsBut_of_regs _ fuses regs⟩
  rw [only]

theorem entryRead_memRead (s : State) (req a n : Nat) : EntryRead s (memRead s req a n).s := by
  refine ⟨?_, accessed_memRead s req a n⟩
  rw [(checked_memRead s req a n).1]

theorem entryRead_logIt (s : State) (p : Fin 3) (cls detail sev unit arg0 arg1 : Nat) :
    EntryRead s (logIt s p cls detail sev unit arg0 arg1) := by
  refine ⟨?_, accessed_logIt s _ _ _ _ _ _ _⟩
  rw [(checked_logIt s p cls detail sev unit arg0 arg1).1]

theorem entryRead_hiddenRead (s : State) (m : HiddenMem) : EntryRead s (hiddenRead s m).1 := by
  unfold hiddenRead
  split
  · exact entryRead_trans (t := { s with hidden := s.hidden.filter (fun x => x != m) }) (entryRead_of_regs rfl)
      (entryRead_logIt _ _ _ _ _ _ _ _)
  · split
    · exact entryRead_trans (t := { s with hiddenCe := s.hiddenCe.filter (fun x => x != m) }) (entryRead_of_regs rfl)
        (entryRead_logIt _ _ _ _ _ _ _ _)
    · exact entryRead_refl s

theorem entryRead_ctxUnreadable (s : State) (n : Fin 1024) (detail : Nat) : EntryRead s (ctxUnreadable s n detail) :=
  entryRead_trans (t := modStream s n (fun x => { x with ctx := none, readyAt := none, unread := true })) (entryRead_of_regs rfl)
    (entryRead_logIt _ _ _ _ _ _ _ _)

theorem entryRead_ctxCopyRead (s : State) (n : Fin 1024) : EntryRead s (ctxCopyRead s n).1 := by
  have read := entryRead_hiddenRead s (.ctx n)
  unfold ctxCopyRead
  split
  · exact entryRead_refl s
  · dsimp only
    split
    · exact entryRead_trans read (entryRead_ctxUnreadable _ n 5)
    · exact read

theorem entryRead_readCtx (s : State) (n : Fin 1024) : EntryRead s (readCtx s n).s := by
  unfold readCtx
  dsimp only
  split
  · exact entryRead_refl s
  · exact entryRead_memRead s _ _ _

theorem entryRead_encEntry (s : State) (n : Fin 1024) : EntryRead s (encEntry s n).s := by
  have copy := entryRead_ctxCopyRead s n
  unfold encEntry
  dsimp only
  split
  · exact copy
  · split
    · exact copy
    · split
      · exact entryRead_trans copy (entryRead_readCtx _ n)
      · exact copy

theorem bytes_memRead (s : State) (req a n : Nat) : (memRead s req a n).bytes = peek s a n := by
  change peek (memRead s req a n).s a n = peek s a n
  unfold peek
  rw [mem_memRead]

/-- The bytes that an entry is read as. -/
def entryBytes (s : State) (n : Fin 1024) : List Byte :=
  match (streamOf s n).ctx with
  | some c => if s.hidden.contains (.ctx n) then [] else cachedBytes c
  | none => if n.val < ctxCount s ∧ ctxAddr s n + 256 ≤ rd s R.DRC_WINDOW 0 then peek s (ctxAddr s n) 256 else []

theorem bytes_readCtx (s : State) (n : Fin 1024) :
    (readCtx s n).bytes = if ctxAddr s n + 256 ≤ rd s R.DRC_WINDOW 0 then peek s (ctxAddr s n) 256 else [] := by
  unfold readCtx
  dsimp only
  by_cases h : ctxAddr s n + 256 ≤ rd s R.DRC_WINDOW 0
  · rw [if_neg (Nat.not_lt.mpr h), if_pos h]
    exact bytes_memRead s _ _ _
  · rw [if_pos (Nat.lt_of_not_le h), if_neg h]

theorem bytes_encEntry (s : State) (n : Fin 1024) : (encEntry s n).bytes = entryBytes s n := by
  unfold entryBytes
  cases hc : (streamOf s n).ctx with
  | none =>
    have copy : ctxCopyRead s n = (s, false) := by
      unfold ctxCopyRead
      rw [hc]
      rfl
    unfold encEntry
    rw [copy]
    simp only [Bool.false_eq_true, if_false, hc]
    by_cases h : n.val < ctxCount s
    · simp only [h, if_true, true_and]
      exact bytes_readCtx s n
    · simp only [h, if_false, false_and]
  | some c =>
    by_cases h : .ctx n ∈ s.hidden
    · have gone : (ctxCopyRead s n).2 = true := by
        unfold ctxCopyRead hiddenRead
        simp [hc, h]
      unfold encEntry
      simp [gone, h]
    · obtain ⟨u, -, eq⟩ := encEntry_cached hc h
      rw [eq]
      simp [h]

theorem entryBytes_congr {s t : State} (hs : t.streams = s.streams) (hh : t.hidden = s.hidden) (hm : t.mem = s.mem)
    (hr : ∀ f ∈ [R.VID_CTX_CFG_COUNT, R.VID_CTX_BASE_BASE, R.DRC_WINDOW], rd t f 0 = rd s f 0) (n : Fin 1024) :
    entryBytes t n = entryBytes s n := by
  simp only [List.forall_mem_cons] at hr
  obtain ⟨hcount, hbase, hwindow, -⟩ := hr
  unfold entryBytes ctxCount ctxAddr peek
  rw [Streams.streamOf_congr hs, hh, hm, hcount, hbase, hwindow]

/-! ### The ring's next request is read -/

/-- Where the ring's next request lies. -/
def ringAt (s : State) : Nat := rd s R.VE_REQ_BASE 0 * 32 + rd s R.VE_REQ_CONS 0 % 2 ^ rd s R.VE_REQ_LOG2 0 * 32

/-- The stream that a request names. -/
def ringStream (s : State) : Fin 1024 := Fin.ofNat 1024 (fieldOf (peek s (ringAt s) 32) 4 2)

/-- The ring holds a request that can be taken. -/
def Accepts (s : State) : Prop :=
  serving s = true ∧ rd s R.VE_REQ_EN 0 ≠ 0 ∧ rd s R.VE_REQ_PROD 0 ≠ rd s R.VE_REQ_CONS 0 ∧ s.encReqs.length < 64

/-- The state in which the ring's next request has been read. -/
def requestRead (s : State) : State := bump (beats s reqDma (ringAt s) 32 false) R.VE_REQ_CONS 0 1

/-- The request of the ring, as the entry of its stream makes it. -/
def ringRequest (s : State) : EncReq := parseReq s (peek s (ringAt s) 32) (entryOfBytes (encEntry s (ringStream s)).bytes)

theorem not_accepts_iff {s : State} : (!serving s || !rdb s R.VE_REQ_EN 0 || decide (rd s R.VE_REQ_PROD 0 = rd s R.VE_REQ_CONS 0) ||
    decide (s.encReqs.length ≥ 64)) = true ↔ ¬ Accepts s := by
  have enabled : rdb s R.VE_REQ_EN 0 = false ↔ ¬ rd s R.VE_REQ_EN 0 ≠ 0 := by rw [← rdb_iff, Bool.not_eq_true]
  have off : serving s = false ↔ ¬ serving s = true := by rw [Bool.not_eq_true]
  simp only [Bool.or_eq_true, Bool.not_eq_true', decide_eq_true_eq, enabled, off, Accepts, ge_iff_le, ← not_lt (b := 64)]
  tauto

theorem requestAccept_refused {s : State} (h : ¬ Accepts s) : requestAccept s = s :=
  if_pos (not_accepts_iff.mpr h)

section
variable {s : State}

/-- The ring's next request has been read: the ring and what reads count have moved on. -/
theorem requestRead_only : requestRead s =
    { s with regs := (requestRead s).regs, dramChs := (requestRead s).dramChs, freeCtr := (requestRead s).freeCtr } := by
  obtain ⟨counted, -⟩ := counted_beats s reqDma (ringAt s) 32 false
  unfold requestRead
  generalize beats s reqDma (ringAt s) 32 false = u at counted
  have moved := onlyCounts_bump u R.VE_REQ_CONS 0 1
  unfold OnlyCounts at moved
  rw [moved, counted]

theorem requestRead_regs : KeepsBut (R.VE_REQ_CONS :: accessFields) s (requestRead s) := by
  have beats : ∀ f ∈ beatFields, f ∈ R.VE_REQ_CONS :: accessFields := fun f hf => List.mem_cons_of_mem _ (List.mem_append_right _ hf)
  exact keepsBut_trans (keepsBut_mono beats (counted_beats s reqDma (ringAt s) 32 false).2) (keepsBut_bump _ List.mem_cons_self _ _)

theorem requestRead_cons : rd (requestRead s) R.VE_REQ_CONS 0 = (rd s R.VE_REQ_CONS 0 + 1) % 2 ^ 32 := by
  unfold requestRead
  rw [rd_bump_wraps _ _ _ _ rfl, (counted_beats s reqDma (ringAt s) 32 false).2 R.VE_REQ_CONS 0 (by decide)]
  rfl

/-- A request reads the same where no more than what reads count has changed. -/
theorem parseReq_congr {t : State} (ho : t.order = s.order) (hc : t.clock = s.clock) (bs : List Byte) (e : BitVec 2048) :
    parseReq t bs e = parseReq s bs e := by
  unfold parseReq elapsedW elapsed
  rw [ho, hc]

theorem requestAccept_eq (ha : Accepts s) (hb : badWords s (ringAt s) 32 = []) :
    requestAccept s = startRequest (encEntry (requestRead s) (ringStream s)).s (ringRequest s)
      (encEntry (requestRead s) (ringStream s)).detail
      ((encEntry (requestRead s) (ringStream s)).detail = 0 && ctlValid (entryOfBytes (encEntry s (ringStream s)).bytes)) := by
  have only := requestRead_only (s := s)
  have read := entryRead_encEntry (requestRead s) (ringStream s)
  have bytes : (encEntry (requestRead s) (ringStream s)).bytes = (encEntry s (ringStream s)).bytes := by
    rw [bytes_encEntry, bytes_encEntry]
    refine entryBytes_congr (by rw [only]) (by rw [only]) (by rw [only]) (fun f hf => requestRead_regs f 0 ?_) _
    revert f
    decide
  have request : parseReq (encEntry (requestRead s) (ringStream s)).s (peek s (ringAt s) 32)
      (entryOfBytes (encEntry s (ringStream s)).bytes) = ringRequest s := by
    refine parseReq_congr ?_ ?_ _ _
    · rw [read.only, only]
    · rw [read.only, only]
  have go := fun h => not_accepts_iff.mp h ha
  rw [← request, ← bytes]
  unfold requestAccept
  refine (if_neg go).trans ?_
  have clean : memRead s reqDma (rd s R.VE_REQ_BASE 0 * 32 + rd s R.VE_REQ_CONS 0 % 2 ^ rd s R.VE_REQ_LOG2 0 * 32) 32 =
    { s := beats s reqDma (ringAt s) 32 false, bytes := peek s (ringAt s) 32, poison := false } := memRead_clean reqDma hb
  dsimp only
  rw [clean]
  rfl

/-- The number of a request that comes is free. -/
theorem filter_fresh {id : Nat} (h : ∀ y ∈ s.encReqs, y.id < id) : s.encReqs.filter (fun y => y.id != id) = s.encReqs := by
  refine List.filter_eq_self.mpr fun y hy => ?_
  have := h y hy
  simp only [bne_iff_ne, ne_eq]
  omega

theorem reqOf_append_fresh {r : EncReq} (h : ∀ y ∈ s.encReqs, y.id < r.id) :
    reqOf { s with encReqs := s.encReqs ++ [r] } r.id = some r := by
  have old : s.encReqs.find? (fun y => y.id == r.id) = none := List.find?_eq_none.mpr fun y hy => by
    have := h y hy
    simp only [beq_iff_eq]
    omega
  unfold reqOf
  rw [List.find?_append, old]
  simp

/-- From stage 1 on a request is answered and dropped. -/
theorem startRequest_shed {r : EncReq} (hs : 1 ≤ stage s) (detail : Nat) (valid : Bool) :
    startRequest s r detail valid = endRequest { s with order := s.order + 1 } r 2 := if_pos hs

/-- A request of a stream without pre-roll that has passed its checks joins the requests. -/
theorem startRequest_taken {r : EncReq} (hs : stage s = 0) (hok : reqOk s r = true) (hp : (streamOf s r.stream).preroll = [])
    (hf : r.frames = []) (hb : r.busy = false) (hr : rangePassed r = false) (hc : r.streamClosed = false)
    (hid : ∀ y ∈ s.encReqs, y.id < r.id) :
    startRequest s r 0 true = { s with order := s.order + 1, encReqs := s.encReqs ++ [r] } := by
  have preroll : takePreroll { s with order := s.order + 1, encReqs := s.encReqs ++ [r] } r =
      { s with order := s.order + 1, encReqs := s.encReqs ++ [r] } := by
    have none : (streamOf { s with order := s.order + 1, encReqs := s.encReqs ++ [r] } r.stream).preroll = [] := hp
    unfold takePreroll
    rw [none]
    rfl
  have found : reqOf { s with order := s.order + 1, encReqs := s.encReqs ++ [r] } r.id = some r := reqOf_append_fresh hid
  have okay : reqOk { s with order := s.order + 1 } r = true := hok
  have early : ¬ stage { s with order := s.order + 1 } ≥ 1 := by
    change ¬ stage s ≥ 1
    omega
  unfold startRequest
  dsimp only
  rw [if_neg early, if_neg (by decide), if_neg (by decide), if_neg (by rw [okay]; decide), preroll]
  unfold checkId checkRequest
  rw [found]
  simp [hf, hb, hr, hc]

end

end Sys2Proof.Encoding

/-! ## Requests are accepted, served and dropped (R109 to R117) -/

namespace Sys2Proof.Encoding

open Sys2Proof.Machine Sys2Proof.Laws Sys2Proof.HostAccess Sys2Proof.Traffic Sys2Proof.Sampling

/-! ### What becomes of the ring's request -/

section
variable {s : State} (ha : Accepts s) (hb : badWords s (ringAt s) 32 = []) (hid : ∀ y ∈ s.encReqs, y.id < s.order)
include ha hb hid

/-- A request whose fields pass is accepted. -/
theorem requestAccept_taken {ctx : Ctx} (hc : (streamOf s (ringStream s)).ctx = some ctx) (hv : ctlValid ctx.entry = true)
    (hs : stage s = 0) (hp : (streamOf s (ringStream s)).preroll = []) (hh : .ctx (ringStream s) ∉ s.hidden)
    (hok : reqOk s (ringRequest s) = true) (hr : rangePassed (ringRequest s) = false) :
    let t := requestAccept s
    t.encReqs = s.encReqs ++ [ringRequest s] ∧ t.order = s.order + 1 ∧ rd t R.VE_REQ_CONS 0 = (rd s R.VE_REQ_CONS 0 + 1) % 2 ^ 32 ∧
      t.mem = s.mem ∧ t.cores = s.cores ∧ t.ves = s.ves ∧ t.streams = s.streams ∧ (ringRequest s).next = ctx.frameSeq := by
  have only := requestRead_only (s := s)
  obtain ⟨x, -, bytes⟩ := encEntry_cached hc hh
  have same : (requestRead s).streams = s.streams ∧ (requestRead s).hidden = s.hidden := by
    rw [only]
    exact ⟨rfl, rfl⟩
  obtain ⟨w, ⟨seen, kept⟩, fetched⟩ := encEntry_cached (s := requestRead s) (n := ringStream s) (c := ctx)
    (by rw [Streams.streamOf_congr same.1]; exact hc) (by rw [same.2]; exact hh)
  have regs : ∀ f ∈ [R.GLB_SVC_STATE_SHED_STAGE, R.BPM_POOL_CFG_HOLD_EN, R.VE_REQ_CONS], ∀ i, rd w f i = rd (requestRead s) f i := by
    intro f hf i
    refine kept f i ?_
    revert f
    decide
  simp only [List.forall_mem_cons] at regs
  obtain ⟨hstage, hhold, hcons, -⟩ := regs
  have early : stage w = 0 := ((hstage 0).trans (requestRead_regs _ _ (by decide))).trans hs
  have okay : reqOk w (ringRequest s) = true := by
    rw [← hok]
    unfold reqOk poolHolds rdb
    rw [hhold, requestRead_regs R.BPM_POOL_CFG_HOLD_EN _ (by decide)]
  have streams : w.streams = s.streams := by rw [seen, only]
  have reqs : w.encReqs = s.encReqs := by rw [seen, only]
  have rest : w.order = s.order ∧ w.mem = s.mem ∧ w.cores = s.cores ∧ w.ves = s.ves := by
    rw [seen, only]
    exact ⟨rfl, rfl, rfl, rfl⟩
  obtain ⟨order, mem, cores, ves⟩ := rest
  have taken := startRequest_taken (s := w) (r := ringRequest s) early okay
    (by rw [Streams.streamOf_congr streams]; exact hp) rfl rfl hr rfl (by rw [reqs]; exact hid)
  have eq : requestAccept s = { w with order := w.order + 1, encReqs := w.encReqs ++ [ringRequest s] } := by
    rw [requestAccept_eq ha hb, fetched, bytes, ctlValid_cachedBytes, hv]
    exact taken
  dsimp only
  rw [eq]
  refine ⟨congrArg (· ++ [ringRequest s]) reqs, congrArg (· + 1) order, (hcons 0).trans requestRead_cons, mem, cores, ves, streams, ?_⟩
  have next : (ringRequest s).next = BitVec.ofNat 32 (entryField (entryOfBytes (encEntry s (ringStream s)).bytes) 0x60 4) := rfl
  rw [next, bytes, frameSeq_cachedBytes, BitVec.ofNat_toNat, BitVec.setWidth_eq]

/-- From stage 1 on the request is answered and dropped. -/
theorem requestAccept_shed (hs : 1 ≤ stage s) :
    let t := requestAccept s
    t.encReqs = s.encReqs ∧ rd t R.VE_REQ_CONS 0 = (rd s R.VE_REQ_CONS 0 + 1) % 2 ^ 32 ∧ t.cores = s.cores ∧ t.ves = s.ves ∧
      Clipped s (ringRequest s) 2 t := by
  have only := requestRead_only (s := s)
  have read := entryRead_encEntry (requestRead s) (ringStream s)
  have eq := requestAccept_eq ha hb
  generalize (encEntry (requestRead s) (ringStream s)).s = w at read eq
  obtain ⟨fetched, kept⟩ := read
  have late : 1 ≤ stage w := by
    rw [show stage w = stage s from (kept _ _ (by decide)).trans (requestRead_regs _ _ (by decide))]
    exact hs
  rw [startRequest_shed late] at eq
  obtain ⟨ended, regs, -, clip⟩ := ended_endRequest { w with order := w.order + 1 } (ringRequest s) (status := 2) (by decide)
  have same : w.encReqs = s.encReqs ∧ w.mqs = s.mqs ∧ w.cores = s.cores ∧ w.ves = s.ves := by
    rw [fetched, only]
    exact ⟨rfl, rfl, rfl, rfl⟩
  obtain ⟨reqs, queues, cores, ves⟩ := same
  dsimp only
  rw [eq]
  refine ⟨?_, ?_, ?_, ?_, ?_⟩
  · rw [ended]
    exact (filter_fresh (s := w) (id := (ringRequest s).id) (by rw [reqs]; exact hid)).trans reqs
  · exact ((regs R.VE_REQ_CONS 0 (by decide)).trans (kept R.VE_REQ_CONS 0 (by decide))).trans requestRead_cons
  · rw [ended]
    exact cores
  · rw [ended]
    exact ves
  · unfold Clipped at clip ⊢
    rw [← queues]
    exact clip

end

end Sys2Proof.Encoding

/-! ## An encoder takes a frame, or gives up (R110, R115, R116) -/

namespace Sys2Proof.Encoding

open Sys2Proof.Machine Sys2Proof.Laws Sys2Proof.HostAccess Sys2Proof.Traffic

/-! ### The request that is served -/

theorem nextRequest_spec {s : State} {r : EncReq} (h : nextRequest s = some r) : r ∈ s.encReqs ∧ hasFrame r = true ∧
    (reqLive s r = false → ∀ y ∈ s.encReqs, hasFrame y = true → reqLive s y = false) := by
  unfold nextRequest at h
  cases hl : s.encReqs.find? (fun r => hasFrame r && reqLive s r) with
  | some x =>
    rw [hl] at h
    obtain rfl : x = r := Option.some.inj h
    have found := List.find?_some (p := fun r => hasFrame r && reqLive s r) hl
    rw [Bool.and_eq_true] at found
    obtain ⟨ready, live⟩ := found
    exact ⟨List.mem_of_find?_eq_some hl, ready, fun hn => by rw [live] at hn; cases hn⟩
  | none =>
    rw [hl] at h
    have found : s.encReqs.find? hasFrame = some r := h
    refine ⟨List.mem_of_find?_eq_some found, List.find?_some found, fun _ y hy hf => ?_⟩
    have other := List.find?_eq_none.mp hl y hy
    simpa [hf] using other

section
variable {s : State} {k : Fin 4} {r : EncReq} {f : EncFrame} {rest : List EncFrame}

/-- The frame's header has been read. -/
def headerRead (s : State) (k : Fin 4) (f : EncFrame) : State := beats s (12 + k.val) f.frame.toNat 64 false

theorem headerRead_only : headerRead s k f =
    { s with regs := (headerRead s k f).regs, dramChs := (headerRead s k f).dramChs, freeCtr := (headerRead s k f).freeCtr } :=
  (counted_beats s (12 + k.val) f.frame.toNat 64 false).1

theorem frameStart_eq (hs : serving s = true) (hu : veUsable s k = true) (he : rd s R.VE_CTL_EN k.val ≠ 0) (hi : s.ves[k] = none)
    (hst : stage s = 0) (hn : nextRequest s = some r) (hf : r.frames = f :: rest) (hb : badWords s f.frame.toNat 64 = []) :
    frameStart k s = if encScaleOk (encShot r (parseFrame (peek s f.frame.toNat 64)) f.frame.toNat) then
      takeFrame (headerRead s k f) k r f rest else endRequest (headerRead s k f) r 6 := by
  have idle : s.ves[k].isSome = false := by rw [hi]; rfl
  have go : ¬ (!serving s || !veUsable s k || !rdb s R.VE_CTL_EN k.val || s.ves[k].isSome || decide (stage s ≥ 1)) = true := by
    rw [hs, hu, (Entries.rdb_iff s _ _).mpr he, idle, hst]
    decide
  unfold frameStart
  refine (if_neg go).trans ?_
  rw [hn]
  dsimp only
  rw [hf]
  dsimp only
  rw [memRead_clean _ hb]
  dsimp only
  by_cases h : encScaleOk (encShot r (parseFrame (peek s f.frame.toNat 64)) f.frame.toNat) = true
  · rw [if_pos h, if_neg (by rw [h]; decide)]
    rfl
  · rw [if_neg h, if_pos (by rw [Bool.not_eq_true] at h; rw [h]; rfl)]
    rfl

/-- An idle encoder has taken a frame. -/
theorem takeFrame_spec : let t := takeFrame (headerRead s k f) k r f rest
    t.ves = s.ves.set k (some { req := r.id, stream := r.stream, live := reqLive s r, frame := f, startAt := elapsedW s, coded := none }) ∧
      t.veWait = s.veWait.set k none ∧ t.mem = s.mem ∧ t.cores = s.cores ∧ t.streams = s.streams ∧
      t.encReqs = s.encReqs.map (fun y => if y.id = r.id then
        { y with frames := rest, busy := true, servedLive := y.servedLive || reqLive s r } else y) := by
  have only := headerRead_only (s := s) (k := k) (f := f)
  generalize headerRead s k f = u at only
  have live : reqLive u r = reqLive s r := by
    rw [only]
    rfl
  have noted : ∃ x, (if reqLive u r then
      raiseTo u R.VE_LIVE_WAIT_MAX 0 (vCycles (elapsed u - r.readyAt.toNat)) else u) = { u with regs := x } := by
    split
    · exact ⟨_, rfl⟩
    · exact ⟨u.regs, rfl⟩
  obtain ⟨x, noted⟩ := noted
  unfold takeFrame
  dsimp only
  rw [noted, live, only]
  exact ⟨rfl, rfl, rfl, rfl, rfl, rfl⟩

end

/-! ### Requests that are dropped -/

/-- The request is gone, and decoders and shapers are as they were. -/
def Dropped (s : State) (r : EncReq) (t : State) : Prop :=
  t.encReqs = s.encReqs.filter (fun y => y.id != r.id) ∧ t.vds = s.vds ∧ t.shs = s.shs

theorem elapsedW_of_clock {s t : State} (h : t.clock = s.clock) : elapsedW t = elapsedW s := by
  unfold elapsedW elapsed
  rw [h]

/-- A request ends in a state whose other requests, queues, decoders and shapers are those of `s`. -/
theorem endRequest_drops {s u : State} {r : EncReq} {status : Nat} (h : status < 256)
    (reqs : u.encReqs.filter (fun y => y.id != r.id) = s.encReqs.filter (fun y => y.id != r.id)) (queues : u.mqs = s.mqs)
    (vds : u.vds = s.vds) (shs : u.shs = s.shs) :
    Dropped s r (endRequest u r status) ∧ Clipped s r status (endRequest u r status) ∧ (endRequest u r status).ves = u.ves ∧
      (endRequest u r status).veWait = u.veWait ∧ (endRequest u r status).cores = u.cores ∧
      (endRequest u r status).clock = u.clock := by
  obtain ⟨ended, -, -, clip⟩ := ended_endRequest u r h
  unfold Clipped at clip ⊢
  rw [queues] at clip
  refine ⟨⟨?_, ?_, ?_⟩, clip, ?_, ?_, ?_, ?_⟩ <;> rw [ended]
  · exact reqs
  · exact vds
  · exact shs

/-- A frame that cannot be scaled ends its request. -/
theorem frameStart_unscaled {s : State} {k : Fin 4} {r : EncReq} {f : EncFrame} :
    Dropped s r (endRequest (headerRead s k f) r 6) ∧ Clipped s r 6 (endRequest (headerRead s k f) r 6) ∧
      (endRequest (headerRead s k f) r 6).ves = s.ves ∧ (endRequest (headerRead s k f) r 6).cores = s.cores := by
  have only := headerRead_only (s := s) (k := k) (f := f)
  generalize headerRead s k f = u at only
  have same : u.encReqs = s.encReqs ∧ u.mqs = s.mqs ∧ u.vds = s.vds ∧ u.shs = s.shs ∧ u.ves = s.ves ∧ u.cores = s.cores := by
    rw [only]
    exact ⟨rfl, rfl, rfl, rfl, rfl, rfl⟩
  obtain ⟨reqs, queues, vds, shs, ves, cores⟩ := same
  obtain ⟨dropped, clip, sameVes, -, sameCores, -⟩ := endRequest_drops (r := r) (status := 6) (by decide) (by rw [reqs]) queues vds shs
  exact ⟨dropped, clip, sameVes.trans ves, sameCores.trans cores⟩

theorem waitTimeout_eq {s : State} {slot : Nat} {r : EncReq} (h : s.encReqs[slot]? = some r) (hf : r.frames = []) (hb : r.busy = false) :
    waitTimeout slot s = endRequest (passUntil s (r.lastArrival.toNat + r.waitMs * 1000000)) r 5 := by
  have waits : (r.frames.isEmpty && !r.busy) = true := by
    rw [hf, hb]
    rfl
  unfold waitTimeout
  rw [h]
  exact if_pos waits

/-- A request that ends after time has passed. -/
theorem endRequest_passed {s u : State} {r : EncReq} {status : Nat} (h : status < 256) (hu : Passed s u) :
    Dropped s r (endRequest u r status) ∧ Clipped s r status (endRequest u r status) ∧ (endRequest u r status).ves = s.ves ∧
      elapsedW (endRequest u r status) = elapsedW u := by
  obtain ⟨only, -, -⟩ := hu
  have same : u.encReqs = s.encReqs ∧ u.mqs = s.mqs ∧ u.vds = s.vds ∧ u.shs = s.shs ∧ u.ves = s.ves := by
    rw [only]
    exact ⟨rfl, rfl, rfl, rfl, rfl⟩
  obtain ⟨reqs, queues, vds, shs, ves⟩ := same
  obtain ⟨dropped, clip, sameVes, -, -, clock⟩ := endRequest_drops (r := r) h (by rw [reqs]) queues vds shs
  exact ⟨dropped, clip, sameVes.trans ves, elapsedW_of_clock clock⟩

end Sys2Proof.Encoding

/-! ## A wait for an output buffer runs out (R116) -/

namespace Sys2Proof.Encoding

open Sys2Proof.Machine Sys2Proof.Laws Sys2Proof.HostAccess Sys2Proof.Traffic Sys2Proof.Dispatch

/-! ### Grants and those that wait -/

theorem waiting_modPool_same (s : State) (p : Fin 8) (f : Pool → Pool) : (modPool s p f).pools[p].waiting = (f s.pools[p]).waiting :=
  congrArg Pool.waiting (Vector.getElem_set_self p.isLt)

theorem waiting_modPool_other {s : State} {p q : Fin 8} (f : Pool → Pool) (h : q ≠ p) :
    (modPool s p f).pools[q].waiting = s.pools[q].waiting :=
  congrArg Pool.waiting (Vector.getElem_set_ne p.isLt q.isLt fun e => h (Fin.ext e.symm))

theorem waiting_modPool {s : State} {p : Fin 8} {f : Pool → Pool} (h : (f s.pools[p]).waiting = s.pools[p].waiting) (q : Fin 8) :
    (modPool s p f).pools[q].waiting = s.pools[q].waiting := by
  by_cases e : q = p
  · rw [e, waiting_modPool_same, h]
  · exact waiting_modPool_other f e

/-- A buffer may have been granted: those that wait are as they were. -/
structure Lent (s t : State) : Prop where
  only : t = { s with
    mem := t.mem, regs := t.regs, ecc := t.ecc, dramChs := t.dramChs, writeback := t.writeback, logQ := t.logQ
    logLost := t.logLost, freeCtr := t.freeCtr, pools := t.pools, allocOut := t.allocOut, pba := t.pba }
  waiting : ∀ q : Fin 8, t.pools[q].waiting = s.pools[q].waiting

theorem lent_refl (s : State) : Lent s s := ⟨rfl, fun _ => rfl⟩

theorem lent_trans {s t u : State} (h : Lent s t) (h' : Lent t u) : Lent s u := by
  obtain ⟨ht, hw⟩ := h
  obtain ⟨hu, hw'⟩ := h'
  refine ⟨?_, fun q => (hw' q).trans (hw q)⟩
  rw [hu, ht]

theorem lent_ite {s t u : State} (c : Prop) [Decidable c] (h : Lent s t) (h' : Lent s u) : Lent s (if c then t else u) :=
  iteInduction (fun _ => h) (fun _ => h')

theorem lent_of_touched {s t : State} (h : Touched s t) : Lent s t := by
  obtain ⟨only, -⟩ := h
  refine ⟨by rw [only], fun q => ?_⟩
  rw [only]

theorem lent_modPool {s : State} {p : Fin 8} {f : Pool → Pool} (h : (f s.pools[p]).waiting = s.pools[p].waiting) :
    Lent s (modPool s p f) := ⟨rfl, waiting_modPool h⟩

theorem lent_wr (s : State) (f : RegField) (i v : Nat) : Lent s (wr s f i v) := ⟨rfl, fun _ => rfl⟩

theorem lent_bump (s : State) (f : RegField) (i n : Nat) : Lent s (bump s f i n) := by
  refine ⟨?_, fun q => by rw [bump_pools]⟩
  rcases bump_cases s f i n with ⟨v, h⟩ | ⟨v, h⟩ <;> rw [h] <;> rfl

theorem lent_setFree (s : State) (p : Fin 8) (n : Nat) : Lent s (setFree s p n) := by
  have logged : ∀ (u : State) (a b c d e f : Nat), Lent u (logIt u planeData a b c d e f) := fun u a b c d e f =>
    lent_of_touched (touched_of_checked (checked_logIt u planeData a b c d e f) (accessed_logIt u _ _ _ _ _ _ _))
  have levelled : ∀ u, Lent u (updateLevel u p) := fun u => by
    have entered := lent_trans (lent_wr u R.BPM_POOL_STATUS_LEVEL p.val (nextLevel u p))
      (logged _ 0x41 (0x10 + nextLevel u p) (if nextLevel u p = 0 then 0 else 2) 45 p.val 0)
    have raised : ∀ (x : State) (v : Nat), Lent x (raiseVector x v) := fun x v => ⟨rfl, fun _ => rfl⟩
    unfold updateLevel
    exact lent_ite _ (lent_refl u) (lent_ite _ (lent_trans entered (raised _ _)) entered)
  exact lent_trans (lent_wr s _ _ _) (lent_trans (lent_wr _ _ _ _) (levelled _))

theorem lent_grant (s : State) (p : Fin 8) (live : Bool) : Lent s (grant s p live) := by
  have out : ∀ (u : State) (a : Addr), Lent u { u with allocOut := a } := fun u a => ⟨rfl, fun _ => rfl⟩
  have noted : ∀ u : State, Lent u (if live then u else modPool u p (fun x => { x with lastOther := some u.clock.cyc })) := fun u =>
    lent_ite _ (lent_refl u) (lent_modPool rfl)
  have held : ∀ (u : State) (a : Nat), Lent u (if poolHolds u p then memWrite u reqBpm a [1] false else u) := fun u a =>
    lent_ite _ (lent_of_touched (touched_memWrite u _ _ _ _)) (lent_refl u)
  have handed : ∀ (u : State) (n : Nat) (a : Addr), Lent u (notePool { setFree u p n with allocOut := a } p) := fun u n a =>
    lent_trans (lent_setFree u p n) (lent_trans (out _ a) (lent_modPool rfl))
  unfold grant
  split
  · exact out s 0
  next i rest _ =>
    refine lent_trans (t := setReady s p rest) (lent_trans (lent_modPool rfl) (lent_wr _ _ _ _)) ?_
    refine lent_trans (noted _) ?_
    exact lent_trans (held _ (bufAddr s p i + 3)) (lent_trans (lent_bump _ R.BPM_POOL_ALLOCS p.val 1) (handed _ _ _))

/-- A pool with an empty ready list serves nobody. -/
theorem serveWaiting_empty {s : State} {p : Fin 8} (h : s.pools[p].ready = []) : serveWaiting s p = notePool s p := by
  have still : (notePool s p).pools[p].ready = [] := by
    rw [((passed_notePool s p).pools p).2, h]
  have one : serveOne (notePool s p) p = notePool s p := by
    have nobody : (notePool s p).pools[p].waiting.findIdx? (fun w => canAlloc (notePool s p) p w.live) = none :=
      List.findIdx?_eq_none_iff.mpr fun w _ => canAlloc_empty still w.live
    unfold serveOne
    rw [nobody]
  unfold serveWaiting
  induction List.range s.pools[p].waiting.length with
  | nil => rfl
  | cons a l ih => rw [List.foldl_cons, one, ih]

/-- A pool that can grant the one that waits hands its buffer over. -/
theorem serveWaiting_one {s : State} {p : Fin 8} {k : Fin 4} {w : PoolWait} (h : s.pools[p].waiting = [w]) (hu : w.user = .encoder k)
    (hc : canAlloc (notePool s p) p w.live = true) :
    ∃ t, Lent (modPool (notePool s p) p (fun x => { x with waiting := x.waiting.eraseIdx 0 })) t ∧
      serveWaiting s p = { t with veGot := t.veGot.set k (t.veGot[k] ++ [t.allocOut]) } := by
  have still : (notePool s p).pools[p].waiting = [w] := by rw [((passed_notePool s p).pools p).1, h]
  refine ⟨_, lent_grant _ p w.live, ?_⟩
  have first : (notePool s p).pools[p].waiting.findIdx? (fun w => canAlloc (notePool s p) p w.live) = some 0 := by
    rw [still]
    simp [List.findIdx?_cons, hc]
  have one : serveOne (notePool s p) p = deliver (grant (modPool (notePool s p) p (fun x => { x with waiting := x.waiting.eraseIdx 0 })) p w.live)
      (.encoder k) := by
    unfold serveOne
    rw [first, still, ← hu]
    rfl
  unfold serveWaiting
  rw [h]
  exact one

/-! ### The encoder gives up, or gets its buffer -/

section
variable {s : State} {k : Fin 4} {j : EncJob} {r : EncReq} {since : W64}

/-- The encoder has given up its frame: what was granted to it stays with the request. -/
theorem dropEncode_spec (hj : s.ves[k] = some j) (hr : reqOf s j.req = some r) :
    reqOf (dropEncode s k) j.req = some { r with buffers := r.buffers ++ s.veGot[k] } ∧
      (dropEncode s k).encReqs.filter (fun y => y.id != r.id) = s.encReqs.filter (fun y => y.id != r.id) ∧
      (dropEncode s k).ves = s.ves.set k none ∧ (dropEncode s k).veWait = s.veWait.set k none ∧ (dropEncode s k).mqs = s.mqs ∧
      (dropEncode s k).vds = s.vds ∧ (dropEncode s k).shs = s.shs ∧ (dropEncode s k).clock = s.clock := by
  have id := id_of_reqOf hr
  have eq : dropEncode s k = release (encoderFreed (collectGot (leavePools s (.encoder k)) k j.req) k) j.frame.frame := by
    unfold dropEncode
    rw [hj]
    rfl
  have stays : ∀ x : EncReq, x.id = j.req → ({ x with buffers := x.buffers ++ s.veGot[k] } : EncReq).id = j.req := fun _ h => h
  obtain ⟨released, -, -⟩ := pooled_release (encoderFreed (collectGot (leavePools s (.encoder k)) k j.req) k) j.frame.frame
  rw [← eq] at released
  have reqs : (dropEncode s k).encReqs = (modReq s j.req (fun x => { x with buffers := x.buffers ++ s.veGot[k] })).encReqs := by
    rw [released]
    rfl
  refine ⟨?_, ?_, ?_, ?_, ?_, ?_, ?_, ?_⟩
  · rw [reqOf_congr reqs, reqOf_modReq s stays, hr]
    rfl
  · rw [reqs, id]
    exact others_modReq s stays
  all_goals
    rw [released]
    rfl

/-- The time for which the encoder waits is over. -/
def waitedOut (s : State) (since : W64) : State := passUntil s (since.toNat + rd s R.VE_OUT_WAIT 0 * 1000)

theorem passed_waitedOut (s : State) (since : W64) : Passed s (waitedOut s since) := passed_passUntil s _

theorem reqOf_waitedOut {id : Nat} (h : reqOf s id = some r) : reqOf (waitedOut s since) id = some r :=
  (reqOf_congr (by rw [(passed_waitedOut s since).only]) id).trans h

section
variable (hs : s.veWait[k] = some since) (hj : s.ves[k] = some j) (hr : reqOf s j.req = some r) (hw : encWaits s k = true)
include hs hj hr hw

/-- An encoder that still waits gives up. -/
theorem noBuffer_of_waits {x : EncReq} (h : encWaits (serveWaiting (waitedOut s since) (encPool r.cfg)) k = true)
    (hx : reqOf (dropEncode (serveWaiting (waitedOut s since) (encPool r.cfg)) k) j.req = some x) :
    noBuffer k s = endRequest (dropEncode (serveWaiting (waitedOut s since) (encPool r.cfg)) k) x 3 := by
  have found : reqOf (waitedOut s since) j.req = some r := reqOf_waitedOut hr
  unfold waitedOut at h hx found ⊢
  unfold noBuffer
  rw [hs, hj]
  simp only [hw, found, h, hx, Bool.not_true, Bool.false_eq_true, if_false]

/-- An encoder that no longer waits goes on. -/
theorem noBuffer_of_served (h : encWaits (serveWaiting (waitedOut s since) (encPool r.cfg)) k = false) :
    noBuffer k s = serveWaiting (waitedOut s since) (encPool r.cfg) := by
  have found : reqOf (waitedOut s since) j.req = some r := reqOf_waitedOut hr
  unfold waitedOut at h found ⊢
  unfold noBuffer
  rw [hs, hj]
  simp only [hw, found, h, Bool.not_true, Bool.not_false, Bool.false_eq_true, if_false, if_true]

/-- Where the pool has nothing to grant, the wait ends the request. -/
theorem noBuffer_empty (hl : s.pools[encPool r.cfg].ready = []) :
    Dropped s r (noBuffer k s) ∧ Clipped s r 3 (noBuffer k s) ∧ (noBuffer k s).ves = s.ves.set k none ∧
      (noBuffer k s).veWait = s.veWait.set k none ∧ elapsedW (noBuffer k s) = elapsedW (waitedOut s since) := by
  have passed := passed_waitedOut s since
  have served := serveWaiting_empty (((passed.pools (encPool r.cfg)).2).trans hl)
  obtain ⟨only, -, pools⟩ := passed_trans passed (passed_notePool (waitedOut s since) (encPool r.cfg))
  have eq := fun x => noBuffer_of_waits hs hj hr hw (x := x)
  have clock : (notePool (waitedOut s since) (encPool r.cfg)).clock = (waitedOut s since).clock := rfl
  have waits : encWaits (notePool (waitedOut s since) (encPool r.cfg)) k = true := (encWaits_congr fun p => (pools p).1).trans hw
  rw [served] at eq
  generalize notePool (waitedOut s since) (encPool r.cfg) = v at eq only waits clock
  have same : v.ves = s.ves ∧ v.veWait = s.veWait ∧ v.encReqs = s.encReqs ∧ v.mqs = s.mqs ∧ v.vds = s.vds ∧ v.shs = s.shs := by
    rw [only]
    exact ⟨rfl, rfl, rfl, rfl, rfl, rfl⟩
  obtain ⟨ves, veWait, reqs, queues, vds, shs⟩ := same
  obtain ⟨still, others, gone, unwaited, dropQueues, dropVds, dropShs, dropClock⟩ := dropEncode_spec (s := v) (k := k) (j := j) (r := r)
    (by rw [ves]; exact hj) ((reqOf_congr reqs _).trans hr)
  obtain ⟨dropped, clip, sameVes, sameWait, -, sameClock⟩ := endRequest_drops (s := s) (u := dropEncode v k)
    (r := { r with buffers := r.buffers ++ v.veGot[k] }) (status := 3) (by decide) (by rw [← reqs]; exact others)
    (dropQueues.trans queues) (dropVds.trans vds) (dropShs.trans shs)
  rw [eq _ waits still]
  refine ⟨dropped, clip, ?_, ?_, elapsedW_of_clock (sameClock.trans (dropClock.trans clock))⟩
  · rw [sameVes, gone, ves]
  · rw [sameWait, unwaited, veWait]

/-- Where the pool can grant after all, the encoder gets its buffer. -/
theorem noBuffer_granted {w : PoolWait} (hl : s.pools[encPool r.cfg].waiting = [w]) (hu : w.user = .encoder k)
    (hc : canAlloc (notePool (waitedOut s since) (encPool r.cfg)) (encPool r.cfg) w.live = true)
    (ho : ∀ p, p ≠ encPool r.cfg → s.pools[p].waiting = []) :
    (noBuffer k s).encReqs = s.encReqs ∧ (noBuffer k s).ves = s.ves ∧ encWaits (noBuffer k s) k = false ∧
      ∃ a, (noBuffer k s).veGot[k] = s.veGot[k] ++ [a] ∧ elapsedW (noBuffer k s) = elapsedW (waitedOut s since) := by
  have passed := passed_waitedOut s since
  obtain ⟨only, -, pools⟩ := passed_trans passed (passed_notePool (waitedOut s since) (encPool r.cfg))
  have time : (notePool (waitedOut s since) (encPool r.cfg)).clock = (waitedOut s since).clock := rfl
  obtain ⟨t, lent, served⟩ := serveWaiting_one (((passed.pools _).1).trans hl) hu hc
  generalize notePool (waitedOut s since) (encPool r.cfg) = v at lent only pools time
  have none : ∀ q : Fin 8, t.pools[q].waiting = [] := fun q => by
    rw [lent.waiting q]
    by_cases e : q = encPool r.cfg
    · rw [e, waiting_modPool_same, (pools _).1, hl]
      rfl
    · rw [waiting_modPool_other _ e, (pools q).1, ho q e]
  have done : encWaits (serveWaiting (waitedOut s since) (encPool r.cfg)) k = false := by
    have nobody : encWaits t k = false := Bool.eq_false_iff.mpr fun h => by
      obtain ⟨q, x, hx, -⟩ := encWaits_iff.mp h
      rw [none q] at hx
      cases hx
    rw [served]
    exact nobody
  have eq := noBuffer_of_served hs hj hr hw done
  obtain ⟨granted, -⟩ := lent
  have same : t.encReqs = s.encReqs ∧ t.ves = s.ves ∧ t.veGot = s.veGot ∧ t.clock = (waitedOut s since).clock := by
    have noted : v.encReqs = s.encReqs ∧ v.ves = s.ves ∧ v.veGot = s.veGot := by
      rw [only]
      exact ⟨rfl, rfl, rfl⟩
    obtain ⟨reqs, ves, got⟩ := noted
    rw [granted]
    exact ⟨reqs, ves, got, time⟩
  obtain ⟨reqs, ves, got, clock⟩ := same
  refine ⟨?_, ?_, ?_, t.allocOut, ?_, ?_⟩
  · rw [eq, served]
    exact reqs
  · rw [eq, served]
    exact ves
  · rw [eq]
    exact done
  · rw [eq, served, ← got]
    exact Vector.getElem_set_self k.isLt
  · rw [eq, served]
    exact elapsedW_of_clock clock

end

end

end Sys2Proof.Encoding

/-! ## O37: encode requests and encoders -/

namespace Sys2Proof.Encoding

open Sys2Proof.Machine Sys2Proof.Laws Sys2Proof.HostAccess Sys2Proof.Traffic

/-! ### Commands of the host -/

theorem onlyRegs_wr (s : State) (f : RegField) (i v : Nat) : OnlyRegs s (wr s f i v) [regKey f i] :=
  ⟨rfl, regsKept_wr s v List.mem_cons_self⟩

theorem veReqProd_does {s : State} (h : planesRun s = true) (prod : BitVec 32) : Does (.veReqProd prod) s (fun t =>
    OnlyRegs s t [regKey R.VE_REQ_PROD 0] ∧ rd t R.VE_REQ_PROD 0 = prod.toNat) := by
  have small := prod.isLt
  refine ⟨wr s R.VE_REQ_PROD 0 prod.toNat, ?_, onlyRegs_wr s _ _ _, ?_⟩
  · exact congrArg Host.Outcome.next (if_pos h)
  · rw [rd_wr_same]
    exact Nat.mod_eq_of_lt small

theorem veDisable_does {s : State} (h : planesRun s = true) (k : Fin 4) : Does (.veDisable k) s (fun t =>
    OnlyRegs s t [regKey R.VE_CTL_EN k.val] ∧ rd t R.VE_CTL_EN k.val = 0) := by
  refine ⟨wrb s R.VE_CTL_EN k.val false, ?_, onlyRegs_wr s _ _ _, ?_⟩
  · exact congrArg Host.Outcome.next (if_pos h)
  · exact rd_wr_same s _ _ _

/-- While the planes do not run, the host's commands leave the state. -/
theorem host_commands_stopped {s : State} (h : planesRun s = false) (k : Fin 4) (prod : BitVec 32) :
    exec (.veReqProd prod) s = .next s ∧ exec (.veDisable k) s = .next s := by
  have off : ¬ planesRun s = true := by rw [h]; decide
  exact ⟨congrArg Host.Outcome.next (if_neg off), congrArg Host.Outcome.next (if_neg off)⟩

/-! ### The frame's end -/

/-- What is known of the request once its frame is encoded (R114, R118). -/
theorem reqAfter_fields {s v : State} (h : Coding s v) (r : EncReq) (j : EncJob) (n : Nat) :
    (reqAfter v r j n).timeLast = BitVec.ofNat 64 (jobHdr s j).time ∧
      (r.thumb = false → ((reqAfter v r j n).fill, (reqAfter v r j n).qp) = rateControl r.cfg r.fill r.qp (8 * n)
        (if r.encoded = 0 then 0 else (jobHdr s j).time - r.timeLast.toNat)) := by
  rw [← jobHdr_of_coding h]
  refine ⟨rfl, fun ht => ?_⟩
  unfold reqAfter encodedReq
  dsimp only
  rw [ht]
  rfl

section
variable {s : State} {k : Fin 4} {j : EncJob} {r : EncReq} {bytes : Nat} {params : List Nat} (hj : s.ves[k] = some j)
  (hr : reqOf s j.req = some r) (hh : .encoder k ∉ s.hidden) (hg : s.veGot[k] = [])
include hj hr hh hg

theorem encodeFrameDone_room
    (hfit : r.bytes + 16 + (unitCoded s k r j bytes params).2.length ≤ r.buffers.length * encCapacity s r) :
    Does (.encodeFrameDone k ⟨bytes, params⟩) s (fun t =>
      let c := unitCoded s k r j bytes params
      t.ves = s.ves.set k none ∧ t.veWait = s.veWait.set k none ∧ t.cores = c.1.cores ∧ now t = now c.1 ∧
      rd t R.VE_FRAMES k.val = (rd s R.VE_FRAMES k.val + 1) % 2 ^ 32 ∧
      rd t R.VE_BYTES k.val = (rd s R.VE_BYTES k.val + (16 + c.2.length)) % 2 ^ 32 ∧
      (∀ z, Apart s z → OutsideBuffers r (poolSize s (encPool r.cfg)) z → peek t z 1 = peek s z 1) ∧
      (BuffersApart r (poolSize s (encPool r.cfg)) → BlockInChain s r (blockOf j (jobHdr s j) c.2) t) ∧
      (r.frames = [] → rangePassed r = true → t.encReqs = s.encReqs.filter (fun y => y.id != r.id) ∧
        Clipped s r (if r.encoded + 1 = r.count then 0 else 1) t) ∧
      (r.frames ≠ [] → ∃ v, Coding s v ∧ reqOf t j.req = some (reqAfter v r j c.2.length))) := by
  obtain ⟨v, coding, alike, done⟩ := frameDone_room hj hr hh hg hfit
  obtain ⟨ves, veWait, cores, time, frames, counted, passed, goesOn⟩ :=
    writeBlockOut_rest (k := k) (unit := (unitCoded s k r j bytes params).2) coding hr
  refine ⟨_, congrArg Host.Outcome.next done, ves, veWait, cores.trans (cores_of_alike alike), time.trans ?_, frames, counted, ?_, ?_,
    passed, fun hf => ⟨v, coding, goesOn hf⟩⟩
  · exact rd_of_alike alike (f := R.GLB_TIMESTAMP_NS) (by decide) 0
  · exact fun z hz ho => writeBlockOut_outside coding hfit hz ho
  · exact writeBlockOut_chain coding hfit

end

/-! ### The obligation -/

/-- Settles O37: each command by the lemma on the function that it runs. A frame's end goes through what a block leaves in the
chain of buffers, whatever the pools write beside it and the log beside both. -/
theorem encodeRequests : Obligations.EncodeRequests := by
  unfold Obligations.EncodeRequests
  intro k s cons at_ bs n accepts dropped clip kept
  refine ⟨fun prod h => veReqProd_does h prod, fun prod h => host_commands_stopped h k prod,
    fun h => congrArg Host.Outcome.next (requestAccept_refused h), ?accepted, ?shed, fun r h => nextRequest_spec h, ?started, ?done,
    ?timeout, ?waited, fun h => veDisable_does h k⟩
  case accepted =>
    intro ctx ha hb hc hv hs hp hid hh e r hok hr
    obtain ⟨reqs, order, consumed, mem, cores, ves, streams, next⟩ := requestAccept_taken ha hb hid hc hv hs hp hh hok hr
    exact ⟨_, rfl, reqs, order, consumed, mem, cores, ves, streams, rfl, rfl, next⟩
  case shed =>
    intro ha hb hs hid
    exact ⟨_, rfl, requestAccept_shed ha hb hid hs⟩
  case started =>
    intro r f rest hs hu he hi hst hn hf hb shot
    have eq := frameStart_eq hs hu he hi hst hn hf hb
    refine ⟨fun hok => ?_, fun hno => ?_⟩
    · rw [if_pos hok] at eq
      exact ⟨_, congrArg Host.Outcome.next eq, takeFrame_spec⟩
    · rw [if_neg (by rw [hno]; decide)] at eq
      exact ⟨_, congrArg Host.Outcome.next eq, frameStart_unscaled⟩
  case done =>
    intro j r bytes params hj hr hh hg done c n h cap block
    refine ⟨fun hfit => ?_, fun p hp hfull hw hl => ?_⟩
    · obtain ⟨t, ht, ves, veWait, cores, time, frames, counted, outside, chain, passed, goesOn⟩ :=
        encodeFrameDone_room (bytes := bytes) (params := params) hj hr hh hg hfit
      refine ⟨t, ht, ves, veWait, cores, time, frames, counted, outside, fun hd => ?_, passed, fun hf => ?_⟩
      · obtain ⟨stored, headers⟩ := chain hd
        rw [blockOf_length] at stored headers
        rw [← Nat.add_assoc] at headers
        exact ⟨stored, headers⟩
      · obtain ⟨v, coding, found⟩ := goesOn hf
        obtain ⟨last, rate⟩ := reqAfter_fields coding r j c.2.length
        exact ⟨_, found, rfl, rfl, rfl, rfl, rfl, rfl, last, rate⟩
    · exact ⟨_, rfl, frameDone_empty (bytes := bytes) (lens := params) hj hr hh hg hp hfull hw hl⟩
  case timeout =>
    intro slot r hr hf hb
    exact ⟨_, congrArg Host.Outcome.next (waitTimeout_eq hr hf hb), endRequest_passed (by decide) (passed_passUntil s _)⟩
  case waited =>
    intro j r since hs hj hr hw u
    exact ⟨fun hl => ⟨_, rfl, noBuffer_empty hs hj hr hw hl⟩,
      fun w hl hu hc ho => ⟨_, rfl, noBuffer_granted hs hj hr hw hl hu hc ho⟩⟩

end Sys2Proof.Encoding

/-! ## O26: a group close with a wrong tag (R133, R140, R163)

The statement has the fault arise in the state before the close. The arrays work in the c-cycle of a close, whatever comes of it,
so the model also notes that c-cycle as the last in which they did (`noteBusy`). -/

namespace Sys2Proof.Closes

open Sys2Proof.Machine Sys2Proof.Tests

/-- The last close of a tile, in bank G0. -/
def lastClose : PendingClose := { tile := 0, group := 0, bank := false, last := true }

/-- The instruction at that close, which has been taken off its list. -/
def closing : TRun := freshRun tmm [true]

/-- The close is due, one c-cycle after the arrays last worked, and its weight block carries tag 0 where 5 is expected. -/
def strayTag : State :=
  let s := exRun fun _ => { closing with closes := [lastClose] }
  { s with clock := { s.clock with cyc := 1 } }

theorem busyAt_groupClose_strayTag : (groupClose 0 strayTag).cores[(0 : Fin 16)].busyAt = 1 := by decide +kernel

theorem busyAt_fault_strayTag :
    (tensorFault strayTag 0 .scaleSyncFault { arr := 0 } closing 0).cores[(0 : Fin 16)].busyAt = 0 := by decide +kernel

/-- Refutes O26: the close notes its c-cycle and then faults, where the statement's fault leaves the c-cycle of the last work as it
was. -/
theorem not_groupsAndEpilogues : ¬ Obligations.GroupsAndEpilogues := by
  unfold Obligations.GroupsAndEpilogues
  rintro ⟨close, -⟩
  have faults := ((close 0 { closing with closes := [lastClose] } lastClose [] strayTag rfl rfl).2 fun _ => ⟨rfl, rfl⟩).1 0 (by decide)
    (by decide +kernel) fun a ha => absurd ha (Nat.not_lt_zero a)
  have same : groupClose 0 strayTag = tensorFault strayTag 0 .scaleSyncFault { arr := 0 } closing 0 := Host.Outcome.next.inj faults
  have busy := busyAt_groupClose_strayTag
  rw [same, busyAt_fault_strayTag] at busy
  exact absurd busy (by decide)

end Sys2Proof.Closes

/-! ## O28: a resume inside a tensor instruction (R148, R227, R276)

A resumed instruction reads its mask again. One with MASK = 0 has no byte of it to read, and 0 is added to the count of bag beats,
modulo its 32 bits. The statement speaks of every state, also of one whose count is above 32 bits (`wr` leaves none so), and
lists the count of bag beats nowhere among the registers that a resume changes. -/

namespace Sys2Proof.Checkpoints

open Sys2Proof.Machine Sys2Proof.Tests

/-- What is held of a job that was stopped in a tensor instruction. -/
def heldInRun : HeldJob := { holdOf (exCkpt id) 0 job with insns := [(.tqk, tq)], started := true }

/-- Core 0 holds that job and may resume it, and its bag's count of beats is above 32 bits. -/
def overfull : State :=
  let s := modCore exHeld 0 (fun c => { c with held := some heldInRun })
  { s with regs := storeSet 0 s.regs (regKey R.BAG_BEATS_RD 0) (2 ^ 32) }

theorem rd_overfull : rd overfull R.BAG_BEATS_RD 0 = 2 ^ 32 := by decide +kernel

theorem rd_checkpointRestore_overfull : rd (checkpointRestore 0 overfull) R.BAG_BEATS_RD 0 = 0 := by decide +kernel

/-- Refutes O28: the resume of a tensor instruction takes an overfull count of bag beats modulo its width, and the statement has it
as it was. -/
theorem not_stopsAndCheckpoints : ¬ Obligations.StopsAndCheckpoints := by
  unfold Obligations.StopsAndCheckpoints
  rintro ⟨-, -, restore⟩
  have resumes := (restore 0 heldInRun overfull rfl (by decide +kernel) (by decide +kernel) (by decide +kernel) (by decide +kernel)).2
    (by decide +kernel) (by decide +kernel) (by decide)
  obtain ⟨t, answer, -, -, kept, -⟩ := resumes
  obtain rfl : checkpointRestore 0 overfull = t := Host.Outcome.next.inj answer
  have count := kept R.BAG_BEATS_RD 0 (by decide)
  rw [rd_overfull, rd_checkpointRestore_overfull] at count
  exact absurd count (by decide)

end Sys2Proof.Checkpoints

/-! ## O25: how a tensor instruction starts and ends, and its reduction steps (R124 to R134, R157 to R164, R226) -/

namespace Sys2Proof.TensorRuns

open Sys2Proof.Machine Sys2Proof.Laws Sys2Proof.HostAccess Sys2Proof.Traffic Sys2Proof.Waits Sys2Proof.Encoding

/-! ### Counting and reading operands -/

/-- Counters, a free value they may have drawn, and cores: nothing else has changed, and of the registers only the given ones. -/
structure Sequenced (keys : List Nat) (s t : State) : Prop where
  only : t = { s with cores := t.cores, regs := t.regs, freeCtr := t.freeCtr }
  regs : RegsKept s t keys

theorem sequenced_trans {keys : List Nat} {s t u : State} (h : Sequenced keys s t) (h' : Sequenced keys t u) :
    Sequenced keys s u := by
  obtain ⟨ht, hk⟩ := h
  obtain ⟨hu, hk'⟩ := h'
  exact ⟨by rw [hu, ht], regsKept_trans hk hk'⟩

theorem sequenced_mono {keys more : List Nat} {s t : State} (h : Sequenced keys s t) (hm : keys ⊆ more) : Sequenced more s t :=
  ⟨h.only, regsKept_mono h.regs hm⟩

theorem sequenced_refl (keys : List Nat) (s : State) : Sequenced keys s s := ⟨rfl, regsKept_of_regs _ rfl rfl⟩

theorem sequenced_modCore (keys : List Nat) (s : State) (n : Fin 16) (f : Core → Core) : Sequenced keys s (modCore s n f) :=
  ⟨rfl, regsKept_of_regs _ rfl rfl⟩

section
variable {keys : List Nat} (s : State) {f : RegField} {i : Nat} (hf : regKey f i ∈ keys) (v : Nat)
include hf

theorem sequenced_wr : Sequenced keys s (wr s f i v) := ⟨rfl, regsKept_wr s v hf⟩

theorem sequenced_bump : Sequenced keys s (bump s f i v) := by
  refine ⟨?_, regsKept_bump s v hf⟩
  rcases bump_cases s f i v with ⟨w, h⟩ | ⟨w, h⟩ <;> rw [h] <;> rfl

end

theorem sequenced_countLines {keys : List Nat} {n : Fin 16} (h : readBeatKeys n ⊆ keys) (s : State) (rs : List Span) :
    Sequenced keys s (countLines s n rs) :=
  sequenced_trans (sequenced_bump s (h List.mem_cons_self) _) (sequenced_bump _ (h (List.mem_cons_of_mem _ List.mem_cons_self)) _)

@[simp] theorem countLines_cores (s : State) (n : Fin 16) (rs : List Span) : (countLines s n rs).cores = s.cores := by
  simp [countLines]

@[simp] theorem countLines_ecc (s : State) (n : Fin 16) (rs : List Span) : (countLines s n rs).ecc = s.ecc := by
  simp [countLines]

/-- A read that meets no error only counts its lines. -/
theorem operandRead_clean {s : State} {n : Fin 16} {rs : List Span} (h : cleanSpans s rs) :
    operandRead s n rs = (countLines s n rs, false) := by
  have none : (countLines s n rs).ecc.filter (fun x => rs.any fun r => spanMeets r (x.1, 8)) = [] := by
    rw [countLines_ecc, List.filter_eq_nil_iff]
    intro x hx
    simpa using h x hx
  simp only [operandRead, none, List.foldl_nil, List.any_nil]

/-! ### The next valid tile -/

section
variable (c : Core) (r : TRun) (t : Nat)

/-- A search for a valid tile goes forward, stays within the tiles, and passes no valid one. -/
theorem nextValid_spec (ht : t ≤ totalTiles c r.e) :
    t ≤ nextValid c r t ∧ ∀ u, t ≤ u → u < nextValid c r t → tileValid c r u = false := by
  unfold nextValid
  dsimp only
  cases found : (List.range (totalTiles c r.e)).find? (fun u => t ≤ u && tileValid c r u) with
  | none =>
    refine ⟨ht, fun u hu hlt => ?_⟩
    have := List.find?_eq_none.mp found u (List.mem_range.mpr hlt)
    simpa [hu] using this
  | some v =>
    obtain ⟨hv, -, before⟩ := List.find?_range_eq_some.mp found
    simp only [Bool.and_eq_true, decide_eq_true_eq] at hv
    refine ⟨hv.1, fun u hu hlt => ?_⟩
    simpa [hu] using before u hlt

/-- The search ends at once at a valid tile. -/
theorem nextValid_of_valid (ht : t < totalTiles c r.e) (hv : tileValid c r t = true) : nextValid c r t = t := by
  obtain ⟨forward, passed⟩ := nextValid_spec c r t ht.le
  by_contra hne
  have := passed t le_rfl (by omega)
  rw [hv] at this
  cases this

end

/-- The tiles that an instruction without a mask computes: all of them (R226). -/
def allValid (c : Core) (e : TEntry) : List Bool := List.replicate (e.BATCH * tilesM c e) true

theorem validList_of_no_mask (s : State) (c : Core) {e : TEntry} (h : e.insn.MASK = 0) : validList s c e = allValid c e := by
  have valid : ∀ b mt, mTileValid s c e b mt = true := fun b mt => by simp [mTileValid, h]
  simp [validList, allValid, valid, List.map_const']

/-- A run of valid tiles starts at tile 0. -/
theorem nextValid_fresh (c d : Core) (e : TEntry) (ht : totalTiles c e = totalTiles d e) :
    nextValid c (freshRun e (allValid d e)) 0 = 0 := by
  by_cases h : 0 < totalTiles c e
  · refine nextValid_of_valid c _ 0 h ?_
    have : 0 < e.BATCH * tilesM d e := by
      rw [ht, totalTiles] at h
      exact Nat.pos_of_mul_pos_right h
    simp [tileValid, freshRun, allValid, this]
  · have none : totalTiles c e = 0 := by omega
    simp [nextValid, freshRun, none]

/-! ### Cores after a change of one of them -/

@[simp] theorem modCore_core_same (s : State) (n : Fin 16) (f : Core → Core) : (modCore s n f).cores[n] = f s.cores[n] :=
  Vector.getElem_set_self n.isLt

theorem modCore_core_other {m n : Fin 16} (s : State) (f : Core → Core) (h : m ≠ n) : (modCore s n f).cores[m] = s.cores[m] :=
  Vector.getElem_set_ne n.isLt m.isLt fun e => h (Fin.ext e.symm)

/-! ### Places in a sorted list -/

section
variable {α : Type} [LinearOrder α]

/-- The least element of a list in ascending order is its first. -/
theorem idxOf_least {l : List α} (hl : l.Pairwise (· < ·)) {a : α} (ha : a ∈ l) (least : ∀ b ∈ l, a ≤ b) : l.idxOf a = 0 := by
  cases l with
  | nil => cases ha
  | cons x xs =>
    obtain ⟨hx, -⟩ := List.pairwise_cons.mp hl
    rcases List.mem_cons.mp ha with rfl | hmem
    · exact List.idxOf_cons_self
    · exact absurd (hx a hmem) (not_lt.mpr (least x List.mem_cons_self))

/-- In a list in ascending order an element with nothing between it and another comes right behind that. -/
theorem idxOf_next {l : List α} (hl : l.Pairwise (· < ·)) {a b : α} (ha : a ∈ l) (hb : b ∈ l) (hab : a < b)
    (between : ∀ x ∈ l, x ≤ a ∨ b ≤ x) : l.idxOf b = l.idxOf a + 1 := by
  induction l with
  | nil => cases ha
  | cons x xs ih =>
    obtain ⟨hx, hxs⟩ := List.pairwise_cons.mp hl
    rcases List.mem_cons.mp ha with rfl | hmem
    · have hmem : b ∈ xs := (List.mem_cons.mp hb).resolve_left hab.ne'
      rw [List.idxOf_cons_ne _ hab.ne, List.idxOf_cons_self, idxOf_least hxs hmem]
      intro y hy
      exact (between y (List.mem_cons_of_mem _ hy)).resolve_left (not_le.mpr (hx y hy))
    · have hxa := hx a hmem
      have hmem' : b ∈ xs := (List.mem_cons.mp hb).resolve_left (hxa.trans hab).ne'
      rw [List.idxOf_cons_ne _ hxa.ne, List.idxOf_cons_ne _ (hxa.trans hab).ne]
      exact congrArg (· + 1) (ih hxs hmem hmem' fun y hy => between y (List.mem_cons_of_mem _ hy))

end

/-! ### Ramps up (R132, R134) -/

/-- The ramp of core `m` begins no earlier than this c-cycle when that of core `n` is asked for. -/
def Begins (s : State) (n m : Fin 16) : Prop :=
  clusterOf m = clusterOf n ∧ (m = n ∨ (s.cores[m].ramp.up = true ∧ s.clock.cyc ≤ s.cores[m].ramp.start))

theorem mem_rampsNow {s : State} {n m : Fin 16} : m ∈ rampsNow s n ↔ Begins s n m := by
  simp [rampsNow, Begins]

theorem rampsNow_sorted (s : State) (n : Fin 16) : (rampsNow s n).Pairwise (· < ·) :=
  (List.pairwise_lt_finRange 16).filter _

/-- One ramp begins so many c-cycles after `cyc`. -/
def startRamp (cyc : Nat) (t : State) (e : Fin 16 × Nat) : State :=
  modCore t e.1 (fun c => { c with ramp := { c.ramp with start := cyc + e.2 } })

theorem startRamp_core (cyc : Nat) (t : State) (e : Fin 16 × Nat) (m : Fin 16) : (startRamp cyc t e).cores[m] =
    if m = e.1 then { t.cores[m] with ramp := { t.cores[m].ramp with start := cyc + e.2 } } else t.cores[m] := by
  split
  case isTrue h => subst h; exact modCore_core_same t _ _
  case isFalse h => exact modCore_core_other t _ h

/-- The ramps of a list begin in the order of the list, one in each c-cycle. -/
theorem startRamps_core (cyc : Nat) (m : Fin 16) {l : List (Fin 16)} (hl : l.Nodup) (k : Nat) (t : State) :
    ((l.zipIdx k).foldl (startRamp cyc) t).cores[m] =
      if m ∈ l then { t.cores[m] with ramp := { t.cores[m].ramp with start := cyc + (k + l.idxOf m) } } else t.cores[m] := by
  induction l generalizing k t with
  | nil => rfl
  | cons x xs ih =>
    obtain ⟨hx, hxs⟩ := List.nodup_cons.mp hl
    rw [List.zipIdx_cons, List.foldl_cons, ih hxs, startRamp_core]
    by_cases h : m = x
    · subst h
      simp [hx]
    · by_cases hm : m ∈ xs
      · simp [h, hm, List.idxOf_cons_ne _ (Ne.symm h), Nat.add_assoc, Nat.add_comm 1]
      · simp [h, hm]

/-- The ramp of a core whose arrays are not enabled is begun, at a c-cycle yet to be fixed. -/
def begunRamp (s : State) (n : Fin 16) : State :=
  modCore (bump s R.ARRAY_RAMPS n.val 1) n
    (fun c => { c with ramp := { up := true, start := s.clock.cyc, groups := rampLevel s.clock.cyc s.cores[n].ramp } })

theorem rampUp_of_down {s : State} {n : Fin 16} (h : s.cores[n].ramp.up = false) :
    rampUp s n = (rampsNow s n).zipIdx.foldl (startRamp s.clock.cyc) (begunRamp s n) := by
  simp only [rampUp, h, Bool.false_eq_true, if_false]
  rfl

theorem sequenced_rampUp {keys : List Nat} {n : Fin 16} (hk : regKey R.ARRAY_RAMPS n.val ∈ keys) (s : State) :
    Sequenced keys s (rampUp s n) := by
  have begun : Sequenced keys s (begunRamp s n) :=
    sequenced_trans (sequenced_bump s hk 1) (sequenced_modCore _ _ n _)
  unfold rampUp
  refine iteInduction (fun _ => sequenced_refl _ s) fun _ => sequenced_trans begun ?_
  exact foldl_steps (sequenced_refl keys) (fun _ _ _ => sequenced_trans) (fun t (e : Fin 16 × Nat) => sequenced_modCore keys t e.1 _) _ _

section
variable {s : State} {n : Fin 16} (h : s.cores[n].ramp.up = false)
include h

theorem rampUp_core (m : Fin 16) : (rampUp s n).cores[m] =
    if m ∈ rampsNow s n then
      { (begunRamp s n).cores[m] with
        ramp := { (begunRamp s n).cores[m].ramp with start := s.clock.cyc + (rampsNow s n).idxOf m } }
    else (begunRamp s n).cores[m] := by
  rw [rampUp_of_down h, startRamps_core _ m ((rampsNow_sorted s n).imp ne_of_lt)]
  simp only [Nat.zero_add]

/-- The arrays of the core ramp up from their present level. -/
theorem rampUp_core_same : (rampUp s n).cores[n] = { s.cores[n] with
    ramp := { up := true, start := (rampUp s n).cores[n].ramp.start, groups := rampLevel s.clock.cyc s.cores[n].ramp } } := by
  rw [rampUp_core h n, if_pos (mem_rampsNow.mpr ⟨rfl, Or.inl rfl⟩)]
  simp [begunRamp]

/-- Of another core at most the begin of its ramp is moved, and only when it is in the order. -/
theorem rampUp_core_other {m : Fin 16} (hm : m ≠ n) :
    (rampUp s n).cores[m] =
        { s.cores[m] with ramp := { s.cores[m].ramp with start := (rampUp s n).cores[m].ramp.start } } ∧
      (¬ Begins s n m → (rampUp s n).cores[m] = s.cores[m]) := by
  have begun : (begunRamp s n).cores[m] = s.cores[m] := by
    rw [begunRamp, modCore_core_other _ _ hm, bump_cores]
  rw [rampUp_core h m, begun]
  refine ⟨?_, fun hb => if_neg (mt mem_rampsNow.mp hb)⟩
  split <;> rfl

/-- Each ramp begins as many c-cycles from now as ramps come before it. -/
theorem rampUp_start {m : Fin 16} (hm : Begins s n m) :
    (rampUp s n).cores[m].ramp.start = s.clock.cyc + (rampsNow s n).idxOf m := by
  rw [rampUp_core h m, if_pos (mem_rampsNow.mpr hm)]

/-- The lowest core begins at once (R134). -/
theorem rampUp_start_least {m : Fin 16} (hm : Begins s n m) (least : ∀ j, Begins s n j → m ≤ j) :
    (rampUp s n).cores[m].ramp.start = s.clock.cyc := by
  rw [rampUp_start h hm, idxOf_least (rampsNow_sorted s n) (mem_rampsNow.mpr hm) fun j hj => least j (mem_rampsNow.mp hj)]
  rfl

/-- Every other begins one c-cycle after the one before it (R134). -/
theorem rampUp_start_next {m j : Fin 16} (hm : Begins s n m) (hj : Begins s n j) (hlt : m < j)
    (between : ∀ i, Begins s n i → i ≤ m ∨ j ≤ i) :
    (rampUp s n).cores[j].ramp.start = (rampUp s n).cores[m].ramp.start + 1 := by
  rw [rampUp_start h hm, rampUp_start h hj, idxOf_next (rampsNow_sorted s n) (mem_rampsNow.mpr hm) (mem_rampsNow.mpr hj) hlt
    fun i hi => between i (mem_rampsNow.mp hi), Nat.add_assoc]

end

/-! ### The start of an instruction -/

/-- The arrays are to ramp up when the core starts the entry: they are down, and there is a tile to compute in them (R132, R247). -/
def Ramps (c : Core) (e : TEntry) : Prop := c.ramp.up = false ∧ 0 < totalTiles c e ∧ e.op.reducer = false

/-- The registers that a start writes, but for the count of ramps. -/
def startKeys (n : Fin 16) : List Nat :=
  [regKey R.TSQ_CUR_INSN n.val, regKey R.TSQ_MASK_CYC n.val, regKey R.TSQ_TILES_SKIPPED n.val, regKey R.ARRAY_STATUS_SHAPE n.val]
    ++ readBeatKeys n

theorem startKeys_listed : ∀ n : Fin 16, regKey R.ARRAY_RAMPS n.val :: startKeys n ⊆
    [regKey R.TSQ_CUR_INSN n.val, regKey R.TSQ_MASK_CYC n.val, regKey R.TSQ_TILES_SKIPPED n.val,
      regKey R.ARRAY_STATUS_SHAPE n.val, regKey R.ARRAY_RAMPS n.val] ++ readBeatKeys n := by
  decide

/-- The entry's address and shape are in the registers, and its mask has been read. -/
def prepared (s : State) (n : Fin 16) (e : TEntry) : State :=
  wr (bump (countLines (wr s R.TSQ_CUR_INSN n.val e.addr.toNat) n []) R.TSQ_MASK_CYC n.val
    (ceilDiv (e.BATCH * mapBytesOf s.cores[n] e) 512)) R.ARRAY_STATUS_SHAPE n.val e.insn.SHAPE.toNat

/-- The arrays have been asked to ramp up if the entry has a tile to compute in them. -/
def ramped (s : State) (n : Fin 16) (e : TEntry) : State :=
  if decide (0 < totalTiles s.cores[n] e) && !e.op.reducer then rampUp s n else s

/-- The run of the entry, with every tile valid, is the core's. -/
def running (s : State) (n : Fin 16) (e : TEntry) (valid : List Bool) : State :=
  setRun (bump s R.TSQ_TILES_SKIPPED n.val 0) n (freshRun e valid)

section
variable (s : State) (n : Fin 16) (e : TEntry)

@[simp] theorem prepared_cores : (prepared s n e).cores = s.cores := by
  simp [prepared]

theorem sequenced_prepared : Sequenced (startKeys n) s (prepared s n e) :=
  sequenced_trans (sequenced_wr _ (by simp [startKeys]) _)
    (sequenced_trans (sequenced_countLines (List.subset_append_right _ _) _ _)
      (sequenced_trans (sequenced_bump _ (by simp [startKeys]) _) (sequenced_wr _ (by simp [startKeys]) _)))

@[simp] theorem prepared_clock : (prepared s n e).clock = s.clock := by
  rw [(sequenced_prepared s n e).only]

theorem rd_prepared_shape : rd (prepared s n e) R.ARRAY_STATUS_SHAPE n.val = e.insn.SHAPE.toNat :=
  (rd_wr_same _ _ _ _).trans (Nat.mod_eq_of_lt e.insn.SHAPE.isLt)

theorem rd_prepared_insn : rd (prepared s n e) R.TSQ_CUR_INSN n.val = e.addr.toNat := by
  have apart : ∀ f : RegField, f.id < 512 → f.id ≠ R.TSQ_CUR_INSN.id → ∀ i, regKey R.TSQ_CUR_INSN n.val ≠ regKey f i :=
    fun f hf hne i => regKey_ne_of_id f _ i _ hf (by decide) hne.symm
  unfold prepared
  rw [rd_wr_other _ _ _ _ _ _ (apart _ (by decide) (by decide) _), rd_bump_other _ _ _ _ _ _ (apart _ (by decide) (by decide) _),
    countLines, rd_bump_other _ _ _ _ _ _ (apart _ (by decide) (by decide) _),
    rd_bump_other _ _ _ _ _ _ (apart _ (by decide) (by decide) _), rd_wr_same]
  exact Nat.mod_eq_of_lt e.addr.isLt

theorem sequenced_running (valid : List Bool) : Sequenced [regKey R.TSQ_TILES_SKIPPED n.val] s (running s n e valid) := by
  unfold running setRun
  exact sequenced_trans (sequenced_bump s List.mem_cons_self _) (sequenced_modCore _ _ n _)

theorem running_core_same (valid : List Bool) :
    (running s n e valid).cores[n] = { s.cores[n] with cur := some (freshRun e valid) } := by
  rw [running, setRun, modCore_core_same, bump_cores]

theorem running_core_other (valid : List Bool) {m : Fin 16} (hm : m ≠ n) : (running s n e valid).cores[m] = s.cores[m] := by
  rw [running, setRun, modCore_core_other _ _ hm, bump_cores]

theorem ramped_of_ramps {s : State} {n : Fin 16} {e : TEntry} (h : Ramps s.cores[n] e) : ramped s n e = rampUp s n := by
  obtain ⟨-, tiles, arrays⟩ := h
  exact if_pos (by rw [decide_eq_true tiles, arrays]; rfl)

theorem ramped_of_not_ramps {s : State} {n : Fin 16} {e : TEntry} (h : ¬ Ramps s.cores[n] e) : ramped s n e = s := by
  unfold ramped
  split
  next tiles =>
    simp only [Bool.and_eq_true, decide_eq_true_eq, Bool.not_eq_true'] at tiles
    have up : s.cores[n].ramp.up = true := by
      by_contra down
      exact h ⟨Bool.eq_false_iff.mpr down, tiles⟩
    simp only [rampUp, up, if_true]
  next => rfl

/-- Cores keep what says which tiles an entry has when their arrays ramp up. -/
theorem totalTiles_ramped (m : Fin 16) : totalTiles (ramped s n e).cores[m] e = totalTiles s.cores[m] e := by
  by_cases h : Ramps s.cores[n] e
  · rw [ramped_of_ramps h]
    by_cases hm : m = n
    · subst hm
      rw [rampUp_core_same h.1]
      rfl
    · rw [(rampUp_core_other h.1 hm).1]
      rfl
  · rw [ramped_of_not_ramps h]

/-- An instruction without a mask begins with every tile valid, so at tile 0, and counts none as skipped. -/
theorem beginRun_of_no_mask (h : e.insn.MASK = 0) :
    beginRun s n e (fun r => r) true = running (ramped (prepared s n e) n e) n e (allValid s.cores[n] e) := by
  have mask : spansMask s.cores[n] e = [] := by simp [spansMask, h]
  have first : ∀ c, totalTiles c e = totalTiles s.cores[n] e → nextValid c (freshRun e (allValid s.cores[n] e)) 0 = 0 :=
    fun c hc => nextValid_fresh c s.cores[n] e hc
  have started : totalTiles (ramped (prepared s n e) n e).cores[n] e = totalTiles s.cores[n] e := by
    rw [totalTiles_ramped, prepared_cores]
  have going : goTile (ramped (prepared s n e) n e) n (freshRun e (allValid s.cores[n] e)) 0 =
      running (ramped (prepared s n e) n e) n e (allValid s.cores[n] e) := by
    simp only [goTile, first _ started]
    rfl
  rw [beginRun]
  dsimp only
  rw [mask, operandRead_clean (fun _ _ _ hr => by cases hr), validList_of_no_mask _ _ h, ← going]
  have tile : nextValid s.cores[n] (freshRun e (allValid s.cores[n] e)) (freshRun e (allValid s.cores[n] e)).tile = 0 := first _ rfl
  rw [if_neg Bool.false_ne_true, if_pos rfl, tile, ramped, prepared_cores]
  rfl

end

/-- In `t` core `n` has started the entry, which has no mask: its run is fresh, and its arrays ramp up where they have to. -/
structure Started (s : State) (n : Fin 16) (e : TEntry) (rest : List TEntry) (t : State) : Prop where
  seq : Sequenced (regKey R.ARRAY_RAMPS n.val :: startKeys n) s t
  core : t.cores[n] = { s.cores[n] with
    tq := rest, cur := some (freshRun e (allValid s.cores[n] e)), ramp := t.cores[n].ramp }
  others : ∀ m : Fin 16, m ≠ n →
    t.cores[m] = { s.cores[m] with ramp := { s.cores[m].ramp with start := t.cores[m].ramp.start } } ∧
      (¬ Ramps s.cores[n] e ∨ ¬ Begins s n m → t.cores[m] = s.cores[m])
  insn : rd t R.TSQ_CUR_INSN n.val = e.addr.toNat
  shape : rd t R.ARRAY_STATUS_SHAPE n.val = e.insn.SHAPE.toNat
  still : ¬ Ramps s.cores[n] e → t.cores[n].ramp = s.cores[n].ramp ∧ rd t R.ARRAY_RAMPS n.val = rd s R.ARRAY_RAMPS n.val
  ramps : Ramps s.cores[n] e →
    t.cores[n].ramp = { up := true, start := t.cores[n].ramp.start, groups := rampLevel s.clock.cyc s.cores[n].ramp } ∧
    (∀ m : Fin 16, Begins s n m → (∀ j, Begins s n j → m ≤ j) → t.cores[m].ramp.start = s.clock.cyc) ∧
    ∀ m j : Fin 16, Begins s n m → Begins s n j → m < j → (∀ i, Begins s n i → i ≤ m ∨ j ≤ i) →
      t.cores[j].ramp.start = t.cores[m].ramp.start + 1

/-- The entry has left the queue of its core and is prepared. -/
def dequeued (s : State) (n : Fin 16) (e : TEntry) (rest : List TEntry) : State :=
  prepared (modCore s n (fun c => { c with tq := rest })) n e

theorem tensorStart_eq {s : State} {n : Fin 16} {e : TEntry} {rest : List TEntry} (hq : s.cores[n].tq = e :: rest)
    (hc : s.cores[n].cur = none) (hf : feeds s.cores[n] = true) (hm : e.insn.MASK = 0) :
    tensorStart n s = running (ramped (dequeued s n e rest) n e) n e (allValid s.cores[n] e) := by
  have enter : tensorStart n s = beginRun (modCore s n (fun c => { c with tq := rest })) n e (fun r => r) true := by
    simp only [tensorStart, hq, hc, hf, if_true]
  rw [enter, beginRun_of_no_mask _ n e hm, modCore_core_same]
  rfl

theorem tensorStart_waits {s : State} {n : Fin 16} (h : s.cores[n].tq = [] ∨ s.cores[n].cur ≠ none ∨ feeds s.cores[n] = false) :
    tensorStart n s = s := by
  unfold tensorStart
  split
  next hq hc =>
    rcases h with h | h | h
    · rw [h] at hq
      cases hq
    · exact absurd hc h
    · exact if_neg (Bool.eq_false_iff.mp h)
  next => rfl

section
variable (s : State) (n : Fin 16) (e : TEntry) (rest : List TEntry)

theorem dequeued_core_same : (dequeued s n e rest).cores[n] = { s.cores[n] with tq := rest } := by
  rw [dequeued, prepared_cores, modCore_core_same]

theorem dequeued_core_other {m : Fin 16} (hm : m ≠ n) : (dequeued s n e rest).cores[m] = s.cores[m] := by
  rw [dequeued, prepared_cores, modCore_core_other _ _ hm]

theorem dequeued_clock : (dequeued s n e rest).clock = s.clock := prepared_clock _ n e

theorem dequeued_ramp (m : Fin 16) : (dequeued s n e rest).cores[m].ramp = s.cores[m].ramp := by
  by_cases hm : m = n
  · subst hm
    rw [dequeued_core_same]
  · rw [dequeued_core_other s n e rest hm]

theorem begins_dequeued (m : Fin 16) : Begins (dequeued s n e rest) n m ↔ Begins s n m := by
  rw [Begins, Begins, dequeued_ramp, dequeued_clock]

theorem ramps_dequeued : Ramps (dequeued s n e rest).cores[n] e ↔ Ramps s.cores[n] e := by
  rw [dequeued_core_same]
  exact Iff.rfl

theorem sequenced_dequeued : Sequenced (startKeys n) s (dequeued s n e rest) :=
  sequenced_trans (sequenced_modCore _ s n _) (sequenced_prepared _ n e)

theorem sequenced_ramped : Sequenced [regKey R.ARRAY_RAMPS n.val] s (ramped s n e) :=
  iteInduction (fun _ => sequenced_rampUp List.mem_cons_self s) (fun _ => sequenced_refl _ s)

end

/-- What a start leaves of the registers and of the rest of the state. -/
theorem sequenced_started (s : State) (n : Fin 16) (e : TEntry) (rest : List TEntry) (valid : List Bool) :
    Sequenced (regKey R.ARRAY_RAMPS n.val :: startKeys n) s (running (ramped (dequeued s n e rest) n e) n e valid) :=
  sequenced_trans (sequenced_mono (sequenced_dequeued s n e rest) (List.subset_cons_self _ _))
    (sequenced_trans (sequenced_mono (sequenced_ramped _ n e) (by simp))
      (sequenced_mono (sequenced_running _ n e valid) (by simp [startKeys])))

theorem insnKey_apart : ∀ n : Fin 16,
    regKey R.TSQ_CUR_INSN n.val ∉ [regKey R.ARRAY_RAMPS n.val, regKey R.TSQ_TILES_SKIPPED n.val] := by decide

theorem shapeKey_apart : ∀ n : Fin 16,
    regKey R.ARRAY_STATUS_SHAPE n.val ∉ [regKey R.ARRAY_RAMPS n.val, regKey R.TSQ_TILES_SKIPPED n.val] := by decide

theorem rampsKey_apart : ∀ n : Fin 16, regKey R.ARRAY_RAMPS n.val ∉ startKeys n := by decide

/-- A register that neither the ramp nor the count of skipped tiles concerns reads as the entry was prepared. -/
theorem rd_started (s : State) (n : Fin 16) (e : TEntry) (valid : List Bool) {f : RegField} {i : Nat}
    (hk : regKey f i ∉ [regKey R.ARRAY_RAMPS n.val, regKey R.TSQ_TILES_SKIPPED n.val]) :
    rd (running (ramped s n e) n e valid) f i = rd s f i :=
  (sequenced_trans (sequenced_mono (sequenced_ramped s n e) (by simp)) (sequenced_mono (sequenced_running _ n e valid) (by simp))).regs
    f i hk

theorem running_ramp (s : State) (n : Fin 16) (e : TEntry) (valid : List Bool) (m : Fin 16) :
    (running s n e valid).cores[m].ramp = s.cores[m].ramp := by
  by_cases hm : m = n
  · subst hm
    rw [running_core_same]
  · rw [running_core_other _ n e _ hm]

/-- The start of an instruction, with the ramp that it needs or without one. -/
theorem started (s : State) (n : Fin 16) (e : TEntry) (rest : List TEntry) :
    Started s n e rest (running (ramped (dequeued s n e rest) n e) n e (allValid s.cores[n] e)) := by
  have own := dequeued_core_same s n e rest
  have other : ∀ m : Fin 16, m ≠ n → (dequeued s n e rest).cores[m] = s.cores[m] := fun m => dequeued_core_other s n e rest
  have insn := (rd_started (dequeued s n e rest) n e (allValid s.cores[n] e) (insnKey_apart n)).trans (rd_prepared_insn _ n e)
  have shape := (rd_started (dequeued s n e rest) n e (allValid s.cores[n] e) (shapeKey_apart n)).trans (rd_prepared_shape _ n e)
  by_cases h : Ramps s.cores[n] e
  · have down : (dequeued s n e rest).cores[n].ramp.up = false := (dequeued_ramp s n e rest n ▸ h.1 :)
    have up := ramped_of_ramps ((ramps_dequeued s n e rest).mpr h)
    have begins := begins_dequeued s n e rest
    refine ⟨sequenced_started s n e rest _, ?_, fun m hm => ?_, insn, shape, fun no => absurd h no, fun _ => ?_⟩
    · rw [running_core_same, up, rampUp_core_same down, own]
    · obtain ⟨moved, kept⟩ := rampUp_core_other down hm
      rw [running_core_other _ n e _ hm, up, ← other m hm]
      exact ⟨moved, fun no => kept ((begins m).not.mpr (no.resolve_left (not_not.mpr h)))⟩
    · simp only [running_ramp, up, ← begins, ← dequeued_clock s n e rest, ← dequeued_ramp s n e rest n]
      exact ⟨congrArg Core.ramp (rampUp_core_same down), fun m => rampUp_start_least down, fun m j => rampUp_start_next down⟩
  · have same := ramped_of_not_ramps ((ramps_dequeued s n e rest).not.mpr h)
    have counted : rd (running (dequeued s n e rest) n e (allValid s.cores[n] e)) R.ARRAY_RAMPS n.val = rd s R.ARRAY_RAMPS n.val :=
      (sequenced_trans (sequenced_dequeued s n e rest) (sequenced_mono (sequenced_running _ n e _) (by simp [startKeys]))).regs _ _
        (rampsKey_apart n)
    refine ⟨sequenced_started s n e rest _, ?_, fun m hm => ?_, insn, shape, fun _ => ⟨?_, ?_⟩, fun yes => absurd yes h⟩
    · rw [running_core_same, same, own]
    · rw [running_core_other _ n e _ hm, same, other m hm]
      exact ⟨rfl, fun _ => rfl⟩
    · rw [running_ramp, same, dequeued_ramp]
    · rw [same, counted]

/-! ### The end of an instruction, and gated arrays -/

/-- Nothing of a skipped tile is left to copy: no copying is asked for, or every tile from the next one on is valid (R228). -/
theorem nextCopy_none_iff (c : Core) (r : TRun) : (nextCopy c r).isNone = true ↔
    (r.e.insn.COPY = true → ∀ t, r.copyTile ≤ t → t < totalTiles c r.e → tileValid c r t = true) := by
  unfold nextCopy
  cases r.e.insn.COPY with
  | false => simp
  | true => simp [List.find?_eq_none]; tauto

theorem computed_iff (c : Core) (r : TRun) :
    computed c r = true ↔ totalTiles c r.e ≤ r.tile ∧ r.closes = [] ∧ r.latchA = none ∧ r.latchB = none := by
  simp [computed, latchesFree, and_assoc]

theorem not_computed_of_left {c : Core} {r : TRun}
    (h : r.tile < totalTiles c r.e ∨ r.closes ≠ [] ∨ r.latchA ≠ none ∨ r.latchB ≠ none) : ¬ computed c r = true := by
  rw [computed_iff]
  rintro ⟨tiles, closes, latchA, latchB⟩
  rcases h with h | h | h | h
  · exact absurd h (not_lt.mpr tiles)
  · exact h closes
  · exact h latchA
  · exact h latchB

section
variable {s : State} {n : Fin 16} {r : TRun} (hr : s.cores[n].cur = some r)
include hr

theorem tensorDone_of_run : tensorDone n s =
    if s.cores[n].mode != .stopping && computed s.cores[n] r && (nextCopy s.cores[n] r).isNone then
      modCore s n (fun c => { c with cur := none }) else s := by
  simp only [tensorDone, hr]

theorem tensorDone_finishes (hm : s.cores[n].mode ≠ .stopping) (hc : computed s.cores[n] r = true)
    (hn : (nextCopy s.cores[n] r).isNone = true) :
    tensorDone n s = { s with cores := s.cores.set n { s.cores[n] with cur := none } } := by
  rw [tensorDone_of_run hr, hc, hn, bne_iff_ne.mpr hm]
  rfl

theorem tensorDone_waits (hc : ¬ computed s.cores[n] r = true) : tensorDone n s = s := by
  rw [tensorDone_of_run hr, Bool.eq_false_iff.mpr hc, Bool.and_false]
  rfl

end

/-- Without a running instruction nothing keeps the arrays from being gated. -/
theorem arrays_idle_of_no_run {c : Core} (h : c.cur = none) :
    arrayBusy c 0 = false ∧ arrayBusy c 1 = false ∧ willFeed c = false := by
  simp [arrayBusy, willFeed, h]

/-- The window reducer uses no array (R247). -/
theorem arrays_idle_of_reducer {c : Core} {r : TRun} (h : c.cur = some r) (hr : r.e.op.reducer = true) :
    arrayBusy c 0 = false ∧ arrayBusy c 1 = false ∧ willFeed c = false := by
  simp [arrayBusy, willFeed, h, hr]

theorem willFeed_iff {c : Core} {r : TRun} (h : c.cur = some r) :
    willFeed c = true ↔ feeds c = true ∧ r.e.op.reducer = false ∧ r.tile < totalTiles c r.e := by
  simp [willFeed, h, and_assoc]

theorem arrayBusy_iff {c : Core} {r : TRun} (h : c.cur = some r) (hr : r.e.op.reducer = false) :
    arrayBusy c 0 = true ↔ (feeds c = true ∧ r.step ≠ 0) ∨ r.closes ≠ [] ∨ r.latchA ≠ none := by
  simp [arrayBusy, h, hr, or_assoc, Option.isSome_iff_ne_none]

theorem arrayGateIdle_waits {s : State} {n : Fin 16}
    (h : arrayBusy s.cores[n] 0 = true ∨ arrayBusy s.cores[n] 1 = true ∨ willFeed s.cores[n] = true ∨ s.cores[n].ramp.up = false) :
    arrayGateIdle n s = s := by
  refine if_pos ?_
  simp only [Bool.or_eq_true, Bool.not_eq_true']
  tauto

theorem arrayGateIdle_ramps_down {s : State} {n : Fin 16} (hp : planesRun s = true) (ha : arrayBusy s.cores[n] 0 = false)
    (hb : arrayBusy s.cores[n] 1 = false) (hw : willFeed s.cores[n] = false) (hu : s.cores[n].ramp.up = true) :
    arrayGateIdle n s = modCore (passToCyc s (s.cores[n].busyAt + max 1 (rd s R.ARRAY_CTL_GATE_IDLE n.val))) n (fun c =>
      { c with ramp := { up := false
                         start := (passToCyc s (s.cores[n].busyAt + max 1 (rd s R.ARRAY_CTL_GATE_IDLE n.val))).clock.cyc
                         groups := rampLevel (passToCyc s (s.cores[n].busyAt + max 1 (rd s R.ARRAY_CTL_GATE_IDLE n.val))).clock.cyc
                           c.ramp } }) := by
  refine if_neg ?_
  rw [hp, ha, hb, hw, hu]
  decide

/-! ### What operands depend on -/

/-- Tensor registers and plan are those of the other core. -/
structure SameOperands (c d : Core) : Prop where
  t : d.t = c.t
  plan : d.plan = c.plan

section
variable {c d : Core} (h : SameOperands c d)
include h

theorem totalTiles_congr (e : TEntry) : totalTiles d e = totalTiles c e := by
  have : totalTiles d e = totalTiles { c with t := d.t, plan := d.plan } e := rfl
  rw [this, h.t, h.plan]

theorem tilesN_congr (e : TEntry) : tilesN d e = tilesN c e := by
  have : tilesN d e = tilesN { c with t := d.t, plan := d.plan } e := rfl
  rw [this, h.t, h.plan]

theorem tileAt_congr (e : TEntry) (t : Nat) : tileAt d e t = tileAt c e t := by
  have : tileAt d e t = tileAt { c with t := d.t, plan := d.plan } e t := rfl
  rw [this, h.t, h.plan]

variable {s t : State} (hm : t.mem = s.mem) (e : TEntry) (b mt nt : Nat) (w : StepWork)
include hm

theorem actInt_congr : actInt t d e b mt nt w = actInt s c e b mt nt w := by
  have : actInt t d e b mt nt w = actInt { s with mem := t.mem } { c with t := d.t, plan := d.plan } e b mt nt w := rfl
  rw [this, h.t, h.plan, hm]

theorem wgtInt_congr : wgtInt t d e b nt w = wgtInt s c e b nt w := by
  have : wgtInt t d e b nt w = wgtInt { s with mem := t.mem } { c with t := d.t, plan := d.plan } e b nt w := rfl
  rw [this, h.t, h.plan, hm]

theorem actFp_congr : actFp t d e b mt nt w = actFp s c e b mt nt w := by
  have : actFp t d e b mt nt w = actFp { s with mem := t.mem } { c with t := d.t, plan := d.plan } e b mt nt w := rfl
  rw [this, h.t, h.plan, hm]

theorem wgtFp_congr : wgtFp t d e b nt w = wgtFp s c e b nt w := by
  have : wgtFp t d e b nt w = wgtFp { s with mem := t.mem } { c with t := d.t, plan := d.plan } e b nt w := rfl
  rw [this, h.t, h.plan, hm]

end

/-! ### A step in one array, cell by cell (R160, R164) -/

theorem getD_map_range {α : Type} {m p : Nat} (f : Nat → α) (d : α) (h : p < m) : ((List.range m).map f).getD p d = f p := by
  simp [h]

/-- A row of weights gives one result for each of its columns. -/
theorem zipIdx_map_range {α β : Type} (k : Nat) (f : Nat → α) (g : α × Nat → β) :
    ((List.range k).map f).zipIdx.map g = (List.range k).map fun q => g (f q, q) := by
  apply List.ext_getElem
  · simp
  · intro i h1 h2
    simp

theorem dot_map (ks : List Nat) (f g : Nat → Int) : dot (ks.map f) (ks.map g) = (ks.map fun k => f k * g k).sum := by
  rw [dot, List.zipWith_map, List.zipWith_self]

theorem slices_cases (e : TEntry) : slices e = 1 ∨ slices e = 4 ∨ slices e = 8 := by
  unfold slices
  split <;> simp

/-- The rows of a tile, slice by slice, are the rows of an array (R218). -/
theorem row_of_cell (e : TEntry) {p : Nat} (hp : p < 128) : p % tileRows e < tileRows e ∧ p / tileRows e < slices e := by
  rcases slices_cases e with h | h | h <;> simp only [tileRows, h] <;> omega

section
variable (e : TEntry) (ks : List Nat) (act : Nat → Nat → Int) (wgt : Nat → Nat → Nat → Int)

/-- One integer step in an array whose rows take `act` and whose columns take `wgt`. -/
def intStep (bank : Bool) (x : ArraySt) : ArraySt × List (Nat × Nat) :=
  arrayStepInt e bank x ((List.range (tileRows e)).map fun i => ks.map (act i))
    ((List.range (slices e)).map fun h => (List.range 128).map fun q => ks.map (wgt h q))

/-- The group accumulator of a cell takes the products of the step's elements, clamped to 24 bits (R160). -/
theorem intStep_cell (bank : Bool) (x : ArraySt) {p q : Nat} (hp : p < 128) (hq : q < 128) :
    ((bankOf (intStep e ks act wgt bank x).1 bank).getD p []).getD q 0 =
      clampInt (((bankOf x bank).getD p []).getD q 0 +
        (ks.map fun k => act (p % tileRows e) k * wgt (p / tileRows e) q k).sum) (-(2 ^ 23)) (2 ^ 23 - 1) := by
  obtain ⟨hrow, hslice⟩ := row_of_cell e hp
  cases bank <;>
    simp only [intStep, arrayStepInt, bankOf, if_true, Bool.false_eq_true, if_false, List.map_map, getD_map_range _ _ hp,
      Function.comp, getD_map_range _ _ hslice, getD_map_range _ _ hrow, zipIdx_map_range, getD_map_range _ _ hq, dot_map]

/-- The other bank is not touched. -/
theorem intStep_other (bank : Bool) (x : ArraySt) : bankOf (intStep e ks act wgt bank x).1 (!bank) = bankOf x (!bank) := by
  cases bank <;> rfl

end

/-- One floating-point step in an array whose rows take `act` and whose columns take `wgt`. -/
def fpStep (e : TEntry) (act : Nat → Fv) (wgt : Nat → Nat → Fv) (m : List (List W32)) : List (List W32) × Nat :=
  arrayStepFp e m ((List.range (tileRows e)).map act) ((List.range (slices e)).map fun h => (List.range 128).map (wgt h))

/-- M of a cell takes one product, rounded once (R164). -/
theorem fpStep_cell (e : TEntry) (act : Nat → Fv) (wgt : Nat → Nat → Fv) (m : List (List W32)) {p q : Nat} (hp : p < 128)
    (hq : q < 128) : ((fpStep e act wgt m).1.getD p []).getD q 0 =
      fp32Of (fpAdd (fvOf ((m.getD p []).getD q 0)) (fpMul (act (p % tileRows e)) (wgt (p / tileRows e) q))) := by
  obtain ⟨hrow, hslice⟩ := row_of_cell e hp
  simp only [fpStep, arrayStepFp, List.map_map, getD_map_range _ _ hp, Function.comp, getD_map_range _ _ hslice,
    getD_map_range _ _ hrow, zipIdx_map_range, getD_map_range _ _ hq, round32, Bool.and_false, Bool.false_eq_true, if_false]
  rfl

/-! ### The work of a step -/

/-- The arrays of core `n` have worked: of its core, arrays, run and the c-cycle of the last work may have changed, and beside
cores the registers with the given keys, the log queues and the free values drawn. -/
structure Worked (keys : List Nat) (n : Fin 16) (s t : State) : Prop where
  only : t = { s with cores := t.cores, regs := t.regs, freeCtr := t.freeCtr, logQ := t.logQ, logLost := t.logLost }
  core : t.cores[n] = { s.cores[n] with
    arrA := t.cores[n].arrA, arrB := t.cores[n].arrB, cur := t.cores[n].cur, busyAt := t.cores[n].busyAt }
  others : ∀ m : Fin 16, m ≠ n → t.cores[m] = s.cores[m]
  regs : RegsKept s t keys

section
variable {keys : List Nat} {n : Fin 16}

theorem worked_refl (s : State) : Worked keys n s s := ⟨rfl, rfl, fun _ _ => rfl, regsKept_of_regs _ rfl rfl⟩

theorem worked_trans {s t u : State} (h : Worked keys n s t) (h' : Worked keys n t u) : Worked keys n s u := by
  obtain ⟨ht, hc, ho, hk⟩ := h
  obtain ⟨hu, hc', ho', hk'⟩ := h'
  refine ⟨by rw [hu, ht], by rw [hc', hc], fun m hm => (ho' m hm).trans (ho m hm), regsKept_trans hk hk'⟩

theorem worked_foldl {α : Type} {f : State → α → State} (h : ∀ s a, Worked keys n s (f s a)) (s : State) (l : List α) :
    Worked keys n s (l.foldl f s) :=
  foldl_steps worked_refl (fun _ _ _ => worked_trans) h s l

theorem worked_of_sequenced {s t : State} (h : Sequenced keys s t) (hc : t.cores = s.cores) : Worked keys n s t := by
  refine ⟨?_, by rw [hc], fun m _ => by rw [hc], h.regs⟩
  rw [h.only]

theorem worked_bump (s : State) {f : RegField} {i : Nat} (hf : regKey f i ∈ keys) (v : Nat) : Worked keys n s (bump s f i v) :=
  worked_of_sequenced (sequenced_bump s hf v) (bump_cores s f i v)

theorem worked_drawFree (s : State) : Worked keys n s (drawFree s).1 :=
  worked_of_sequenced ⟨rfl, regsKept_of_regs _ rfl rfl⟩ rfl

theorem worked_modCore (s : State) {f : Core → Core}
    (hf : ∀ c, f c = { c with arrA := (f c).arrA, arrB := (f c).arrB, cur := (f c).cur, busyAt := (f c).busyAt }) :
    Worked keys n s (modCore s n f) := by
  refine ⟨rfl, ?_, fun m hm => modCore_core_other s f hm, regsKept_of_regs _ rfl rfl⟩
  rw [modCore_core_same]
  exact hf _

theorem worked_logIt (s : State) (hk : regKey R.LOG_QDROP_DATA 0 ∈ keys) (cls detail sev unit arg0 arg1 : Nat) :
    Worked keys n s (logIt s planeData cls detail sev unit arg0 arg1) := by
  have cores : (logIt s planeData cls detail sev unit arg0 arg1).cores = s.cores := logIt_cores s _ _ _ _ _ _ _
  refine ⟨?_, by rw [cores], fun m _ => by rw [cores], regsKept_mono (logIt_regsKept s planeData _ _ _ _ _ _) ?_⟩
  · obtain ⟨r, q, l, h⟩ := logPush_frame s planeData (eventEntry s planeData cls detail sev unit arg0 arg1)
    rw [logIt_eq, h]
  · intro k hmem
    rw [List.mem_singleton.mp hmem]
    exact hk

theorem worked_ite {s t u : State} (c : Prop) [Decidable c] (h : Worked keys n s t) (h' : Worked keys n s u) :
    Worked keys n s (if c then t else u) :=
  iteInduction (fun _ => h) (fun _ => h')

end

/-- The keys of what a step counts beside itself. -/
def workKeys (n : Fin 16) : List Nat :=
  [regKey R.WIN_GATHER_STEPS n.val, regKey R.NUM_GSAT n.val, regKey R.NUM_FLUSH n.val, regKey R.ARRAY_CHK_SKIPPED n.val,
    regKey R.LOG_QDROP_DATA 0, regKey R.TSQ_TILES_COMPUTED n.val, regKey R.TSQ_TILES_SKIPPED n.val] ++ readBeatKeys n

theorem Worked.operands {keys : List Nat} {n : Fin 16} {s t : State} (h : Worked keys n s t) :
    SameOperands s.cores[n] t.cores[n] ∧ t.mem = s.mem := by
  refine ⟨⟨?_, ?_⟩, ?_⟩
  · rw [h.core]
  · rw [h.core]
  · rw [h.only]

section
variable (s : State) (n : Fin 16) (r : TRun) (w : StepWork)

/-- The integer work of a step in array `a`, which holds `x`. -/
def intWork (c : Core) (a : Nat) (x : ArraySt) : ArraySt × List (Nat × Nat) :=
  let b := (tileAt c r.e r.tile).1
  let mt := (tileAt c r.e r.tile).2.1
  let nt := (tileAt c r.e r.tile).2.2
  intStep r.e (stepKs w) (actInt s c r.e b mt nt w) (wgtInt s c r.e b nt w a) r.bank x

theorem stepInt_eq : stepInt s n r w =
    (intWork s r w s.cores[n] 1 s.cores[n].arrB).2.foldl (noteClamp n 1)
      ((intWork s r w s.cores[n] 0 s.cores[n].arrA).2.foldl (noteClamp n 0)
        (modCore s n fun c => { c with
          arrA := (intWork s r w s.cores[n] 0 s.cores[n].arrA).1, arrB := (intWork s r w s.cores[n] 1 s.cores[n].arrB).1 })) := rfl

theorem noteClamp_cores (arr : Nat) (q : Nat × Nat) : (noteClamp n arr s q).cores = s.cores := by
  simp [noteClamp]

theorem worked_noteClamp (arr : Nat) (q : Nat × Nat) : Worked (workKeys n) n s (noteClamp n arr s q) :=
  worked_trans (worked_bump s (by simp [workKeys]) 1) (worked_logIt _ (by simp [workKeys]) _ _ _ _ _ _)

theorem worked_stepInt : Worked (workKeys n) n s (stepInt s n r w) := by
  rw [stepInt_eq]
  exact worked_trans (worked_trans (worked_modCore s fun _ => rfl) (worked_foldl (fun u q => worked_noteClamp u n 0 q) _ _))
    (worked_foldl (fun u q => worked_noteClamp u n 1 q) _ _)

theorem stepInt_core : (stepInt s n r w).cores[n] = { s.cores[n] with
    arrA := (intWork s r w s.cores[n] 0 s.cores[n].arrA).1, arrB := (intWork s r w s.cores[n] 1 s.cores[n].arrB).1 } := by
  rw [stepInt_eq, foldl_keeps State.cores (fun u q => noteClamp_cores u n 1 q),
    foldl_keeps State.cores (fun u q => noteClamp_cores u n 0 q), modCore_core_same]

/-- The floating-point work of a step in array `a`, whose M is `m`. -/
def fpWork (c : Core) (a : Nat) (m : List (List W32)) : List (List W32) × Nat :=
  let b := (tileAt c r.e r.tile).1
  let mt := (tileAt c r.e r.tile).2.1
  let nt := (tileAt c r.e r.tile).2.2
  fpStep r.e (fun i => actFp s c r.e b mt nt w i w.k) (fun h q => wgtFp s c r.e b nt w a h q w.k) m

/-- The array with its new M, which the last step of a tile delivers to the latch (R125). -/
def putM (last : Bool) (x : ArraySt) (m : List (List W32)) : ArraySt :=
  if last then { x with latch := m, m := [] } else { x with m := m }

theorem putM_m (last : Bool) (x : ArraySt) (m : List (List W32)) : (if last then (putM last x m).latch else (putM last x m).m) = m := by
  cases last <;> rfl

variable (last : Bool)

theorem stepFp_eq : stepFp s n r w last =
    countFlush (modCore s n fun c => { c with
        arrA := putM last c.arrA (fpWork s r w s.cores[n] 0 s.cores[n].arrA.m).1
        arrB := putM last c.arrB (fpWork s r w s.cores[n] 1 s.cores[n].arrB.m).1 }) n
      ((fpWork s r w s.cores[n] 0 s.cores[n].arrA.m).2 + (fpWork s r w s.cores[n] 1 s.cores[n].arrB.m).2) := rfl

theorem countFlush_cores (times : Nat) : (countFlush s n times).cores = s.cores := by
  unfold countFlush
  split
  · rfl
  · exact bump_cores s _ _ _

theorem worked_stepFp : Worked (workKeys n) n s (stepFp s n r w last) := by
  rw [stepFp_eq]
  exact worked_trans (worked_modCore s fun _ => rfl) (worked_ite _ (worked_refl _) (worked_bump _ (by simp [workKeys]) _))

theorem stepFp_core : (stepFp s n r w last).cores[n] = { s.cores[n] with
    arrA := putM last s.cores[n].arrA (fpWork s r w s.cores[n] 0 s.cores[n].arrA.m).1
    arrB := putM last s.cores[n].arrB (fpWork s r w s.cores[n] 1 s.cores[n].arrB.m).1 } := by
  rw [stepFp_eq, countFlush_cores, modCore_core_same]

end

/-! ### What follows a step -/

/-- The run is at the next step of its tile. -/
structure GoesOn (r r' : TRun) : Prop where
  e : r'.e = r.e
  tile : r'.tile = r.tile
  step : r'.step = r.step + 1
  valid : r'.valid = r.valid
  latchA : r'.latchA = r.latchA
  latchB : r'.latchB = r.latchB
  copyTile : r'.copyTile = r.copyTile

/-- The run is at the first step of the next valid tile. -/
structure NextTile (c : Core) (r r' : TRun) : Prop where
  e : r'.e = r.e
  tile : r.tile < r'.tile
  step : r'.step = 0
  valid : r'.valid = r.valid
  passed : ∀ y, r.tile < y → y < r'.tile → tileValid c r y = false

/-- Only the groups of the run differ. -/
structure SameTile (r r' : TRun) : Prop where
  e : r'.e = r.e
  tile : r'.tile = r.tile
  step : r'.step = r.step
  valid : r'.valid = r.valid
  latchA : r'.latchA = r.latchA
  latchB : r'.latchB = r.latchB
  copyTile : r'.copyTile = r.copyTile

theorem sameTile_endGroup (r : TRun) (w : StepWork) (last : Bool) : SameTile r (endGroup r w last) :=
  ⟨rfl, rfl, rfl, rfl, rfl, rfl, rfl⟩

theorem GoesOn.of_sameTile {r r₁ r' : TRun} (h : GoesOn r₁ r') (same : SameTile r r₁) : GoesOn r r' where
  e := h.e.trans same.e
  tile := h.tile.trans same.tile
  step := by rw [h.step, same.step]
  valid := h.valid.trans same.valid
  latchA := h.latchA.trans same.latchA
  latchB := h.latchB.trans same.latchB
  copyTile := h.copyTile.trans same.copyTile

theorem NextTile.of_same {c : Core} {r r₁ r' : TRun} (h : NextTile c r₁ r') (he : r₁.e = r.e) (ht : r₁.tile = r.tile)
    (hv : r₁.valid = r.valid) : NextTile c r r' where
  e := h.e.trans he
  tile := ht ▸ h.tile
  step := h.step
  valid := h.valid.trans hv
  passed y := by
    have := h.passed y
    rwa [ht, tileValid, he, hv] at this

/-- The run after the last step of a tile. -/
def ontoNextTile (c : Core) (r : TRun) : TRun := { r with tile := nextValid c r (r.tile + 1), step := 0 }

theorem nextTile_ontoNextTile {c : Core} {r : TRun} (h : r.tile < totalTiles c r.e) : NextTile c r (ontoNextTile c r) := by
  obtain ⟨forward, passed⟩ := nextValid_spec c r (r.tile + 1) h
  exact ⟨rfl, forward, rfl, rfl, fun y hy hlt => passed y hy hlt⟩

/-- The run after a step of the integer path that may end its group. -/
def grouped (s : State) (n : Fin 16) (r : TRun) (w : StepWork) (last : Bool) : TRun :=
  if last || nextGroup s.cores[n] r.e r.step != some w.group then endGroup r w last else { r with openGroup := some w.group }

theorem sameTile_grouped (s : State) (n : Fin 16) (r : TRun) (w : StepWork) (last : Bool) : SameTile r (grouped s n r w last) := by
  unfold grouped
  split
  · exact sameTile_endGroup r w last
  · exact ⟨rfl, rfl, rfl, rfl, rfl, rfl, rfl⟩

section
variable (s : State) (n : Fin 16) (r : TRun)

theorem tileStepped_core : (tileStepped s n r).cores[n] = { s.cores[n] with cur := some (ontoNextTile s.cores[n] r) } := by
  rw [tileStepped, goTile, setRun, modCore_core_same, bump_cores, bump_cores]
  rfl

theorem worked_setRun {keys : List Nat} : Worked keys n s (setRun s n r) := worked_modCore s fun _ => rfl

theorem setRun_core : (setRun s n r).cores[n] = { s.cores[n] with cur := some r } := by rw [setRun, modCore_core_same]

theorem worked_tileStepped : Worked (workKeys n) n s (tileStepped s n r) :=
  worked_trans (worked_bump s (by simp [workKeys]) 1) (worked_trans (worked_bump _ (f := R.TSQ_TILES_SKIPPED) (by simp [workKeys]) _)
    (worked_setRun _ n _))

theorem skipFpChecks_cores (e : TEntry) : (skipFpChecks s n e).cores = s.cores := by
  unfold skipFpChecks
  split
  · exact bump_cores _ _ _ _
  · rfl

theorem worked_skipFpChecks (e : TEntry) : Worked (workKeys n) n s (skipFpChecks s n e) :=
  worked_ite _ (worked_trans (worked_drawFree s) (worked_bump _ (by simp [workKeys]) _)) (worked_refl s)

variable (w : StepWork) (last : Bool)

theorem afterStep_int (h : integerPath r.e = true) : afterStep s n r w last =
    if last then tileStepped s n (grouped s n r w last)
    else setRun s n { grouped s n r w last with step := r.step + 1 } := by
  simp only [afterStep, h, if_true]
  rfl

theorem afterStep_fp (h : integerPath r.e = false) : afterStep s n r w last =
    if last then tileStepped (skipFpChecks s n r.e) n (latched r r.tile) else setRun s n { r with step := r.step + 1 } := by
  simp only [afterStep, h, Bool.false_eq_true, if_false]

theorem worked_afterStep : Worked (workKeys n) n s (afterStep s n r w last) := by
  cases h : integerPath r.e with
  | true =>
    rw [afterStep_int s n r w last h]
    exact worked_ite _ (worked_tileStepped s n _) (worked_setRun s n _)
  | false =>
    rw [afterStep_fp s n r w last h]
    exact worked_ite _ (worked_trans (worked_skipFpChecks s n _) (worked_tileStepped _ n _)) (worked_setRun s n _)

/-- Within a tile the run goes on to the next step. -/
theorem afterStep_goesOn : ∃ r', (afterStep s n r w false).cores[n] = { s.cores[n] with cur := some r' } ∧ GoesOn r r' := by
  cases h : integerPath r.e with
  | true =>
    rw [afterStep_int s n r w false h]
    obtain ⟨e, tile, -, valid, latchA, latchB, copyTile⟩ := sameTile_grouped s n r w false
    exact ⟨_, setRun_core s n _, ⟨e, tile, rfl, valid, latchA, latchB, copyTile⟩⟩
  | false =>
    rw [afterStep_fp s n r w false h]
    exact ⟨_, setRun_core s n _, ⟨rfl, rfl, rfl, rfl, rfl, rfl, rfl⟩⟩

/-- After the last step of a tile the run goes to the next valid tile; a floating-point tile is in the latches (R125). -/
theorem afterStep_nextTile (ht : r.tile < totalTiles s.cores[n] r.e) :
    ∃ r', (afterStep s n r w true).cores[n] = { s.cores[n] with cur := some r' } ∧ NextTile s.cores[n] r r' ∧
      (integerPath r.e = false → r'.latchA = some (r.tile, 0) ∧ r'.latchB = some (r.tile, 0)) := by
  cases h : integerPath r.e with
  | true =>
    have same := sameTile_grouped s n r w true
    rw [afterStep_int s n r w true h]
    refine ⟨_, tileStepped_core s n _, ?_, nofun⟩
    exact (nextTile_ontoNextTile (by rw [same.tile, same.e]; exact ht)).of_same same.e same.tile same.valid
  | false =>
    rw [afterStep_fp s n r w true h]
    have onto := tileStepped_core (skipFpChecks s n r.e) n (latched r r.tile)
    rw [skipFpChecks_cores] at onto
    exact ⟨_, onto, (nextTile_ontoNextTile (r := latched r r.tile) ht).of_same rfl rfl rfl, fun _ => ⟨rfl, rfl⟩⟩

end

/-! ### The begin of a step -/

theorem passed_passToCyc (s : State) (t : Nat) : Passed s (passToCyc s t) := passed_ite _ (passed_refl s) (passed_passTime s _)

theorem passed_awaitRamp (s : State) (n : Fin 16) : Passed s (awaitRamp s n) :=
  passed_ite _ (passed_passToCyc s _) (passed_refl s)

theorem awaitRamp_core (s : State) (n : Fin 16) : ∃ cyc, (awaitRamp s n).cores[n] = { s.cores[n] with cyc := cyc } := by
  have still : ∃ cyc, s.cores[n] = { s.cores[n] with cyc := cyc } := ⟨s.cores[n].cyc, rfl⟩
  unfold awaitRamp passToCyc
  dsimp only
  split
  · split
    · exact still
    · exact passTime_core s _ n
  · exact still

/-- Arrays that have ramped up keep no step waiting. -/
theorem awaitRamp_of_complete {s : State} {n : Fin 16} (hu : s.cores[n].ramp.up = true)
    (h : s.cores[n].ramp.start + 4 * (8 - s.cores[n].ramp.groups) ≤ s.clock.cyc) : awaitRamp s n = s := by
  simp only [awaitRamp, hu, if_true]
  exact if_pos (Or.inl h)

/-- The operands of a step have been read and counted, and the step itself is. -/
def entered (s : State) (n : Fin 16) (e : TEntry) (rs : List Span) : State :=
  countStep (noteBusy (countLines s n rs) n) n e

section
variable (s : State) (n : Fin 16) (e : TEntry) (rs : List Span)

theorem countStep_cores : (countStep s n e).cores = s.cores := by
  unfold countStep
  dsimp only
  split <;> simp

theorem entered_core : (entered s n e rs).cores[n] = { s.cores[n] with busyAt := s.clock.cyc } := by
  have clock : (countLines s n rs).clock = s.clock := by
    rw [(sequenced_countLines (List.Subset.refl (readBeatKeys n)) s rs).only]
  rw [entered, countStep_cores, noteBusy, modCore_core_same, countLines_cores, clock]

/-- What is counted of a step beside the step. -/
def countGather (s : State) (n : Fin 16) (e : TEntry) : State :=
  if e.insn.GATHER then bump s R.WIN_GATHER_STEPS n.val 1 else s

theorem countStep_eq : countStep s n e = countGather (bump s R.ARRAY_STEPS n.val 1) n e := rfl

theorem worked_countGather : Worked (workKeys n) n s (countGather s n e) :=
  worked_ite _ (worked_bump s (by simp [workKeys]) 1) (worked_refl s)

theorem worked_read : Worked (workKeys n) n s (noteBusy (countLines s n rs) n) :=
  worked_trans (worked_of_sequenced (sequenced_countLines (List.subset_append_right _ _) s rs) (countLines_cores s n rs))
    (worked_modCore _ fun _ => rfl)

end

theorem worked_mono {keys more : List Nat} {n : Fin 16} {s t : State} (h : Worked keys n s t) (hm : keys ⊆ more) :
    Worked more n s t :=
  ⟨h.only, h.core, h.others, regsKept_mono h.regs hm⟩

theorem stepsKey_apart : ∀ n : Fin 16, regKey R.ARRAY_STEPS n.val ∉ workKeys n := by decide

section
variable (s : State) (n : Fin 16) (e : TEntry) (rs : List Span)

theorem worked_entered : Worked (regKey R.ARRAY_STEPS n.val :: workKeys n) n s (entered s n e rs) := by
  have more := List.subset_cons_self (regKey R.ARRAY_STEPS n.val) (workKeys n)
  exact worked_trans (worked_mono (worked_read s n rs) more)
    (worked_trans (worked_bump _ List.mem_cons_self 1) (worked_mono (worked_countGather _ n e) more))

theorem rd_entered_steps :
    rd (entered s n e rs) R.ARRAY_STEPS n.val = (rd s R.ARRAY_STEPS n.val + 1) % 2 ^ 64 := by
  rw [entered, countStep_eq, (worked_countGather _ n e).regs _ _ (stepsKey_apart n), rd_bump_wraps _ _ _ _ rfl,
    (worked_read s n rs).regs _ _ (stepsKey_apart n)]
  rfl

end

/-! ### A reduction step -/

/-- The operand bytes of a step and of what it leaves to the next group. -/
def readSpans (c : Core) (r : TRun) (w : StepWork) : List Span :=
  stepSpans c r.e (tileAt c r.e r.tile).1 (tileAt c r.e r.tile).2.1 (tileAt c r.e r.tile).2.2 w (r.openGroup != some w.group) ++
    (match stepRest r.e w with
      | some v => stepSpans c r.e (tileAt c r.e r.tile).1 (tileAt c r.e r.tile).2.1 (tileAt c r.e r.tile).2.2 v true
      | none => [])

/-- The work of a step in its group, and of the rest of it in the next one. -/
def performed (s : State) (n : Fin 16) (r : TRun) (w : StepWork) (last : Bool) : State :=
  if !integerPath r.e then afterStep (stepFp s n r w last) n r w last
  else
    match stepRest r.e w with
    | none => afterStep (stepInt s n r w) n r w last
    | some v => afterStep (stepInt (stepInt s n r w) n (endGroup r w false) v) n (endGroup r w false) v last

/-- The run has a step to feed. -/
structure Feeding (s : State) (n : Fin 16) (r : TRun) : Prop where
  run : s.cores[n].cur = some r
  feeds : feeds s.cores[n] = true
  arrays : r.e.op.reducer = false
  tile : r.tile < totalTiles s.cores[n] r.e
  step : r.step < stepsOf s.cores[n] r.e

/-- The step need not wait for a close or for a latch. -/
structure Unblocked (c : Core) (r : TRun) (w : StepWork) : Prop where
  opens : integerPath r.e = true → r.openGroup = some w.group ∨ ∀ q ∈ r.closes, q.bank ≠ r.bank
  rest : integerPath r.e = true → stepRest r.e w = none ∨ ∀ q ∈ r.closes, q.bank = r.bank
  latches : integerPath r.e = false → r.step + 1 = stepsOf c r.e → r.latchA = none ∧ r.latchB = none

theorem Unblocked.not_waits {c : Core} {r : TRun} {w : StepWork} (h : Unblocked c r w) :
    (bankWaits r (r.openGroup != some w.group) (stepRest r.e w).isSome ||
      (!integerPath r.e && (r.step + 1 == stepsOf c r.e) && !latchesFree r)) = false := by
  obtain ⟨opens, rest, latches⟩ := h
  cases hp : integerPath r.e with
  | true =>
    have first : ((r.openGroup != some w.group) && r.closes.any fun q => q.bank == r.bank) = false := by
      rcases opens hp with h | h
      · simp [h]
      · exact Bool.and_eq_false_iff.mpr (Or.inr (List.any_eq_false.mpr fun q hq => by simpa using h q hq))
    have second : ((stepRest r.e w).isSome && r.closes.any fun q => q.bank != r.bank) = false := by
      rcases rest hp with h | h
      · simp [h]
      · exact Bool.and_eq_false_iff.mpr (Or.inr (List.any_eq_false.mpr fun q hq => by simpa using h q hq))
    simp [bankWaits, hp, first, second]
  | false =>
    by_cases hl : r.step + 1 = stepsOf c r.e
    · obtain ⟨ha, hb⟩ := latches hp hl
      simp [bankWaits, hp, latchesFree, ha, hb]
    · simp [bankWaits, hp, hl]

section
variable {s : State} {n : Fin 16} {r : TRun} (h : Feeding s n r)
include h

/-- A bubble only counts (R241). -/
theorem reductionStep_bubble (hw : stepWork s.cores[n] r.e r.step = none) : reductionStep n s =
    setRun (bump (bump (noteBusy s n) R.ARRAY_STEPS n.val 1) R.WIN_BUBBLES n.val 1) n { r with step := r.step + 1 } := by
  obtain ⟨run, feeds, arrays, tile, step⟩ := h
  simp only [reductionStep, run, feeds, arrays, hw, Bool.not_true, Bool.or_false, Bool.false_or, decide_eq_true_eq,
    if_neg (not_le.mpr tile), if_neg (Nat.ne_of_gt (Nat.zero_lt_of_lt step))]

/-- A step whose operands are free of errors: they are read once the arrays have ramped up, and the work is performed. -/
theorem reductionStep_clean {w : StepWork} (hw : stepWork s.cores[n] r.e r.step = some w) (free : Unblocked s.cores[n] r w)
    (clean : cleanSpans s (readSpans s.cores[n] r w)) : reductionStep n s =
    performed (entered (awaitRamp s n) n r.e (readSpans s.cores[n] r w)) n r w (r.step + 1 == stepsOf s.cores[n] r.e) := by
  obtain ⟨run, feeds, arrays, tile, step⟩ := h
  have kept : cleanSpans (awaitRamp s n) (readSpans s.cores[n] r w) := by
    rw [cleanSpans, (passed_awaitRamp s n).only]
    exact clean
  have enter : reductionStep n s =
      let o := operandRead (awaitRamp s n) n (readSpans s.cores[n] r w)
      if o.2 then tensorFault (noteBusy o.1 n) n .poisonOperand {} r r.tile
      else performed (countStep (noteBusy o.1 n) n r.e) n r w (r.step + 1 == stepsOf s.cores[n] r.e) := by
    simp only [reductionStep, run, feeds, arrays, hw, Bool.not_true, Bool.or_false, Bool.false_or, decide_eq_true_eq,
      if_neg (not_le.mpr tile), if_neg (Nat.ne_of_gt (Nat.zero_lt_of_lt step)), free.not_waits, Bool.false_eq_true, if_false]
    rfl
  rw [enter, operandRead_clean kept]
  rfl

end

/-! ### What the work of a step leaves -/

/-- The run after a step of the instruction: at the next step of the tile, or at the next valid tile. -/
structure RunAfter (c : Core) (r r' : TRun) (last : Bool) : Prop where
  goesOn : last = false → GoesOn r r'
  nextTile : last = true → NextTile c r r'
  latched : last = true → integerPath r.e = false → r'.latchA = some (r.tile, 0) ∧ r'.latchB = some (r.tile, 0)

theorem afterStep_run (s : State) (n : Fin 16) (r : TRun) (w : StepWork) (last : Bool) (ht : r.tile < totalTiles s.cores[n] r.e) :
    ∃ r', (afterStep s n r w last).cores[n] = { s.cores[n] with cur := some r' } ∧ RunAfter s.cores[n] r r' last := by
  cases last with
  | false =>
    obtain ⟨r', core, goes⟩ := afterStep_goesOn s n r w
    exact ⟨r', core, fun _ => goes, nofun, nofun⟩
  | true =>
    obtain ⟨r', core, next, latched⟩ := afterStep_nextTile s n r w ht
    exact ⟨r', core, nofun, fun _ => next, fun _ => latched⟩

theorem RunAfter.of_same {c d : Core} {r r₁ r' : TRun} {last : Bool} (h : RunAfter d r₁ r' last) (operands : SameOperands c d)
    (same : SameTile r r₁) : RunAfter c r r' last where
  goesOn hl := (h.goesOn hl).of_sameTile same
  nextTile hl := by
    have next := (h.nextTile hl).of_same same.e same.tile same.valid
    refine ⟨next.e, next.tile, next.step, next.valid, fun y hy hlt => ?_⟩
    rw [← next.passed y hy hlt, tileValid, tileValid, tilesN_congr operands]
  latched hl hp := by
    have := h.latched hl (by rw [same.e]; exact hp)
    rwa [same.tile] at this

/-- What the work of a step, begun in `v`, leaves: its counters, and the core with its arrays and its run. -/
structure Performed (v : State) (n : Fin 16) (r : TRun) (last : Bool) (a b : ArraySt) (t : State) : Prop where
  worked : Worked (workKeys n) n v t
  core : ∃ r', t.cores[n] = { v.cores[n] with arrA := a, arrB := b, cur := some r' } ∧ RunAfter v.cores[n] r r' last

section
variable {v : State} {n : Fin 16} {r : TRun} {last : Bool}

theorem performed_afterStep {x : State} {a b : ArraySt} {r₁ : TRun} (w : StepWork) (ht : r.tile < totalTiles v.cores[n] r.e)
    (worked : Worked (workKeys n) n v x) (hx : x.cores[n] = { v.cores[n] with arrA := a, arrB := b }) (same : SameTile r r₁) :
    Performed v n r last a b (afterStep x n r₁ w last) := by
  have operands := worked.operands.1
  obtain ⟨r', core, run⟩ := afterStep_run x n r₁ w last (by rw [totalTiles_congr operands, same.tile, same.e]; exact ht)
  exact ⟨worked_trans worked (worked_afterStep x n r₁ w last), r', by rw [core, hx], run.of_same operands same⟩

theorem sameTile_refl (r : TRun) : SameTile r r := ⟨rfl, rfl, rfl, rfl, rfl, rfl, rfl⟩

theorem intWork_congr {s : State} {c : Core} (operands : SameOperands c v.cores[n]) (mem : v.mem = s.mem) (w : StepWork) (a : Nat)
    (x : ArraySt) : intWork v r w v.cores[n] a x = intWork s r w c a x := by
  simp only [intWork, tileAt_congr operands, actInt_congr operands mem, wgtInt_congr operands mem]

theorem fpWork_congr {s : State} {c : Core} (operands : SameOperands c v.cores[n]) (mem : v.mem = s.mem) (w : StepWork) (a : Nat)
    (m : List (List W32)) : fpWork v r w v.cores[n] a m = fpWork s r w c a m := by
  simp only [fpWork, tileAt_congr operands, actFp_congr operands mem, wgtFp_congr operands mem]

/-- An array after the integer work of a step: that in its group, and that of the rest in the next one. -/
def intWorks (s : State) (c : Core) (r : TRun) (w : StepWork) (a : Nat) (x : ArraySt) : ArraySt :=
  match stepRest r.e w with
  | none => (intWork s r w c a x).1
  | some y => (intWork s (endGroup r w false) y c a (intWork s r w c a x).1).1

variable {s : State} {c : Core} (operands : SameOperands c v.cores[n]) (mem : v.mem = s.mem)
  (arrA : v.cores[n].arrA = c.arrA) (arrB : v.cores[n].arrB = c.arrB) (ht : r.tile < totalTiles v.cores[n] r.e) (w : StepWork)
include operands mem arrA arrB ht

theorem performed_int (hp : integerPath r.e = true) :
    Performed v n r last (intWorks s c r w 0 c.arrA) (intWorks s c r w 1 c.arrB) (performed v n r w last) := by
  have first := stepInt_core v n r w
  rw [intWork_congr operands mem, intWork_congr operands mem, arrA, arrB] at first
  simp only [performed, hp, Bool.not_true, Bool.false_eq_true, if_false, intWorks]
  cases stepRest r.e w with
  | none => exact performed_afterStep w ht (worked_stepInt v n r w) first (sameTile_refl r)
  | some y =>
    have operands' : SameOperands c (stepInt v n r w).cores[n] := by
      rw [first]
      exact ⟨operands.t, operands.plan⟩
    have mem' := (worked_stepInt v n r w).operands.2.trans mem
    have second := stepInt_core (stepInt v n r w) n (endGroup r w false) y
    rw [intWork_congr operands' mem', intWork_congr operands' mem', first] at second
    exact performed_afterStep y ht (worked_trans (worked_stepInt v n r w) (worked_stepInt _ n _ y)) second
      (sameTile_endGroup r w false)

theorem performed_fp (hp : integerPath r.e = false) :
    Performed v n r last (putM last c.arrA (fpWork s r w c 0 c.arrA.m).1) (putM last c.arrB (fpWork s r w c 1 c.arrB.m).1)
      (performed v n r w last) := by
  have step := stepFp_core v n r w last
  rw [fpWork_congr operands mem, fpWork_congr operands mem, arrA, arrB] at step
  simp only [performed, hp, Bool.not_false, if_true]
  exact performed_afterStep w ht (worked_stepFp v n r w last) step (sameTile_refl r)

end

/-! ### The group accumulators and M after a step -/

/-- The products of a step's elements in cell (p, q) of array `a`. -/
def gain (s : State) (c : Core) (r : TRun) (w : StepWork) (a p q : Nat) : Int :=
  ((stepKs w).map fun k =>
    actInt s c r.e (tileAt c r.e r.tile).1 (tileAt c r.e r.tile).2.1 (tileAt c r.e r.tile).2.2 w (p % tileRows r.e) k *
      wgtInt s c r.e (tileAt c r.e r.tile).1 (tileAt c r.e r.tile).2.2 w a (p / tileRows r.e) q k).sum

/-- Cell (p, q) of bank `k`. -/
def cell (x : ArraySt) (k : Bool) (p q : Nat) : Int := ((bankOf x k).getD p []).getD q 0

section
variable (s : State) (c : Core) (r : TRun) (w : StepWork) (a : Nat) (x : ArraySt) {p q : Nat} (hp : p < 128) (hq : q < 128)

theorem cell_intWork_other : cell (intWork s r w c a x).1 (!r.bank) p q = cell x (!r.bank) p q := by
  rw [cell, intWork, intStep_other, cell]

include hp hq

theorem cell_intWork : cell (intWork s r w c a x).1 r.bank p q =
    clampInt (cell x r.bank p q + gain s c r w a p q) (-(2 ^ 23)) (2 ^ 23 - 1) :=
  intStep_cell r.e _ _ _ r.bank x hp hq

/-- The bank of the step's group takes its products, whatever is left of the step. -/
theorem cell_intWorks : cell (intWorks s c r w a x) r.bank p q =
    clampInt (cell x r.bank p q + gain s c r w a p q) (-(2 ^ 23)) (2 ^ 23 - 1) := by
  unfold intWorks
  cases stepRest r.e w with
  | none => exact cell_intWork s c r w a x hp hq
  | some y =>
    have kept := cell_intWork_other s c (endGroup r w false) y a (intWork s r w c a x).1 (p := p) (q := q)
    rw [endGroup, Bool.not_not] at kept
    exact kept.trans (cell_intWork s c r w a x hp hq)

/-- The other bank takes the products of the rest of the step. -/
theorem cell_intWorks_rest {y : StepWork} (hy : stepRest r.e w = some y) : cell (intWorks s c r w a x) (!r.bank) p q =
    clampInt (cell x (!r.bank) p q + gain s c r y a p q) (-(2 ^ 23)) (2 ^ 23 - 1) := by
  have taken := cell_intWork s c (endGroup r w false) y a (intWork s r w c a x).1 hp hq
  rw [endGroup, cell_intWork_other] at taken
  simp only [intWorks, hy]
  exact taken

end

/-! ### The frame of a step -/

theorem cores_eq_set {s t : State} {n : Fin 16} (others : ∀ m : Fin 16, m ≠ n → t.cores[m] = s.cores[m]) :
    t.cores = s.cores.set n t.cores[n] := by
  apply Vector.ext
  intro i hi
  by_cases h : n.val = i
  · subst h
    exact (Vector.getElem_set_self n.isLt).symm
  · rw [Vector.getElem_set_ne n.isLt hi h]
    exact others ⟨i, hi⟩ fun e => h (congrArg Fin.val e).symm

theorem worked_frame {keys : List Nat} {n : Fin 16} {s t : State} (h : Worked keys n s t) {cyc : Nat} (hb : t.cores[n].busyAt = cyc) :
    t = { s with
      cores := s.cores.set n { s.cores[n] with arrA := t.cores[n].arrA, arrB := t.cores[n].arrB, cur := t.cores[n].cur, busyAt := cyc }
      regs := t.regs, freeCtr := t.freeCtr, logQ := t.logQ, logLost := t.logLost } := by
  obtain ⟨only, core, others, -⟩ := h
  rw [← hb, ← core, ← cores_eq_set others]
  exact only

/-- A bubble step changes the run, the c-cycle of the last work and registers alone (R241). -/
theorem bubble_frame (s : State) (n : Fin 16) (r : TRun) :
    let t := setRun (bump (bump (noteBusy s n) R.ARRAY_STEPS n.val 1) R.WIN_BUBBLES n.val 1) n r
    t = { s with cores := s.cores.set n { s.cores[n] with cur := some r, busyAt := s.clock.cyc }, regs := t.regs } := by
  have twice : modCore (noteBusy s n) n (fun c => { c with cur := some r }) =
      modCore s n fun c => { c with cur := some r, busyAt := s.clock.cyc } := modCore_modCore s n _ _
  exact congrArg (fun u : State => { u with regs := (bump (bump (noteBusy s n) R.ARRAY_STEPS n.val 1) R.WIN_BUBBLES n.val 1).regs }) twice

theorem rd_bubble (s : State) (n : Fin 16) (r : TRun) :
    rd (setRun (bump (bump (noteBusy s n) R.ARRAY_STEPS n.val 1) R.WIN_BUBBLES n.val 1) n r) R.ARRAY_STEPS n.val =
      (rd s R.ARRAY_STEPS n.val + 1) % 2 ^ 64 := by
  rw [setRun, rd_modCore, rd_bump_other _ _ _ _ _ _ (regKey_ne_of_id _ _ _ _ (by decide) (by decide) (by decide)),
    rd_bump_wraps _ _ _ _ rfl]
  rfl

/-- What is counted of a bubble step. -/
theorem bubble_regsKept (s : State) (n : Fin 16) (r : TRun) :
    RegsKept s (setRun (bump (bump (noteBusy s n) R.ARRAY_STEPS n.val 1) R.WIN_BUBBLES n.val 1) n r)
      [regKey R.ARRAY_STEPS n.val, regKey R.WIN_BUBBLES n.val] :=
  regsKept_trans (regsKept_bump (noteBusy s n) 1 List.mem_cons_self)
    (regsKept_bump _ 1 (List.mem_cons_of_mem _ List.mem_cons_self))

/-- Core `n` has performed a step, begun in `u`, in which its arrays have ramped up: they are `a` and `b` now. -/
structure Stepped (s u : State) (n : Fin 16) (r : TRun) (last : Bool) (a b : ArraySt) (t : State) : Prop where
  worked : Worked (regKey R.ARRAY_STEPS n.val :: workKeys n) n u t
  busyAt : t.cores[n].busyAt = u.clock.cyc
  steps : rd t R.ARRAY_STEPS n.val = (rd s R.ARRAY_STEPS n.val + 1) % 2 ^ 64
  arrA : t.cores[n].arrA = a
  arrB : t.cores[n].arrB = b
  run : ∃ r', t.cores[n].cur = some r' ∧ RunAfter s.cores[n] r r' last

/-- The state in which the operands of a step have been read. -/
def readied (s : State) (n : Fin 16) (r : TRun) (w : StepWork) : State :=
  entered (awaitRamp s n) n r.e (readSpans s.cores[n] r w)

theorem readied_core (s : State) (n : Fin 16) (r : TRun) (w : StepWork) : ∃ cyc, (readied s n r w).cores[n] =
    { s.cores[n] with cyc := cyc, busyAt := (awaitRamp s n).clock.cyc } := by
  obtain ⟨cyc, core⟩ := awaitRamp_core s n
  exact ⟨cyc, by rw [readied, entered_core, core]⟩

theorem mem_readied (s : State) (n : Fin 16) (r : TRun) (w : StepWork) : (readied s n r w).mem = s.mem := by
  rw [readied, (worked_entered _ n _ _).only, (passed_awaitRamp s n).only]

theorem rd_awaitRamp_steps (s : State) (n : Fin 16) : rd (awaitRamp s n) R.ARRAY_STEPS n.val = rd s R.ARRAY_STEPS n.val :=
  (passed_awaitRamp s n).regs _ _ (by decide)

theorem stepped_of_performed {s : State} {n : Fin 16} {r : TRun} {w : StepWork} {last : Bool} {a b : ArraySt} {t : State}
    (h : Performed (readied s n r w) n r last a b t) : Stepped s (awaitRamp s n) n r last a b t := by
  obtain ⟨worked, r', core, run⟩ := h
  obtain ⟨cyc, before⟩ := readied_core s n r w
  have operands : SameOperands s.cores[n] (readied s n r w).cores[n] := by
    rw [before]
    exact ⟨rfl, rfl⟩
  refine ⟨worked_trans (worked_entered _ n _ _) (worked_mono worked (List.subset_cons_self _ _)), ?_, ?_, ?_, ?_, r', ?_,
    run.of_same operands (sameTile_refl r)⟩
  · rw [core, before]
  · rw [worked.regs _ _ (stepsKey_apart n), readied, rd_entered_steps, rd_awaitRamp_steps]
  · rw [core]
  · rw [core]
  · rw [core]

section
variable {s : State} {n : Fin 16} {r : TRun} (h : Feeding s n r) {w : StepWork} (hw : stepWork s.cores[n] r.e r.step = some w)
  (free : Unblocked s.cores[n] r w) (clean : cleanSpans s (readSpans s.cores[n] r w))
include h hw free clean

/-- A reduction step of the integer path (R160). -/
theorem reductionStep_int (hp : integerPath r.e = true) :
    Stepped s (awaitRamp s n) n r (r.step + 1 == stepsOf s.cores[n] r.e) (intWorks s s.cores[n] r w 0 s.cores[n].arrA)
      (intWorks s s.cores[n] r w 1 s.cores[n].arrB) (reductionStep n s) := by
  obtain ⟨cyc, before⟩ := readied_core s n r w
  rw [reductionStep_clean h hw free clean]
  refine stepped_of_performed (performed_int ?_ (mem_readied s n r w) ?_ ?_ ?_ w hp)
  · rw [before]
    exact ⟨rfl, rfl⟩
  · rw [before]
  · rw [before]
  · rw [before]
    exact h.tile

/-- A reduction step of the floating-point path (R164). -/
theorem reductionStep_fp (hp : integerPath r.e = false) :
    Stepped s (awaitRamp s n) n r (r.step + 1 == stepsOf s.cores[n] r.e)
      (putM (r.step + 1 == stepsOf s.cores[n] r.e) s.cores[n].arrA (fpWork s r w s.cores[n] 0 s.cores[n].arrA.m).1)
      (putM (r.step + 1 == stepsOf s.cores[n] r.e) s.cores[n].arrB (fpWork s r w s.cores[n] 1 s.cores[n].arrB.m).1)
      (reductionStep n s) := by
  obtain ⟨cyc, before⟩ := readied_core s n r w
  rw [reductionStep_clean h hw free clean]
  refine stepped_of_performed (performed_fp ?_ (mem_readied s n r w) ?_ ?_ ?_ w hp)
  · rw [before]
    exact ⟨rfl, rfl⟩
  · rw [before]
  · rw [before]
  · rw [before]
    exact h.tile

end

/-- The rest of a step reads its operands with those of the step. -/
theorem clean_readSpans {s : State} {c : Core} {r : TRun} {w : StepWork}
    (first : cleanSpans s (stepSpans c r.e (tileAt c r.e r.tile).1 (tileAt c r.e r.tile).2.1 (tileAt c r.e r.tile).2.2 w
      (r.openGroup != some w.group)))
    (rest : ∀ v, stepRest r.e w = some v →
      cleanSpans s (stepSpans c r.e (tileAt c r.e r.tile).1 (tileAt c r.e r.tile).2.1 (tileAt c r.e r.tile).2.2 v true)) :
    cleanSpans s (readSpans c r w) := by
  intro x hx sp hsp
  rcases List.mem_append.mp hsp with hsp | hsp
  · exact first x hx sp hsp
  · cases hv : stepRest r.e w with
    | none =>
      rw [hv] at hsp
      cases hsp
    | some v =>
      rw [hv] at hsp
      exact rest v hv x hx sp hsp

/-- An array after the work of a step, on either path. -/
def stepArray (s : State) (c : Core) (r : TRun) (w : StepWork) (last : Bool) (a : Nat) (x : ArraySt) : ArraySt :=
  if integerPath r.e then intWorks s c r w a x else putM last x (fpWork s r w c a x.m).1

section
variable {s : State} {n : Fin 16} {r : TRun} {w : StepWork}

theorem reductionStep_stepped (h : Feeding s n r) (hw : stepWork s.cores[n] r.e r.step = some w)
    (free : Unblocked s.cores[n] r w) (clean : cleanSpans s (readSpans s.cores[n] r w)) :
    Stepped s (awaitRamp s n) n r (r.step + 1 == stepsOf s.cores[n] r.e)
      (stepArray s s.cores[n] r w (r.step + 1 == stepsOf s.cores[n] r.e) 0 s.cores[n].arrA)
      (stepArray s s.cores[n] r w (r.step + 1 == stepsOf s.cores[n] r.e) 1 s.cores[n].arrB) (reductionStep n s) := by
  unfold stepArray
  split
  next hp => exact reductionStep_int h hw free clean hp
  next hp => exact reductionStep_fp h hw free clean (Bool.eq_false_iff.mpr hp)

variable (c : Core) (last : Bool) (a : Nat) (x : ArraySt) {p q : Nat} (hp : p < 128) (hq : q < 128)
include hp hq

theorem cell_stepArray (h : integerPath r.e = true) : cell (stepArray s c r w last a x) r.bank p q =
    clampInt (cell x r.bank p q + gain s c r w a p q) (-(2 ^ 23)) (2 ^ 23 - 1) := by
  rw [stepArray, if_pos h, cell_intWorks s c r w a x hp hq]

theorem cell_stepArray_rest (h : integerPath r.e = true) {v : StepWork} (hv : stepRest r.e w = some v) :
    cell (stepArray s c r w last a x) (!r.bank) p q =
      clampInt (cell x (!r.bank) p q + gain s c r v a p q) (-(2 ^ 23)) (2 ^ 23 - 1) := by
  rw [stepArray, if_pos h, cell_intWorks_rest s c r w a x hp hq hv]

/-- M of a cell after a floating-point step, in the latch when the step is the tile's last (R125, R164). -/
theorem m_stepArray (h : integerPath r.e = false) {P : Prop} [Decidable P] (hl : last = true ↔ P) :
    ((if P then (stepArray s c r w last a x).latch else (stepArray s c r w last a x).m).getD p []).getD q 0 =
      fp32Of (fpAdd (fvOf ((x.m.getD p []).getD q 0))
        (fpMul (actFp s c r.e (tileAt c r.e r.tile).1 (tileAt c r.e r.tile).2.1 (tileAt c r.e r.tile).2.2 w (p % tileRows r.e) w.k)
          (wgtFp s c r.e (tileAt c r.e r.tile).1 (tileAt c r.e r.tile).2.2 w a (p / tileRows r.e) q w.k))) := by
  rw [← if_congr hl rfl rfl, stepArray, h, if_neg Bool.false_ne_true, putM_m]
  exact fpStep_cell r.e _ _ x.m hp hq

end

/-- Settles O25. The start is `started`, with the order of the ramps in `rampUp_start_next`; a step is `reductionStep_stepped`, whose
arrays are described cell by cell. -/
theorem tensorRunsAndReductions : Obligations.TensorRunsAndReductions := by
  unfold Obligations.TensorRunsAndReductions
  refine ⟨fun n s => ⟨fun e rest hq hc hf hm => ?_, fun h => ?_, fun r hr hmode => ⟨fun ht hcl ha hb hcopy => ?_, fun h => ?_⟩,
    fun hp ha hb hw hu => ?_, fun h => ?_, arrays_idle_of_no_run,
    fun r hr => ⟨arrays_idle_of_reducer hr, willFeed_iff hr, arrayBusy_iff hr⟩⟩, ?_, ?_⟩
  · obtain ⟨⟨only, regs⟩, core, others, insn, shape, still, ramps⟩ := started s n e rest
    exact ⟨_, congrArg Host.Outcome.next (tensorStart_eq hq hc hf hm), only, core, others, regsKept_mono regs (startKeys_listed n),
      insn, shape, still, ramps⟩
  · exact congrArg Host.Outcome.next (tensorStart_waits h)
  · exact congrArg Host.Outcome.next (tensorDone_finishes hr hmode ((computed_iff _ r).mpr ⟨ht, hcl, ha, hb⟩)
      ((nextCopy_none_iff _ r).mpr hcopy))
  · exact congrArg Host.Outcome.next (tensorDone_waits hr (not_computed_of_left h))
  · exact congrArg Host.Outcome.next (arrayGateIdle_ramps_down hp ha hb hw hu)
  · exact congrArg Host.Outcome.next (arrayGateIdle_waits h)
  · intro n r s c run feeds arrays tile step hw
    exact ⟨_, congrArg Host.Outcome.next (reductionStep_bubble ⟨run, feeds, arrays, tile, step⟩ hw), bubble_frame s n _,
      bubble_regsKept s n _, rd_bubble s n _⟩
  · intro n r w s c e last b mt nt run feeds arrays tile step hw clean cleanRest opens rest latches
    obtain ⟨worked, busyAt, steps, arrA, arrB, r', cur, after⟩ := reductionStep_stepped ⟨run, feeds, arrays, tile, step⟩ hw
      ⟨opens, rest, latches⟩ (clean_readSpans clean cleanRest)
    refine ⟨⟨_, rfl, worked_frame worked busyAt, worked.regs, steps, fun hp => ⟨fun p q hpl hql => ?_, fun v hv p q hpl hql => ?_⟩,
      fun hp p q hpl hql => ?_, fun hl => ⟨r', cur, ?_⟩, fun hl => ⟨r', cur, ?_⟩⟩, awaitRamp_of_complete⟩
    · rw [arrA, arrB]
      exact ⟨cell_stepArray _ _ 0 _ hpl hql hp, cell_stepArray _ _ 1 _ hpl hql hp⟩
    · rw [arrA, arrB]
      exact ⟨cell_stepArray_rest _ _ 0 _ hpl hql hp hv, cell_stepArray_rest _ _ 1 _ hpl hql hp hv⟩
    · rw [arrA, arrB]
      exact ⟨m_stepArray _ _ 0 _ hpl hql hp beq_iff_eq, m_stepArray _ _ 1 _ hpl hql hp beq_iff_eq⟩
    · obtain ⟨e, tile, step, valid, latchA, latchB, copyTile⟩ := after.goesOn (beq_eq_false_iff_ne.mpr hl)
      exact ⟨e, tile, step, valid, latchA, latchB, copyTile⟩
    · obtain ⟨e, tile, step, valid, passed⟩ := after.nextTile (beq_iff_eq.mpr hl)
      exact ⟨e, tile, step, valid, passed, after.latched (beq_iff_eq.mpr hl)⟩

end Sys2Proof.TensorRuns

/-! ## Vector registers, lane by lane, and what a vector instruction counts (R156, R157, R174, R190, R195) -/

namespace Sys2Proof.Lanes

open Sys2Proof.Machine Sys2Proof.Laws Sys2Proof.HostAccess Sys2Proof.TensorRuns

/-! ### Lanes -/

/-- A digit of a number written from its digits. -/
theorem ofDigits_div_mod {b : Nat} (hb : 0 < b) (l : List Nat) (hl : ∀ x ∈ l, x < b) (i : Nat) :
    Nat.ofDigits b l / b ^ i % b = l.getD i 0 := by
  induction l generalizing i with
  | nil => simp
  | cons d l ih =>
    have hd : d < b := hl d List.mem_cons_self
    rw [Nat.ofDigits_cons]
    cases i with
    | zero => simp [Nat.mod_eq_of_lt hd]
    | succ i =>
      rw [pow_succ', ← Nat.div_div_eq_div_mul, Nat.add_mul_div_left _ _ hb, Nat.div_eq_of_lt hd, zero_add,
        ih (fun x hx => hl x (List.mem_cons_of_mem d hx)), List.getD_cons_succ]

theorem ofLanes_eq (f : Nat → W32) :
    ofLanes f = BitVec.ofNat 4096 (Nat.ofDigits (2 ^ 32) ((List.range 128).map fun i => (f i).toNat)) := by
  rw [ofLanes, Nat.ofDigits_eq_foldr, List.foldr_map]
  rfl

/-- Lane i of the register made of the lanes `f` is `f i`. -/
theorem laneOf_ofLanes (f : Nat → W32) {i : Nat} (hi : i < 128) : laneOf (ofLanes f) i = f i := by
  have digit : Nat.ofDigits (2 ^ 32) ((List.range 128).map fun i => (f i).toNat) / (2 ^ 32) ^ i % 2 ^ 32 = (f i).toNat := by
    rw [ofDigits_div_mod (by norm_num) _ fun x hx => by obtain ⟨i, -, rfl⟩ := List.mem_map.mp hx; exact (f i).isLt]
    exact getD_map_range _ _ hi
  apply BitVec.eq_of_getLsbD_eq
  intro j hj
  have inside : 32 * i + j < 4096 := by omega
  rw [laneOf, ofLanes_eq, BitVec.getLsbD_extractLsb', BitVec.getLsbD_ofNat, BitVec.getLsbD, ← digit, ← pow_mul,
    Nat.testBit_mod_two_pow, Nat.testBit_div_two_pow, Nat.add_comm j]
  simp only [inside, decide_true, Bool.true_and]

theorem vGet_vSet (c : Core) (i j : BitVec 5) (v : BitVec 4096) : vGet (vSet c i v) j = if j = i then v else vGet c j := by
  unfold vGet vSet
  by_cases h : j = i
  · subst h
    simp
  · rw [if_neg h]
    exact Vector.getElem_set_ne i.isLt j.isLt fun e => h (BitVec.eq_of_toNat_eq e.symm)

/-! ### What the lanes of an instruction count -/

/-- What the counts of the lanes' results change: NUM_FLUSH, NUM_NONFINITE, the note that the latter has been logged in this job,
and the log (R156, R157, R174). -/
structure Counted (n : Fin 16) (s u : State) : Prop where
  only : u = { s with cores := u.cores, regs := u.regs, freeCtr := u.freeCtr, logQ := u.logQ, logLost := u.logLost }
  core : u.cores = s.cores.set n { s.cores[n] with satLogged := u.cores[n].satLogged }
  regs : RegsKept s u [regKey R.NUM_FLUSH n.val, regKey R.NUM_NONFINITE n.val, regKey R.LOG_QDROP_DATA 0]
  mgmt : u.logQ[planeMgmt] = s.logQ[planeMgmt]
  ctrl : u.logQ[planeCtrl] = s.logQ[planeCtrl]

/-- A state that differs in no core and in no queue of the log. -/
theorem counted_of_cores {n : Fin 16} {s u : State}
    (only : u = { s with regs := u.regs, freeCtr := u.freeCtr })
    (regs : RegsKept s u [regKey R.NUM_FLUSH n.val, regKey R.NUM_NONFINITE n.val, regKey R.LOG_QDROP_DATA 0]) : Counted n s u := by
  refine ⟨?_, ?_, regs, ?_, ?_⟩
  all_goals rw [only]
  exact (Vector.set_getElem_self n.isLt).symm

theorem counted_refl (n : Fin 16) (s : State) : Counted n s s := counted_of_cores rfl (regsKept_of_regs _ rfl rfl)

theorem counted_trans {n : Fin 16} {s t u : State} (h : Counted n s t) (h' : Counted n t u) : Counted n s u := by
  refine ⟨?_, ?_, regsKept_trans h.regs h'.regs, h'.mgmt.trans h.mgmt, h'.ctrl.trans h.ctrl⟩
  · rw [h'.only, h.only]
  · rw [h'.core, h.core]
    simp

theorem counted_bump (n : Fin 16) (s : State) {f : RegField} {i : Nat} (v : Nat)
    (hf : regKey f i ∈ [regKey R.NUM_FLUSH n.val, regKey R.NUM_NONFINITE n.val, regKey R.LOG_QDROP_DATA 0]) :
    Counted n s (bump s f i v) := by
  refine counted_of_cores ?_ (regsKept_bump s v hf)
  rcases bump_cases s f i v with ⟨x, h⟩ | ⟨x, h⟩ <;> rw [h] <;> rfl

theorem counted_satLogged (n : Fin 16) (s : State) (b : Core → BitVec 3) :
    Counted n s (modCore s n fun c => { c with satLogged := b c }) := by
  refine ⟨rfl, ?_, regsKept_of_regs _ rfl rfl, rfl, rfl⟩
  rw [modCore_core_same]
  rfl

/-- An entry that arrives at the data plane leaves the queues of the other planes. -/
theorem logPush_data_other (s : State) (e : LogEntry) {p : Fin 3} (h : p ≠ planeData) :
    (logPush s planeData e).logQ[p] = s.logQ[p] := by
  unfold logPush
  split
  · exact Vector.getElem_set_ne planeData.isLt p.isLt fun he => h (Fin.ext he.symm)
  · simp only [bump_logQ]

theorem counted_logIt (n : Fin 16) (s : State) (cls detail sev unit arg0 arg1 : Nat) :
    Counted n s (logIt s planeData cls detail sev unit arg0 arg1) := by
  have hc := logIt_cores s planeData cls detail sev unit arg0 arg1
  refine ⟨?_, ?_, regsKept_mono (logIt_regsKept s planeData _ _ _ _ _ _) (by simp [qdropField, planeData]), ?_, ?_⟩
  · obtain ⟨r, q, l, h⟩ := logPush_frame s planeData (eventEntry s planeData cls detail sev unit arg0 arg1)
    rw [logIt_eq, h]
  · rw [hc]
    exact (Vector.set_getElem_self n.isLt).symm
  · exact logPush_data_other s _ (by decide)
  · exact logPush_data_other s _ (by decide)

theorem counted_countFlush (n : Fin 16) (s : State) (k : Nat) : Counted n s (countFlush s n k) := by
  unfold countFlush
  exact iteInduction (fun _ => counted_refl n s) fun _ => counted_bump n s k (by simp)

theorem counted_countNonfinite (n : Fin 16) (s : State) (k arr cell : Nat) : Counted n s (countSat s n .nonfinite k arr cell) := by
  unfold countSat
  refine iteInduction (fun _ => counted_refl n s) fun _ => ?_
  have counts := counted_trans (counted_bump n s (f := R.NUM_NONFINITE) (i := n.val) k (by simp))
    (counted_satLogged n _ fun c => c.satLogged ||| SatKind.nonfinite.bit)
  exact iteInduction (fun _ => counted_trans counts (counted_logIt n _ _ _ _ _ _ _)) fun _ => counts

theorem counted_countLanes (n : Fin 16) (s : State) (rs : List LaneRes) : Counted n s (countLanes s n rs) :=
  counted_trans (counted_countFlush n s _) (counted_countNonfinite n _ _ 0 0)

/-- The results of lanes that saw no NaN and no infinity and were not flushed. -/
def Quiet (r : LaneRes) : Prop := r.nonfin = false ∧ r.flush = false

theorem quiet_laneInt (x : W32) : Quiet (laneInt x) := ⟨rfl, rfl⟩

/-- They count nothing. -/
theorem countLanes_quiet (n : Fin 16) (s : State) {rs : List LaneRes} (h : ∀ r ∈ rs, Quiet r) : countLanes s n rs = s := by
  have hf : rs.filter (fun r => r.flush) = [] := List.filter_eq_nil_iff.mpr fun r hr => by simp [(h r hr).2]
  have hn : rs.filter (fun r => r.nonfin) = [] := List.filter_eq_nil_iff.mpr fun r hr => by simp [(h r hr).1]
  rw [countLanes, hf, hn]
  rfl

/-- What the lanes of an instruction count: on FP32 lanes as `Counted` says, else nothing. -/
def Shown (n : Fin 16) (fp : Bool) (s u : State) : Prop := Counted n s u ∧ (fp = false → u = s)

theorem shown_refl (n : Fin 16) (fp : Bool) (s : State) : Shown n fp s s := ⟨counted_refl n s, fun _ => rfl⟩

theorem shown_countLanes (n : Fin 16) {fp : Bool} (s : State) {rs : List LaneRes} (h : fp = false → ∀ r ∈ rs, Quiet r) :
    Shown n fp s (countLanes s n rs) :=
  ⟨counted_countLanes n s rs, fun hfp => countLanes_quiet n s (h hfp)⟩

/-! ### How a vector instruction completes -/

theorem coreInsns_not_counted (n : Fin 16) : regKey R.CORE_INSNS n.val ∉
    [regKey R.NUM_FLUSH n.val, regKey R.NUM_NONFINITE n.val, regKey R.LOG_QDROP_DATA 0] := by
  simp only [List.mem_cons, List.not_mem_nil, or_false, not_or]
  exact ⟨regKey_ne_of_id _ _ _ _ (by decide) (by decide) (by decide), regKey_ne_of_id _ _ _ _ (by decide) (by decide) (by decide),
    regKey_ne_of_id _ _ _ _ (by decide) (by decide) (by decide)⟩

/-- An instruction whose lanes have been counted changes the core to `c` with the vector registers `w`, whatever of it has been
logged, and retires. -/
theorem vectorComplete_retire {n : Fin 16} {fp : Bool} {s u : State} (h : Shown n fp s u) {f : Core → Core} {c : Core}
    {w : Vector (BitVec 4096) 32} (hf : ∀ b, f { s.cores[n] with satLogged := b } = { c with v := w, satLogged := b })
    (hc : c.pc = s.cores[n].pc) {v : BitVec 5 → Nat → W32}
    (hv : ∀ j i, i < 128 → laneOf w[(j.toFin : Fin 32)] i = v j i) :
    VectorComplete n s (retire (modCore u n f) n 8) c fp v := by
  obtain ⟨counted, none⟩ := h
  have after : f u.cores[n] = { c with v := w, satLogged := u.cores[n].satLogged } := by
    have same : u.cores[n] = { s.cores[n] with satLogged := u.cores[n].satLogged } := by
      conv_lhs => rw [counted.core]
      exact Vector.getElem_set_self n.isLt
    rw [same, hf]
  have core : (retire (modCore u n f) n 8).cores[n] = { c with v := w, satLogged := u.cores[n].satLogged, pc := c.pc + 8 } := by
    rw [retire_eq, modCore_modCore, wr_cores, modCore_core_same, after]
    rfl
  have counts : rd u R.CORE_INSNS n.val = rd s R.CORE_INSNS n.val := counted.regs _ _ (coreInsns_not_counted n)
  have regs : RegsKept u (retire (modCore u n f) n 8) [regKey R.CORE_INSNS n.val] :=
    regsKept_then_wr (regsKept_of_regs _ rfl rfl) (by simp)
  refine ⟨?_, fun j i hi => ?_, ?_, ?_⟩
  · rw [core, ← hc, retire_eq, modCore_modCore]
    conv_lhs => rw [counted.only]
    simp only [wr, modCore, after]
    rw [counted.core, Vector.set_set]
    rfl
  · rw [core]
    exact hv j i hi
  · rw [CountsInsn, ← counts]
    exact rd_wr_same _ _ _ _
  · cases fp with
    | true =>
      exact ⟨regsKept_trans (regsKept_mono counted.regs (by simp)) (regsKept_mono regs (by simp)), counted.mgmt, counted.ctrl⟩
    | false =>
      obtain rfl := none rfl
      exact ⟨regs, rfl, rfl, rfl, by rw [core]⟩

/-- Whatever has been logged of a core, a vector register that it writes is the same. -/
theorem vSet_satLogged (c : Core) (d : BitVec 5) (x : BitVec 4096) (b : BitVec 3) :
    vSet { c with satLogged := b } d x = { c with v := (vSet c d x).v, satLogged := b } := rfl

theorem sSet_satLogged (c : Core) (d : BitVec 5) (x : W64) (b : BitVec 3) :
    sSet { c with satLogged := b } d x = { sSet c d x with v := c.v, satLogged := b } := by
  unfold sSet
  split <;> rfl

/-- A register whose lanes are `g` is written to vD. -/
theorem lanesComplete_vSet {n : Fin 16} {fp : Bool} {s u : State} (h : Shown n fp s u) (d : BitVec 5) {f : Core → Nat → W32}
    {g : Nat → W32} (hf : ∀ b, f { s.cores[n] with satLogged := b } = f s.cores[n]) (hg : ∀ i, i < 128 → f s.cores[n] i = g i) :
    LanesComplete n s (retire (modCore u n fun c => vSet c d (ofLanes (f c))) n 8) fp d g := by
  refine vectorComplete_retire h (w := (vSet s.cores[n] d (ofLanes (f s.cores[n]))).v)
    (fun b => by rw [hf, vSet_satLogged]) rfl fun j i hi => ?_
  have reads := vGet_vSet s.cores[n] d j (ofLanes (f s.cores[n]))
  change laneOf (vGet (vSet s.cores[n] d (ofLanes (f s.cores[n]))) j) i = _
  rw [reads]
  split
  · rw [laneOf_ofLanes _ hi, hg i hi]
  · rfl

/-- An operation on lanes completes, if its fields are those of its form. -/
theorem lanesDo_laneOp {i : Instr} {n : Fin 16} {op : Nat} {w : Insn} {ok fp : Bool} {f : Core → Nat → LaneRes} {g : Nat → W32}
    {s : State} (hi : exec i s = .next (laneOp n op w ok f s)) (h : Ready s n) (hok : ok = true)
    (quiet : fp = false → ∀ i, Quiet (f s.cores[n] i)) (hg : ∀ i, (f s.cores[n] i).bits = g i) : LanesDo i n w s fp g := by
  refine ⟨_, hi, ?_⟩
  rw [laneOp, issueVector_body _ _ _ _ _ _ h hok]
  refine lanesComplete_vSet (shown_countLanes n s fun hfp r hr => ?_) w.D (fun _ => rfl) fun i _ => by simp only [hg]
  obtain ⟨i, -, rfl⟩ := List.mem_map.mp hr
  exact quiet hfp i

/-! ### The type of the lanes (R195) -/

/-- X holds the type's bits alone, if it is below 2^k. -/
theorem typed_of_lt {w : Insn} (k : Nat) (h : w.X.toNat < 2 ^ k) : typed w (BitVec.ofNat 32 (2 ^ k - 1)) = true := by
  rw [typed, beq_iff_eq]
  apply BitVec.eq_of_getLsbD_eq
  intro i hi
  rw [BitVec.getLsbD_and, BitVec.getLsbD_not, BitVec.getLsbD_ofNat, Nat.testBit_two_pow_sub_one]
  by_cases hk : i < k
  · simp [hi, hk]
  · have high : w.X.getLsbD i = false :=
      Nat.testBit_lt_two_pow (Nat.lt_of_lt_of_le h (Nat.pow_le_pow_right Nat.two_pos (Nat.le_of_not_lt hk)))
    simp [high]

end Sys2Proof.Lanes

/-! ## Rounding to FP32 and to integers, and the order of values (R2, R155 to R157) -/

namespace Sys2Proof.Rounding

open Sys2Proof.Machine

/-! ### Rounding to the nearest multiple of a power of two (R2) -/

/-- The rounded quotient lies within half a unit, and is even if it lies half a unit away. -/
theorem rneShift_nearest (m k : Nat) :
    2 * ((m : Int) - rneShift m k * 2 ^ k).natAbs ≤ 2 ^ k ∧
      (2 * ((m : Int) - rneShift m k * 2 ^ k).natAbs = 2 ^ k → rneShift m k % 2 = 0) := by
  have parts : (m : Int) = 2 ^ k * (m / 2 ^ k : Nat) + (m % 2 ^ k : Nat) := by exact_mod_cast (Nat.div_add_mod m (2 ^ k)).symm
  have rest : m % 2 ^ k < 2 ^ k := Nat.mod_lt _ (Nat.two_pow_pos k)
  have unit : ((2 ^ k : Nat) : Int) = 2 ^ k := by norm_cast
  unfold rneShift
  generalize m / 2 ^ k = q at *
  generalize m % 2 ^ k = r at *
  dsimp only
  split
  next up =>
    have off : (m : Int) - (q + 1 : Nat) * 2 ^ k = r - (2 ^ k : Nat) := by
      rw [parts, unit]
      push_cast
      ring
    rw [off]
    omega
  next down =>
    have off : (m : Int) - q * 2 ^ k = r := by
      rw [parts]
      ring
    rw [off]
    omega

/-- A value between two multiples is rounded to one between them. -/
theorem rneShift_bounds {m k lo hi : Nat} (hlo : lo * 2 ^ k ≤ m) (hhi : m < hi * 2 ^ k) : lo ≤ rneShift m k ∧ rneShift m k ≤ hi := by
  have below : lo ≤ m / 2 ^ k := (Nat.le_div_iff_mul_le (Nat.two_pow_pos k)).mpr hlo
  have above : m / 2 ^ k < hi := (Nat.div_lt_iff_lt_mul (Nat.two_pow_pos k)).mpr hhi
  unfold rneShift
  dsimp only
  split <;> omega

theorem rneShift_zero (m : Nat) : rneShift m 0 = m := by
  simp [rneShift, Nat.mod_one]

/-- The value `x` with a sign. -/
def signed (neg : Bool) (x : Int) : Int := if neg then -x else x

theorem fvUnits_eq (neg : Bool) (m : Nat) (e u : Int) : fvUnits neg m e u = signed neg (m * 2 ^ (e - u).toNat) := rfl

theorem natAbs_signed (neg : Bool) (x : Int) : (signed neg x).natAbs = x.natAbs := by
  cases neg
  · rfl
  · exact Int.natAbs_neg x

theorem signed_signed (neg : Bool) (x : Int) : signed neg (signed neg x) = x := by
  cases neg
  · rfl
  · exact neg_neg x

theorem natAbs_signed_sub (neg : Bool) (x y : Int) : (signed neg x - y).natAbs = (x - signed neg y).natAbs := by
  cases neg
  · rfl
  · change (-x - y).natAbs = (x - -y).natAbs
    omega

theorem signed_mul (neg : Bool) (x y : Int) : signed neg x * y = signed neg (x * y) := by
  cases neg
  · rfl
  · exact neg_mul x y

/-- The integer nearest to a value, an exact half to the even one (R196). -/
theorem fvToInt_nearest (neg : Bool) (m : Nat) (e : Int) :
    let off := (fvUnits neg m e (-(e.natAbs : Int)) - fvToInt neg m e * 2 ^ e.natAbs).natAbs
    2 * off ≤ 2 ^ e.natAbs ∧ (2 * off = 2 ^ e.natAbs → fvToInt neg m e % 2 = 0) := by
  intro off
  have integer : fvToInt neg m e = signed neg (if 0 ≤ e then m * 2 ^ e.toNat else rneShift m (-e).toNat : Nat) := rfl
  by_cases h : 0 ≤ e
  · have same : off = 0 := by
      have scale : (e - -(e.natAbs : Int)).toNat = e.toNat + e.natAbs := by omega
      simp only [off, integer, if_pos h, fvUnits_eq, signed_mul, scale, pow_add]
      rw [natAbs_signed_sub, signed_signed]
      push_cast
      rw [← mul_assoc, sub_self, Int.natAbs_zero]
    have pos : 0 < 2 ^ e.natAbs := Nat.two_pow_pos _
    omega
  · obtain ⟨near, tie⟩ := rneShift_nearest m e.natAbs
    have off_eq : off = ((m : Int) - rneShift m e.natAbs * 2 ^ e.natAbs).natAbs := by
      have scale : (e - -(e.natAbs : Int)).toNat = 0 := by omega
      have shift : (-e).toNat = e.natAbs := by omega
      simp only [off, integer, if_neg h, fvUnits_eq, signed_mul, scale, shift, pow_zero, mul_one]
      rw [natAbs_signed_sub, signed_signed]
    rw [off_eq]
    refine ⟨near, fun half => ?_⟩
    have even := tie half
    have shift : (-e).toNat = e.natAbs := by omega
    rw [integer, if_neg h, shift]
    cases neg
    · exact Int.emod_eq_zero_of_dvd (Int.natCast_dvd_natCast.mpr (Nat.dvd_of_mod_eq_zero even))
    · exact Int.emod_eq_zero_of_dvd (Int.dvd_neg.mpr (Int.natCast_dvd_natCast.mpr (Nat.dvd_of_mod_eq_zero even)))

/-! ### The order of values -/

theorem fpLt_irrefl (x : Fv) : fpLt x x = false := by
  cases x with
  | nan => rfl
  | inf s => cases s <;> rfl
  | fin s m e => simp [fpLt]

theorem fpLt_asymm {x y : Fv} (h : fpLt x y = true) : fpLt y x = false := by
  cases x with
  | nan => cases h
  | inf s =>
    cases y with
    | nan => rfl
    | inf t => revert h; cases s <;> cases t <;> decide
    | fin t n g => revert h; cases s <;> simp [fpLt]
  | fin s m e =>
    cases y with
    | nan => rfl
    | inf t => revert h; cases t <;> simp [fpLt]
    | fin t n g =>
      simp only [fpLt, decide_eq_true_eq, decide_eq_false_iff_not] at h ⊢
      rw [min_comm]
      omega

/-- Of two values in the order of minimum and maximum the second is not less. -/
theorem fpLt_of_fpBelow {x y : Fv} (h : fpBelow x y = true) : fpLt y x = false := by
  rcases (Bool.or_eq_true _ _).mp h with less | zeros
  · exact fpLt_asymm less
  · split at zeros
    · simp [fpLt, fvUnits]
    · cases zeros

/-- The minimum is one of the two values, and neither is less. -/
theorem fvMin_least {x y : Fv} (hx : x.isNan = false) (hy : y.isNan = false) :
    (fvMin x y = x ∨ fvMin x y = y) ∧ fpLt x (fvMin x y) = false ∧ fpLt y (fvMin x y) = false := by
  rw [fvMin, hx, hy, Bool.or_false, if_neg Bool.false_ne_true]
  by_cases h : fpBelow y x = true
  · rw [if_pos h]
    exact ⟨.inr rfl, fpLt_of_fpBelow h, fpLt_irrefl y⟩
  · rw [if_neg h]
    exact ⟨.inl rfl, fpLt_irrefl x, (Bool.or_eq_false_iff.mp (Bool.eq_false_of_not_eq_true h)).1⟩

/-- The maximum is one of the two values, and less than neither. -/
theorem fvMax_greatest {x y : Fv} (hx : x.isNan = false) (hy : y.isNan = false) :
    (fvMax x y = x ∨ fvMax x y = y) ∧ fpLt (fvMax x y) x = false ∧ fpLt (fvMax x y) y = false := by
  rw [fvMax, hx, hy, Bool.or_false, if_neg Bool.false_ne_true]
  by_cases h : fpBelow x y = true
  · rw [if_pos h]
    exact ⟨.inr rfl, fpLt_of_fpBelow h, fpLt_irrefl y⟩
  · rw [if_neg h]
    exact ⟨.inl rfl, fpLt_irrefl x, (Bool.or_eq_false_iff.mp (Bool.eq_false_of_not_eq_true h)).1⟩

theorem fvMin_fvMax_nan {x y : Fv} (h : x.isNan = true ∨ y.isNan = true) : fvMin x y = .nan ∧ fvMax x y = .nan := by
  have some_ : (x.isNan || y.isNan) = true := (Bool.or_eq_true _ _).mpr h
  exact ⟨if_pos some_, if_pos some_⟩

/-- A value in smaller units. -/
theorem fvUnits_smaller (neg : Bool) (m : Nat) {e u v : Int} (huv : u ≤ v) (hve : v ≤ e) :
    fvUnits neg m e u = fvUnits neg m e v * 2 ^ (v - u).toNat := by
  have scale : (e - u).toNat = (e - v).toNat + (v - u).toNat := by omega
  rw [fvUnits_eq, fvUnits_eq, scale, pow_add, ← mul_assoc, signed_mul]

/-- Finite values compare in any unit that divides both. -/
theorem fpLt_fin {s t : Bool} {m n : Nat} {e g u : Int} (he : u ≤ e) (hg : u ≤ g) :
    fpLt (.fin s m e) (.fin t n g) = decide (fvUnits s m e u < fvUnits t n g u) := by
  have unit : (0 : Int) < 2 ^ (min e g - u).toNat := pow_pos (by decide) _
  rw [fvUnits_smaller s m (le_min he hg) (min_le_left e g), fvUnits_smaller t n (le_min he hg) (min_le_right e g)]
  simp only [fpLt, mul_lt_mul_iff_left₀ unit]

/-! ### The 24 bits of a rounded value -/

/-- A magnitude rounded to the 24 bits of an FP32 significand, which may be 2^24. -/
def significand (m : Nat) : Nat := rneShift (m * 2 ^ (23 - m.log2)) (m.log2 - 23)

section
variable {m : Nat} (hm : m ≠ 0)
include hm

theorem significand_bounds : 2 ^ 23 ≤ significand m ∧ significand m ≤ 2 ^ 24 := by
  have top : 2 ^ m.log2 ≤ m := Nat.log2_self_le hm
  have next_ : m < 2 ^ (m.log2 + 1) := Nat.lt_log2_self
  have sum : 23 + (m.log2 - 23) = m.log2 + (23 - m.log2) := by omega
  apply rneShift_bounds
  · rw [← pow_add, sum, pow_add]
    exact Nat.mul_le_mul_right _ top
  · rw [← pow_add, show 24 + (m.log2 - 23) = m.log2 + 1 + (23 - m.log2) by omega, pow_add]
    exact Nat.mul_lt_mul_of_pos_right next_ (Nat.two_pow_pos _)

omit hm in
/-- The significand, in units of its last bit, is the nearest to the value, an exact half goes to the even one. -/
theorem significand_nearest (m : Nat) {a : Nat} (ha : 23 ≤ a) :
    let off := ((m * 2 ^ a : Nat) - (significand m * 2 ^ (a + m.log2 - 23) : Nat) : Int).natAbs
    2 * off ≤ 2 ^ (a + m.log2 - 23) ∧ (2 * off = 2 ^ (a + m.log2 - 23) → significand m % 2 = 0) := by
  intro off
  obtain ⟨near, tie⟩ := rneShift_nearest (m * 2 ^ (23 - m.log2)) (m.log2 - 23)
  have unit : 2 ^ (a + m.log2 - 23) = 2 ^ (m.log2 - 23) * 2 ^ (a - (23 - m.log2)) := by
    rw [← pow_add]
    congr 1
    omega
  have value : m * 2 ^ a = m * 2 ^ (23 - m.log2) * 2 ^ (a - (23 - m.log2)) := by
    rw [mul_assoc, ← pow_add]
    congr 2
    omega
  have off_eq : off = ((m * 2 ^ (23 - m.log2) : Nat) - significand m * 2 ^ (m.log2 - 23) : Int).natAbs * 2 ^ (a - (23 - m.log2)) := by
    rw [← Int.natAbs_natCast (2 ^ (a - (23 - m.log2))), ← Int.natAbs_mul]
    simp only [off]
    rw [value, unit]
    push_cast
    ring_nf
  rw [off_eq, unit, ← mul_assoc]
  exact ⟨Nat.mul_le_mul_right _ near, fun half => tie (Nat.eq_of_mul_eq_mul_right (Nat.two_pow_pos _) half)⟩

/-- Where a value m * 2^a lies among the powers of two. -/
theorem value_bounds (a : Nat) : 2 ^ (a + m.log2) ≤ m * 2 ^ a ∧ m * 2 ^ a < 2 ^ (a + m.log2 + 1) := by
  rw [show a + m.log2 + 1 = m.log2 + 1 + a by omega, Nat.add_comm a, pow_add, pow_add 2 (m.log2 + 1)]
  exact ⟨Nat.mul_le_mul_right _ (Nat.log2_self_le hm), Nat.mul_lt_mul_of_pos_right Nat.lt_log2_self (Nat.two_pow_pos a)⟩

end

/-! ### The place of a rounded value among the encodings of FP32 (R155, R156) -/

/-- The encoding without its sign that the rounded magnitude m × 2^e would have if the exponent field had no bounds. -/
def ordinal (m : Nat) (e : Int) : Int := (e + m.log2 + 126) * 2 ^ 23 + significand m

/-- The encoding without its sign: zero below the smallest normal value, infinity beyond the largest finite one (R156). -/
def ofOrdinal (b : Int) : Nat := if b < 2 ^ 23 then 0 else if 255 * 2 ^ 23 ≤ b then 255 * 2 ^ 23 else b.toNat

/-- The bits of a magnitude that has been rounded to at most 24 bits. -/
def settled (neg : Bool) (m : Nat) (e : Int) : Nat :=
  if e + m.log2 < -126 then fpSign fp32 neg
  else if fpLt (.fin false 16777215 104) (.fin false m e) then fpInf fp32 neg
  else fpPack fp32 neg m e

/-- Dropping the bits below the 24th leaves the significand, or all the bits there are. -/
theorem rneShift_dropped (m : Nat) :
    (m.log2 ≤ 23 ∧ rneShift m (m.log2 - 23) = m) ∨ (23 < m.log2 ∧ rneShift m (m.log2 - 23) = significand m) := by
  rcases le_or_gt m.log2 23 with few | many
  · exact .inl ⟨few, by rw [Nat.sub_eq_zero_of_le few, rneShift_zero]⟩
  · exact .inr ⟨many, by rw [significand, Nat.sub_eq_zero_of_le (Nat.le_of_lt many), pow_zero, mul_one]⟩

theorem fpRound_settled (neg : Bool) {m : Nat} (hm : m ≠ 0) (e : Int) :
    (fpRound fp32 (.fin neg m e)).bits = settled neg (rneShift m (m.log2 - 23)) (e + (m.log2 - 23 : Nat)) := by
  have largest : fpDecode fp32 fp32.maxFin = .fin false 16777215 104 := by decide
  have nonzero : rneShift m (m.log2 - 23) ≠ 0 := by
    rcases rneShift_dropped m with ⟨-, h⟩ | ⟨-, h⟩
    · rwa [h]
    · have := (significand_bounds hm).1
      omega
  have rounded : (if (m.log2 : Int) - 23 > 0 then rneShift m ((m.log2 : Int) - 23).toNat else m) = rneShift m (m.log2 - 23) := by
    split
    · rw [show ((m.log2 : Int) - 23).toNat = m.log2 - 23 by omega]
    · rw [show m.log2 - 23 = 0 by omega, rneShift_zero]
  have scaled : (if (m.log2 : Int) - 23 > 0 then e + ((m.log2 : Int) - 23) else e) = e + (m.log2 - 23 : Nat) := by
    split <;> omega
  have mant : fp32.manBits = 23 := rfl
  have flushes : fp32.flushes = true := rfl
  have bias : fp32.bias = 127 := rfl
  have least : (1 : Int) - 127 = -126 := rfl
  simp only [fpRound, hm, if_false, largest, mant, flushes, bias, if_true, Nat.cast_ofNat, rounded, scaled, nonzero, Bool.true_and,
    decide_eq_true_eq, least, apply_ite FpRes.bits, settled]

/-- A magnitude below 2^24 exceeds the largest finite value if it reaches 2^128. -/
theorem fpLt_largest_iff {m : Nat} (h0 : m ≠ 0) (hm : m < 2 ^ 24) (e : Int) :
    fpLt (.fin false 16777215 104) (.fin false m e) = true ↔ 128 ≤ e + m.log2 := by
  have low : 2 ^ m.log2 ≤ m := Nat.log2_self_le h0
  have high : m < 2 ^ (m.log2 + 1) := Nat.lt_log2_self
  simp only [fpLt, fvUnits_eq, signed, decide_eq_true_eq, Bool.false_eq_true, if_false]
  norm_cast
  constructor
  · intro less
    by_contra below
    rcases le_total e 104 with he | he
    · rw [min_eq_right he, sub_self, Int.toNat_zero, pow_zero, mul_one] at less
      have := Nat.le_mul_of_pos_right 16777215 (Nat.two_pow_pos (104 - e).toNat)
      omega
    · rw [min_eq_left he, sub_self, Int.toNat_zero, pow_zero, mul_one] at less
      have : m * 2 ^ (e - 104).toNat < 2 ^ (m.log2 + 1) * 2 ^ (e - 104).toNat := Nat.mul_lt_mul_of_pos_right high (Nat.two_pow_pos _)
      rw [← pow_add] at this
      have : 2 ^ (m.log2 + 1 + (e - 104).toNat) ≤ 2 ^ 24 := Nat.pow_le_pow_right Nat.two_pos (by omega)
      omega
  · intro reach
    calc 16777215 * 2 ^ (104 - min 104 e).toNat < 2 ^ 24 * 2 ^ (104 - min 104 e).toNat :=
          Nat.mul_lt_mul_of_pos_right (by norm_num) (Nat.two_pow_pos _)
      _ = 2 ^ (24 + (104 - min 104 e).toNat) := (pow_add _ _ _).symm
      _ ≤ 2 ^ (m.log2 + (e - min 104 e).toNat) := Nat.pow_le_pow_right Nat.two_pos (by omega)
      _ = 2 ^ m.log2 * 2 ^ (e - min 104 e).toNat := pow_add _ _ _
      _ ≤ m * 2 ^ (e - min 104 e).toNat := Nat.mul_le_mul_right _ low

/-- Exponent field and fraction of a normal value. -/
theorem fpPack_normal (neg : Bool) (m : Nat) {e : Int} (normal : ¬ e + m.log2 < -126) :
    fpPack fp32 neg m e = fpSign fp32 neg + (e + m.log2 + 127).toNat * 2 ^ 23 +
      ((if m.log2 ≤ 23 then m * 2 ^ (23 - m.log2) else m / 2 ^ (m.log2 - 23)) - 2 ^ 23) :=
  if_neg normal

/-- The bits of a magnitude below 2^24 follow from its place among the encodings. -/
theorem settled_of_lt (neg : Bool) {m : Nat} (h0 : m ≠ 0) (hm : m < 2 ^ 24) (e : Int) :
    settled neg m e = fpSign fp32 neg + ofOrdinal ((e + m.log2 + 126) * 2 ^ 23 + (m * 2 ^ (23 - m.log2) : Nat)) := by
  have few : m.log2 ≤ 23 := Nat.lt_succ_iff.mp ((Nat.log2_lt h0).mpr hm)
  have bounds : 2 ^ 23 ≤ m * 2 ^ (23 - m.log2) ∧ m * 2 ^ (23 - m.log2) < 2 ^ 24 := by
    have := value_bounds h0 (23 - m.log2)
    rwa [Nat.sub_add_cancel few] at this
  unfold settled ofOrdinal
  by_cases small : e + m.log2 < -126
  · rw [if_pos small, if_pos (by omega), Nat.add_zero]
  · rw [if_neg small]
    by_cases big : 128 ≤ e + m.log2
    · rw [if_pos ((fpLt_largest_iff h0 hm e).mpr big), if_neg (by omega), if_pos (by omega)]
      rfl
    · rw [if_neg (mt (fpLt_largest_iff h0 hm e).mp big), if_neg (by omega), if_neg (by omega), fpPack_normal neg m small, if_pos few]
      omega

/-- 2^24 × 2^e is 2^23 × 2^(e + 1). -/
theorem settled_carry (neg : Bool) (e : Int) : settled neg (2 ^ 24) e = settled neg (2 ^ 23) (e + 1) := by
  have units : fvUnits false (2 ^ 24) e (min 104 e) = fvUnits false (2 ^ 23) (e + 1) (min 104 e) := by
    rw [fvUnits_eq, fvUnits_eq, show (e + 1 - min 104 e).toNat = (e - min 104 e).toNat + 1 by omega, pow_succ']
    norm_num
    ring_nf
  have compare : fpLt (.fin false 16777215 104) (.fin false (2 ^ 24) e) =
      fpLt (.fin false 16777215 104) (.fin false (2 ^ 23) (e + 1)) := by
    rw [fpLt_fin (min_le_left 104 e) (min_le_right 104 e), fpLt_fin (min_le_left 104 e) (show min 104 e ≤ e + 1 by omega), units]
  have packed (small : ¬ e + 24 < -126) : fpPack fp32 neg (2 ^ 24) e = fpPack fp32 neg (2 ^ 23) (e + 1) := by
    rw [fpPack_normal neg _ (by rwa [Nat.log2_two_pow]), fpPack_normal neg _ (by rw [Nat.log2_two_pow]; omega), Nat.log2_two_pow,
      Nat.log2_two_pow, if_neg (by omega), if_pos (by omega), show e + (24 : Nat) = e + 1 + (23 : Nat) by omega]
    norm_num
  unfold settled
  rw [Nat.log2_two_pow, Nat.log2_two_pow, compare]
  by_cases small : e + 24 < -126
  · rw [if_pos (by omega), if_pos (by omega)]
  · rw [if_neg (show ¬ e + (24 : Nat) < -126 from small), if_neg (show ¬ e + 1 + (23 : Nat) < -126 by omega), packed small]

/-- The bits of a rounded value. -/
theorem fpRound_bits (neg : Bool) {m : Nat} (hm : m ≠ 0) (e : Int) :
    (fpRound fp32 (.fin neg m e)).bits = fpSign fp32 neg + ofOrdinal (ordinal m e) := by
  rw [fpRound_settled neg hm, ordinal]
  rcases rneShift_dropped m with ⟨few, same⟩ | ⟨many, same⟩
  · have exact24 : significand m = m * 2 ^ (23 - m.log2) := by rw [significand, Nat.sub_eq_zero_of_le few, rneShift_zero]
    rw [same, settled_of_lt neg hm ((Nat.log2_lt hm).mp (Nat.lt_succ_of_le few)), exact24, Nat.sub_eq_zero_of_le few]
    simp
  · obtain ⟨low, high⟩ := significand_bounds hm
    have nonzero : significand m ≠ 0 := by omega
    rw [same]
    rcases Nat.lt_or_eq_of_le high with below | carry
    · have top : (significand m).log2 = 23 := (Nat.log2_eq_iff nonzero).mpr ⟨low, below⟩
      rw [settled_of_lt neg nonzero below, top, Nat.sub_self, pow_zero, mul_one,
        show e + (m.log2 - 23 : Nat) + (23 : Nat) = e + m.log2 by omega]
    · rw [carry, settled_carry, settled_of_lt neg (by norm_num) (by norm_num), Nat.log2_two_pow]
      congr 2
      omega

/-- In units of 2^-k: the place reaches that of 2^p if the value is short of it by at most half a last place of the binade below,
for an exact half goes up: the significand below is odd. -/
theorem ordinal_ge_iff {m : Nat} (hm : m ≠ 0) {a k p : Nat} {e : Int} (he : e + k = a) (ha : 23 ≤ a) (hp : 25 ≤ p) :
    ((p : Int) - k + 127) * 2 ^ 23 ≤ ordinal m e ↔ 2 ^ p ≤ m * 2 ^ a + 2 ^ (p - 25) := by
  obtain ⟨low, high⟩ := significand_bounds hm
  obtain ⟨above, below⟩ := value_bounds hm a
  have place : ordinal m e = ((a + m.log2 : Nat) - k + 126) * 2 ^ 23 + significand m := by
    rw [ordinal]
    push_cast
    omega
  have half_pos : 0 < 2 ^ (p - 25) := Nat.two_pow_pos _
  rw [place]
  rcases Nat.lt_trichotomy (a + m.log2 + 1) p with under | top | beyond
  · have two : 2 ^ p = 2 ^ (p - 1) * 2 := by rw [← pow_succ, Nat.sub_add_cancel (by omega)]
    have less : 2 ^ (a + m.log2 + 1) ≤ 2 ^ (p - 1) := Nat.pow_le_pow_right Nat.two_pos (by omega)
    have half : 2 ^ (p - 25) ≤ 2 ^ (p - 1) := Nat.pow_le_pow_right Nat.two_pos (by omega)
    constructor <;> intro <;> omega
  · obtain ⟨near, tie⟩ := significand_nearest m ha
    have unit : 2 ^ (a + m.log2 - 23) = 2 * 2 ^ (p - 25) := by rw [← pow_succ']; congr 1; omega
    have next_ : 2 ^ p = 2 ^ 25 * 2 ^ (p - 25) := by rw [← pow_add]; congr 1; omega
    rw [top] at below
    rw [unit] at near tie
    rw [next_] at below ⊢
    generalize 2 ^ (p - 25) = h at *
    generalize m * 2 ^ a = x at *
    generalize significand m = q at *
    suffices 2 ^ 24 ≤ q ↔ 2 ^ 25 * h ≤ x + h by
      constructor <;> intro <;> omega
    constructor
    · intro carry
      obtain rfl := Nat.le_antisymm high carry
      omega
    · intro reach
      by_contra short
      have cases_ : q = 2 ^ 24 - 1 ∨ q ≤ 2 ^ 24 - 2 := by omega
      rcases cases_ with odd | less
      · subst odd
        omega
      · have far : q * (2 * h) ≤ (2 ^ 24 - 2) * (2 * h) := Nat.mul_le_mul_right _ less
        generalize q * (2 * h) = y at *
        omega
  · have reach : 2 ^ p ≤ 2 ^ (a + m.log2) := Nat.pow_le_pow_right Nat.two_pos (by omega)
    constructor <;> intro <;> omega

/-! ### What the encodings stand for -/

/-- A finite value in units of 2^-k. -/
def unitsOf (k : Nat) (v : Fv) : Int :=
  match v with
  | .fin s m e => fvUnits s m e (-(k : Int))
  | _ => 0

/-- Exponent field 255 is infinity or NaN; 0 is a zero, for subnormals are flushed (R155, R156). -/
theorem fpDecode_fp32 (b : Nat) : fpDecode fp32 b =
    if b / 2 ^ 23 % 2 ^ 8 = 255 then (if b % 2 ^ 23 = 0 then .inf (b.testBit 31) else .nan)
    else if b / 2 ^ 23 % 2 ^ 8 = 0 then .fin (b.testBit 31) 0 0
    else .fin (b.testBit 31) (2 ^ 23 + b % 2 ^ 23) ((b / 2 ^ 23 % 2 ^ 8 : Nat) - 150) := by
  simp only [fpDecode, show fp32.expBits = 8 from rfl, show fp32.manBits = 23 from rfl, show fp32.bias = 127 from rfl,
    show fp32.hasInf = true from rfl, show fp32.flushes = true from rfl]
  generalize b / 2 ^ 23 % 2 ^ 8 = field
  generalize b % 2 ^ 23 = fraction
  by_cases top : field = 255
  · simp [top]
  · simp [top, sub_sub]

theorem fpDecode_normal (neg : Bool) {b : Nat} (low : 2 ^ 23 ≤ b) (high : b < 255 * 2 ^ 23) :
    fpDecode fp32 (fpSign fp32 neg + b) = .fin neg (2 ^ 23 + b % 2 ^ 23) ((b / 2 ^ 23 : Nat) - 150) := by
  have sign : fpSign fp32 neg = 2 ^ 31 * b2n neg := by cases neg <;> rfl
  have bit : (fpSign fp32 neg + b).testBit 31 = neg := by
    rw [sign, Nat.testBit_eq_decide_div_mod_eq]
    cases neg <;> simp [b2n] <;> omega
  have field : (fpSign fp32 neg + b) / 2 ^ 23 % 2 ^ 8 = b / 2 ^ 23 := by omega
  have fraction : (fpSign fp32 neg + b) % 2 ^ 23 = b % 2 ^ 23 := by omega
  rw [fpDecode_fp32, bit, field, fraction, if_neg (by omega), if_neg (by omega)]

/-- A value that the encodings reach, in units of 2^-k, from its place. -/
theorem unitsOf_decode {m : Nat} (hm : m ≠ 0) {a k : Nat} {e : Int} (he : e + k = a) (hk : 150 ≤ k) (ha : 23 ≤ a) (neg : Bool)
    (low : 2 ^ 23 ≤ ordinal m e) (high : ordinal m e < 255 * 2 ^ 23) :
    unitsOf k (fpDecode fp32 (fpSign fp32 neg + (ordinal m e).toNat)) =
      signed neg ((significand m * 2 ^ (a + m.log2 - 23) : Nat)) := by
  obtain ⟨least, most⟩ := significand_bounds hm
  have place : ordinal m e = ((a + m.log2 : Nat) - k + 126) * 2 ^ 23 + significand m := by
    rw [ordinal]
    push_cast
    omega
  rw [fpDecode_normal neg (by omega) (by omega), unitsOf, fvUnits_eq]
  congr 1
  rcases Nat.lt_or_eq_of_le most with below | carry
  · have fraction : 2 ^ 23 + (ordinal m e).toNat % 2 ^ 23 = significand m := by omega
    have exponent : (((ordinal m e).toNat / 2 ^ 23 : Nat) - 150 - -(k : Int)).toNat = a + m.log2 - 23 := by omega
    rw [fraction, exponent]
    norm_cast
  · have fraction : 2 ^ 23 + (ordinal m e).toNat % 2 ^ 23 = 2 ^ 23 := by omega
    have exponent : (((ordinal m e).toNat / 2 ^ 23 : Nat) - 150 - -(k : Int)).toNat = a + m.log2 - 23 + 1 := by omega
    rw [fraction, exponent, carry, pow_succ' 2 (a + m.log2 - 23)]
    push_cast
    ring

/-- An encoded value at or above a power of two is a multiple of that binade's last place. -/
theorem dvd_unitsOf_decode {k c b : Nat} (h : 2 ^ c ≤ (unitsOf k (fpDecode fp32 b)).natAbs) :
    (2 ^ (c - 23) : Int) ∣ unitsOf k (fpDecode fp32 b) := by
  have positive : 0 < 2 ^ c := Nat.two_pow_pos c
  rw [fpDecode_fp32] at h ⊢
  split at h
  · split at h <;> simp [unitsOf] at h
  next notTop =>
    rw [if_neg notTop]
    split at h
    · simp [unitsOf, fvUnits] at h
    next normal =>
      rw [if_neg normal]
      simp only [unitsOf, fvUnits_eq, natAbs_signed] at h ⊢
      rw [Int.natAbs_mul, Int.natAbs_natCast, Int.natAbs_pow] at h
      generalize ((b / 2 ^ 23 % 2 ^ 8 : Nat) - 150 - -(k : Int)).toNat = p at *
      have bound : 2 ^ c < 2 ^ (24 + p) := by
        rw [pow_add]
        exact Nat.lt_of_le_of_lt h (Nat.mul_lt_mul_of_pos_right (by omega) (Nat.two_pow_pos p))
      have less : c < 24 + p := (Nat.pow_lt_pow_iff_right (by decide)).mp bound
      have divides : (2 ^ (c - 23) : Int) ∣ (2 ^ 23 + b % 2 ^ 23 : Nat) * 2 ^ p := Dvd.dvd.mul_left (pow_dvd_pow 2 (by omega)) _
      cases b.testBit 31
      · exact divides
      · exact Int.dvd_neg.mpr divides

/-- Of the multiples of a unit, one within half a unit of a value is the nearest, but for an exact half. -/
theorem nearest_of_half {x r y u : Int} (hr : u ∣ r) (hy : u ∣ y) (near : 2 * (x - r).natAbs ≤ u.natAbs) :
    (x - r).natAbs < (x - y).natAbs ∨ y = r ∨ ((x - r).natAbs = (x - y).natAbs ∧ 2 * (x - r).natAbs = u.natAbs) := by
  by_cases same : y = r
  · exact .inr (.inl same)
  · have apart : u.natAbs ≤ (y - r).natAbs := Nat.le_of_dvd (by omega) (Int.natAbs_dvd_natAbs.mpr (dvd_sub hy hr))
    omega

/-! ### What rounding gives (R2, R156) -/

theorem isFinite_decode_normal (neg : Bool) {b : Nat} (low : 2 ^ 23 ≤ b) (high : b < 255 * 2 ^ 23) :
    (fpDecode fp32 (fpSign fp32 neg + b)).isFinite = true := by
  rw [fpDecode_normal neg low high]
  rfl

theorem ofOrdinal_of_zero {b : Int} (h : b < 2 ^ 23) : ofOrdinal b = 0 := if_pos h

theorem ofOrdinal_of_infinite {b : Int} (h : 255 * 2 ^ 23 ≤ b) : ofOrdinal b = 255 * 2 ^ 23 := by
  rw [ofOrdinal, if_neg (by omega), if_pos h]

theorem ofOrdinal_of_normal {b : Int} (low : 2 ^ 23 ≤ b) (high : b < 255 * 2 ^ 23) : ofOrdinal b = b.toNat := by
  rw [ofOrdinal, if_neg (by omega), if_neg (by omega)]

/-- How far the encoding `b` is from `x`, in units of 2^-k. -/
def distance (k : Nat) (x : Int) (b : Nat) : Nat := (x - unitsOf k (fpDecode fp32 b)).natAbs

section
variable {m : Nat} (hm : m ≠ 0) {a k : Nat} {e : Int} (he : e + k = a) (ha : 23 ≤ a) (hk : 151 ≤ k) (neg : Bool)
include he

omit hm in
theorem fvUnits_of_scale (m : Nat) : fvUnits neg m e (-(k : Int)) = signed neg (m * 2 ^ a : Nat) := by
  rw [fvUnits_eq, show (e - -(k : Int)).toNat = a by omega]
  push_cast
  rfl

include hm ha hk

/-- From half a last place below 2^128 on the result is infinite. -/
theorem ordinal_infinite_iff : 255 * 2 ^ 23 ≤ ordinal m e ↔ 2 ^ (k + 128) - 2 ^ (k + 103) ≤ m * 2 ^ a := by
  have reach := ordinal_ge_iff hm (p := k + 128) he ha (by omega)
  rw [show k + 128 - 25 = k + 103 by omega] at reach
  omega

/-- From half a last place below 2^-126 on the result is normal. -/
theorem ordinal_normal_iff : 2 ^ 23 ≤ ordinal m e ↔ 2 ^ (k - 126) - 2 ^ (k - 151) ≤ m * 2 ^ a := by
  have reach := ordinal_ge_iff hm (p := k - 126) he ha (by omega)
  rw [show k - 126 - 25 = k - 151 by omega] at reach
  omega

omit ha in
/-- Below 2^-126 it is the smallest normal value at most. -/
theorem ordinal_le_of_small (small : m * 2 ^ a < 2 ^ (k - 126)) : ordinal m e ≤ 2 ^ 23 := by
  have most := (significand_bounds hm).2
  have above := (value_bounds hm a).1
  have place : a + m.log2 < k - 126 := (Nat.pow_lt_pow_iff_right (by decide)).mp (Nat.lt_of_le_of_lt above small)
  rw [ordinal]
  omega

/-- In the range of normal values the result is the encoded value nearest to the exact one, an exact half the even one. -/
theorem fpRound_nearest (low : 2 ^ (k - 126) ≤ m * 2 ^ a) (high : m * 2 ^ a < 2 ^ (k + 128) - 2 ^ (k + 103)) :
    let r := (fpRound fp32 (.fin neg m e)).bits
    let x := fvUnits neg m e (-(k : Int))
    r < 2 ^ 32 ∧ (fpDecode fp32 r).isFinite = true ∧ ∀ b,
      distance k x r < distance k x b ∨ unitsOf k (fpDecode fp32 b) = unitsOf k (fpDecode fp32 r) ∨
        (distance k x r = distance k x b ∧ r % 2 = 0) := by
  intro r x
  have normal : 2 ^ 23 ≤ ordinal m e := (ordinal_normal_iff hm he ha hk).mpr ((Nat.sub_le _ _).trans low)
  have finite : ordinal m e < 255 * 2 ^ 23 := Int.not_le.mp fun h => Nat.not_le.mpr high ((ordinal_infinite_iff hm he ha hk).mp h)
  have bits : r = fpSign fp32 neg + (ordinal m e).toNat := by rw [← ofOrdinal_of_normal normal finite]; exact fpRound_bits neg hm e
  have value : unitsOf k (fpDecode fp32 r) = signed neg (significand m * 2 ^ (a + m.log2 - 23) : Nat) := by
    rw [bits]
    exact unitsOf_decode hm he (by omega) ha neg normal finite
  have sign : fpSign fp32 neg = 2 ^ 31 * b2n neg := by cases neg <;> rfl
  have sign_le : b2n neg ≤ 1 := by cases neg <;> decide
  refine ⟨by omega, ?_, fun b => ?_⟩
  · rw [bits]
    exact isFinite_decode_normal neg (by omega) (by omega)
  · obtain ⟨near, tie⟩ := significand_nearest m ha
    obtain ⟨above, -⟩ := value_bounds hm a
    let u : Int := 2 ^ (a + m.log2 - 23)
    let v : Int := (m * 2 ^ a : Nat)
    let w : Int := (significand m * 2 ^ (a + m.log2 - 23) : Nat)
    have own : distance k x r = (v - w).natAbs := by
      rw [distance, value, show x = signed neg v from fvUnits_of_scale he neg m, natAbs_signed_sub, signed_signed]
    have other : distance k x b = (v - signed neg (unitsOf k (fpDecode fp32 b))).natAbs := by
      rw [distance, show x = signed neg v from fvUnits_of_scale he neg m, natAbs_signed_sub]
    have size : u.natAbs = 2 ^ (a + m.log2 - 23) := Int.natAbs_pow 2 _
    have multiple : u ∣ w := ⟨significand m, by simp only [w, u]; push_cast; ring⟩
    rw [own, other]
    by_cases reach : 2 ^ (a + m.log2) ≤ (unitsOf k (fpDecode fp32 b)).natAbs
    · have divides : u ∣ signed neg (unitsOf k (fpDecode fp32 b)) := by
        rw [← Int.dvd_natAbs, natAbs_signed, Int.dvd_natAbs]
        exact dvd_unitsOf_decode reach
      rcases nearest_of_half multiple divides (size ▸ near) with less | same | ⟨equal, half⟩
      · exact .inl less
      · refine .inr (.inl ?_)
        rw [value, ← signed_signed neg (unitsOf k (fpDecode fp32 b)), same]
      · have even := tie (size ▸ half)
        refine .inr (.inr ⟨equal, ?_⟩)
        rw [bits, ordinal]
        omega
    · left
      have power : u ∣ (2 ^ (a + m.log2) : Nat) := by
        rw [Nat.cast_pow]
        exact pow_dvd_pow 2 (Nat.sub_le _ _)
      have closer := nearest_of_half multiple power (x := v) (size ▸ near)
      have below : (signed neg (unitsOf k (fpDecode fp32 b))).natAbs < 2 ^ (a + m.log2) := by
        rw [natAbs_signed]
        exact Nat.lt_of_not_le reach
      have least : ((2 ^ (a + m.log2) : Nat) : Int) ≤ v := Int.ofNat_le.mpr above
      generalize signed neg (unitsOf k (fpDecode fp32 b)) = y at *
      generalize 2 ^ (a + m.log2) = p at *
      omega

end

end Sys2Proof.Rounding

/-! ## O8: FP32 lanes, conversions and rounding (R155 to R157, R195, R196) -/

namespace Sys2Proof.Rounding

open Sys2Proof.Machine Sys2Proof.Laws Sys2Proof.Lanes

/-! ### The lane operations -/

/-- The type bit of the two forms of X. -/
theorem isFp_of_one_or_three {w : Insn} (h : w.X = 1 ∨ w.X = 3) : isFp w = true := by
  rcases h with h | h <;> rw [isFp, h] <;> decide

/-- An FP32 operation on two lanes rounds the exact result once. -/
theorem lanesDo_op2 {i : Instr} {n : Fin 16} {op : Nat} {w : Insn} {used : BitVec 32} {fi : W32 → W32 → W32}
    {ff : Fv → Fv → Fv} {s : State} (hi : exec i s = .next (op2 n op w used fi ff s)) (h : Ready s n) (hC : w.C = 0)
    (ht : typed w used = true) (hfp : isFp w = true) :
    LanesDo i n w s true fun j => fp32Of (ff (fvOf (laneOf (vGet s.cores[n] w.A) j)) (fvOf (laneOf (vGet s.cores[n] w.B) j))) := by
  refine lanesDo_laneOp hi h (by rw [hC, ht]; rfl) (fun hf => absurd hf (by decide)) fun j => ?_
  simp only [hfp, if_true]
  rfl

theorem lanesDo_vmad {n : Fin 16} {w : Insn} {s : State} (h : Ready s n) (hX : w.X = 1) :
    LanesDo (.vmad n w) n w s true fun j => fp32Of (fpAdd
      (fpMul (fvOf (laneOf (vGet s.cores[n] w.A) j)) (fvOf (laneOf (vGet s.cores[n] w.B) j)))
      (fvOf (laneOf (vGet s.cores[n] w.C) j))) := by
  refine lanesDo_laneOp rfl h (by rw [typed, hX]; decide) (fun hf => absurd hf (by decide)) fun j => ?_
  simp only [isFp_of_one_or_three (.inl hX), if_true]
  rfl

/-! ### The conversions -/

/-- Codes 0 to 5 convert lane by lane under the guard. -/
theorem lanesDo_vcvt {n : Fin 16} {w : Insn} {s : State} (h : Ready s n) (hw : usesDAX w = true) {code : Nat} (hX : w.X.toNat = code)
    (hcode : code < 6) {g : Nat → W32} (hg : ∀ j, (cvtLane code (vGet s.cores[n] w.A) j).bits = g j) :
    LanesDo (.vcvt n w) n w s true g := by
  have exec_eq : exec (.vcvt n w) s =
      .next (laneOp n 0x60 w (usesDAX w && xBelow w 3) (fun c j => cvtLane w.X.toNat (vGet c w.A) j) s) :=
    congrArg Host.Outcome.next (if_neg (by omega))
  refine lanesDo_laneOp exec_eq h ?_ (fun hf => absurd hf (by decide)) fun j => by rw [hX]; exact hg j
  rw [hw, xBelow, Bool.true_and, decide_eq_true_eq]
  omega

/-- Codes 6 and 7 write every lane. -/
theorem vcvt_complete {n : Fin 16} {w : Insn} {s : State} (h : Ready s n) (hw : usesDAX w = true) {code : Nat} (hX : w.X.toNat = code)
    (low : 6 ≤ code) (high : code < 8) {g : Nat → W32} (hg : ∀ j, (cvtLane code (vGet s.cores[n] w.A) j).bits = g j) :
    ∃ t, exec (.vcvt n w) s = .next t ∧ LanesComplete n s t false w.D g := by
  refine ⟨_, congrArg Host.Outcome.next (if_pos (by omega)), ?_⟩
  rw [issueVector_body _ _ _ _ _ _ h hw]
  exact lanesComplete_vSet (f := fun c j => (cvtLane w.X.toNat (vGet c w.A) j).bits) (shown_refl n false s) w.D (fun _ => rfl)
    fun j _ => by rw [hX]; exact hg j

/-! ### The obligation -/

/-- The four ranges of a rounded value, with units 2^-k small enough for every encoding. -/
theorem fpRound_ranges (neg : Bool) {m : Nat} (hm : m ≠ 0) (e : Int) :
    let k := e.natAbs + 200
    let x := fvUnits neg m e (-(k : Int))
    let r := (fpRound fp32 (.fin neg m e)).bits
    (2 ^ (k - 126) ≤ x.natAbs → x.natAbs < 2 ^ (k + 128) - 2 ^ (k + 103) →
      r < 2 ^ 32 ∧ (fpDecode fp32 r).isFinite = true ∧ ∀ b,
        distance k x r < distance k x b ∨ unitsOf k (fpDecode fp32 b) = unitsOf k (fpDecode fp32 r) ∨
          (distance k x r = distance k x b ∧ r % 2 = 0)) ∧
    (2 ^ (k + 128) - 2 ^ (k + 103) ≤ x.natAbs → r = (if neg then 0xFF800000 else 0x7F800000)) ∧
    (2 ^ (k - 126) - 2 ^ (k - 151) ≤ x.natAbs → x.natAbs < 2 ^ (k - 126) → r = (if neg then 0x80800000 else 0x800000)) ∧
    (x.natAbs < 2 ^ (k - 126) - 2 ^ (k - 151) → r = (if neg then 0x80000000 else 0)) := by
  intro k x r
  have he : e + k = (e + k).toNat := by omega
  have ha : 23 ≤ (e + k).toNat := by omega
  have hk : 151 ≤ k := by omega
  have size : x.natAbs = m * 2 ^ (e + k).toNat := by rw [show x = _ from fvUnits_of_scale he neg m, natAbs_signed, Int.natAbs_natCast]
  have bits : r = fpSign fp32 neg + ofOrdinal (ordinal m e) := fpRound_bits neg hm e
  rw [size]
  refine ⟨fpRound_nearest hm he ha hk neg, fun large => ?_, fun reach small => ?_, fun tiny => ?_⟩
  · rw [bits, ofOrdinal_of_infinite ((ordinal_infinite_iff hm he ha hk).mpr large)]
    cases neg <;> rfl
  · have place : ordinal m e = 2 ^ 23 := le_antisymm (ordinal_le_of_small hm he hk small) ((ordinal_normal_iff hm he ha hk).mpr reach)
    rw [bits, place]
    cases neg <;> rfl
  · rw [bits, ofOrdinal_of_zero (Int.not_le.mp fun h => Nat.not_le.mpr tiny ((ordinal_normal_iff hm he ha hk).mp h))]
    cases neg <;> rfl

/-- Settles O8: the lanes by `lanesDo_laneOp`, rounding by the place of the rounded value among the encodings (`ordinal`). -/
theorem floatLanesAndConversions : Obligations.FloatLanesAndConversions := by
  unfold Obligations.FloatLanesAndConversions
  refine ⟨?_, ?_, ?_, rfl, ?_, fvToInt_nearest, fun x y => ⟨fvMin_fvMax_nan, fun hx hy => ?_⟩⟩
  · intro n w s ready hX
    have fp : isFp w = true := isFp_of_one_or_three hX
    refine ⟨fun hC hX => ?_, fun hC => ?_, fun hX => lanesDo_vmad ready hX⟩
    · have ht : typed w 1 = true := by rw [typed, hX]; decide
      exact ⟨lanesDo_op2 rfl ready hC ht fp, lanesDo_op2 (ff := fun x y => fpAdd x (fpNeg y)) rfl ready hC ht fp,
        lanesDo_op2 rfl ready hC ht fp⟩
    · have ht : typed w 3 = true := by rcases hX with h | h <;> rw [typed, h] <;> decide
      exact ⟨lanesDo_op2 rfl ready hC ht fp, lanesDo_op2 rfl ready hC ht fp⟩
  · intro n w s ready hw c x sat8
    refine ⟨fun hX => ?_, fun hX => ?_, fun hX => ?_, fun hX => ?_, fun hX => ?_, fun hX => ?_, fun hX => ?_, fun hX => ?_⟩
    · exact lanesDo_vcvt ready hw (code := 0) (by rw [hX]; rfl) (by decide) fun _ => rfl
    · refine lanesDo_vcvt ready hw (code := 1) (by rw [hX]; rfl) (by decide) fun j => ?_
      change (fpToInt32 (x j)).bits = _
      unfold fpToInt32
      cases fvOf (x j) <;> rfl
    · exact lanesDo_vcvt ready hw (code := 2) (by rw [hX]; rfl) (by decide) fun _ => rfl
    · exact lanesDo_vcvt ready hw (code := 3) (by rw [hX]; rfl) (by decide) fun _ => rfl
    · exact lanesDo_vcvt ready hw (code := 4) (by rw [hX]; rfl) (by decide) fun _ => rfl
    · exact lanesDo_vcvt ready hw (code := 5) (by rw [hX]; rfl) (by decide) fun _ => rfl
    · refine vcvt_complete ready hw (code := 6) (by rw [hX]; rfl) (by decide) (by decide) fun j => ?_
      simp only [cvtLane]
      split <;> rfl
    · exact vcvt_complete ready hw (code := 7) (by rw [hX]; rfl) (by decide) (by decide) fun _ => rfl
  · intro neg m e hm k at_ x r off
    obtain ⟨nearest, infinite, least, zero⟩ := fpRound_ranges neg hm e
    refine ⟨fun low high => ?_, infinite, least, zero⟩
    obtain ⟨word, finite, near⟩ := nearest low high
    exact ⟨word, finite, fun b _ _ => near b⟩
  · intro neg
    cases neg <;> rfl
  · obtain ⟨minOne, minX, minY⟩ := fvMin_least hx hy
    obtain ⟨maxOne, maxX, maxY⟩ := fvMax_greatest hx hy
    exact ⟨minOne, minX, minY, maxOne, maxX, maxY⟩

end Sys2Proof.Rounding

/-! ## O23: sort, selection, minimum search and cost rows (R156, R157, R197) -/

namespace Sys2Proof.Tracking

open Sys2Proof.Machine Sys2Proof.Laws Sys2Proof.Lanes

/-! ### Sorting lanes by rank, equal ranks in lane order -/

section
variable (f : Nat → Int)

/-- Lane i comes before lane j: its rank is less, or the same and it is the lower lane. -/
def Precedes (i j : Nat) : Prop := f i < f j ∨ (f i = f j ∧ i < j)

/-- A lane below all those in order finds its place before the first whose rank is no less. -/
theorem pairwise_orderedInsert {i : Nat} {l : List Nat} (h : l.Pairwise (Precedes f)) (low : ∀ j ∈ l, i < j) :
    (l.orderedInsert (fun i j => f i ≤ f j) i).Pairwise (Precedes f) := by
  induction l with
  | nil => exact List.pairwise_singleton _ _
  | cons j l ih =>
    obtain ⟨first, rest⟩ := List.pairwise_cons.mp h
    have lower : i < j := low j List.mem_cons_self
    rw [List.orderedInsert_cons]
    split
    next le =>
      have before : Precedes f i j := by
        unfold Precedes
        omega
      refine List.pairwise_cons.mpr ⟨fun k hk => ?_, h⟩
      rcases List.mem_cons.mp hk with rfl | hk
      · exact before
      · have := first k hk
        unfold Precedes at *
        omega
    next gt =>
      refine List.pairwise_cons.mpr ⟨fun k hk => ?_, ih rest fun k hk => low k (List.mem_cons_of_mem j hk)⟩
      rcases (List.mem_orderedInsert _).mp hk with rfl | hk
      · exact .inl (Int.not_le.mp gt)
      · exact first k hk

/-- Insertion from the highest lane down keeps equal ranks in lane order. -/
theorem pairwise_insertionSort {l : List Nat} (h : l.Pairwise (· < ·)) :
    (l.insertionSort fun i j => f i ≤ f j).Pairwise (Precedes f) := by
  induction l with
  | nil => exact List.Pairwise.nil
  | cons i l ih =>
    obtain ⟨low, rest⟩ := List.pairwise_cons.mp h
    exact pairwise_orderedInsert f (ih rest) fun j hj => low j ((List.mem_insertionSort _).mp hj)

end

section
variable (c : Core) (w : Insn)

/-- The key of lane `i`, so turned that it rises in the direction of the sort. -/
def rank (i : Nat) : Int :=
  let k := sortKey w (laneOf (vGet c w.A) i)
  if w.X.getLsbD 2 then -k else k

theorem ordered_iff (i j : Nat) : ordered w (laneOf (vGet c w.A) i) (laneOf (vGet c w.A) j) = true ↔ rank c w i ≤ rank c w j := by
  unfold ordered rank
  cases w.X.getLsbD 2 <;> simp

/-- The order of the ranks is that of the keys in the direction of the sort. -/
theorem order_of_precedes {i j : Nat} (h : Precedes (rank c w) i j) :
    let a := sortKey w (laneOf (vGet c w.A) i)
    let b := sortKey w (laneOf (vGet c w.A) j)
    if a = b then i < j else if w.X.getLsbD 2 then b < a else a < b := by
  intro a b
  by_cases descending : w.X.getLsbD 2 = true
  · simp only [Precedes, rank, descending, if_true] at h ⊢
    split <;> omega
  · simp only [Precedes, rank, if_neg descending] at h ⊢
    split <;> omega

/-- The guarded lanes in the order of their keys. -/
def sortedLanes : List Nat := (guardedLanes c w).insertionSort fun i j => rank c w i ≤ rank c w j

theorem insertKey_keyed (i : Nat) (l : List Nat) :
    insertKey w (laneOf (vGet c w.A) i, i) (keyed c w l) = keyed c w (l.orderedInsert (fun i j => rank c w i ≤ rank c w j) i) := by
  induction l with
  | nil => rfl
  | cons j l ih =>
    rw [List.orderedInsert_cons]
    change (if ordered w (laneOf (vGet c w.A) i) (laneOf (vGet c w.A) j) = true then _ else _) = _
    split
    next le =>
      rw [if_pos ((ordered_iff c w i j).mp le)]
      rfl
    next gt =>
      rw [if_neg (mt (ordered_iff c w i j).mpr gt)]
      exact congrArg (List.cons _) ih

theorem sortKeys_keyed (l : List Nat) :
    sortKeys w (keyed c w l) = keyed c w (l.insertionSort fun i j => rank c w i ≤ rank c w j) := by
  induction l with
  | nil => rfl
  | cons i l ih =>
    rw [List.insertionSort_cons, ← insertKey_keyed, ← ih]
    rfl

theorem guardedLanes_pairwise : (guardedLanes c w).Pairwise (· < ·) := List.pairwise_lt_range.filter _

theorem sortedLanes_perm : (sortedLanes c w).Perm (guardedLanes c w) := List.perm_insertionSort _ _

theorem sortedLanes_pairwise : (sortedLanes c w).Pairwise (Precedes (rank c w)) :=
  pairwise_insertionSort _ (guardedLanes_pairwise c w)

/-- The lanes in the order of VSORT: the guarded ones by their keys, then the others. -/
def allLanes : List Nat := sortedLanes c w ++ (List.range 128).filter fun i => !guarded c w i

theorem allLanes_length : (allLanes c w).length = 128 := by
  have perm : (allLanes c w).Perm (List.range 128) := ((sortedLanes_perm c w).append_right _).trans (List.filter_append_perm _ _)
  rw [perm.length_eq, List.length_range]

end

/-! ### Keys as they are written -/

/-- On integer lanes a written key counts nothing. -/
theorem quiet_writtenKey {w : Insn} (h : isFp w = false) (x : W32) : Quiet (writtenKey w x) := by
  rw [writtenKey, h]
  exact quiet_laneInt x

theorem writtenKey_bits (w : Insn) (x : W32) : (writtenKey w x).bits = if isFp w then fp32Of (fvOf x) else x := by
  unfold writtenKey
  split <;> rfl

/-- The key of the lanes of VTOPK that receive none. -/
theorem writtenKey_topkPad (w : Insn) : (writtenKey w (topkPad w)).bits =
    if isFp w then fp32Of .nan
    else if w.X.getLsbD 1 then (if w.X.getLsbD 2 then 0 else 0xFFFFFFFF)
    else if w.X.getLsbD 2 then 0x80000000 else 0x7FFFFFFF := by
  have nans : fvOf 0xFFFFFFFF = .nan ∧ fvOf 0x7FFFFFFF = .nan := by decide
  rw [writtenKey_bits, topkPad, isUnsigned]
  cases isFp w
  · rfl
  · cases w.X.getLsbD 2
    · exact congrArg fp32Of nans.2
    · exact congrArg fp32Of nans.1

/-- What is written of lane `i`: its key and its index. -/
def pairOf (c : Core) (w : Insn) (i : Nat) : LaneRes × W32 := (writtenKey w (laneOf (vGet c w.A) i), BitVec.ofNat 32 i)

theorem getElem?_map_pairOf (c : Core) (w : Insn) {ls : List Nat} {l : Nat} (h : l < ls.length) :
    (ls.map (pairOf c w))[l]? = some (pairOf c w (ls.getD l 0)) := by
  rw [List.getElem?_map, List.getElem?_eq_getElem h, List.getD_eq_getElem _ _ h]
  rfl

/-- Keys and indices for every lane are written to vD and vD+1. -/
theorem vectorComplete_writePairs {n : Fin 16} {w : Insn} {s : State} {ps : List (LaneRes × W32)} {keys indices : Nat → W32}
    (quiet : isFp w = false → ∀ p ∈ ps, Quiet p.1)
    (hps : ∀ i, i < 128 → ∃ p, ps[i]? = some p ∧ p.1.bits = keys i ∧ p.2 = indices i) :
    VectorComplete n s (retire (writePairs n w ps s) n 8) s.cores[n] (isFp w) fun j i =>
      if j = w.D then keys i else if j = w.D + 1 then indices i else laneOf (vGet s.cores[n] j) i := by
  have shown : Shown n (isFp w) s (countLanes s n (ps.map fun p => p.1)) := shown_countLanes n s fun h r hr => by
    obtain ⟨p, hp, rfl⟩ := List.mem_map.mp hr
    exact quiet h p hp
  let write := fun c : Core => vSet (vSet c w.D (ofLanes fun i => ((ps[i]?).map fun p => p.1.bits).getD 0)) (w.D + 1)
    (ofLanes fun i => ((ps[i]?).map fun p => p.2).getD 0)
  refine vectorComplete_retire shown (f := write) (w := (write s.cores[n]).v) (fun _ => rfl) rfl fun j i hi => ?_
  obtain ⟨p, at_, key, index⟩ := hps i hi
  change laneOf (vGet (write s.cores[n]) j) i = _
  have apart : w.D ≠ w.D + 1 := by simp
  simp only [write, vGet_vSet]
  by_cases hD : j = w.D
  · subst hD
    rw [if_neg apart, if_pos rfl, if_pos rfl, laneOf_ofLanes _ hi, at_]
    exact key
  · rw [if_neg hD]
    split
    · rw [laneOf_ofLanes _ hi, at_]
      exact index
    · rfl

/-! ### VSORT and VTOPK -/

/-- What VTOPK writes: the first `k` guarded lanes in order, then lanes without a key. -/
def topkPairs (c : Core) (w : Insn) (k : Nat) : List (LaneRes × W32) :=
  let ks := ((sortedLanes c w).map (pairOf c w)).take k
  ks ++ List.replicate (128 - ks.length) (writtenKey w (topkPad w), 0xFFFFFFFF)

theorem getElem?_topkPairs (c : Core) (w : Insn) (k : Nat) {l : Nat} (hl : l < 128) : (topkPairs c w k)[l]? =
    some (if l < min k (sortedLanes c w).length then pairOf c w ((sortedLanes c w).getD l 0)
      else (writtenKey w (topkPad w), 0xFFFFFFFF)) := by
  have length : (((sortedLanes c w).map (pairOf c w)).take k).length = min k (sortedLanes c w).length := by
    rw [List.length_take, List.length_map]
  rw [topkPairs]
  split
  next inside =>
    rw [List.getElem?_append_left (by rwa [length]), List.getElem?_take_of_lt (by omega), getElem?_map_pairOf c w (by omega)]
  next beyond =>
    rw [List.getElem?_append_right (by omega), List.getElem?_replicate, if_pos (by omega)]

theorem quiet_map_pairOf {c : Core} {w : Insn} (h : isFp w = false) {ls : List Nat} {p : LaneRes × W32}
    (hp : p ∈ ls.map (pairOf c w)) : Quiet p.1 := by
  obtain ⟨i, -, rfl⟩ := List.mem_map.mp hp
  exact quiet_writtenKey h _

theorem quiet_topkPairs {c : Core} {w : Insn} (h : isFp w = false) {k : Nat} {p : LaneRes × W32} (hp : p ∈ topkPairs c w k) :
    Quiet p.1 := by
  rcases List.mem_append.mp hp with hp | hp
  · exact quiet_map_pairOf h (List.mem_of_mem_take hp)
  · rw [(List.mem_replicate.mp hp).2]
    exact quiet_writtenKey h _

section
variable {n : Fin 16} {w : Insn} {s : State} (ready : Ready s n) (hC : w.C = 0) (hX : w.X.toNat < 8) (hD : w.D.toNat < 31)
include ready hC hX hD

theorem vsort_eq (hB : w.B = 0) : exec (.vsort n w) s = .next 
    (retire (writePairs n w ((allLanes s.cores[n] w).map (pairOf s.cores[n] w)) s) n 8) := by
  have fields : (w.B == 0 && w.C == 0 && typed w 7 && regIn w.D 31) = true := by
    rw [hB, hC, regIn, decide_eq_true hD, show typed w 7 = true from typed_of_lt 3 hX]
    rfl
  refine congrArg Host.Outcome.next ((issueVector_body _ _ _ _ _ _ ready fields).trans ?_)
  dsimp only
  rw [sortKeys_keyed, keyed, keyed, ← List.map_append, List.map_map]
  rfl

theorem vtopk_eq : exec (.vtopk n w) s =
    .next (retire (writePairs n w (topkPairs s.cores[n] w (min (sGet s.cores[n] w.B).toNat 128)) s) n 8) := by
  have fields : (w.C == 0 && typed w 7 && regIn w.D 31) = true := by
    rw [hC, regIn, decide_eq_true hD, show typed w 7 = true from typed_of_lt 3 hX]
    rfl
  refine congrArg Host.Outcome.next ((issueVector_body _ _ _ _ _ _ ready fields).trans ?_)
  dsimp only
  rw [sortKeys_keyed, keyed, ← List.map_take, List.map_map, topkPairs, ← List.map_take]
  rfl

end

/-! ### VMINS -/

/-- The search through a list: a later lane takes the place of the best so far if it is less. -/
def leastLane (less : Nat → Nat → Bool) : List Nat → Option Nat
  | [] => none
  | k :: ks => some (ks.foldl (fun b i => if less i b then i else b) k)

section
variable {less : Nat → Nat → Bool} {i : Nat}

theorem foldl_stays {l : List Nat} (least : ∀ j ∈ l, less j i = false) : l.foldl (fun b i => if less i b then i else b) i = i := by
  induction l with
  | nil => rfl
  | cons j l ih =>
    rw [List.foldl_cons, if_neg (by simp [least j List.mem_cons_self])]
    exact ih fun k hk => least k (List.mem_cons_of_mem j hk)

/-- The search ends at the first of the least. -/
theorem foldl_reaches {b : Nat} {l : List Nat} (rising : l.Pairwise (· < ·)) (mem : i ∈ l) (least : ∀ j ∈ l, less j i = false)
    (first : ∀ j ∈ l, j < i → less i j = true) (start : less i b = true) :
    l.foldl (fun b i => if less i b then i else b) b = i := by
  induction l generalizing b with
  | nil => cases mem
  | cons a l ih =>
    obtain ⟨low, rising⟩ := List.pairwise_cons.mp rising
    have leastRest : ∀ j ∈ l, less j i = false := fun j hj => least j (List.mem_cons_of_mem a hj)
    rw [List.foldl_cons]
    rcases List.mem_cons.mp mem with rfl | mem
    · rw [if_pos start]
      exact foldl_stays leastRest
    · refine ih rising mem leastRest (fun j hj => first j (List.mem_cons_of_mem a hj)) ?_
      split
      · exact first a List.mem_cons_self (low i mem)
      · exact start

theorem leastLane_eq {l : List Nat} (rising : l.Pairwise (· < ·)) (mem : i ∈ l) (least : ∀ j ∈ l, less j i = false)
    (first : ∀ j ∈ l, j < i → less i j = true) : leastLane less l = some i := by
  cases l with
  | nil => cases mem
  | cons a l =>
    obtain ⟨low, rising⟩ := List.pairwise_cons.mp rising
    have leastRest : ∀ j ∈ l, less j i = false := fun j hj => least j (List.mem_cons_of_mem a hj)
    refine congrArg some ?_
    rcases List.mem_cons.mp mem with rfl | mem
    · exact foldl_stays leastRest
    · exact foldl_reaches rising mem leastRest (fun j hj => first j (List.mem_cons_of_mem a hj))
        (first a List.mem_cons_self (low i mem))

end

section
variable (c : Core) (w : Insn)

/-- Lane `i` takes part in the search: it is guarded and not NaN. -/
def Present (i : Nat) : Prop := i < 128 ∧ guarded c w i = true ∧ (isFp w = true → (fvOf (laneOf (vGet c w.A) i)).isNan = false)

/-- The lanes that take part. -/
def presentLanes : List Nat := (guardedLanes c w).filter fun i => !(isFp w && (fvOf (laneOf (vGet c w.A) i)).isNan)

theorem mem_presentLanes (i : Nat) : i ∈ presentLanes c w ↔ Present c w i := by
  unfold presentLanes guardedLanes Present
  rw [List.mem_filter, List.mem_filter, List.mem_range]
  cases isFp w <;> simp [and_assoc]

theorem presentLanes_pairwise : (presentLanes c w).Pairwise (· < ·) := (guardedLanes_pairwise c w).filter _

theorem foldl_keyed (b : Nat) (l : List Nat) :
    (keyed c w l).foldl (fun b x => if minsLess w x.1 b.1 then x else b) (laneOf (vGet c w.A) b, b) =
      let r := l.foldl (fun b i => if minsLess w (laneOf (vGet c w.A) i) (laneOf (vGet c w.A) b) then i else b) b
      (laneOf (vGet c w.A) r, r) := by
  induction l generalizing b with
  | nil => rfl
  | cons a l ih =>
    simp only [keyed, List.map_cons, List.foldl_cons]
    split
    · exact ih a
    · exact ih b

theorem minsOf_eq : minsOf c w =
    (leastLane (fun i j => minsLess w (laneOf (vGet c w.A) i) (laneOf (vGet c w.A) j)) (presentLanes c w)).map
      fun i => (laneOf (vGet c w.A) i, i) := by
  have lanes : (keyed c w (guardedLanes c w)).filter (fun k => !(isFp w && (fvOf k.1).isNan)) = keyed c w (presentLanes c w) :=
    List.filter_map
  unfold minsOf
  rw [lanes]
  cases presentLanes c w with
  | nil => rfl
  | cons k ks => exact congrArg some (foldl_keyed c w k ks)

/-- The order of the search (R197). -/
theorem minsLess_iff (x y : W32) : minsLess w x y = true ↔
    if isFp w then fpLt (fvOf x) (fvOf y) = true else if w.X.getLsbD 1 then x.toNat < y.toNat else x.toInt < y.toInt := by
  unfold minsLess isUnsigned
  cases isFp w
  · cases w.X.getLsbD 1
    · exact decide_eq_true_iff
    · exact decide_eq_true_iff
  · rfl

theorem quiet_minsResult (h : isFp w = false) : Quiet (minsResult c w).2 := by
  unfold minsResult
  cases minsOf c w with
  | none =>
    simp only [h, Bool.false_eq_true, if_false]
    split <;> exact quiet_laneInt _
  | some k => exact ⟨by simp [minsInf, h], (quiet_writtenKey h k.1).2⟩

/-- The first of the least lanes is found. -/
theorem minsResult_of_least {i : Nat} (mem : Present c w i)
    (least : ∀ j, Present c w j → minsLess w (laneOf (vGet c w.A) j) (laneOf (vGet c w.A) i) = false)
    (first : ∀ j, Present c w j → j < i → minsLess w (laneOf (vGet c w.A) i) (laneOf (vGet c w.A) j) = true) :
    (minsResult c w).1 = i ∧ (minsResult c w).2.bits = (writtenKey w (laneOf (vGet c w.A) i)).bits := by
  have found : minsOf c w = some (laneOf (vGet c w.A) i, i) := by
    rw [minsOf_eq, leastLane_eq (presentLanes_pairwise c w) ((mem_presentLanes c w i).mpr mem)
      (fun j hj => least j ((mem_presentLanes c w j).mp hj)) fun j hj => first j ((mem_presentLanes c w j).mp hj)]
    rfl
  rw [minsResult, found]
  exact ⟨rfl, rfl⟩

/-- Where no lane takes part the result says so. -/
theorem minsResult_of_none (empty : ∀ i, ¬ Present c w i) : (minsResult c w).1 = 0xFFFFFFFF ∧
    (minsResult c w).2.bits = if isFp w then 0x7F800000 else if w.X.getLsbD 1 then 0xFFFFFFFF else 0x7FFFFFFF := by
  have none_ : presentLanes c w = [] := List.eq_nil_iff_forall_not_mem.mpr fun i hi => empty i ((mem_presentLanes c w i).mp hi)
  rw [minsResult, minsOf_eq, none_]
  refine ⟨rfl, ?_⟩
  change (if isFp w then (⟨0x7F800000, true, false⟩ : LaneRes)
    else if w.X.getLsbD 1 then laneInt 0xFFFFFFFF else laneInt 0x7FFFFFFF).bits = _
  rw [apply_ite LaneRes.bits, apply_ite LaneRes.bits]
  rfl

end

theorem vmins_complete {n : Fin 16} {w : Insn} {s : State} (ready : Ready s n) (hB : w.B = 0) (hC : w.C = 0) (hX : w.X.toNat < 4)
    {index : Nat} {bits : W32} (result : (minsResult s.cores[n] w).1 = index ∧ (minsResult s.cores[n] w).2.bits = bits) :
    ∃ t, exec (.vmins n w) s = .next t ∧
      VectorComplete n s t (sSet s.cores[n] w.D (BitVec.ofNat 64 (index * 2 ^ 32 + bits.toNat))) (isFp w)
        fun j i => laneOf (vGet s.cores[n] j) i := by
  obtain ⟨rfl, rfl⟩ := result
  have fields : (w.B == 0 && w.C == 0 && typed w 3) = true := by
    rw [hB, hC, show typed w 3 = true from typed_of_lt 2 hX]
    rfl
  refine ⟨_, congrArg Host.Outcome.next (issueVector_body _ _ _ _ _ _ ready fields), ?_⟩
  have shown : Shown n (isFp w) s (countLanes s n [(minsResult s.cores[n] w).2]) := shown_countLanes n s fun h x hx => by
    rw [List.mem_singleton.mp hx]
    exact quiet_minsResult _ w h
  exact vectorComplete_retire shown (w := s.cores[n].v) (fun b => sSet_satLogged _ _ _ b) (sSet_pc _ _ _) fun _ _ _ => rfl

/-! ### VCOST -/

theorem detBox_eq (y : W64) : detBox y =
    ⟨y.toNat / 2 ^ (16 * 0) % 65536, y.toNat / 2 ^ (16 * 1) % 65536, y.toNat / 2 ^ (16 * 2) % 65536,
      y.toNat / 2 ^ (16 * 3) % 65536⟩ := by
  simp [detBox, bitsOf]

/-- The cost of a row: one minus the intersection over the union, or the distance of the doubled centres (R197). -/
theorem lanesDo_vcost {n : Fin 16} {w : Insn} {s : State} (ready : Ready s n) (hC : w.C = 0) (hA : w.A.toNat < 29)
    (hX : w.X.toNat < 2) : LanesDo (.vcost n w) n w s false fun i =>
      BitVec.ofNat 32 (boxCost (w.X.getLsbD 0) (trackBox s.cores[n] w i) (detBox (sGet s.cores[n] w.B))) := by
  have fields : (w.C == 0 && typed w 1 && regIn w.A 29) = true := by
    rw [hC, regIn, decide_eq_true hA, show typed w 1 = true from typed_of_lt 1 hX]
    rfl
  exact lanesDo_laneOp rfl ready fields (fun _ _ => quiet_laneInt _) fun _ => rfl

/-! ### The obligation -/

/-- Settles O23: the model's sort is an insertion sort of the guarded lanes by rank, its search the first of the least. -/
theorem trackingResults : Obligations.TrackingResults := by
  unfold Obligations.TrackingResults
  intro n w s ready hC hX c x fp written before sorted gives finds less present
  have order : sorted (sortedLanes c w) := ⟨sortedLanes_perm c w, (sortedLanes_pairwise c w).imp (order_of_precedes c w)⟩
  refine ⟨fun hB hD => ⟨sortedLanes c w, order, ?_⟩, fun hD => ⟨sortedLanes c w, order, ?_⟩,
    fun hB hX => ⟨fun i hi least first => ?_, fun empty => ?_⟩, fun hA hX => ?_⟩
  · refine ⟨_, vsort_eq ready hC hX hD hB, vectorComplete_writePairs (fun h p hp => quiet_map_pairOf h hp) fun l hl => ?_⟩
    exact ⟨_, getElem?_map_pairOf c w (by rwa [allLanes_length]), writtenKey_bits w _, rfl⟩
  · refine ⟨_, vtopk_eq ready hC hX hD, vectorComplete_writePairs (fun h p hp => quiet_topkPairs h hp) fun l hl => ?_⟩
    refine ⟨_, getElem?_topkPairs c w _ hl, ?_, ?_⟩
    · split
      · exact writtenKey_bits w _
      · exact writtenKey_topkPad w
    · split <;> rfl
  · obtain ⟨index, bits⟩ := minsResult_of_least c w hi
      (fun j hj => Bool.eq_false_of_not_eq_true (mt (minsLess_iff w _ _).mp (least j hj)))
      fun j hj lower => (minsLess_iff w _ _).mpr (first j hj lower)
    exact vmins_complete ready hB hC hX ⟨index, bits.trans (writtenKey_bits w _)⟩
  · exact vmins_complete ready hB hC hX (minsResult_of_none c w empty)
  · have completes := lanesDo_vcost ready hC hA hX
    rw [detBox_eq] at completes
    exact completes

end Sys2Proof.Tracking
